-- ==== Sys2Proof/Word.lean ====
section
/-! DEFINITION. The words the model is made of: natural numbers read as unsigned fields, and the unit of record storage. -/

namespace Sys2Proof

/-- One record unit of 16 bytes (R13), as an unsigned 128-bit number; byte 0 is bits 7:0 (R8). -/
abbrev Unit16 := Nat

/-- A record as it is stored: its units of 16 bytes, the one that begins with the common header first (R13). -/
abbrev Rec := List Unit16

/-- A global identifier: KIND in bits 31:24 and NUMBER in bits 23:0 (R11). -/
abbrev Gid := Nat

end Sys2Proof
end

