-- ==== Sys2Proof/Syntax.lean ====
section
/-! DEFINITION. The commands the block takes: one constructor of `Instr` per row of spec/opcode_table.json, and the operand types. -/

namespace Sys2Proof

/-- The two parts of Priox (R1): the Helad in a die, the Icdon IX40. -/
inductive Side where
  | hel | icd
deriving DecidableEq, Repr

/-- The four roles of R506. -/
inductive Role where
  | op | mt | au | tp
deriving DecidableEq, Repr

/-- Where a request comes from (R506): PF BAR0, the BAR0 of a VF, a management core, a management session,
a host ring (PF ring `r`, or the ring of VF `v` as 1024 + v), a device session. -/
inductive Asker where
  | pf
  | vf (n : Nat)
  | core (n : Nat)
  | session (n : Nat)
  | ring (r : Nat)
  | device (gid : Nat)
deriving DecidableEq, Repr

/-- A request's rights and its way back: role, partition of a tenant, requester, and the tag its answer carries. -/
structure Req where
  role : Role
  part : Nat
  who  : Asker
  tag  : Nat
deriving DecidableEq, Repr

/-- A link of the Icdon IX40: die-facing slot 0–63, downward fabric link 0–63, fabric port 0–15 of an uplink, the crosslink;
at a Helad: downstream channel 0 or 1. -/
inductive Link where
  | slot (n : Nat)
  | down (n : Nat)
  | port (n : Nat)
  | xlink
  | chan (n : Nat)
deriving DecidableEq, Repr
/-- A timed action as forwarded (R61, R64): handle, ACTION code of R541, instant, up to three parameters, and for an object write its key and value. -/
structure ActionIn where
  handle : Nat
  kind   : Nat
  at_    : Nat
  a      : Nat
  b      : Nat
  c      : Nat
  key    : Nat
  val    : Nat
deriving DecidableEq, Repr
/-- A RingControl block as the Icdon IX40 reads it (R188). -/
structure RingCtl where
  ring   : Nat
  base   : Nat
  log2e  : Nat
  prod   : Nat
  cbase  : Nat
  log2c  : Nat
  ccons  : Nat
  enable : Bool
  block  : Nat
deriving DecidableEq, Repr
/-- A cask's opening or final bounds as the lead sends them (R212): identifier, rule, kind, reference, trigger stamp, scope, pre- and post-window, dropped bytes, the bounds per slot × 16 + stream type, and with the last bounds the lead's drop entries. -/
structure CaskIn where
  id    : Nat
  rule  : Nat
  kind  : Nat
  ref   : Nat
  trig  : Nat
  scope : Nat
  pre   : Nat
  post  : Nat
  dropped : Nat
  bounds : List (Nat × Nat)
  drops : List Nat := []
deriving DecidableEq, Repr
/-- The retained state that a joining twin receives (R414): series entries by address in the map of R230; supplement contributions; bytes of tile memories and of Steep context areas: Mash region × 64 + tile, or 1,024 + Steep core, then address and byte; bounds of open casks: identifier, slot × 16 + stream type, SEQUENCE; partitions: identifier, state, EFFECTIVE_EPOCH, home and member-set entries; SEQUENCE counters by record TYPE; open steps' records; the last closed step numbers and histories per partition. -/
structure Retained where
  series  : List (Nat × Nat)
  supp    : List (Nat × Rec)
  memory  : List (Nat × Nat × Nat)
  bounds  : List (Nat × Nat × Nat)
  parts   : List (Nat × Nat × Nat × Nat × Rec)
  seqs    : List (Nat × Nat)
  steps   : List Rec
  closed  : List (Nat × List Nat)
  hists   : List (Nat × Nat × Nat)
  /-- SEQUENCE of the downstream CONTROL and BULK flit streams, keyed slot × 16 + stream type (R160). -/
  flits   : List (Nat × Nat)
  /-- Pending rebaselines of series entries, by address, and the shards known of a partition's dies, by die × 2^32 + step (R233, R245). -/
  rebase  : List (Nat × Nat)
  shards  : List (Nat × Nat × Nat)
  /-- More of the partition table (R418, R481): identifier, table slot, TEST (0 or 1), teardown epoch, FT at which QUARANTINE began; operations that wait for their epoch: identifier, epoch, OP, member-set entries; identifier and a holder that has reported it sealed. -/
  partSlots : List (Nat × Nat × Nat × Nat × Nat)
  partOps   : List (Nat × Nat × Nat × Rec)
  partSealed : List (Nat × Nat)
deriving DecidableEq, Repr
/-- What the root of trust finds at a start (R524, R525): which provisioning record copies verify, the serial number and PROV_VERSION of copy A and of copy B, for images A and B the FW_VERSION and digest when the signature passes, a stack that fails training, the CXL ports with an expander, those that train at reduced rate or width (R183), their capacities, and the MRAM pages that fail their CRC (R195, R457). -/
structure PowerUp where
  provA   : Bool
  provB   : Bool
  serial  : Nat
  provVer : Nat
  serialB  : Nat
  provVerB : Nat
  imgA    : Option (Nat × Nat)
  imgB    : Option (Nat × Nat)
  badStack : Option Nat
  cxl     : Nat
  cxlSlow : Nat
  cxlCap  : List Nat
  badPages : List Nat
deriving DecidableEq, Repr
/-- What a write may find outside the dictionary: a power-up's findings for resets, whether a signature verifies and the image that it signs, the credential that asks, the records of a fining job already done, and whether the MRAM write fails (R457, R505, R525, R531). -/
structure WriteEnv where
  pu      : PowerUp
  sigOk   : Bool
  image   : List Nat
  cred    : Nat
  records : Nat
  mramFail : Bool
deriving DecidableEq, Repr
/-- An item of R517: object key (index × 256 + sub-index), TYPE, SIZE in bytes, value. -/
structure Item where
  key  : Nat
  ty   : Nat
  size : Nat
  val  : Nat
deriving DecidableEq, Repr
/-- The header of a MOP request (R516): session, VERSION, ALL_BELOW, TIMED with its FT, ATOMIC, reserved bits, TAG, TARGET_GID. -/
structure MopHdr where
  sess   : Nat
  ver    : Nat
  below  : Bool
  timed  : Option Nat
  atomic : Bool
  rsv    : Nat
  tag    : Nat
  gid    : Nat
deriving DecidableEq, Repr
/-- A descriptor that a MOP DESCRIPTOR request carries, with its argument (R190, R521); `raw`: a descriptor that is no action, or whose argument cannot be read. -/
inductive DescIn where
  | raw (d : Rec)
  | objectRead (gid : Nat) (items : List Item)
  | objectWrite (gid : Nat) (items : List Item) (timed : Option Nat) (env : WriteEnv)
  | actionCancel (handle : Nat)
  | utSample (utc ft : Nat)
  | caskSeal (timed : Bool) (at_ : Nat)
  | finingJob (arg : Rec)
  | modelSwitch (b c at_ : Nat)
  | mashSwitch (r i at_ : Nat)
  | steepSwitch (g i at_ : Nat)
  | patternStage (image : List Nat) (sigOk : Bool)
  | replicaDefine (g : Nat) (members : List (Nat × Nat × Nat × Nat))
  | cut (at_ arg scope : Nat)
  | cutRelease (timed : Bool) (at_ n : Nat)
  | partitionCreate (part : Nat) (test : Bool) (set : Rec)
  | partitionAdd (part : Nat) (set : Rec)
  | partitionRemove (part : Nat) (set : Rec)
  | partitionTeardown (part : Nat)
  | dieRemove (gid : Nat)
  | broadcast (image : List Nat) (sigOk : Bool)
deriving DecidableEq, Repr

/-- One RecoveryData write and the Ethernet port (0 or 1) it came on (R526, R527). -/
structure RecoveryChunk where
  port : Nat
  data : List Nat
deriving DecidableEq, Repr

/-- A RecoveryCommit write: its kind and the Ethernet port (0 or 1) it came on (R526, R527). -/
structure RecoveryEnd where
  port : Nat
  kind : Nat
deriving DecidableEq, Repr

/-- What a shadow has from the lead by the close of an epoch: the records it fetched, each with the `(slot, stream type, SEQUENCE)` it stands at, and the flits lost at both twins (R25, R26). -/
structure Fetched where
  recs : List (Nat × Nat × Nat × Rec) := []
  lost : List (Nat × Nat × Nat) := []
deriving DecidableEq, Repr

/-- The set with which the lead closed a step (R241): the cause, the records as die × 2^32 + SEQUENCE, and those of them that the shadow fetched. -/
structure StepSet where
  cause : Nat
  set_ : List Nat
  fetched : List Rec := []
deriving DecidableEq, Repr

/-- The lead's set at the close of a supplement (R270) and what the shadow fetched of it: at a Tray the set is die × 2^32 + SEQ, above (port × 65536 + partition) × 2 + SUPPLEMENT. -/
structure LateSet where
  set_ : List Nat
  fetched : List (Nat × Nat × Nat × Rec) := []
deriving DecidableEq, Repr

/-- The end of an instance's head job: the instance, and the addresses at which the job met poisoned lines (R223). -/
structure FiningEnd where
  inst : Nat
  bad : List Nat := []
deriving DecidableEq, Repr

/-- A sweep of a replica group and, at the shadow, the member records the twins agreed on (R364). -/
structure SweepEnd where
  num : Nat
  agreed : Option (List Nat) := none
deriving DecidableEq, Repr

/-- A cut's number and, at the shadow, the RX_SEQ set that the lead sent over the crosslink, keyed link × 16 + stream type (R393). -/
structure CutEnd where
  num : Nat
  lead : Option (List (Nat × Nat)) := none
deriving DecidableEq, Repr

/-- The commands of the block, one per row of the opcode table. -/
inductive Instr where
  /-- POWER_ON: The 44 V input rises through turn-on (R524). -/
  | powerOn (pu : PowerUp)
  /-- INPUT_LOW: The input stays below 40 V for 100 µs (R198); volts in 10 mV. -/
  | inputLow (volt : Nat)
  /-- INPUT_RESTORED: The input returns above 40 V (R198). -/
  | inputRestored (volt : Nat)
  /-- INPUT_TURN_OFF: The input falls below turn-off (R525). -/
  | inputTurnOff
  /-- COLD_RESET: A ColdReset write, or the exit from a critical-temperature stop (R529). -/
  | coldReset (q : Req) (gid : Nat) (crit : Bool) (pu : PowerUp)
  /-- WARM_RESET: A WarmReset write (R529). -/
  | warmReset (q : Req) (gid : Nat) (pu : PowerUp)
  /-- WATCHDOG_EXPIRY: Watchdogs of management cores expire, one bit per core (R467, R529). -/
  | watchdogExpiry (cores : Nat) (pu : PowerUp)
  /-- DOMAIN_RESET: A DomainReset write (R530). -/
  | domainReset (q : Req) (v : Nat)
  /-- DOMAIN_IDLE_OFF: An on-demand domain without work for 1 ms (R200). -/
  | domainIdleOff (d : Nat)
  /-- INIT_DONE: Firmware writes InitDone (R452). -/
  | initDone (q : Req) (v : Nat)
  /-- FILL_SUBMIT: A FillSubmit write (R453). -/
  | fillSubmit (q : Req) (v : Nat)
  /-- FILL_DONE: A fill ends (R453). -/
  | fillDone
  /-- RECOVERY_DATA: A RecoveryData write (R527). -/
  | recoveryData (data : RecoveryChunk)
  /-- RECOVERY_COMMIT: A RecoveryCommit write (R527). -/
  | recoveryCommit (kind : RecoveryEnd) (sigOk flashOk : Bool) (pu : PowerUp)
  /-- HAO_RESET: HAO_RST_N asserts (R76). -/
  | haoReset
  /-- HAO_RESET_RELEASE: HAO_RST_N is released (R528). -/
  | haoResetRelease
  /-- HMAIN_RESET: HMAIN_RST_N asserts (R76). -/
  | hmainReset
  /-- HMAIN_RESET_RELEASE: HMAIN_RST_N is released (R76). -/
  | hmainResetRelease
  /-- AO_CLK_ABSENT: AO_CLK absent for more than 1 µs (R69). -/
  | aoClkAbsent
  /-- AO_CLK_RETURN: AO_CLK returns after an absence in µs (R69). -/
  | aoClkReturn (absentUs : Nat)
  /-- DOMAIN_WAKE_REQUEST: A wake request for a Helad domain; the level of TAP_GRP_ACTIVE (R74). -/
  | domainWakeRequest (d groups : Nat)
  /-- DOMAIN_READY: A waking Helad domain is ready (R74). -/
  | domainReady (d : Nat)
  /-- DOMAIN_SLEEP: A Helad domain idle for 10 µs sleeps; the level of TAP_GRP_ACTIVE (R75). -/
  | domainSleep (d groups : Nat)
  /-- SYNC_TAG_SEND: A master sends a SyncTag on a wavelength of a link, 0 on a die-facing channel (R41, R162, R180). -/
  | syncTagSend (l : Link) (wave : Nat)
  /-- SYNC_TAG: A node receives a SyncTag (R41, R162). -/
  | syncTag (u : Side) (l : Link) (wave : Nat) (r : Rec)
  /-- DELAY_REQ: A master receives a DelayReq (R162). -/
  | delayReq (l : Link) (wave : Nat) (r : Rec)
  /-- SERVO_UPDATE: The servo update of every 1 ms (R41, R44). -/
  | servoUpdate (u : Side)
  /-- HOLDOVER_TIMEOUT: No valid SyncTag for HoldoverTimeout (R44). -/
  | holdoverTimeout (u : Side)
  /-- ROOT_FT_START: The root's 10 ms collection window ends; FtNow of each child that answered, in FT units (R40). -/
  | rootFtStart (collected : List Nat)
  /-- ROOT_FT_PERSIST: The root persists FT (R40). -/
  | rootFtPersist
  /-- OH_SECOND_TICK: The operating-hours counter advances (R60). -/
  | ohSecondTick (u : Side)
  /-- DOZE_SYNC_WAKE: A dozing Helad wakes for sync (R50). -/
  | dozeSyncWake
  /-- RT_PULSE: An RT_PULSE rising edge (R54). -/
  | rtPulse
  /-- RT_TOD_SAMPLE: The RT_TOD sample 100 ns after a pulse (R94). -/
  | rtTodSample (tod : Nat)
  /-- RT_PULSE_TIMEOUT: No pulse within 10 ms + 1 µs (R55). -/
  | rtPulseTimeout
  /-- RT_HOLDOVER_LIMIT: RT_HOLDOVER beyond RtHoldoverLimit (R55). -/
  | rtHoldoverLimit
  /-- GUARD_DRAIN_START: FT reaches a window start minus ReadDrain (R57). -/
  | guardDrainStart
  /-- GUARD_REGION_END: An interval of the guard region ends (R31). -/
  | guardRegionEnd
  /-- UT_SAMPLE: A UTC and FT sample pair (R59). -/
  | utSample (q : Req) (utc : Nat) (ft : Nat)
  /-- TIMED_ACTION_RECEIVE: A unit receives a forwarded timed action (R61, R64). -/
  | timedActionReceive (u : Side) (a : ActionIn)
  /-- ACTION_CANCEL: A cancel at the issuing Icdon IX40 (R63, R64). -/
  | actionCancel (q : Req) (handle : Nat)
  /-- CANCEL_RECEIVE: A holder receives a forwarded cancel (R64). -/
  | cancelReceive (u : Side) (handle : Nat)
  /-- TIMED_OBJECT_WRITE: A timed object write launches (R63). -/
  | timedObjectWrite (u : Side)
  /-- PULSE_ARM: A PulseControl write (R65, R66). -/
  | pulseArm (q : Req) (u : Side) (n : Nat) (v : Nat)
  /-- PULSE_START: An armed generator reaches StartFt (R65). -/
  | pulseStart (u : Side) (n : Nat)
  /-- PULSE_EDGE: A periodic generator's next leading edge (R66). -/
  | pulseEdge (u : Side) (n : Nat)
  /-- CAPTURE_EDGE: A capture input's edge (R67). -/
  | captureEdge (u : Side) (n : Nat) (rising : Bool)
  /-- EPOCH_BOUNDARY: An epoch boundary is reached (R250). -/
  | epochBoundary
  /-- EPOCH_ANCHOR_SEND: An anchor is due on a link (R251). -/
  | epochAnchorSend (l : Link)
  /-- EPOCH_ANCHOR: An EpochAnchorRecord arrives (R251). -/
  | epochAnchor (r : Rec)
  /-- EPOCH_CLOSE: The close instant of epoch n; at the shadow the lead's set (at a Tray: slot × 16 + stream type with the last SEQUENCE, and the contributor dies; above: port × 65536 + partition) and the records fetched from the lead (R26, R264). -/
  | epochClose (n : Nat) (agreed : Option (List (Nat × Nat) × List Nat)) (fetched : Fetched)
  /-- CONTRIBUTION_RECEIVE: A ContributionRecord or ContributorSetRecord of a child (R264). -/
  | contributionReceive (port : Nat) (r : Rec)
  /-- RESULT_POST: The home has merged epoch n (R267). -/
  | resultPost (n : Nat)
  /-- SUPPLEMENT_CLOSE: The supplement of epoch n closes; at the shadow the lead's set (R270, R26). -/
  | supplementClose (n : Nat) (agreed : Option LateSet)
  /-- EPOCH_LENGTH_WRITE: An EpochLength write (R253). -/
  | epochLengthWrite (q : Req) (v : Nat)
  /-- REDUCTION_COMMIT: A ReductionCommit write of 1 (R256). -/
  | reductionCommit (q : Req)
  /-- TWIN_DIGEST_SEND: The compare instant of epoch n, 0 MAIN or 1 SUPPLEMENT (R408). -/
  | twinDigestSend (n kind : Nat)
  /-- TWIN_DIGEST_COMPARE: The twin's TwinDigestRecord arrives (R409). -/
  | twinDigestCompare (r : Rec)
  /-- TWIN_DIGEST_ABSENT: 100 µs after the compare instant (R409). -/
  | twinDigestAbsent (n kind : Nat)
  /-- REPAIR_REQUEST: The twin asks for flits of a link and stream type (R25). -/
  | repairRequest (l : Link) (st : Nat) (seqs : List Nat)
  /-- REPAIR_ANSWER: The twin's answer: the flits it holds (R25). -/
  | repairAnswer (l : Link) (st : Nat) (flits : List (List Nat))
  /-- REPAIR_HOLD_EXPIRY: 20 µs after a repair request (R25). -/
  | repairHoldExpiry (l : Link) (st : Nat)
  /-- TAP_INCREMENT: A tap at a port: increment, stream tag, event bits; a counter whose read is uncorrectable (R77, R102, R449). -/
  | tapIncrement (port inc tag evt : Nat) (bad : Option Nat)
  /-- CONDITION_HOLD_EXPIRY: Every reading of a conditional fence has failed for ConditionHold (R377). -/
  | conditionHoldExpiry (u : Nat)
  /-- COMMAND_START: A start boundary transfers (R80, R108). -/
  | commandStart (stream cmdid part : Nat)
  /-- COMMAND_END: An end boundary transfers; whether its latch-store slot reads uncorrectable (R80, R111, R449). -/
  | commandEnd (stream cmdid part : Nat) (bad : Bool)
  /-- COUNTER_CONFIG_WRITE: A CounterConfig write (R101, R103, R104). -/
  | counterConfigWrite (q : Req) (n v : Nat)
  /-- COUNTER_CLEAR: A CounterClear write: sub k (R104). -/
  | counterClear (q : Req) (k mask : Nat)
  /-- SET_COMMIT: A SetCommit write (R106). -/
  | setCommit (q : Req) (mask : Nat)
  /-- COUNTER_SAMPLE: FT reaches a multiple of SampleInterval (R114). -/
  | counterSample
  /-- PARTITION_POWER_TICK: An FT-aligned 100 ms at a Tray (R119, R483). -/
  | partitionPowerTick
  /-- CONFIG_COPY_READBACK: The Tray reads a Helad's RW objects back: key and value pairs, and the active lists: set, version, members (R548). -/
  | configCopyReadback (slot : Nat) (objs : List (Nat × Nat)) (sets : List (Nat × Nat × List Nat))
  /-- TRACE_PACKET: A source packet's first beat; a packet of more than 32 beats or with misplaced TF_BYTES has the cause of R133. -/
  | tracePacket (src : Nat) (data : List Nat) (bad : Nat)
  /-- TRACE_CADENCE_BOUNDARY: FT reaches a cadence boundary (R129). -/
  | traceCadenceBoundary
  /-- TRACE_CADENCE_WRITE: A TraceCadence write (R131). -/
  | traceCadenceWrite (q : Req) (v : Nat)
  /-- TRACE_BLOCK_FLUSH: FlushLatency has passed since a block's first entry (R125). -/
  | traceBlockFlush (src : Nat)
  /-- TF_DOZE_RISE: TF_DOZE sampled high; the bytes of a packet in transfer, none if there is none (R138). -/
  | tfDozeRise (src : Nat) (cut : List Nat)
  /-- TF_DOZE_FALL: TF_DOZE falls (R139). -/
  | tfDozeFall (src : Nat)
  /-- SEQ_ENABLE: A SeqControl write (R136). -/
  | seqEnable (q : Req) (v : Nat)
  /-- SEQ_COUNTER_TARGET: The cycle after a sequencer counter reaches its target (R135). -/
  | seqCounterTarget
  /-- COMP_FT_INSTANT: FT reaches a KIND 5 comparator's value (R134). -/
  | compFtInstant (k : Nat)
  /-- TRIGGER_CODE: A downstream trigger command (R134). -/
  | triggerCode (code : Nat)
  /-- READ_REQUEST_ISSUE: Helad issues the next host read request (R85, R370). -/
  | readRequestIssue
  /-- READ_RESPONSE: A read response beat (R83, R84). -/
  | readResponse (tag : Nat) (data : List Nat) (last : Bool) (err : Nat)
  /-- READ_TIMEOUT: No RP_RSP_LAST within ReadTimeout (R84). -/
  | readTimeout (tag : Nat)
  /-- FENCE_REQUEST: Helad wants a fence (R87, R379). -/
  | fenceRequest (u : Nat)
  /-- FENCE_ACK_RISE: FENCE_ACK rises (R87). -/
  | fenceAckRise (u : Nat)
  /-- FENCE_RELEASE: Helad no longer wants an acknowledged fence (R87). -/
  | fenceRelease (u : Nat)
  /-- FENCE_ACK_FALL: FENCE_ACK falls (R87). -/
  | fenceAckFall (u : Nat)
  /-- FENCE_ACK_TIMEOUT: FENCE_ACK does not follow within FenceAckLimit (R87). -/
  | fenceAckTimeout (u : Nat)
  /-- FENCE_MAP_LOAD: The Tray loads the fence map into the Helad (R88). -/
  | fenceMapLoad
  /-- FENCE_ENTRY_WRITE: A FenceEntry write (R376). -/
  | fenceEntryWrite (q : Req) (u v : Nat)
  /-- HALT_ACK_RISE: A halted group acknowledges (R396). -/
  | haltAckRise (g : Nat)
  /-- HALT_ACK_TIMEOUT: HALT_ACK does not follow within HaltAckLimit (R90). -/
  | haltAckTimeout (g : Nat)
  /-- RADIO_GROUP_RISE: RADIO_GROUP rises (R90). -/
  | radioGroupRise (g : Nat)
  /-- PITCH_RUN_START: A pitch run instant of a unit arrives (R358). -/
  | pitchRunStart (u : Nat)
  /-- PITCH_RESPONSE: A pitch response (R359). -/
  | pitchResponse (tag status cmdid : Nat)
  /-- PITCH_TIMEOUT: No pitch response within PITCH_MAXDUR + 1 ms (R89). -/
  | pitchTimeout (u : Nat)
  /-- PITCH_OUTPUT_CHECKED: A pitch output's digest is compared (R359). -/
  | pitchOutputChecked (u : Nat)
  /-- SNAPSHOT_SHIFT_RESUME: The snapshot buffer has room; chain bytes shifted meanwhile (R388). -/
  | snapshotShiftResume (data : List (Nat × List Nat))
  /-- SNAPSHOT_SHIFT_COMPLETE: The last chain has shifted; chains aborted by a host reset (R388, R403). -/
  | snapshotShiftComplete (data : List (Nat × List Nat)) (reset : Nat)
  /-- HV_FTNOW_LATCH: A window read at offset 0x010 (R522). -/
  | hvFtnowLatch
  /-- HV_HOURS_LATCH: A window read at offset 0x080 (R522). -/
  | hvHoursLatch
  /-- OE_FAULT: OE_INT_N asserts (R100, R176). -/
  | oeFault
  /-- FLIT_TRANSMIT: Helad sends its next flit; whether the read of its outbound queue is uncorrectable (R155, R449). -/
  | flitTransmit (bad : Bool)
  /-- FLIT_SCHEDULE: A fabric port chooses the record for its next flit and sends the flit on a wavelength (R430). -/
  | flitSchedule (port wave : Nat)
  /-- FLIT_RECEIVE: A receiver decodes a flit, as 16 units of 16 bytes; whether it overlaps an uncorrectable codeword, the symbols corrected in the codewords that ended with it, and whether the twin finds the slot MISWIRED too (R154, R159). -/
  | flitReceive (l : Link) (flit : List Nat) (bad : Bool) (corrected : Nat) (both : Bool)
  /-- DOWNSTREAM_CHANNEL_LOST: A downstream channel is lost at the Helad (R161). -/
  | downstreamChannelLost (ch : Nat)
  /-- FABRIC_SKEW_HOLD_EXPIRY: A held flit reaches the 2 µs skew allowance (R180). -/
  | fabricSkewHoldExpiry (l : Link) (st : Nat)
  /-- RECORD_INGEST: Grist ingress takes the oldest whole record of a link and stream type (R204, R205). -/
  | recordIngest (l : Link) (st : Nat)
  /-- LIGHT_DETECT: Light on a DARK slot (R165). -/
  | lightDetect (slot : Nat)
  /-- LOSS_OF_LIGHT: No light on a slot for 500 ns; whether the twin has declared the same within 2 µs, and the flits, as stream type and SEQUENCE, that it holds (R159, R165, R171). -/
  | lossOfLight (slot : Nat) (both : Bool) (held : List (Nat × Nat))
  /-- FEC_FAIL_COUNT: Further consecutive uncorrectable codewords on a slot; whether the twin has declared the same within 2 µs, and the flits that it holds (R159, R165, R171). -/
  | fecFailCount (slot n : Nat) (both : Bool) (held : List (Nat × Nat))
  /-- SLOT_ASSIGN: Helad receives a SlotAssignRecord on a channel (R166, R545). -/
  | slotAssign (ch : Nat) (r : Rec)
  /-- TRAIN_DONE: Helad receives a TrainDoneRecord on a channel (R166, R545). -/
  | trainDone (ch : Nat) (r : Rec)
  /-- TRAIN_DONE_WAIT_EXPIRY: 2 ms since lighting (R166). -/
  | trainDoneWaitExpiry
  /-- LANE_DOZE: LANE is about to sleep (R168). -/
  | laneDoze
  /-- LANE_KEEPALIVE: LaneKeepalive passes in doze (R168). -/
  | laneKeepalive
  /-- DOZE_SILENT_TIMEOUT: A DOZE slot without light for LaneKeepalive + 10 ms; whether the twin has declared the same, and the flits that it holds (R159, R165). -/
  | dozeSilentTimeout (slot : Nat) (both : Bool) (held : List (Nat × Nat))
  /-- SLOT_RESET: A SlotReset write (R165). -/
  | slotReset (q : Req) (slot : Nat)
  /-- RETUNE_COMMAND: Helad receives a RetuneCommand on a channel (R171). -/
  | retuneCommand (ch : Nat) (r : Rec)
  /-- RETUNE_SETTLE_EXPIRY: RetuneSettle passes (R171). -/
  | retuneSettleExpiry
  /-- RETUNE_ACQUIRE_TIMEOUT: 20 µs after the burst without acquisition; whether at both twins (R159, R173). -/
  | retuneAcquireTimeout (slot : Nat) (both : Bool)
  /-- SPARE_TRAIN_SLOT: A SpareTrainSlot write (R173). -/
  | spareTrainSlot (q : Req) (slot : Nat)
  /-- REVERT_SLOT: A RevertSlot write (R174). -/
  | revertSlot (q : Req) (slot : Nat)
  /-- FABRIC_WAVELENGTH_FAIL: A wavelength of a fabric port fails (R180). -/
  | fabricWavelengthFail (port wave : Nat)
  /-- STANDBY_UPLINK_SWITCH: The epoch boundary after the uplink port has lost every wavelength (R181). -/
  | standbyUplinkSwitch
  /-- D2D_FATAL: An uncorrectable die-to-die link error (R177). -/
  | d2dFatal (link : Nat)
  /-- CXL_LINK_FAIL: A CXL port fails or has no expander (R184). -/
  | cxlLinkFail (port : Nat)
  /-- THERMAL_THRESHOLD: A sensor's reading in 1/16 °C crosses a threshold (R201). -/
  | thermalThreshold (sensor : Nat) (temp : Nat)
  /-- THERMAL_CRITICAL: A sensor has been at its critical threshold for 10 ms (R201). -/
  | thermalCritical (sensor : Nat)
  /-- THROTTLE_STEP: The power reading of a millisecond, in 0.1 W (R197, R199). -/
  | throttleStep (power : Nat)
  /-- RING_FETCH: A RingCadence instant: the control blocks read, PF ring r or VF v as 1024 + v (R189). -/
  | ringFetch (ctls : List RingCtl)
  /-- CONSUMER_ACK: The shadow acknowledges a ring position; the descriptors up to it (R192). -/
  | consumerAck (ring pos : Nat) (descs : List Rec)
  /-- OBJECT_READ: An OBJECT_READ descriptor with its item list, none when it cannot be read (R521). -/
  | objectRead (q : Req) (gid : Nat) (items : Option (List Item))
  /-- OBJECT_WRITE: An OBJECT_WRITE descriptor, timed when TIMED is set (R521, R63). -/
  | objectWrite (q : Req) (gid : Nat) (items : Option (List Item)) (timed : Option Nat) (env : WriteEnv)
  /-- CASK_SEAL: A CASK_SEAL descriptor or a CaskSeal write (R211). -/
  | caskSeal (q : Req) (reg timed : Bool) (at_ : Nat)
  /-- FINING_JOB: A FINING_JOB descriptor with its argument, or a FiningSubmit write (R222). -/
  | finingJob (q : Req) (reg : Bool) (v : Nat) (arg : Rec)
  /-- MODEL_SWITCH: A MODEL_SWITCH descriptor (binding, slot, instant), or a SwitchIssue write at SwitchInstant (R295). -/
  | modelSwitch (q : Req) (reg : Bool) (b c at_ : Nat)
  /-- MASH_SWITCH: A MASH_SWITCH descriptor (region, image slot or 0xFF, instant), or a RegionSwitchIssue write (R316). -/
  | mashSwitch (q : Req) (reg : Bool) (r i at_ : Nat)
  /-- STEEP_SWITCH: A STEEP_SWITCH descriptor (group, image slot or 0xFF, instant), or a GroupSwitchIssue write (R348). -/
  | steepSwitch (q : Req) (reg : Bool) (g i at_ : Nat)
  /-- PATTERN_STAGE: A PATTERN_STAGE descriptor: the bytes of the signed library (manifest, SignatureBlock, descriptors by slot, images) and whether the signature verifies (R355, R489). -/
  | patternStage (q : Req) (image : List Nat) (sigOk : Bool)
  /-- REPLICA_DEFINE: A REPLICA_DEFINE descriptor with its member table: die GID, streams, base, generation address (R361). -/
  | replicaDefine (q : Req) (g : Nat) (members : List (Nat × Nat × Nat × Nat))
  /-- CUT: A CUT descriptor: INSTANT, CutArgument, TARGET_GID; or a CutIssue write (R383, R384). -/
  | cut (q : Req) (reg : Bool) (at_ arg scope : Nat)
  /-- CUT_RELEASE: A CUT_RELEASE descriptor or CutRelease write (R385). -/
  | cutRelease (q : Req) (reg timed : Bool) (at_ n : Nat)
  /-- PARTITION_CREATE: PARTITION_CREATE with its member set in entries of R265 (R419). -/
  | partitionCreate (q : Req) (part : Nat) (test : Bool) (set : Rec)
  /-- PARTITION_ADD: PARTITION_ADD (R419). -/
  | partitionAdd (q : Req) (part : Nat) (set : Rec)
  /-- PARTITION_REMOVE: PARTITION_REMOVE (R419). -/
  | partitionRemove (q : Req) (part : Nat) (set : Rec)
  /-- PARTITION_TEARDOWN: PARTITION_TEARDOWN (R419). -/
  | partitionTeardown (q : Req) (part : Nat)
  /-- DIE_REMOVE: A DIE_REMOVE descriptor or a DieRemove write (R415). -/
  | dieRemove (q : Req) (reg : Bool) (gid : Nat)
  /-- BROADCAST: A BROADCAST descriptor with its signed image and whether the signature verifies (R423). -/
  | broadcast (q : Req) (image : List Nat) (sigOk : Bool)
  /-- RING_DROP_RUN_END: A ring-drop run reaches the next 1 ms multiple (R207). -/
  | ringDropRunEnd (slot pri : Nat)
  /-- CHUNK_MAX_AGE: ChunkMaxAge after a chunk's first record (R208). -/
  | chunkMaxAge (slot pri : Nat)
  /-- CHUNK_FINED: The fining engine finishes a closed chunk (R208). -/
  | chunkFined (num : Nat)
  /-- INDEX_ANCHOR: A whole second of FT (R210). -/
  | indexAnchor
  /-- CASK_TRIGGER: The lead decides the next trigger that has fired (R212, R214). -/
  | caskTrigger
  /-- CASK_OPEN_RECEIVE: The shadow receives CaskOpen or the last bounds; the records it fetches: slot, stream type, SEQUENCE, record (R212). -/
  | caskOpenReceive (c : CaskIn) (last : Bool) (fetched : List (Nat × Nat × Nat × Rec))
  /-- POST_WINDOW_END: A cask's PostWindow ends (R212). -/
  | postWindowEnd (id : Nat)
  /-- RACK_CASK: Racking takes the oldest sealed cask (R216). -/
  | rackCask
  /-- RACK_COMPLETE: A cask has been written to Tier 2 (R217). -/
  | rackComplete
  /-- CASK_RELEASE: A CaskRelease write (R216). -/
  | caskRelease (q : Req) (id : Nat)
  /-- TIER2_FREE: A Tier2Free write (R216). -/
  | tier2Free (q : Req) (id : Nat)
  /-- FINING_JOB_DONE: The job at the head of an instance ends (R223). -/
  | finingJobDone (inst : FiningEnd)
  /-- FINING_ABORT: A FiningAbort write; the records the job has completed (R223). -/
  | finingAbort (q : Req) (tag : Nat) (records : Nat)
  /-- SERIES_SAMPLE: The series engine takes its next sample (R235). -/
  | seriesSample
  /-- SERIES_FORWARD: A ForwardInterval multiple (R228). -/
  | seriesForward
  /-- REBASELINE: A Rebaseline write (R236). -/
  | rebaseline (q : Req) (v : Nat)
  /-- STEP_RECORD: A StepTimeRecord at the step home (R241). -/
  | stepRecord (r : Rec)
  /-- STEP_TIMEOUT: TIMEOUT_US of an open step; at the shadow the cause and record set with which the lead closed it (R241). -/
  | stepTimeout (part step : Nat) (agreed : Option StepSet)
  /-- MODEL_IMAGE_COMPLETE: A model image has finished loading (R281). -/
  | modelImageComplete (slot : Nat)
  /-- MODEL_VALIDATION_DONE: Validation of a model image ends (R281). -/
  | modelValidationDone (slot : Nat)
  /-- SLOT_CLEAR: A SlotClear write of slot `slot` (R283). -/
  | slotClear (q : Req) (slot v : Nat)
  /-- LAUTER_BINDING_WRITE: A LauterBinding write (R291). -/
  | lauterBindingWrite (q : Req) (b v : Nat)
  /-- VECTOR_ENQUEUE: The oldest vector that binding b has not taken joins a batch (R292). -/
  | vectorEnqueue (b : Nat)
  /-- BATCH_CLOSE: The open batch of a binding and slot closes (R292). -/
  | batchClose (b slot : Nat)
  /-- BATCH_START: A free cluster takes the oldest closed batch; its vectors whose read was uncorrectable (R292, R298). -/
  | batchStart (c : Nat) (bad : List Nat)
  /-- BATCH_DONE: A cluster finishes its batch (R289). -/
  | batchDone (c : Nat)
  /-- STOP_EPOCH_RECEIVE: The shadow receives STOP_EPOCH (R297). -/
  | stopEpochReceive (slot tree epoch : Nat)
  /-- MODEL_SWITCH_LAUNCH: A model switch launches at its instant (R296). -/
  | modelSwitchLaunch
  /-- SLOT_RETIRE_END: A RETIRING slot's drain ends (R296). -/
  | slotRetireEnd (slot : Nat)
  /-- MASH_RECORD: The next record of a context is presented to a region: consumed (0), not yet consumed (1), uncorrectable tile memory (2) (R305, R319, R320). -/
  | mashRecord (r c what : Nat)
  /-- MASH_EPOCH_EMIT: An EPOCH region emits its vectors of an agreed epoch (R307). -/
  | mashEpochEmit (r : Nat)
  /-- GRAPH_IMAGE_VALIDATE: A complete graph image is validated (R314). -/
  | graphImageValidate (i : Nat)
  /-- IMAGE_CLEAR: An ImageClear write of a Mash or Steep image slot (R310). -/
  | imageClear (q : Req) (steep : Bool) (i v : Nat)
  /-- REGION_SWITCH_LAUNCH: A region switch launches at S (R317). -/
  | regionSwitchLaunch
  /-- REGION_LOAD_START: A region begins to load its new image (R317). -/
  | regionLoadStart (r : Nat)
  /-- REGION_LOAD_DONE: A region's load completes (R317). -/
  | regionLoadDone (r : Nat)
  /-- REGION_RECORD_TIMEOUT: A presented record is not consumed within RecordTimeout (R320). -/
  | regionRecordTimeout (r : Nat)
  /-- GROUP_SWITCH_LAUNCH: A Steep group switch launches at S (R348). -/
  | groupSwitchLaunch
  /-- GROUP_LOAD_DONE: A group's image has been copied into its cores (R348). -/
  | groupLoadDone (g : Nat)
  /-- STEEP_IMAGE_VALIDATE: A complete Steep image is validated (R347). -/
  | steepImageValidate (i : Nat)
  /-- STEEP_ENTRY_TIMEOUT: A core's entry is held longer than EntryTimeout (R349). -/
  | steepEntryTimeout (k : Nat)
  /-- MACQ: Core k: Quad multiply-accumulate of four 16-bit lanes with a shared operand (R329). -/
  | macq (k : Nat)
  /-- MSUQ: Core k: Quad multiply-subtract of four 16-bit lanes with a shared operand (R329). -/
  | msuq (k : Nat)
  /-- MPYQ: Core k: Quad multiply setting four accumulators (R329). -/
  | mpyq (k : Nat)
  /-- MACD: Core k: Dual 32 by 16 multiply-accumulate, or 24 by 24 in Juesh mode (R329). -/
  | macd (k : Nat)
  /-- MSUD: Core k: Dual multiply-subtract into two accumulators (R329). -/
  | msud (k : Nat)
  /-- MPYD: Core k: Dual multiply setting two accumulators (R329). -/
  | mpyd (k : Nat)
  /-- NARROW16: Core k: Rounds and shifts an accumulator into a 16-bit lane, optionally saturating (R332). -/
  | narrow16 (k : Nat)
  /-- NARROW24: Core k: Rounds and shifts an accumulator into a sign-extended 24-bit half (R332). -/
  | narrow24 (k : Nat)
  /-- NARROW32: Core k: Rounds and shifts an accumulator into a 32-bit half (R332). -/
  | narrow32 (k : Nat)
  /-- MOVA: Core k: Copies an accumulator, sign-extended, into a data register (R332). -/
  | mova (k : Nat)
  /-- MOVXA: Core k: Loads an accumulator from the low bits of a data register (R341). -/
  | movxa (k : Nat)
  /-- CLRA: Core k: Clears the accumulators named in a mask (R341). -/
  | clra (k : Nat)
  /-- LD16: Core k; whether the read is uncorrectable: Loads 16 bits into a lane of a data register with optional post-modify (R333, R342). -/
  | ld16 (k : Nat) (bad : Bool)
  /-- LD16X: Core k; whether the read is uncorrectable: Loads 16 bits sign-extended to 64 bits (R333, R342). -/
  | ld16x (k : Nat) (bad : Bool)
  /-- LD32X: Core k; whether the read is uncorrectable: Loads 32 bits sign-extended to 64 bits (R333, R342). -/
  | ld32x (k : Nat) (bad : Bool)
  /-- LD64: Core k; whether the read is uncorrectable: Loads 64 bits into a data register (R333, R342). -/
  | ld64 (k : Nat) (bad : Bool)
  /-- LD24X: Core k; whether the read is uncorrectable: Loads a 24-bit value from a 32-bit container sign-extended (R333, R342). -/
  | ld24x (k : Nat) (bad : Bool)
  /-- LDD: Core k; whether the read is uncorrectable: Performs two loads from two address registers into two consecutive logical registers (R333, R342). -/
  | ldd (k : Nat) (bad : Bool)
  /-- ST16: Core k: Stores a 16-bit lane (R342). -/
  | st16 (k : Nat)
  /-- ST32: Core k: Stores the low 32-bit half (R342). -/
  | st32 (k : Nat)
  /-- ST64: Core k: Stores 64 bits (R342). -/
  | st64 (k : Nat)
  /-- ST24: Core k: Stores 24 bits sign-extended into a container (R342). -/
  | st24 (k : Nat)
  /-- BR: Core k: Branches by a signed bundle offset, closing a loop level if the target lies outside its body (R343). -/
  | br (k : Nat)
  /-- LOOP: Core k: Opens a hardware loop of N passes over the following body bundles (R335). -/
  | loop (k : Nat)
  /-- LOOPS: Core k: Opens a staged software-pipelined loop with rotating registers and stage-valid mask (R335). -/
  | loops (k : Nat)
  /-- NEXT: Core k: Waits for the next delivery entry and sets the entry, context and context base (R338). -/
  | next (k : Nat)
  /-- DONE: Core k: Releases the current entry, restoring the context area for an epoch-end entry (R338). -/
  | done (k : Nat)
  /-- EMIT: Core k; whether the read is uncorrectable: Copies a feature vector from scratch into a FeatureVectorRecord, stalling until done (R338). -/
  | emit (k : Nat) (bad : Bool)
  /-- ADD: Core k in a slot of its bundle: Register add over the selected lane width (R345). -/
  | add (k slot : Nat)
  /-- SUB: Core k in a slot of its bundle: Register subtract over the selected lane width (R345). -/
  | sub (k slot : Nat)
  /-- ADDS: Core k in a slot of its bundle: Saturating register add (R345). -/
  | adds (k slot : Nat)
  /-- SUBS: Core k in a slot of its bundle: Saturating register subtract (R345). -/
  | subs (k slot : Nat)
  /-- AND: Core k in a slot of its bundle: Bitwise AND of two registers (R345). -/
  | andX (k slot : Nat)
  /-- OR: Core k in a slot of its bundle: Bitwise OR of two registers (R345). -/
  | orX (k slot : Nat)
  /-- XOR: Core k in a slot of its bundle: Bitwise XOR of two registers (R345). -/
  | xor (k slot : Nat)
  /-- SHL: Core k in a slot of its bundle: Shift left by a register count (R345). -/
  | shl (k slot : Nat)
  /-- SHR: Core k in a slot of its bundle: Logical shift right by a register count (R345). -/
  | shr (k slot : Nat)
  /-- SAR: Core k in a slot of its bundle: Arithmetic shift right by a register count (R345). -/
  | sar (k slot : Nat)
  /-- MIN: Core k in a slot of its bundle: Signed minimum of two registers (R345). -/
  | min (k slot : Nat)
  /-- MAX: Core k in a slot of its bundle: Signed maximum of two registers (R345). -/
  | max (k slot : Nat)
  /-- MUL: Core k in a slot of its bundle: Multiply keeping the low half (R345). -/
  | mul (k slot : Nat)
  /-- ABS: Core k in a slot of its bundle: Absolute value of a register (R345). -/
  | abs (k slot : Nat)
  /-- MOV: Core k in a slot of its bundle: Register move (R345). -/
  | mov (k slot : Nat)
  /-- CVTF: Core k in a slot of its bundle: Converts two int32 lanes to binary32 with round to nearest even (R345). -/
  | cvtf (k slot : Nat)
  /-- ALUI_ADD: Core k in a slot of its bundle: Adds a sign-extended 8-bit immediate (R345). -/
  | aluiAdd (k slot : Nat)
  /-- ALUI_SUB: Core k in a slot of its bundle: Subtracts a sign-extended 8-bit immediate (R345). -/
  | aluiSub (k slot : Nat)
  /-- ALUI_ADDS: Core k in a slot of its bundle: Saturating add of an 8-bit immediate (R345). -/
  | aluiAdds (k slot : Nat)
  /-- ALUI_SUBS: Core k in a slot of its bundle: Saturating subtract of an 8-bit immediate (R345). -/
  | aluiSubs (k slot : Nat)
  /-- ALUI_AND: Core k in a slot of its bundle: AND with an 8-bit immediate (R345). -/
  | aluiAnd (k slot : Nat)
  /-- ALUI_OR: Core k in a slot of its bundle: OR with an 8-bit immediate (R345). -/
  | aluiOr (k slot : Nat)
  /-- ALUI_XOR: Core k in a slot of its bundle: XOR with an 8-bit immediate (R345). -/
  | aluiXor (k slot : Nat)
  /-- ALUI_SHL: Core k in a slot of its bundle: Shift left by an immediate count (R345). -/
  | aluiShl (k slot : Nat)
  /-- ALUI_SHR: Core k in a slot of its bundle: Logical shift right by an immediate count (R345). -/
  | aluiShr (k slot : Nat)
  /-- ALUI_SAR: Core k in a slot of its bundle: Arithmetic shift right by an immediate count (R345). -/
  | aluiSar (k slot : Nat)
  /-- ALUI_MIN: Core k in a slot of its bundle: Signed minimum with an 8-bit immediate (R345). -/
  | aluiMin (k slot : Nat)
  /-- ALUI_MAX: Core k in a slot of its bundle: Signed maximum with an 8-bit immediate (R345). -/
  | aluiMax (k slot : Nat)
  /-- PSET: Core k in a slot of its bundle: Sets an address register from an unsigned immediate (R345). -/
  | pset (k slot : Nat)
  /-- NSET: Core k in a slot of its bundle: Sets an offset register from a signed immediate (R345). -/
  | nset (k slot : Nat)
  /-- PADD: Core k in a slot of its bundle: Adds an offset register to the address register of the same number (R345). -/
  | padd (k slot : Nat)
  /-- MOVP: Core k in a slot of its bundle: Copies an address register into a data register (R345). -/
  | movp (k slot : Nat)
  /-- MOVXP: Core k in a slot of its bundle: Copies a data register into an address register (R345). -/
  | movxp (k slot : Nat)
  /-- MOVXN: Core k in a slot of its bundle: Copies a data register into an offset register (R345). -/
  | movxn (k slot : Nat)
  /-- CMP_EQ: Core k in a slot of its bundle: Writes a guard with equality of two 64-bit registers (R345). -/
  | cmpEq (k slot : Nat)
  /-- CMP_NE: Core k in a slot of its bundle: Writes a guard with inequality of two registers (R345). -/
  | cmpNe (k slot : Nat)
  /-- CMP_LT: Core k in a slot of its bundle: Writes a guard with signed less-than (R345). -/
  | cmpLt (k slot : Nat)
  /-- CMP_GE: Core k in a slot of its bundle: Writes a guard with signed greater-or-equal (R345). -/
  | cmpGe (k slot : Nat)
  /-- CMP_LTU: Core k in a slot of its bundle: Writes a guard with unsigned less-than (R345). -/
  | cmpLtu (k slot : Nat)
  /-- CMP_GEU: Core k in a slot of its bundle: Writes a guard with unsigned greater-or-equal (R345). -/
  | cmpGeu (k slot : Nat)
  /-- NOP: Core k in a slot of its bundle: Does nothing in its slot (R339). -/
  | nop (k slot : Nat)
  /-- MOVC: Core k in a slot of its bundle: Reads a control register into a data register (R345). -/
  | movc (k slot : Nat)
  /-- MOVTC: Core k in a slot of its bundle: Writes a control register, clearing the accumulators when MODE is written (R327, R345). -/
  | movtc (k slot : Nat)
  /-- LIMM_LOW: Core k: Loads a sign-extended 32-bit immediate into the low half (R345). -/
  | limmLow (k : Nat)
  /-- LIMM_HIGH: Core k: Loads a 32-bit immediate into the high half (R345). -/
  | limmHigh (k : Nat)
  /-- PATTERN_DESCRIPTOR_RECEIVE: A pattern descriptor arrives in BULK; the last of the library is marked (R355). -/
  | patternDescriptorReceive (slot : Nat) (r : Rec) (last : Bool)
  /-- PATTERN_VERIFY: An installed pattern image has been read (R355). -/
  | patternVerify (slot : Nat)
  /-- LIBRARY_ACTIVATE: A LibraryActivate write (R356). -/
  | libraryActivate (q : Req) (v : Nat)
  /-- LIBRARY_SWAP: The activation instant at a Helad (R356). -/
  | librarySwap
  /-- REPLICA_SWEEP: A sweep instant of a group at a member Helad, by its home and number, HOME_GID × 256 + GROUP (R362). -/
  | replicaSweep (g : Nat)
  /-- REPLICA_SWEEP_DONE: A sweep ends (R363), of a group by its home and number. -/
  | replicaSweepDone (g : Nat)
  /-- REPLICA_COMPARE: Every member's record of a sweep has arrived (R364). -/
  | replicaCompare (g n : Nat)
  /-- REPLICA_COMPARE_DEADLINE: A sweep's compare deadline passes (R364). -/
  | replicaCompareDeadline (g : Nat) (n : SweepEnd)
  /-- PROVENANCE_COMPLETE: All component digests of a command are formed (R368). -/
  | provenanceComplete (stream cmdid : Nat)
  /-- PROVENANCE_TIMEOUT: End plus ProvHold passes (R367). -/
  | provenanceTimeout (stream cmdid : Nat)
  /-- TAINT_ORDER: A Tray receives a TaintOrder; clean instant in ns (R372). -/
  | taintOrder (gid group sweep cause streams clean detect : Nat)
  /-- TAINT_NOTICE_FORM: TaintSettle after a detection (R373). -/
  | taintNoticeForm (n : Nat)
  /-- TAINT_FOLLOW_UP: A multiple of TaintSettle after a notice (R373). -/
  | taintFollowUp (n : Nat)
  /-- CUT_LATCH: A Helad's cut instant (R386). -/
  | cutLatch
  /-- ICDON_CUT_LATCH: An Icdon IX40's cut instant (R392). -/
  | icdonCutLatch
  /-- CUT_HALT_HOLD_END: A cut's HALT_HOLD_US expires (R396). -/
  | cutHaltHoldEnd (n : Nat)
  /-- CUT_SUMMARY: X + L × CutSettle of a cut (R399). -/
  | cutSummary (n : CutEnd)
  /-- HEARTBEAT_SEND: A multiple of HeartbeatInterval (R406). -/
  | heartbeatSend
  /-- HEARTBEAT_RECEIVE: A HeartbeatRecord on downward link 0–63, the crosslink, 64, or the uplink, 65 (R406). -/
  | heartbeatReceive (link : Nat) (r : Rec)
  /-- HEARTBEAT_SILENCE: HeartbeatMiss intervals and 50 µs without a heartbeat (R407). -/
  | heartbeatSilence (link : Nat)
  /-- QUORUM_QUERY: A witness receives a QuorumQuery of a shadow about its lead (R410). -/
  | quorumQuery (asker lead term : Nat)
  /-- QUORUM_VOTE: A vote arrives (R410). -/
  | quorumVote (witness : Nat) (yes : Bool)
  /-- QUORUM_RETRY: 1 ms without quorum (R410). -/
  | quorumRetry
  /-- QUORUM_DEADLINE: 5 ms without quorum (R410). -/
  | quorumDeadline
  /-- LEAD_HANDOVER: A LeadHandover write of 1 (R413). -/
  | leadHandover (q : Req)
  /-- HANDOVER_BOUNDARY: The handover boundary; at the shadow the Handover message's TERM and POSTED_EPOCH (R413). -/
  | handoverBoundary (msg : Option (Nat × Nat))
  /-- RESYNC_START: The resync boundary (R414). -/
  | resyncStart
  /-- RESYNC_COPY_DONE: The lead has copied its retained state (R414). -/
  | resyncCopyDone
  /-- RESYNC_RECEIVE_DONE: The joining twin has received the retained state (R414). -/
  | resyncReceiveDone (st : Retained)
  /-- RESYNC_OVERRUN: A spill is full before its twin resumes (R414). -/
  | resyncOverrun
  /-- TWIN_WRITE_APPLY: A twinned write reaches the shadow at its write position (R508). `down`: of a write for a Helad, the die and the record that the lead sends it (R514). -/
  | twinWriteApply (pos key v : Nat) (down : Option (Nat × List Nat)) (env : WriteEnv)
  /-- TWIN_WRITE_ACK_TIMEOUT: 10 µs without the shadow's acknowledgement (R508). -/
  | twinWriteAckTimeout (pos : Nat)
  /-- FAILED_REMOVE_HOLD: FailedRemoveHold of a FAILED or MISWIRED slot (R415). -/
  | failedRemoveHold (slot : Nat)
  /-- CHILD_REMOVE_HOLD: ChildRemoveHold of a SILENT child pair (R416). -/
  | childRemoveHold (port : Nat)
  /-- PARTITION_OP_PROCESS: The Apex lead processes the next queued operation (R419). -/
  | partitionOpProcess
  /-- PARTITION_OP_APPLY: A partition operation arrives from above; whether a CREATE carries TEST (R419). -/
  | partitionOpApply (r : Rec) (test : Bool)
  /-- PARTITION_DRAIN_END: The last supplement of a torn-down partition has closed at every level (R418). -/
  | partitionDrainEnd (part : Nat)
  /-- PARTITION_SEALED: A holder reports a partition sealed (R420). -/
  | partitionSealed (part gid : Nat)
  /-- PARTITION_QUARANTINE_END: PartitionQuarantine passes (R418). -/
  | partitionQuarantineEnd (part : Nat)
  /-- BROADCAST_CHUNK: A broadcast chunk; for FIRST whether the signature verifies (R424). -/
  | broadcastChunk (r : Rec) (sigOk : Bool)
  /-- BROADCAST_RESEND_REQUEST: A child asks for missing chunks (R424). -/
  | broadcastResendRequest (port id : Nat) (offsets : List Nat)
  /-- BROADCAST_STATUS: A BroadcastStatusRecord of a child (R424). -/
  | broadcastStatus (port : Nat) (r : Rec)
  /-- BROADCAST_TIMEOUT: BroadcastTimeout of an open transfer (R424). -/
  | broadcastTimeout (id : Nat)
  /-- QUEUE_SAMPLE: The 1 µs sample of the queues (R435). -/
  | queueSample
  /-- QUEUE_HISTOGRAM: A multiple of HistogramPeriod (R436). -/
  | queueHistogram
  /-- BULK_DEFER: A BulkDeferRecord arrives (R437). -/
  | bulkDefer (r : Rec)
  /-- BULK_DEFER_EFFECTIVE: EFFECTIVE is reached (R438). -/
  | bulkDeferEffective
  /-- DEFER_RANGE_RESEND: A racked deferral range is resent (R438). -/
  | deferRangeResend
  /-- RESUME_WINDOW: A recovery window of 1 ms ends (R441). -/
  | resumeWindow
  /-- DECIMATION_RECEIVE: A DecimationRecord arrives on a downward link, or the lead's decision over the crosslink, link 64 (R437, R440). -/
  | decimationReceive (link : Nat) (r : Rec)
  /-- SHAPER_WRITE: A ShaperConfig write (R434). -/
  | shaperWrite (q : Req) (k v : Nat)
  /-- PATROL_READ: Patrol reads its next block: clean, correctable at a symbol, or uncorrectable (R451). -/
  | patrolRead (verdict : Nat) (symbol : Nat)
  /-- ROW_RETIRE: A RowRetire write (R455). -/
  | rowRetire (q : Req) (v : Nat)
  /-- BANK_RETIRE: A BankRetire write (R456). -/
  | bankRetire (q : Req) (v : Nat)
  /-- BANK_COPY_DONE: The bank copy of a stack completes (R456). -/
  | bankCopyDone (stack : Nat)
  /-- EVENT_POST: A message source occurs with its record (R461). -/
  | eventPost (src : Nat) (r : Rec)
  /-- LEVEL_SOURCE_RISE: The condition of a level source becomes true (R462). -/
  | levelSourceRise (src : Nat)
  /-- COMPLETION: A Completion write (R463). -/
  | completion (q : Req) (v : Nat)
  /-- SOFT_POST: A SoftPost write (R459). -/
  | softPost (q : Req) (v : Nat)
  /-- SOFT_PRIV: A SoftPriv write (R467). -/
  | softPriv (q : Req) (v : Nat)
  /-- PRIVILEGED_SOURCE: A privileged source occurs (R467). -/
  | privilegedSource (p detail : Nat)
  /-- CONSUMER_WRITE: A queue CONSUMER write (R466). -/
  | consumerWrite (q : Req) (n v : Nat)
  /-- QUEUE_CONTROL_WRITE: A QueueControl or QueueBase write (R464). -/
  | queueControlWrite (q : Req) (n : Nat) (base : Bool) (v : Nat)
  /-- ERROR_CLOSE: An ErrorClose write (R471). -/
  | errorClose (q : Req) (v : Nat)
  /-- OBSERVE_ONLY_EXIT: An ObserveOnlyExit write (R472). -/
  | observeOnlyExit (q : Req) (v : Nat)
  /-- RECORDER_WRITE: A RecorderWrite write (R473). -/
  | recorderWrite (q : Req) (v : Nat)
  /-- RECORDER_SUMMARY: The recorder's rate has fallen (R473). -/
  | recorderSummary
  /-- RECORDER_CURSOR: A RecorderCursor write (R476). -/
  | recorderCursor (q : Req) (v : Nat)
  /-- RECORDER_CLEAR_ARM: A RecorderClearArm write (R477). -/
  | recorderClearArm (q : Req) (v : Nat)
  /-- RECORDER_CLEAR: A RecorderClear write (R477). -/
  | recorderClear (q : Req) (v : Nat)
  /-- RECORDER_CLEAR_ARM_EXPIRY: 10 s have passed after an arm (R477). -/
  | recorderClearArmExpiry
  /-- VF_BIND: A VfPartition write (R484). -/
  | vfBind (q : Req) (vf part : Nat)
  /-- QUERY: IDE_KM QUERY of a stream, 0 the PF's, in an SPDM session (R485). -/
  | ideQuery (sess vf : Nat)
  /-- KEY_PROG: IDE_KM KEY_PROG of a key set's receive or transmit half (R485). -/
  | keyProg (sess vf set half key : Nat)
  /-- K_SET_GO: IDE_KM K_SET_GO (R485). -/
  | kSetGo (sess vf set : Nat)
  /-- K_SET_STOP: IDE_KM K_SET_STOP (R486). -/
  | kSetStop (sess vf set : Nat)
  /-- IDE_INTEGRITY_FAIL: An IDE stream leaves secure by an integrity failure or the loss of its keys (R486). -/
  | ideIntegrityFail (vf : Nat)
  /-- GET_TDISP_VERSION: TDISP GET_TDISP_VERSION (R486). -/
  | getTdispVersion (vf : Nat)
  /-- GET_TDISP_CAPABILITIES: TDISP GET_TDISP_CAPABILITIES (R486). -/
  | getTdispCapabilities (vf : Nat)
  /-- LOCK_INTERFACE_REQUEST: TDISP LOCK_INTERFACE_REQUEST (R486). -/
  | lockInterfaceRequest (vf : Nat)
  /-- GET_DEVICE_INTERFACE_REPORT: TDISP GET_DEVICE_INTERFACE_REPORT (R486). -/
  | getDeviceInterfaceReport (vf : Nat)
  /-- GET_DEVICE_INTERFACE_STATE: TDISP GET_DEVICE_INTERFACE_STATE (R486). -/
  | getDeviceInterfaceState (vf : Nat)
  /-- START_INTERFACE_REQUEST: TDISP START_INTERFACE_REQUEST (R486). -/
  | startInterfaceRequest (vf : Nat)
  /-- STOP_INTERFACE_REQUEST: TDISP STOP_INTERFACE_REQUEST (R486). -/
  | stopInterfaceRequest (vf : Nat)
  /-- GET_VERSION: SPDM GET_VERSION on binding 0 DOE or 1 MOP (R491). -/
  | getVersion (b : Nat)
  /-- GET_CAPABILITIES: SPDM GET_CAPABILITIES (R491). -/
  | getCapabilities (b : Nat)
  /-- NEGOTIATE_ALGORITHMS: SPDM NEGOTIATE_ALGORITHMS; whether the request offers the algorithms of R491. -/
  | negotiateAlgorithms (b : Nat) (common : Bool)
  /-- GET_DIGESTS: SPDM GET_DIGESTS (R491). -/
  | getDigests (b : Nat)
  /-- GET_CERTIFICATE: SPDM GET_CERTIFICATE of a part of a chain (R491). -/
  | getCertificate (b slot off len : Nat)
  /-- CHALLENGE: SPDM CHALLENGE (R491). -/
  | challenge (b slot nonce : Nat)
  /-- GET_MEASUREMENTS: SPDM GET_MEASUREMENTS of one block, 0 for their count, 0xFF for all (R492). -/
  | getMeasurements (b index : Nat) (signed : Bool) (nonce : Nat)
  /-- KEY_EXCHANGE: SPDM KEY_EXCHANGE (R491). -/
  | keyExchange (b : Nat)
  /-- FINISH: SPDM FINISH; whether its verify data agrees (R491). -/
  | finish (b sess : Nat) (good : Bool)
  /-- HEARTBEAT: SPDM HEARTBEAT (R491). -/
  | spdmHeartbeat (b sess : Nat)
  /-- KEY_UPDATE: SPDM KEY_UPDATE (R491). -/
  | keyUpdate (b sess : Nat)
  /-- END_SESSION: SPDM END_SESSION (R491). -/
  | endSession (b sess : Nat)
  /-- RESPOND_IF_READY: SPDM RESPOND_IF_READY (R493). -/
  | respondIfReady (b token : Nat)
  /-- HELAD_IDENTITY_RESPONSE: A Helad's public key and whether its signature over the nonce verifies (R488). -/
  | heladIdentityResponse (slot key : Nat) (sigOk : Bool)
  /-- CREDENTIAL_WRITE: A write of CredentialKey, CredentialRole or CredentialPartition (R494). -/
  | credentialWrite (q : Req) (key v : Nat)
  /-- AUDIT_SEAL_AGREE: The second k; at the shadow what the lead has sent: its positions, each SOURCE_GID, TYPE and SEQUENCE, and in the same form the entries that it has refused (R497, R500). -/
  | auditSealAgree (k : Nat) (lead : Option (List (Nat × Nat × Nat) × List (Nat × Nat × Nat)))
  /-- AUDIT_SEAL_FORM: 1 ms after S_k (R497, R498). -/
  | auditSealForm (k : Nat)
  /-- AUDIT_RACK: Racking of a sealed interval (R500). -/
  | auditRack (k : Nat)
  /-- READ: MOP READ (R517). -/
  | read (h : MopHdr) (items : List Item)
  /-- WRITE: MOP WRITE (R519). -/
  | write (h : MopHdr) (items : List Item) (env : WriteEnv)
  /-- WINDOW_READ: MOP WINDOW_READ (R517). -/
  | windowRead (h : MopHdr) (off len : Nat)
  /-- DESCRIPTOR: MOP DESCRIPTOR (R517). -/
  | descriptor (h : MopHdr) (d : DescIn)
  /-- SUBSCRIBE: MOP SUBSCRIBE (R520). -/
  | subscribe (h : MopHdr) (id : Nat) (enable : Bool) (mask : Nat)
  /-- REGISTER_WRITE: A write to an object without behaviour of its own (R504). -/
  | registerWrite (q : Req) (u : Side) (key v : Nat) (env : WriteEnv)
  /-- WIDE_READ: A mirror read of a wide object (R512). -/
  | wideRead (q : Req) (key : Nat)
  /-- WIDE_WRITE_COMMIT: A mirror write of a wide object's low word; hi the bytes 4 onward written into WIDE_DATA before (R512). -/
  | wideWriteCommit (q : Req) (key lo hi : Nat) (env : WriteEnv)
  /-- PROXY_REQUEST: A proxied request reaches the Helad of a die; for another die than this Helad's the answers it gives per item: STATUS, CAUSE, value (R514). -/
  | proxyRequest (id gid : Nat) (role : Role) (write : Bool) (timed : Option Nat) (items : List Item) (env : WriteEnv) (answers : List (Nat × Nat × Nat))
  /-- PROXY_TIMEOUT: ProxyTimeout of a proxied request (R514, R515). -/
  | proxyTimeout (id : Nat)
  /-- STAGE_START: A StageStart write; the bytes that stand in PF host memory at StageSource, and whether the image's signature verifies (R531). -/
  | stageStart (q : Req) (v : Nat) (image : List Nat) (sigOk : Bool)
  /-- STAGE_COMPLETE: Staging ends (R531). -/
  | stageComplete (flashOk : Bool)
  /-- ACTIVATE: An Activate write (R532). -/
  | activate (q : Req) (gid : Nat)
  /-- ACTIVATION_SWITCH: The switch boundary of an accepted activation (R532). -/
  | activationSwitch
  /-- ACTIVATION_DONE: The switch ends (R532). -/
  | activationDone
  /-- IMAGE_CONFIRM: An ImageConfirm write (R533). -/
  | imageConfirm (q : Req) (gid : Nat)
  /-- CONFIRM_TIMEOUT: ConfirmTimeout expires unconfirmed (R533). -/
  | confirmTimeout
  /-- ROUSE_ARM: A RouseConfig write (R537); the writer's credential entry. -/
  | rouseArm (q : Req) (n : Nat) (v : Nat) (cred : Nat)
  /-- FABRIC_LINK_UP: A fabric port comes up; on the crosslink the twin's GID, IcdonRole, SeriesHashSeed, TwinState and LeadTerm (R405). -/
  | fabricLinkUp (port peer role seed state term : Nat)
  /-- HALT_ACK_FALL: HALT_ACK falls (R396). -/
  | haltAckFall (g : Nat)
  /-- RECEIVER_ADAPTATION_DONE: A twin's receiver on a training slot has adapted (R166, R545). -/
  | receiverAdaptationDone (slot twin : Nat)
  /-- STEEP_DELIVERY_ENTRY: The streamer writes a context's next record, or its EPOCH_END entry, into the serving core's ring (R337). -/
  | steepDeliveryEntry (g c : Nat) (end_ : Bool)
  /-- PCIE_LINK_DOWN: The PCIe host link goes down (R203). -/
  | pcieLinkDown
  /-- DTLS_HANDSHAKE: A DTLS handshake of a client whose certificate holds a public key (R494). -/
  | dtlsHandshake (port key : Nat)
deriving DecidableEq, Repr

end Sys2Proof
end

