-- ==== Sys2Proof/Decode.lean ====
section
/-! DEFINITION. The command that a table word spells. The table gives no row any bits, so no word spells a command. -/

namespace Sys2Proof

/-- The command that the table's bits spell: the table gives no row a word, so every word is refused. -/
def decodeTableWord (_nbits _w : Nat) : Option Instr := none

end Sys2Proof
end

