-- ==== Sys2Proof/Config.lean ====
section
/-! DEFINITION. What an implementation fixes and the spec leaves open: free values, and the signatures and configured dataflow whose value no rule states. None has a body, so no proof can use a value of it. -/

namespace Sys2Proof

/-- The operations of a tile's lane (R303): int32, pairs of lanes as int64, binary32, bf16, conversions. -/
inductive LaneOp where
  | add | sub | addSat | subSat | mul | mulhi | mulhiU | min | max | and | or | xor | not
  | shl | shr | sar | lt | ltU | eq | select | clz | bucket
  | pAdd | pSub | pLt | pLtU | pEq | pMin | pMax | pShl | pShr | pSar | pToF
  | fAdd | fSub | fMul | fma | fDiv | fSqrt | fAbs | fNeg | fLt | fLe | fEq | fMin | fMax
  | widen | narrow | toF | toFU | toI
deriving DecidableEq, Repr

/-- Where an operand comes from: a word or an ABSENT bit of the delivery, its selector, its context, a word of its FtStamp, a constant of the configuration, what an earlier operation put on a link or a lane, or local memory of a tile: at an offset of the token's context area, or at an address behind the context areas; `areaAt` and `tableAt` take the offset from an earlier result (R301, R304, R305, R313). -/
inductive TileSrc where
  | word (i : Nat)
  | absent (i : Nat)
  | selector
  | context
  | stamp (i : Nat)
  | const (v : Nat)
  | node (n : Nat)
  | area (tile off : Nat)
  | areaAt (tile n : Nat)
  | table (tile off : Nat)
  | tableAt (tile n : Nat)
deriving DecidableEq, Repr

/-- Where a result goes: a link or a lane, the token's context area of a tile, a VALUE or a MISSING bit of the vector, and whether the token emits one (R301, R304, R307, R308). -/
inductive TileDst where
  | node (n : Nat)
  | area (tile off : Nat)
  | areaAt (tile n : Nat)
  | value (i : Nat)
  | missing (i : Nat)
  | emit
deriving DecidableEq, Repr

/-- One lane operation of one tile (R302, R303). -/
structure TileStep where
  tile : Nat
  lane : Nat
  op   : LaneOp
  src  : List TileSrc
  dst  : List TileDst
deriving DecidableEq, Repr

end Sys2Proof

namespace Sys2Proof.Config

/-- The free values of the spec's open results, one per use (R54 and others); the use is counted in the state. -/
opaque free : Nat → Nat

/-- The correction the servo makes for a mean offset at a rate (R41 bounds it and states no gain). -/
opaque servoGain : Int → Int → Int

/-- A signature under a key of the device: key number, bytes. -/
opaque signature : Nat → List Nat → Nat

/-- The bytes of the certificate chain of slot 0 (R491), of a DeviceID key and an Alias key. -/
opaque certChain : Nat → Nat → List Nat

/-- SHA-384 of the root-of-trust ROM (R492, block 1). -/
opaque romDigest : Nat

/-- The nonce of a Tray pair for the Helad of a slot at one of its power cycles (R488), free. -/
opaque heladNonce : Nat → Nat → Nat → Nat

/-- What a region's tiles do with one token, in an order that its data dependences allow: the configurations of its tiles by index, and whether the token is a record or the end of an epoch. The configurations are Maltster's and have no stated form (R313, log 10); what each operation computes is the table of R303. -/
opaque mashProgram : List (Nat × List Nat) → Bool → List TileStep

/-- What a lane operation leaves in a destination where R303 states no result: a shift by the width of its operand or more; the operation, its operands. -/
opaque laneOpen : LaneOp → List Nat → Nat

/-- What the structure check of an image's tile configurations finds (R314): 0 nothing, 5 ROUTE, 6 OUTPUT. The configurations are Maltster's and have no stated form (R313). -/
opaque mashCheck : List Nat → Nat

/-- The silicon revision in the root-of-trust ROM (0x1000.03). -/
opaque siliconRevision : Nat

/-- Bytes a management session may hold unsent and still take a push (R520 states the rate alone). -/
opaque mopBurst : Nat

/-- Bytes the bench port may hold unsent and still take a record (R145 states the rate alone). -/
opaque benchBurst : Nat

/-- The physical 4 KiB granule of Tier 1 that holds a logical one, with the retirement map in force (R454 skips the granules of its rows; the form of the granules' places is not given). -/
opaque t1Granule : List Nat → Nat → Nat

/-- Bank and row of a physical granule within its stack, in the LOCATION form of R450 less the stack (the spec gives no address map inside a stack). -/
opaque t1Row : Nat → Nat

/-- The MRAM page, within its area, that holds an item: a persisted object by its key, a retired row, a die's state by its slot, a recorder entry by its SEQUENCE (R195 gives the areas and no places inside them). -/
opaque mramPage : Nat → Nat

/-- The logical block that stands at a place of the physical order of patrol (R451). -/
opaque patrolBlock : List Nat → Nat → Nat

/-- UNIT of a MemoryErrorRecord for an engine, named by its unit number of R459 (R450 gives the order alone). -/
opaque memUnit : Nat → Nat

/-- Whether the unit of another slot's die lies in a group that may run radio work: RADIO_GROUP is a line of that die's Helad (R56), which the Tray does not see. -/
opaque radioUnit : Nat → Nat → Bool

end Sys2Proof.Config
end

