-- ==== Sys2Proof/Machine/Bits.lean ====
section
/-! DEFINITION. Bit fields, two's complement, records as bit strings, tables in ascending key order, and the checksums of R153, R217 and R229. -/

namespace Sys2Proof.Machine

/-- The field of `w` bits of `x` whose lowest bit is `lo` (R7). -/
def bits (x lo w : Nat) : Nat := (x >>> lo) % 2 ^ w

/-- Bit `i` of `x`. -/
def bit (x i : Nat) : Bool := x.testBit i

/-- `x` with the `w` bits from `lo` replaced by `v`. -/
def setBits (x lo w v : Nat) : Nat :=
  (x % 2 ^ lo) + ((v % 2 ^ w) <<< lo) + ((x >>> (lo + w)) <<< (lo + w))

/-- `x` with bit `i` set to `b`. -/
def setBit (x i : Nat) (b : Bool) : Nat := setBits x i 1 b.toNat

/-- A Boolean as the 0 or 1 of a one-bit field. -/
abbrev b2n (b : Bool) : Nat := b.toNat

/-- The two's complement value of a `w`-bit field (R503). -/
def toS (w x : Nat) : Int :=
  let y := x % 2 ^ w
  if 2 * y < 2 ^ w then (y : Int) else (y : Int) - (2 ^ w : Nat)

/-- The `w`-bit two's complement field of an integer. -/
def ofS (w : Nat) (i : Int) : Nat := (i % ((2 ^ w : Nat) : Int)).toNat

/-- Saturation at `m`. -/
def sat (m x : Nat) : Nat := min m x

/-- Clamps an integer between two bounds. -/
def clampI (lo hi x : Int) : Int := max lo (min hi x)

/-- The number of 1 bits of the low `n` bits of `x`. -/
def popCount (n x : Nat) : Nat := ((List.range n).filter fun i => x.testBit i).length

/-- The lowest set bit of the low `n` bits of `x`. -/
def lowestSet (n x : Nat) : Option Nat := (List.range n).find? fun i => x.testBit i

/-- The positions of the set bits of the low `n` bits of `x`, ascending. -/
def setBitsOf (n x : Nat) : List Nat := (List.range n).filter fun i => x.testBit i

/-! ### Records as bit strings -/

/-- The bits of a list of units, the first unit lowest. -/
def joinUnits : Rec → Nat
  | [] => 0
  | u :: r => u % 2 ^ 128 + joinUnits r * 2 ^ 128

/-- The first `n` units of 16 bytes of a bit string. -/
def splitUnits : Nat → Nat → Rec
  | 0, _ => []
  | n + 1, x => x % 2 ^ 128 :: splitUnits n (x / 2 ^ 128)

/-- Field `[lo + w - 1 : lo]` of a record. -/
def recFld (r : Rec) (lo w : Nat) : Nat := bits (joinUnits r) lo w

/-- A bit string made of fields given as (lowest bit, width, value). -/
def packFields (fs : List (Nat × Nat × Nat)) : Nat :=
  (fs.map fun f => (f.2.2 % 2 ^ f.2.1) <<< f.1).sum

/-- The `n` bytes of `x`, least significant first (R8). -/
def natBytes : Nat → Nat → List Nat
  | 0, _ => []
  | n + 1, x => x % 256 :: natBytes n (x / 256)

/-- The number whose bytes, least significant first, are given (R8). -/
def bytesNat : List Nat → Nat
  | [] => 0
  | b :: t => b % 256 + 256 * bytesNat t

/-- The bytes of a record in storage order. -/
def recBytes (r : Rec) : List Nat := r.flatMap fun u => natBytes 16 u

/-- Bytes padded with zeros to whole units of 16 bytes. -/
def bytesRec (bs : List Nat) : Rec := splitUnits ((bs.length + 15) / 16) (bytesNat bs)

/-- Header fields of a record (R13). -/
abbrev rType (r : Rec) : Nat := recFld r 0 8
/-- VERSION of R13. -/
abbrev rVersion (r : Rec) : Nat := recFld r 8 4
/-- FLAGS of R13. -/
abbrev rFlags (r : Rec) : Nat := recFld r 12 4
/-- LENGTH of R13. -/
abbrev rLen (r : Rec) : Nat := recFld r 16 16
/-- SOURCE_GID of R13. -/
abbrev rSrc (r : Rec) : Nat := recFld r 32 32
/-- SEQUENCE of R13. -/
abbrev rSeq (r : Rec) : Nat := recFld r 64 32
/-- PARTITION of R13. -/
abbrev rPart (r : Rec) : Nat := recFld r 96 16

/-- The common header of R13, as fields. DESIGN CHOICE (log 129): VERSION is 0 for every record type, as the spec gives most of them none. -/
def header (ty len flags src seq part : Nat) : List (Nat × Nat × Nat) :=
  [(0, 8, ty), (12, 4, flags), (16, 16, len), (32, 32, src), (64, 32, seq), (96, 16, part)]

/-- A record of `len` units: the header of R13 and the fields of its own table. -/
def mkRec (ty len flags src seq part : Nat) (fs : List (Nat × Nat × Nat)) : Rec :=
  splitUnits len (packFields (header ty len flags src seq part ++ fs))

/-- A record with one field replaced. -/
def recSet (r : Rec) (lo w v : Nat) : Rec := splitUnits r.length (setBits (joinUnits r) lo w v)

/-! ### Tables -/

/-- The entry of a table under a key. -/
def tget {α : Type} : List (Nat × α) → Nat → Option α
  | [], _ => none
  | p :: t, k => if p.1 = k then some p.2 else tget t k

/-- The entry under a key, or a default. -/
def tgetD {α : Type} (t : List (Nat × α)) (k : Nat) (d : α) : α := (tget t k).getD d

/-- The table with an entry stored under its key, in ascending key order. -/
def tset {α : Type} : List (Nat × α) → Nat → α → List (Nat × α)
  | [], k, v => [(k, v)]
  | p :: t, k, v => if k < p.1 then (k, v) :: p :: t else if k = p.1 then (k, v) :: t else p :: tset t k v

/-- The table without the entry under a key. -/
def tdel {α : Type} (t : List (Nat × α)) (k : Nat) : List (Nat × α) := t.filter fun p => p.1 != k

/-- The table with the entry under a key replaced by a function of it, absent entries taken as `d`. -/
def tmod {α : Type} (t : List (Nat × α)) (k : Nat) (d : α) (f : α → α) : List (Nat × α) :=
  tset t k (f (tgetD t k d))

/-- Inserts into a list in ascending order by a key. -/
def insertBy {α : Type} (key : α → Nat) (a : α) : List α → List α
  | [] => [a]
  | b :: t => if key a < key b then a :: b :: t else b :: insertBy key a t

/-- Stable sort by a key, ascending. -/
def sortBy {α : Type} (key : α → Nat) (l : List α) : List α := l.foldl (fun acc a => insertBy key a acc) []

/-- The list with element `i` replaced. -/
def listSet {α : Type} : List α → Nat → α → List α
  | [], _, _ => []
  | _ :: t, 0, v => v :: t
  | a :: t, n + 1, v => a :: listSet t n v

/-- The list without its first element that satisfies a test. -/
def removeFirst {α : Type} (p : α → Bool) : List α → List α
  | [] => []
  | a :: t => if p a then t else a :: removeFirst p t

/-- The sum of a list of natural numbers. -/
abbrev lsum (l : List Nat) : Nat := l.sum

/-! ### Checksums -/

/-- One bit of a reflected CRC. -/
def crcBit (poly c b : Nat) : Nat := if (c + b) % 2 = 1 then (c / 2) ^^^ poly else c / 2

/-- The `n` low bits of a byte through a reflected CRC, least significant first. -/
def crcByte (poly : Nat) : Nat → Nat → Nat → Nat
  | 0, c, _ => c
  | n + 1, c, b => crcByte poly n (crcBit poly c (b % 2)) (b / 2)

/-- A reflected CRC over bytes, without the final XOR. -/
def crcRun (poly : Nat) : Nat → List Nat → Nat
  | c, [] => c
  | c, b :: t => crcRun poly (crcByte poly 8 c b) t

/-- CRC16 of R153: x^16 + x^12 + x^5 + 1, initial value 0xFFFF, no final XOR, each byte least significant bit first. -/
def crc16 (bs : List Nat) : Nat := crcRun 0x8408 0xFFFF bs

/-- CRC-32C of R229. -/
def crc32c (bs : List Nat) : Nat := crcRun 0x82F63B78 0xFFFFFFFF bs ^^^ 0xFFFFFFFF

/-- CRC-64 of R217 over the ECMA-182 polynomial, reflected. -/
def crc64 (bs : List Nat) : Nat := crcRun 0xC96C5795D7870F42 0xFFFFFFFFFFFFFFFF bs ^^^ 0xFFFFFFFFFFFFFFFF

/-- Whether a 28-bit flit SEQUENCE stands at or after another, modulo 2^28 (R150). -/
def seqFrom (lo q : Nat) : Bool := decide ((q + 2 ^ 28 - lo) % 2 ^ 28 < 2 ^ 27)

/-- The superseded value of a setting that applied at an instant: of entries (key, instant from which it applied, value), newest first, the first of the key that had begun (R233). -/
def pastAt (l : List (Nat × Nat × Nat)) (k t : Nat) : Option Nat := (l.find? fun p => p.1 == k && decide (p.2.1 ≤ t)).map (·.2.2)

end Sys2Proof.Machine
end

