-- ==== Sys2Proof/Machine/Hash.lean ====
section
/-! DEFINITION. The two hash functions that the spec names without restating them, as their public standards give them (PRESUMED, log 9): BLAKE3 with its keyed mode (R27, R255, R265, R282, R314, R361), and SHA-384 of FIPS 180-4 (R365, R487, R496). Bytes are given in order. -/

namespace Sys2Proof.Machine

/-! ### BLAKE3 -/

/-- The initial chaining value, which is that of SHA-256. -/
def b3Iv : List Nat := [0x6A09E667, 0xBB67AE85, 0x3C6EF372, 0xA54FF53A, 0x510E527F, 0x9B05688C, 0x1F83D9AB, 0x5BE0CD19]

/-- Where each message word of the next round comes from. -/
def b3Perm : List Nat := [2, 6, 3, 10, 7, 0, 4, 13, 1, 11, 12, 5, 9, 14, 15, 8]

/-- A 32-bit word rotated right. -/
def rotr32 (n x : Nat) : Nat := x >>> n ||| (x <<< (32 - n)) % 2 ^ 32

/-- The mixing function on four words of the state, with two message words. -/
def b3Mix (a b c d x y : Nat) : Nat × Nat × Nat × Nat :=
  let a := (a + b + x) % 2 ^ 32
  let d := rotr32 16 (d ^^^ a)
  let c := (c + d) % 2 ^ 32
  let b := rotr32 12 (b ^^^ c)
  let a := (a + b + y) % 2 ^ 32
  let d := rotr32 8 (d ^^^ a)
  let c := (c + d) % 2 ^ 32
  let b := rotr32 7 (b ^^^ c)
  (a, b, c, d)

/-- One round: the columns, then the diagonals of the 4 × 4 state, given and returned by rows. -/
def b3Round (v m : List Nat) : List Nat :=
  match v, m with
  | [v0, v1, v2, v3, v4, v5, v6, v7, v8, v9, v10, v11, v12, v13, v14, v15], [m0, m1, m2, m3, m4, m5, m6, m7, m8, m9, m10, m11, m12, m13, m14, m15] =>
    let (v0, v4, v8, v12) := b3Mix v0 v4 v8 v12 m0 m1
    let (v1, v5, v9, v13) := b3Mix v1 v5 v9 v13 m2 m3
    let (v2, v6, v10, v14) := b3Mix v2 v6 v10 v14 m4 m5
    let (v3, v7, v11, v15) := b3Mix v3 v7 v11 v15 m6 m7
    let (v0, v5, v10, v15) := b3Mix v0 v5 v10 v15 m8 m9
    let (v1, v6, v11, v12) := b3Mix v1 v6 v11 v12 m10 m11
    let (v2, v7, v8, v13) := b3Mix v2 v7 v8 v13 m12 m13
    let (v3, v4, v9, v14) := b3Mix v3 v4 v9 v14 m14 m15
    [v0, v1, v2, v3, v4, v5, v6, v7, v8, v9, v10, v11, v12, v13, v14, v15]
  | _, _ => v

/-- Rounds, the message words permuted after each. -/
def b3Rounds : Nat → List Nat → List Nat → List Nat
  | 0, v, _ => v
  | n + 1, v, m => b3Rounds n (b3Round v m) (b3Perm.map fun i => m.getD i 0)

/-- The first eight words of the compression function: chaining value, block of 16 words, counter, block length, flags. -/
def b3Compress (cv m : List Nat) (ctr len flags : Nat) : List Nat :=
  let v := b3Rounds 7 (cv ++ b3Iv.take 4 ++ [ctr % 2 ^ 32, ctr / 2 ^ 32 % 2 ^ 32, len, flags]) m
  (List.range 8).map fun i => v.getD i 0 ^^^ v.getD (i + 8) 0

/-- Bytes as 16 little-endian words, padded with zeros. -/
def b3Block (bs : List Nat) : List Nat := let x := bytesNat (bs.take 64); (List.range 16).map fun i => bits x (32 * i) 32

/-- What is left to compress of a node: chaining value, block, counter, block length, flags. -/
abbrev B3Out := List Nat × List Nat × Nat × Nat × Nat

/-- The chaining value of a node. -/
def b3Cv (o : B3Out) : List Nat := b3Compress o.1 o.2.1 o.2.2.1 o.2.2.2.1 o.2.2.2.2

/-- A chunk of at most 1,024 bytes: its blocks in order, the last of them left to compress. -/
def b3Chunk (mode ctr : Nat) : Nat → Nat → List Nat → List Nat → B3Out
  | 0, start, cv, bs => (cv, b3Block bs, ctr, bs.length, mode + start + 2)
  | n + 1, start, cv, bs =>
    if bs.length ≤ 64 then (cv, b3Block bs, ctr, bs.length, mode + start + 2)
    else b3Chunk mode ctr n 0 (b3Compress cv (b3Block bs) ctr 64 (mode + start)) (bs.drop 64)

/-- The tree over chunks from number `ctr`: the left half is the largest power of two of chunks that leaves one to the right. -/
def b3Node (key : List Nat) (mode : Nat) : Nat → Nat → List Nat → B3Out
  | 0, ctr, bs => b3Chunk mode ctr 16 1 key bs
  | n + 1, ctr, bs =>
    if bs.length ≤ 1024 then b3Chunk mode ctr 16 1 key bs
    else
      let k := 2 ^ ((bs.length - 1) / 1024).log2
      let l := b3Cv (b3Node key mode n ctr (bs.take (1024 * k)))
      let r := b3Cv (b3Node key mode n (ctr + k) (bs.drop (1024 * k)))
      (key, l ++ r, 0, 64, mode + 4)

/-- The first 256 bits of output, as the number of its bytes in little-endian order. -/
def b3Hash (key : List Nat) (mode : Nat) (bs : List Nat) : Nat :=
  let o := b3Node key mode 64 0 bs
  packFields ((b3Compress o.1 o.2.1 o.2.2.1 o.2.2.2.1 (o.2.2.2.2 + 8)).mapIdx fun i w => (32 * i, 32, w))

/-! ### SHA-384 -/

/-- The round constants of SHA-512. -/
def shaK : List Nat :=
  [0x428A2F98D728AE22, 0x7137449123EF65CD, 0xB5C0FBCFEC4D3B2F, 0xE9B5DBA58189DBBC, 0x3956C25BF348B538, 0x59F111F1B605D019, 0x923F82A4AF194F9B, 0xAB1C5ED5DA6D8118] ++
  [0xD807AA98A3030242, 0x12835B0145706FBE, 0x243185BE4EE4B28C, 0x550C7DC3D5FFB4E2, 0x72BE5D74F27B896F, 0x80DEB1FE3B1696B1, 0x9BDC06A725C71235, 0xC19BF174CF692694] ++
  [0xE49B69C19EF14AD2, 0xEFBE4786384F25E3, 0x0FC19DC68B8CD5B5, 0x240CA1CC77AC9C65, 0x2DE92C6F592B0275, 0x4A7484AA6EA6E483, 0x5CB0A9DCBD41FBD4, 0x76F988DA831153B5] ++
  [0x983E5152EE66DFAB, 0xA831C66D2DB43210, 0xB00327C898FB213F, 0xBF597FC7BEEF0EE4, 0xC6E00BF33DA88FC2, 0xD5A79147930AA725, 0x06CA6351E003826F, 0x142929670A0E6E70] ++
  [0x27B70A8546D22FFC, 0x2E1B21385C26C926, 0x4D2C6DFC5AC42AED, 0x53380D139D95B3DF, 0x650A73548BAF63DE, 0x766A0ABB3C77B2A8, 0x81C2C92E47EDAEE6, 0x92722C851482353B] ++
  [0xA2BFE8A14CF10364, 0xA81A664BBC423001, 0xC24B8B70D0F89791, 0xC76C51A30654BE30, 0xD192E819D6EF5218, 0xD69906245565A910, 0xF40E35855771202A, 0x106AA07032BBD1B8] ++
  [0x19A4C116B8D2D0C8, 0x1E376C085141AB53, 0x2748774CDF8EEB99, 0x34B0BCB5E19B48A8, 0x391C0CB3C5C95A63, 0x4ED8AA4AE3418ACB, 0x5B9CCA4F7763E373, 0x682E6FF3D6B2B8A3] ++
  [0x748F82EE5DEFB2FC, 0x78A5636F43172F60, 0x84C87814A1F0AB72, 0x8CC702081A6439EC, 0x90BEFFFA23631E28, 0xA4506CEBDE82BDE9, 0xBEF9A3F7B2C67915, 0xC67178F2E372532B] ++
  [0xCA273ECEEA26619C, 0xD186B8C721C0C207, 0xEADA7DD6CDE0EB1E, 0xF57D4F7FEE6ED178, 0x06F067AA72176FBA, 0x0A637DC5A2C898A6, 0x113F9804BEF90DAE, 0x1B710B35131C471B] ++
  [0x28DB77F523047D84, 0x32CAAB7B40C72493, 0x3C9EBE0A15C9BEBC, 0x431D67C49C100D4C, 0x4CC5D4BECB3E42B6, 0x597F299CFC657E2A, 0x5FCB6FAB3AD6FAEC, 0x6C44198C4A475817]

/-- The initial hash value of SHA-384. -/
def sha384Iv : List Nat := [0xCBBB9D5DC1059ED8, 0x629A292A367CD507, 0x9159015A3070DD17, 0x152FECD8F70E5939, 0x67332667FFC00B31, 0x8EB44A8768581511, 0xDB0C2E0D64F98FA7, 0x47B5481DBEFA4FA4]

/-- A 64-bit word rotated right. -/
def rotr64 (n x : Nat) : Nat := x >>> n ||| (x <<< (64 - n)) % 2 ^ 64

/-- The message schedule, newest word first. -/
def shaSchedule : Nat → List Nat → List Nat
  | 0, w => w
  | n + 1, w =>
    let a := w.getD 14 0
    let b := w.getD 1 0
    let s0 := rotr64 1 a ^^^ rotr64 8 a ^^^ a >>> 7
    let s1 := rotr64 19 b ^^^ rotr64 61 b ^^^ b >>> 6
    shaSchedule n ((s1 + w.getD 6 0 + s0 + w.getD 15 0) % 2 ^ 64 :: w)

/-- One round with its constant and word. -/
def shaRound (h : List Nat) (kw : Nat × Nat) : List Nat :=
  match h with
  | [a, b, c, d, e, f, g, i] =>
    let t1 := i + (rotr64 14 e ^^^ rotr64 18 e ^^^ rotr64 41 e) + ((e &&& f) ^^^ ((2 ^ 64 - 1 - e) &&& g)) + kw.1 + kw.2
    let t2 := (rotr64 28 a ^^^ rotr64 34 a ^^^ rotr64 39 a) + ((a &&& b) ^^^ (a &&& c) ^^^ (b &&& c))
    [(t1 + t2) % 2 ^ 64, a, b, c, (d + t1) % 2 ^ 64, e, f, g]
  | _ => h

/-- The number of big-endian bytes. -/
def bigNat (bs : List Nat) : Nat := bs.foldl (fun a b => a * 256 + b % 256) 0

/-- One block of 128 bytes. -/
def shaBlock (h : List Nat) (bs : List Nat) : List Nat :=
  let w := ((List.range 16).map fun i => bigNat ((bs.drop (8 * i)).take 8)).reverse
  let r := (shaK.zip (shaSchedule 64 w).reverse).foldl shaRound h
  (h.zip r).map fun p => (p.1 + p.2) % 2 ^ 64

/-- The blocks of a padded message. -/
def shaBlocks : Nat → List Nat → List Nat → List Nat
  | 0, h, _ => h
  | n + 1, h, bs => if bs.isEmpty then h else shaBlocks n (shaBlock h (bs.take 128)) (bs.drop 128)

/-- Message, the bit 1, zeros, and the length in bits in 16 big-endian bytes. -/
def shaPad (bs : List Nat) : List Nat :=
  bs ++ [0x80] ++ List.replicate ((239 - bs.length % 128) % 128) 0 ++ (natBytes 16 (8 * bs.length)).reverse

end Sys2Proof.Machine

namespace Sys2Proof.Config

open Sys2Proof.Machine

/-- BLAKE3 of a string of bytes, 256 bits (R27, R255, R282). -/
def blake3 (bs : List Nat) : Nat := b3Hash b3Iv 0 bs

/-- BLAKE3 keyed mode: a key of 256 bits, then bytes (R361). -/
def blake3Keyed (key : Nat) (bs : List Nat) : Nat := b3Hash ((List.range 8).map fun i => bits key (32 * i) 32) 16 bs

/-- SHA-384 of a string of bytes: the number of its 48 bytes in little-endian order (R8). -/
def sha384 (bs : List Nat) : Nat :=
  let m := shaPad bs
  bytesNat (((shaBlocks (m.length / 128) sha384Iv m).take 6).flatMap fun w => (natBytes 8 w).reverse)

end Sys2Proof.Config
end

