-- ==== Sys2Proof/Machine/Objects.lean ====
section
/-! DEFINITION. The object dictionary's tables (R9, R503, R506, R507, R510): the key of every object by its name, and one descriptor per row of the chapters' object tables: where the object stands, its type, its access code for each role, its default and its range. A key is index × 256 + sub. -/

namespace Sys2Proof.Machine.O

/-- 0x2000.01 FtState, U8 (R68). -/
abbrev FtState : Nat := 0x200001
/-- 0x2000.02 FtNow, FtStamp (R68). -/
abbrev FtNow : Nat := 0x200002
/-- 0x2000.03 FtSegment, U16 (R68). -/
abbrev FtSegment : Nat := 0x200003
/-- 0x2000.04 MasterOffset, I64 (R68). -/
abbrev MasterOffset : Nat := 0x200004
/-- 0x2000.05 RateCorrection, I32 (R68). -/
abbrev RateCorrection : Nat := 0x200005
/-- 0x2001.01 FtStartValue, U64 (R68). -/
abbrev FtStartValue : Nat := 0x200101
/-- 0x2001.02 SyncInterval, U32 (R68). -/
abbrev SyncInterval : Nat := 0x200102
/-- 0x2001.03 LockThreshold, U32 (R68). -/
abbrev LockThreshold : Nat := 0x200103
/-- 0x2001.04 HoldoverTimeout, U32 (R68). -/
abbrev HoldoverTimeout : Nat := 0x200104
/-- 0x2001.05 SlewLimit, U16 (R68). -/
abbrev SlewLimit : Nat := 0x200105
/-- 0x2001.06 StepForwardThreshold, U64 (R68). -/
abbrev StepForwardThreshold : Nat := 0x200106
/-- 0x2002.01–0x2002.48 DieLinkAsymmetry, I32 (R68). -/
abbrev DieLinkAsymmetry : Nat := 0x200201
/-- 0x2003.01–0x2003.10 FabricLinkAsymmetry, I32 (R68). -/
abbrev FabricLinkAsymmetry : Nat := 0x200301
/-- 0x2004.01 DozeSyncLimit, U16 (R68). -/
abbrev DozeSyncLimit : Nat := 0x200401
/-- 0x2010.01 UtOffset, I64 (R68). -/
abbrev UtOffset : Nat := 0x201001
/-- 0x2010.02 UtRate, I32 (R68). -/
abbrev UtRate : Nat := 0x201002
/-- 0x2010.03 LeapSeconds, I16 (R68). -/
abbrev LeapSeconds : Nat := 0x201003
/-- 0x2010.04 UtSource, U8 (R68). -/
abbrev UtSource : Nat := 0x201004
/-- 0x2020.01 OhSeconds, U64 (R68). -/
abbrev OhSeconds : Nat := 0x202001
/-- 0x2020.02 PowerCycles, U32 (R68). -/
abbrev PowerCycles : Nat := 0x202002
/-- 0x2100+n.01–.05 PulseControl, U32 (R68). -/
abbrev PulseControl : Nat := 0x210001
/-- 0x2100+n.01–.05 PulseStartFt, FT80 (R68). -/
abbrev PulseStartFt : Nat := 0x210002
/-- 0x2100+n.01–.05 PulsePeriod, FT80 (R68). -/
abbrev PulsePeriod : Nat := 0x210003
/-- 0x2100+n.01–.05 PulseWidth, U32 (R68). -/
abbrev PulseWidth : Nat := 0x210004
/-- 0x2100+n.01–.05 PulseCount, U32 (R68). -/
abbrev PulseCount : Nat := 0x210005
/-- 0x2120.01–0x2120.08 CaptureEnable, U8 (R68). -/
abbrev CaptureEnable : Nat := 0x212001
/-- 0x2200.01 RtState, U8 (R68). -/
abbrev RtState : Nat := 0x220001
/-- 0x2200.02 RtNow, RtWord (R68). -/
abbrev RtNow : Nat := 0x220002
/-- 0x2200.03 RtReportMu, U8 (R68). -/
abbrev RtReportMu : Nat := 0x220003
/-- 0x2200.04 RtHoldoverLimit, U16 (R68). -/
abbrev RtHoldoverLimit : Nat := 0x220004
/-- 0x2200.05 RtHoldoverMargin, U32 (R68). -/
abbrev RtHoldoverMargin : Nat := 0x220005
/-- 0x2200.06 ReadDrain, U32 (R68). -/
abbrev ReadDrain : Nat := 0x220006
/-- 0x2210+n.01–.05 GuardEnable, U8 (R68). -/
abbrev GuardEnable : Nat := 0x221001
/-- 0x2210+n.01–.05 GuardMu, U8 (R68). -/
abbrev GuardMu : Nat := 0x221002
/-- 0x2210+n.01–.05 GuardSlotMask, BITS80 (R68). -/
abbrev GuardSlotMask : Nat := 0x221003
/-- 0x2210+n.01–.05 GuardStartOffset, I32 (R68). -/
abbrev GuardStartOffset : Nat := 0x221004
/-- 0x2210+n.01–.05 GuardLength, U32 (R68). -/
abbrev GuardLength : Nat := 0x221005
/-- 0x2300.01 ActionQueueFree, U16 (R68). -/
abbrev ActionQueueFree : Nat := 0x230001
/-- 0x2300.02 ActionRefused, U32 (R68). -/
abbrev ActionRefused : Nat := 0x230002
/-- 0x2300.03 ActionCancel, U32 (R68). -/
abbrev ActionCancel : Nat := 0x230003
/-- 0x2800.01 HostMemBandwidth, U32 (R99). -/
abbrev HostMemBandwidth : Nat := 0x280001
/-- 0x2800.02 ReadBudget, U16 (R99). -/
abbrev ReadBudget : Nat := 0x280002
/-- 0x2800.03 ReadBurst, U32 (R99). -/
abbrev ReadBurst : Nat := 0x280003
/-- 0x2800.04 ReadTimeout, U32 (R99). -/
abbrev ReadTimeout : Nat := 0x280004
/-- 0x2801.01 TapWired, BITS256 (R99). -/
abbrev TapWired : Nat := 0x280101
/-- 0x2801.02 TapOverflow, BITS256 (R99). -/
abbrev TapOverflow : Nat := 0x280102
/-- 0x2801.03 TapEarly, BITS16 (R99). -/
abbrev TapEarly : Nat := 0x280103
/-- 0x2802.01 FenceAckLimit, U32 (R99). -/
abbrev FenceAckLimit : Nat := 0x280201
/-- 0x2802.02 HaltAckLimit, U32 (R99). -/
abbrev HaltAckLimit : Nat := 0x280202
/-- 0x2803.01–0x2803.40 UnitGroupMap, U32 (R99). -/
abbrev UnitGroupMap : Nat := 0x280301
/-- 0x2804.01–0x2804.10 SnapChainLength, U32 (R99). -/
abbrev SnapChainLength : Nat := 0x280401
/-- 0x2805.01–0x2805.10 SnapLatency, U16 (R99). -/
abbrev SnapLatency : Nat := 0x280501
/-- 0x2806.01 HangChains, BITS16 (R99). -/
abbrev HangChains : Nat := 0x280601
/-- 0x2807.01 SnapPulseWidth, U8 (R99). -/
abbrev SnapPulseWidth : Nat := 0x280701
/-- 0x2808.01–0x2808.20 OeRetuneProfile, U32 (R99). -/
abbrev OeRetuneProfile : Nat := 0x280801
/-- 0x3000–0x301F.01–.80 CounterConfig, U64 (R120). -/
abbrev CounterConfig : Nat := 0x300001
/-- 0x3020–0x303F.01–.80 CounterValue, U64 (R120). -/
abbrev CounterValue : Nat := 0x302001
/-- 0x3050+s.01 SetSize, U16 (R120). -/
abbrev SetSize : Nat := 0x305001
/-- 0x3050+s.02–.81 SetMembers, U64 (R120). -/
abbrev SetMembers : Nat := 0x305002
/-- 0x3050+s.82 SetVersion, U16 (R120). -/
abbrev SetVersion : Nat := 0x305082
/-- 0x3058.01 SetCommit, BITS8 (R120). -/
abbrev SetCommit : Nat := 0x305801
/-- 0x3058.02 SetBusy, BITS8 (R120). -/
abbrev SetBusy : Nat := 0x305802
/-- 0x3059.01–.10 StreamSet, U8 (R120). -/
abbrev StreamSet : Nat := 0x305901
/-- 0x305A.01 SampleInterval, U32 (R120). -/
abbrev SampleInterval : Nat := 0x305A01
/-- 0x305A.02 SampleVersion, U16 (R120). -/
abbrev SampleVersion : Nat := 0x305A02
/-- 0x305B.01 OpenCommands, U16 (R120). -/
abbrev OpenCommands : Nat := 0x305B01
/-- 0x305B.02 LatchStoreFree, U16 (R120). -/
abbrev LatchStoreFree : Nat := 0x305B02
/-- 0x305B.03 StartsDropped, U32 (R120). -/
abbrev StartsDropped : Nat := 0x305B03
/-- 0x305B.04 RecordsTruncated, U32 (R120). -/
abbrev RecordsTruncated : Nat := 0x305B04
/-- 0x305C.01–.80 CounterClear, BITS32 (R120). -/
abbrev CounterClear : Nat := 0x305C01
/-- 0x3480.01 BenchEnable, U8 (R144). -/
abbrev BenchEnable : Nat := 0x348001
/-- 0x3480.02 BenchDie, U32 (R144). -/
abbrev BenchDie : Nat := 0x348002
/-- 0x3480.03 BenchSources, BITS64 (R144). -/
abbrev BenchSources : Nat := 0x348003
/-- 0x3480.04 BenchTypes, BITS256 (R144). -/
abbrev BenchTypes : Nat := 0x348004
/-- 0x3480.05 BenchGaps, U32 (R144). -/
abbrev BenchGaps : Nat := 0x348005
/-- 0x3480.06 BenchWithheld, U32 (R144). -/
abbrev BenchWithheld : Nat := 0x348006
/-- 0x3400.01–.40 TraceSource, U32 (R146). -/
abbrev TraceSource : Nat := 0x340001
/-- 0x3401.01 TraceCadence, U16 (R146). -/
abbrev TraceCadence : Nat := 0x340101
/-- 0x3401.02 FullSyncEvery, U16 (R146). -/
abbrev FullSyncEvery : Nat := 0x340102
/-- 0x3401.03 FlushLatency, U16 (R146). -/
abbrev FlushLatency : Nat := 0x340103
/-- 0x3401.04–.07 ClassThreshold, U8 (R146). -/
abbrev ClassThreshold : Nat := 0x340104
/-- 0x3402.01 TraceEnable, BITS64 (R146). -/
abbrev TraceEnable : Nat := 0x340201
/-- 0x3403.01 BufferFill, U32 (R146). -/
abbrev BufferFill : Nat := 0x340301
/-- 0x3404.01–.40 LossBytes, U64 (R146). -/
abbrev LossBytes : Nat := 0x340401
/-- 0x3405.01–.40 DozeCount, U32 (R146). -/
abbrev DozeCount : Nat := 0x340501
/-- 0x3410+k.01–.03 CompConfig, U32 (R146). -/
abbrev CompConfig : Nat := 0x341001
/-- 0x3410+k.01–.03 CompValue, U64 (R146). -/
abbrev CompValue : Nat := 0x341002
/-- 0x3410+k.01–.03 CompMask, U64 (R146). -/
abbrev CompMask : Nat := 0x341003
/-- 0x3418+j.01–.03 SeqCounterInc, BITS8 (R146). -/
abbrev SeqCounterInc : Nat := 0x341801
/-- 0x3418+j.01–.03 SeqCounterTarget, U32 (R146). -/
abbrev SeqCounterTarget : Nat := 0x341802
/-- 0x3418+j.01–.03 SeqCounterValue, U32 (R146). -/
abbrev SeqCounterValue : Nat := 0x341803
/-- 0x3420+s.01–.02 StateControl, U64 (R146). -/
abbrev StateControl : Nat := 0x342001
/-- 0x3420+s.01–.02 SourceMask, BITS64 (R146). -/
abbrev SourceMask : Nat := 0x342002
/-- 0x3428.01 SeqControl, U8 (R146). -/
abbrev SeqControl : Nat := 0x342801
/-- 0x3800.01–.04 LaneWeight, U8 (R175). -/
abbrev LaneWeight : Nat := 0x380001
/-- 0x3800.05 StrictCeiling, U8 (R175). -/
abbrev StrictCeiling : Nat := 0x380005
/-- 0x3801.01 LaneState, U8 (R175). -/
abbrev LaneState : Nat := 0x380101
/-- 0x3801.02 SlotNumber, U8 (R175). -/
abbrev SlotNumber : Nat := 0x380102
/-- 0x3801.03 SpareActive, U8 (R175). -/
abbrev SpareActive : Nat := 0x380103
/-- 0x3801.04 SelectedChannel, U8 (R175). -/
abbrev SelectedChannel : Nat := 0x380104
/-- 0x3801.05 RetransmitLost, U32 (R175). -/
abbrev RetransmitLost : Nat := 0x380105
/-- 0x3801.06 AlarmOverflow, U32 (R175). -/
abbrev AlarmOverflow : Nat := 0x380106
/-- 0x3802.01 LaneKeepalive, U16 (R175). -/
abbrev LaneKeepalive : Nat := 0x380201
/-- 0x3802.02 RetuneSettle, U16 (R175). -/
abbrev RetuneSettle : Nat := 0x380202
/-- 0x3840.01–.48 SlotState, U8 (R175). -/
abbrev SlotState : Nat := 0x384001
/-- 0x3841.01–.48 FecCorrected, U64 (R175). -/
abbrev FecCorrected : Nat := 0x384101
/-- 0x3842.01–.48 FecUncorrectable, U64 (R175). -/
abbrev FecUncorrectable : Nat := 0x384201
/-- 0x3843.01–.08 SpareOwner, U8 (R175). -/
abbrev SpareOwner : Nat := 0x384301
/-- 0x3844.01 DegradeThreshold, U32 (R175). -/
abbrev DegradeThreshold : Nat := 0x384401
/-- 0x3844.02 AutoRetune, U8 (R175). -/
abbrev AutoRetune : Nat := 0x384402
/-- 0x3845.01 SlotReset, U8 (R175). -/
abbrev SlotReset : Nat := 0x384501
/-- 0x3845.02 SpareTrainSlot, U8 (R175). -/
abbrev SpareTrainSlot : Nat := 0x384502
/-- 0x3845.03 RevertSlot, U8 (R175). -/
abbrev RevertSlot : Nat := 0x384503
/-- 0x1010.01 InputPower, U32 (R202). -/
abbrev InputPower : Nat := 0x101001
/-- 0x1010.02 PowerLimit, U16 (R202). -/
abbrev PowerLimit : Nat := 0x101002
/-- 0x1010.03 InputVoltage, U16 (R202). -/
abbrev InputVoltage : Nat := 0x101003
/-- 0x1010.04 ThrottleStep, U8 (R202). -/
abbrev ThrottleStep : Nat := 0x101004
/-- 0x1020.01–.24 Temperature, I16 (R202). -/
abbrev Temperature : Nat := 0x102001
/-- 0x1040.01–.10 PortUse, U8 (R202). -/
abbrev PortUse : Nat := 0x104001
/-- 0x1040.11 LinkWidth, U8 (R202). -/
abbrev LinkWidth : Nat := 0x104011
/-- 0x1041.01 PlanStatus, U8 (R202). -/
abbrev PlanStatus : Nat := 0x104101
/-- 0x1050.01 Tier2Present, BITS4 (R202). -/
abbrev Tier2Present : Nat := 0x105001
/-- 0x1050.02–.05 Tier2Capacity, U16 (R202). -/
abbrev Tier2Capacity : Nat := 0x105002
/-- 0x1060.01 HostLinkSpeed, U8 (R202). -/
abbrev HostLinkSpeed : Nat := 0x106001
/-- 0x1060.02 HostLinkWidth, U8 (R202). -/
abbrev HostLinkWidth : Nat := 0x106002
/-- 0x1060.03 VfCount, U16 (R202). -/
abbrev VfCount : Nat := 0x106003
/-- 0x1070.01 PfRingTable, U64 (R202). -/
abbrev PfRingTable : Nat := 0x107001
/-- 0x1070.02 PfRingCount, U8 (R202). -/
abbrev PfRingCount : Nat := 0x107002
/-- 0x1070.03 RingFetchMax, U16 (R202). -/
abbrev RingFetchMax : Nat := 0x107003
/-- 0x1070.04 RingCadence, U32 (R202). -/
abbrev RingCadence : Nat := 0x107004
/-- 0x3C00.01 RingAdmissionRate, U16 (R225). -/
abbrev RingAdmissionRate : Nat := 0x3C0001
/-- 0x3C00.02 RingAdmissionBurst, U32 (R225). -/
abbrev RingAdmissionBurst : Nat := 0x3C0002
/-- 0x3C00.03 RingFining, U8 (R225). -/
abbrev RingFining : Nat := 0x3C0003
/-- 0x3C00.04 ChunkMaxAge, U32 (R225). -/
abbrev ChunkMaxAge : Nat := 0x3C0004
/-- 0x3C00.05 PinLimit, U16 (R225). -/
abbrev PinLimit : Nat := 0x3C0005
/-- 0x3C01.01–.04 ReserveThreshold, U8 (R225). -/
abbrev ReserveThreshold : Nat := 0x3C0101
/-- 0x3C02.01 PreWindow, U32 (R225). -/
abbrev PreWindow : Nat := 0x3C0201
/-- 0x3C02.02 PostWindow, U32 (R225). -/
abbrev PostWindow : Nat := 0x3C0202
/-- 0x3C03.01 CasksOpen, U8 (R225). -/
abbrev CasksOpen : Nat := 0x3C0301
/-- 0x3C03.02 TriggersRefused, U32 (R225). -/
abbrev TriggersRefused : Nat := 0x3C0302
/-- 0x3C03.03 RingDroppedBytes, U64 (R225). -/
abbrev RingDroppedBytes : Nat := 0x3C0303
/-- 0x3C03.04 ReserveFill, U64 (R225). -/
abbrev ReserveFill : Nat := 0x3C0304
/-- 0x3C03.05 StagingOverruns, U32 (R225). -/
abbrev StagingOverruns : Nat := 0x3C0305
/-- 0x3C03.06 UndecodableRecords, U32 (R225). -/
abbrev UndecodableRecords : Nat := 0x3C0306
/-- 0x3C03.07 MalformedRecords, U32 (R225). -/
abbrev MalformedRecords : Nat := 0x3C0307
/-- 0x3C04.01 CaskSeal, U32 (R225). -/
abbrev CaskSeal : Nat := 0x3C0401
/-- 0x3C04.02 CaskRelease, U32 (R225). -/
abbrev CaskRelease : Nat := 0x3C0402
/-- 0x3C04.03 Tier2Free, U32 (R225). -/
abbrev Tier2Free : Nat := 0x3C0403
/-- 0x3C05.01 RingSize, U16 (R225). -/
abbrev RingSize : Nat := 0x3C0501
/-- 0x3C05.02 PostReserveSize, U16 (R225). -/
abbrev PostReserveSize : Nat := 0x3C0502
/-- 0x3C05.03 FeatureStagingSize, U16 (R225). -/
abbrev FeatureStagingSize : Nat := 0x3C0503
/-- 0x3C10+r.01 RuleKind, U8 (R225). -/
abbrev RuleKind : Nat := 0x3C1001
/-- 0x3C10+r.02 RuleMatch, U64 (R225). -/
abbrev RuleMatch : Nat := 0x3C1002
/-- 0x3C10+r.03 RuleScope, BITS64 (R225). -/
abbrev RuleScope : Nat := 0x3C1003
/-- 0x3C20.01–.04 FiningQueueFree, U16 (R225). -/
abbrev FiningQueueFree : Nat := 0x3C2001
/-- 0x3C20.05 FiningSubmit, U64 (R225). -/
abbrev FiningSubmit : Nat := 0x3C2005
/-- 0x3C20.06 FiningAbort, U32 (R225). -/
abbrev FiningAbort : Nat := 0x3C2006
/-- 0x305D.01 HeladFining, U8 (R225). -/
abbrev HeladFining : Nat := 0x305D01
/-- 0x305D.02 FiningResync, U16 (R225). -/
abbrev FiningResync : Nat := 0x305D02
/-- 0x4000.01 SeriesHashSeed, U32 (R248). -/
abbrev SeriesHashSeed : Nat := 0x400001
/-- 0x4000.02 SeriesWindow, U32 (R248). -/
abbrev SeriesWindow : Nat := 0x400002
/-- 0x4000.03 DormantHold, U32 (R248). -/
abbrev DormantHold : Nat := 0x400003
/-- 0x4000.04 ForwardInterval, U32 (R248). -/
abbrev ForwardInterval : Nat := 0x400004
/-- 0x4001.01 SeriesEntries, U32 (R248). -/
abbrev SeriesEntries : Nat := 0x400101
/-- 0x4001.02 SeriesOverflows, U64 (R248). -/
abbrev SeriesOverflows : Nat := 0x400102
/-- 0x4001.03 LastOverflowKey, U64 (R248). -/
abbrev LastOverflowKey : Nat := 0x400103
/-- 0x4001.04 SamplesDiscarded, U32 (R248). -/
abbrev SamplesDiscarded : Nat := 0x400104
/-- 0x4001.05 DriftAlarms, U32 (R248). -/
abbrev DriftAlarms : Nat := 0x400105
/-- 0x4002.01 Rebaseline, U64 (R248). -/
abbrev Rebaseline : Nat := 0x400201
/-- 0x4010–0x402F.01–.80 SeriesParam, U64 (R248). -/
abbrev SeriesParam : Nat := 0x401001
/-- 0x4100+e.01 StepConfig, U64 (R248). -/
abbrev StepConfig : Nat := 0x410001
/-- 0x4100+e.02 StepLimits, U64 (R248). -/
abbrev StepLimits : Nat := 0x410002
/-- 0x4100+e.03 StepHome, U8 (R248). -/
abbrev StepHome : Nat := 0x410003
/-- 0x4100+e.04 OpenSteps, U8 (R248). -/
abbrev OpenSteps : Nat := 0x410004
/-- 0x4500.01 StepLate, U32 (R248). -/
abbrev StepLate : Nat := 0x450001
/-- 0x4500.02 StepsForced, U32 (R248). -/
abbrev StepsForced : Nat := 0x450002
/-- 0x4500.03 Advisories, U32 (R248). -/
abbrev Advisories : Nat := 0x450003
/-- 0x4700.01 EpochLength, U32 (R274). -/
abbrev EpochLength : Nat := 0x470001
/-- 0x4700.02 GracePerLevel, U32 (R274). -/
abbrev GracePerLevel : Nat := 0x470002
/-- 0x4700.03 ResultBudget, U32 (R274). -/
abbrev ResultBudget : Nat := 0x470003
/-- 0x4700.04 SupplementHold, U32 (R274). -/
abbrev SupplementHold : Nat := 0x470004
/-- 0x4700.05 EpochNow, U64 (R274). -/
abbrev EpochNow : Nat := 0x470005
/-- 0x4700.06 EpochStartNs, U64 (R274). -/
abbrev EpochStartNs : Nat := 0x470006
/-- 0x4700.07 ReductionCommit, U8 (R274). -/
abbrev ReductionCommit : Nat := 0x470007
/-- 0x4700.08 CommitEpoch, U64 (R274). -/
abbrev CommitEpoch : Nat := 0x470008
/-- 0x4701.01 LateContributions, U32 (R274). -/
abbrev LateContributions : Nat := 0x470101
/-- 0x4701.02 LateDiscarded, U64 (R274). -/
abbrev LateDiscarded : Nat := 0x470102
/-- 0x4701.03 DefMismatches, U32 (R274). -/
abbrev DefMismatches : Nat := 0x470103
/-- 0x4701.04 Duplicates, U32 (R274). -/
abbrev Duplicates : Nat := 0x470104
/-- 0x4800+r.01 ReductionDef, U64 (R274). -/
abbrev ReductionDef : Nat := 0x480001
/-- 0x4800+r.02 ReductionSelect, U64 (R274). -/
abbrev ReductionSelect : Nat := 0x480002
/-- 0x4800+r.03 ReductionStatus, U8 (R274). -/
abbrev ReductionStatus : Nat := 0x480003
/-- 0x4800+r.04 DefDigest, BITS128 (R274). -/
abbrev DefDigest : Nat := 0x480004
/-- 0x4900+s.01 LauterSlotState, U8 (R299). -/
abbrev LauterSlotState : Nat := 0x490001
/-- 0x4900+s.02 ModelDigest, BITS128 (R299). -/
abbrev ModelDigest : Nat := 0x490002
/-- 0x4900+s.03 MalformedCause, U8 (R299). -/
abbrev MalformedCause : Nat := 0x490003
/-- 0x4900+s.04 MalformedDetail, U32 (R299). -/
abbrev MalformedDetail : Nat := 0x490004
/-- 0x4900+s.05 SlotClear, U8 (R299). -/
abbrev SlotClear : Nat := 0x490005
/-- 0x4900+s.06 SlotModelId, U64 (R299). -/
abbrev SlotModelId : Nat := 0x490006
/-- 0x4910+b.01 LauterBinding, U64 (R299). -/
abbrev LauterBinding : Nat := 0x491001
/-- 0x4920.01 BatchLatency, U32 (R299). -/
abbrev BatchLatency : Nat := 0x492001
/-- 0x4920.02 SwitchesPending, U8 (R299). -/
abbrev SwitchesPending : Nat := 0x492002
/-- 0x4920.03 VectorsScored, U64 (R299). -/
abbrev VectorsScored : Nat := 0x492003
/-- 0x4920.04 VectorsDiscarded, U64 (R299). -/
abbrev VectorsDiscarded : Nat := 0x492004
/-- 0x4920.05 SwitchInstant, FT80 (R299). -/
abbrev SwitchInstant : Nat := 0x492005
/-- 0x4920.06 SwitchIssue, U8 (R299). -/
abbrev SwitchIssue : Nat := 0x492006
/-- 0x4920.07 ResultsInvalid, U64 (R299). -/
abbrev ResultsInvalid : Nat := 0x492007
/-- 0x4B00+r.01 RegionState, U8 (R321). -/
abbrev RegionState : Nat := 0x4B0001
/-- 0x4B00+r.02 RegionActive, U8 (R321). -/
abbrev RegionActive : Nat := 0x4B0002
/-- 0x4B00+r.03 RegionPending, U8 (R321). -/
abbrev RegionPending : Nat := 0x4B0003
/-- 0x4B00+r.04 RegionDigest, BITS128 (R321). -/
abbrev RegionDigest : Nat := 0x4B0004
/-- 0x4B00+r.05 RegionContexts, BITS64 (R321). -/
abbrev RegionContexts : Nat := 0x4B0005
/-- 0x4B00+r.06 RegionRecordsIn, U64 (R321). -/
abbrev RegionRecordsIn : Nat := 0x4B0006
/-- 0x4B00+r.07 RegionVectorsOut, U64 (R321). -/
abbrev RegionVectorsOut : Nat := 0x4B0007
/-- 0x4B00+r.08 RegionSkipped, U64 (R321). -/
abbrev RegionSkipped : Nat := 0x4B0008
/-- 0x4B00+r.09 RegionFaultCause, U8 (R321). -/
abbrev RegionFaultCause : Nat := 0x4B0009
/-- 0x4B10.01 RecordTimeout, U32 (R321). -/
abbrev RecordTimeout : Nat := 0x4B1001
/-- 0x4B10.02 RegionSwitchInstant, FT80 (R321). -/
abbrev RegionSwitchInstant : Nat := 0x4B1002
/-- 0x4B10.03 RegionSwitchIssue, U16 (R321). -/
abbrev RegionSwitchIssue : Nat := 0x4B1003
/-- 0x4B10.04 FeatureOverruns, U32 (R321). -/
abbrev FeatureOverruns : Nat := 0x4B1004
/-- 0x4B40+i.01 MashImageState, U8 (R321). -/
abbrev MashImageState : Nat := 0x4B4001
/-- 0x4B40+i.02 MashImageDigest, BITS128 (R321). -/
abbrev MashImageDigest : Nat := 0x4B4002
/-- 0x4B40+i.03 MashImageCause, U8 (R321). -/
abbrev MashImageCause : Nat := 0x4B4003
/-- 0x4B40+i.04 MashImageClear, U8 (R321). -/
abbrev MashImageClear : Nat := 0x4B4004
/-- 0x4B40+i.05 ImageGraphId, U64 (R321). -/
abbrev ImageGraphId : Nat := 0x4B4005
/-- 0x4C00+g.01 GroupState, U8 (R351). -/
abbrev GroupState : Nat := 0x4C0001
/-- 0x4C00+g.02 GroupActive, U8 (R351). -/
abbrev GroupActive : Nat := 0x4C0002
/-- 0x4C00+g.03 GroupPending, U8 (R351). -/
abbrev GroupPending : Nat := 0x4C0003
/-- 0x4C00+g.04 GroupDigest, BITS128 (R351). -/
abbrev GroupDigest : Nat := 0x4C0004
/-- 0x4C00+g.05 GroupContexts, BITS64 (R351). -/
abbrev GroupContexts : Nat := 0x4C0005
/-- 0x4C00+g.06 GroupRecordsIn, U64 (R351). -/
abbrev GroupRecordsIn : Nat := 0x4C0006
/-- 0x4C00+g.07 GroupVectorsOut, U64 (R351). -/
abbrev GroupVectorsOut : Nat := 0x4C0007
/-- 0x4C00+g.08 GroupSkipped, U64 (R351). -/
abbrev GroupSkipped : Nat := 0x4C0008
/-- 0x4C00+g.09 GroupFaultCause, U8 (R351). -/
abbrev GroupFaultCause : Nat := 0x4C0009
/-- 0x4C00+g.0A FaultCore, U8 (R351). -/
abbrev FaultCore : Nat := 0x4C000A
/-- 0x4C00+g.0B FaultPc, U16 (R351). -/
abbrev FaultPc : Nat := 0x4C000B
/-- 0x4C10.01 EntryTimeout, U32 (R351). -/
abbrev EntryTimeout : Nat := 0x4C1001
/-- 0x4C10.02 GroupSwitchInstant, FT80 (R351). -/
abbrev GroupSwitchInstant : Nat := 0x4C1002
/-- 0x4C10.03 GroupSwitchIssue, U16 (R351). -/
abbrev GroupSwitchIssue : Nat := 0x4C1003
/-- 0x4C40+i.01 SteepImageState, U8 (R351). -/
abbrev SteepImageState : Nat := 0x4C4001
/-- 0x4C40+i.02 SteepImageDigest, BITS128 (R351). -/
abbrev SteepImageDigest : Nat := 0x4C4002
/-- 0x4C40+i.03 SteepImageCause, U8 (R351). -/
abbrev SteepImageCause : Nat := 0x4C4003
/-- 0x4C40+i.04 SteepImageClear, U8 (R351). -/
abbrev SteepImageClear : Nat := 0x4C4004
/-- 0x4C40+i.05 ImageProgramId, U64 (R351). -/
abbrev ImageProgramId : Nat := 0x4C4005
/-- 0x4E00.01 PitchDuty, U16 (R381). -/
abbrev PitchDuty : Nat := 0x4E0001
/-- 0x4E00.02 PitchOrigin, FT80 (R381). -/
abbrev PitchOrigin : Nat := 0x4E0002
/-- 0x4E00.03 LibraryVersion, U32 (R381). -/
abbrev LibraryVersion : Nat := 0x4E0003
/-- 0x4E00.04 LibStageStatus, U8 (R381). -/
abbrev LibStageStatus : Nat := 0x4E0004
/-- 0x4E00.06 AbortLimit, U8 (R381). -/
abbrev AbortLimit : Nat := 0x4E0006
/-- 0x4E00.07 ProvHold, U32 (R381). -/
abbrev ProvHold : Nat := 0x4E0007
/-- 0x4E00.08 ConditionHold, U32 (R381). -/
abbrev ConditionHold : Nat := 0x4E0008
/-- 0x4E00.09 PitchSkipped, U32 (R381). -/
abbrev PitchSkipped : Nat := 0x4E0009
/-- 0x4E01.01–.10 ProvTableBase, U64 (R381). -/
abbrev ProvTableBase : Nat := 0x4E0101
/-- 0x4E02.01–.10 ProvTableEntries, U32 (R381). -/
abbrev ProvTableEntries : Nat := 0x4E0201
/-- 0x4E04–0x4E05.01–.80 UnitConfig, U64 (R381). -/
abbrev UnitConfig : Nat := 0x4E0401
/-- 0x4E06–0x4E07.01–.80 PitchOutputAddr, U64 (R381). -/
abbrev PitchOutputAddr : Nat := 0x4E0601
/-- 0x4E08–0x4E09.01–.80 PatternImageAddr, U64 (R381). -/
abbrev PatternImageAddr : Nat := 0x4E0801
/-- 0x4E10–0x4E11.01–.80 FenceEntry, U64 (R381). -/
abbrev FenceEntry : Nat := 0x4E1001
/-- 0x4F00.01 LibraryActive, U32 (R381). -/
abbrev LibraryActive : Nat := 0x4F0001
/-- 0x4F00.02 LibraryStaged, U32 (R381). -/
abbrev LibraryStaged : Nat := 0x4F0002
/-- 0x4F00.03 LibraryActivate, U32 (R381). -/
abbrev LibraryActivate : Nat := 0x4F0003
/-- 0x4F00.04 ActivateInstant, FT80 (R381). -/
abbrev ActivateInstant : Nat := 0x4F0004
/-- 0x4F00.05 DiesStaged, U32 (R381). -/
abbrev DiesStaged : Nat := 0x4F0005
/-- 0x4F01.01–.04 FencePolicy, U8 (R381). -/
abbrev FencePolicy : Nat := 0x4F0101
/-- 0x4F01.06 CharacteriseRuns, U16 (R381). -/
abbrev CharacteriseRuns : Nat := 0x4F0106
/-- 0x4F02.01 TaintSettle, U32 (R381). -/
abbrev TaintSettle : Nat := 0x4F0201
/-- 0x4F02.02 TaintNotices, U32 (R381). -/
abbrev TaintNotices : Nat := 0x4F0202
/-- 0x5100+g.01 ReplicaConfig, U64 (R381). -/
abbrev ReplicaConfig : Nat := 0x510001
/-- 0x5100+g.02 RegionLength, U64 (R381). -/
abbrev RegionLength : Nat := 0x510002
/-- 0x5100+g.03 LastOutcome, U8 (R381). -/
abbrev LastOutcome : Nat := 0x510003
/-- 0x4A20.01 CutTime, FT80 (R402). -/
abbrev CutTime : Nat := 0x4A2001
/-- 0x4A20.02 CutKind, U32 (R402). -/
abbrev CutKind : Nat := 0x4A2002
/-- 0x4A20.03 CutGroups, BITS64 (R402). -/
abbrev CutGroups : Nat := 0x4A2003
/-- 0x4A20.04 CutHaltHold, U32 (R402). -/
abbrev CutHaltHold : Nat := 0x4A2004
/-- 0x4A20.05 CutScope, U32 (R402). -/
abbrev CutScope : Nat := 0x4A2005
/-- 0x4A20.06 CutIssue, U8 (R402). -/
abbrev CutIssue : Nat := 0x4A2006
/-- 0x4A20.07 CutRelease, U32 (R402). -/
abbrev CutRelease : Nat := 0x4A2007
/-- 0x4A21.01 CutSettle, U32 (R402). -/
abbrev CutSettle : Nat := 0x4A2101
/-- 0x4A21.02 CutSpacing, U32 (R402). -/
abbrev CutSpacing : Nat := 0x4A2102
/-- 0x4A21.03 CutsOpen, U8 (R402). -/
abbrev CutsOpen : Nat := 0x4A2103
/-- 0x4A21.04 LateCutReports, U32 (R402). -/
abbrev LateCutReports : Nat := 0x4A2104
/-- 0x4A21.05 LastCutStatus, U32 (R402). -/
abbrev LastCutStatus : Nat := 0x4A2105
/-- 0x4A21.06 LastCutNumber, U32 (R402). -/
abbrev LastCutNumber : Nat := 0x4A2106
/-- 0x4A28.01 HeladCutNumber, U32 (R402). -/
abbrev HeladCutNumber : Nat := 0x4A2801
/-- 0x4A28.02 SnapBufferFill, U32 (R402). -/
abbrev SnapBufferFill : Nat := 0x4A2802
/-- 0x1100.01 TwinState, U8 (R426). -/
abbrev TwinState : Nat := 0x110001
/-- 0x1100.02 LeadTerm, U16 (R426). -/
abbrev LeadTerm : Nat := 0x110002
/-- 0x1100.03 HeartbeatInterval, U16 (R426). -/
abbrev HeartbeatInterval : Nat := 0x110003
/-- 0x1100.04 HeartbeatMiss, U8 (R426). -/
abbrev HeartbeatMiss : Nat := 0x110004
/-- 0x1100.05 MismatchLimit, U8 (R426). -/
abbrev MismatchLimit : Nat := 0x110005
/-- 0x1100.06 LeadHandover, U8 (R426). -/
abbrev LeadHandover : Nat := 0x110006
/-- 0x1100.07 ResyncRetry, U32 (R426). -/
abbrev ResyncRetry : Nat := 0x110007
/-- 0x1100.08–.0A ApexWitness, U32 (R426). -/
abbrev ApexWitness : Nat := 0x110008
/-- 0x1100.0B UncomparedEpochs, U32 (R426). -/
abbrev UncomparedEpochs : Nat := 0x11000B
/-- 0x1100.0C MismatchEpochs, U32 (R426). -/
abbrev MismatchEpochs : Nat := 0x11000C
/-- 0x1100.0D DuplicateContributions, U32 (R426). -/
abbrev DuplicateContributions : Nat := 0x11000D
/-- 0x1100.0E ResyncSpill, U16 (R426). -/
abbrev ResyncSpill : Nat := 0x11000E
/-- 0x1101.01 FailedRemoveHold, U32 (R426). -/
abbrev FailedRemoveHold : Nat := 0x110101
/-- 0x1101.02 ChildRemoveHold, U32 (R426). -/
abbrev ChildRemoveHold : Nat := 0x110102
/-- 0x1101.03 MemberVersion, U32 (R426). -/
abbrev MemberVersion : Nat := 0x110103
/-- 0x1101.04 MemberCount, U32 (R426). -/
abbrev MemberCount : Nat := 0x110104
/-- 0x1101.05 DieRemove, U32 (R426). -/
abbrev DieRemove : Nat := 0x110105
/-- 0x1110.01 PartitionQuery, U16 (R426). -/
abbrev PartitionQuery : Nat := 0x111001
/-- 0x1110.02 PartitionStateOf, U8 (R426). -/
abbrev PartitionStateOf : Nat := 0x111002
/-- 0x1110.03 PartitionsActive, U16 (R426). -/
abbrev PartitionsActive : Nat := 0x111003
/-- 0x1110.04 PartitionQueueFree, U16 (R426). -/
abbrev PartitionQueueFree : Nat := 0x111004
/-- 0x1110.05 PartitionQuarantine, U32 (R426). -/
abbrev PartitionQuarantine : Nat := 0x111005
/-- 0x1110.06 StalePartitionRecords, U32 (R426). -/
abbrev StalePartitionRecords : Nat := 0x111006
/-- 0x1120.01 BroadcastTimeout, U32 (R426). -/
abbrev BroadcastTimeout : Nat := 0x112001
/-- 0x1120.02 TransfersOpen, U8 (R426). -/
abbrev TransfersOpen : Nat := 0x112002
/-- 0x1120.03 BroadcastFailed, U32 (R426). -/
abbrev BroadcastFailed : Nat := 0x112003
/-- 0x5400+p.01 PortShaper, U64 (R443). -/
abbrev PortShaper : Nat := 0x540001
/-- 0x5400+p.02 PortOverhead, U8 (R443). -/
abbrev PortOverhead : Nat := 0x540002
/-- 0x5400+p.03–.07 ClassShaper, U64 (R443). -/
abbrev ClassShaper : Nat := 0x540003
/-- 0x5400+p.08 DecimationFactor, U8 (R443). -/
abbrev DecimationFactor : Nat := 0x540008
/-- 0x5400+p.09 BulkDeferred, U8 (R443). -/
abbrev BulkDeferred : Nat := 0x540009
/-- 0x5410.01 HistogramPeriod, U32 (R443). -/
abbrev HistogramPeriod : Nat := 0x541001
/-- 0x5410.02 DeferDelay, U32 (R443). -/
abbrev DeferDelay : Nat := 0x541002
/-- 0x5410.03 DecimateHold, U32 (R443). -/
abbrev DecimateHold : Nat := 0x541003
/-- 0x5410.04 ResumeWindows, U16 (R443). -/
abbrev ResumeWindows : Nat := 0x541004
/-- 0x5410.05 BulkDeferLost, U64 (R443). -/
abbrev BulkDeferLost : Nat := 0x541005
/-- 0x5410.06 DeferResendRate, U32 (R443). -/
abbrev DeferResendRate : Nat := 0x541006
/-- 0x5410.07 SubscriberOverflow, U64 (R443). -/
abbrev SubscriberOverflow : Nat := 0x541007
/-- 0x5410.08 BulkQueueLimit, U16 (R443). -/
abbrev BulkQueueLimit : Nat := 0x541008
/-- 0x5410.09 BulkDiscarded, U64 (R443). -/
abbrev BulkDiscarded : Nat := 0x541009
/-- 0x5420.01–.40 SampledSubscriber, U64 (R443). -/
abbrev SampledSubscriber : Nat := 0x542001
/-- 0x5430–0x5431.01–.80 SubscriberShaper, U64 (R443). -/
abbrev SubscriberShaper : Nat := 0x543001
/-- 0x5432–0x5433.01–.80 SubscriberKey, U64 (R443). -/
abbrev SubscriberKey : Nat := 0x543201
/-- 0x5440+e.01 ExportSource, U32 (R443). -/
abbrev ExportSource : Nat := 0x544001
/-- 0x5440+e.02 ExportTypes, BITS256 (R443). -/
abbrev ExportTypes : Nat := 0x544002
/-- 0x5440+e.03 ExportTarget, U8 (R443). -/
abbrev ExportTarget : Nat := 0x544003
/-- 0x5800.01 CorrectedCount, U64 (R458). -/
abbrev CorrectedCount : Nat := 0x580001
/-- 0x5800.02 UncorrectableCount, U64 (R458). -/
abbrev UncorrectableCount : Nat := 0x580002
/-- 0x5800.03 PatrolPeriod, U16 (R458). -/
abbrev PatrolPeriod : Nat := 0x580003
/-- 0x5800.04 PatrolProgress, U16 (R458). -/
abbrev PatrolProgress : Nat := 0x580004
/-- 0x5800.05 CeLogInterval, U32 (R458). -/
abbrev CeLogInterval : Nat := 0x580005
/-- 0x5800.06 InitDone, U8 (R458). -/
abbrev InitDone : Nat := 0x580006
/-- 0x5801.01 RowRetire, U32 (R458). -/
abbrev RowRetire : Nat := 0x580101
/-- 0x5801.02 MapEntries, U16 (R458). -/
abbrev MapEntries : Nat := 0x580102
/-- 0x5802.01 MapQuery, U16 (R458). -/
abbrev MapQuery : Nat := 0x580201
/-- 0x5802.02 MapEntry, U32 (R458). -/
abbrev MapEntry : Nat := 0x580202
/-- 0x5803.01 BankRetire, U16 (R458). -/
abbrev BankRetire : Nat := 0x580301
/-- 0x5803.02 BankCopyStatus, U8 (R458). -/
abbrev BankCopyStatus : Nat := 0x580302
/-- 0x5803.03–.16 SparesFree, U8 (R458). -/
abbrev SparesFree : Nat := 0x580303
/-- 0x5804.01 FillSubmit, U64 (R458). -/
abbrev FillSubmit : Nat := 0x580401
/-- 0x5804.02 FillLength, U32 (R458). -/
abbrev FillLength : Nat := 0x580402
/-- 0x5804.03 FillPattern, U64 (R458). -/
abbrev FillPattern : Nat := 0x580403
/-- 0x5900–0x591F.01–.80 IrqSource, U64 (R479). -/
abbrev IrqSource : Nat := 0x590001
/-- 0x5920–0x593F.01–.80 IrqStatus, U32 (R479). -/
abbrev IrqStatus : Nat := 0x592001
/-- 0x5940.01 IrqCompletion, U32 (R479). -/
abbrev IrqCompletion : Nat := 0x594001
/-- 0x5940.02 SoftPost, U16 (R479). -/
abbrev SoftPost : Nat := 0x594002
/-- 0x5940.03 StrayCompletions, U32 (R479). -/
abbrev StrayCompletions : Nat := 0x594003
/-- 0x5940.04 SoftPriv, U8 (R479). -/
abbrev SoftPriv : Nat := 0x594004
/-- 0x5950+q.01 QueueControl, U64 (R479). -/
abbrev QueueControl : Nat := 0x595001
/-- 0x5950+q.02 QueueBase, U32 (R479). -/
abbrev QueueBase : Nat := 0x595002
/-- 0x5950+q.03 QueueProducer, U32 (R479). -/
abbrev QueueProducer : Nat := 0x595003
/-- 0x5950+q.04 QueueConsumer, U32 (R479). -/
abbrev QueueConsumer : Nat := 0x595004
/-- 0x5990+p.01 PrivTarget, U8 (R479). -/
abbrev PrivTarget : Nat := 0x599001
/-- 0x5990+p.02 PrivVector, U64 (R479). -/
abbrev PrivVector : Nat := 0x599002
/-- 0x59A0.01 ErrorQueue, U8 (R479). -/
abbrev ErrorQueue : Nat := 0x59A001
/-- 0x59A0.02 ErrorClose, U64 (R479). -/
abbrev ErrorClose : Nat := 0x59A002
/-- 0x59A0.03 ObserveOnlyExit, U8 (R479). -/
abbrev ObserveOnlyExit : Nat := 0x59A003
/-- 0x59A0.04 ObserveOnly, U8 (R479). -/
abbrev ObserveOnly : Nat := 0x59A004
/-- 0x59A0.05 ContextsOpen, U8 (R479). -/
abbrev ContextsOpen : Nat := 0x59A005
/-- 0x59A0.06 PendingUnits, U16 (R479). -/
abbrev PendingUnits : Nat := 0x59A006
/-- 0x59A0.07 ContextQuery, U8 (R479). -/
abbrev ContextQuery : Nat := 0x59A007
/-- 0x59A0.08 ContextState, BITS512 (R479). -/
abbrev ContextState : Nat := 0x59A008
/-- 0x59B0.01 RecorderFirst, U64 (R479). -/
abbrev RecorderFirst : Nat := 0x59B001
/-- 0x59B0.02 RecorderLast, U64 (R479). -/
abbrev RecorderLast : Nat := 0x59B002
/-- 0x59B0.03 RecorderCursor, U64 (R479). -/
abbrev RecorderCursor : Nat := 0x59B003
/-- 0x59B0.04 RecorderStatus, U8 (R479). -/
abbrev RecorderStatus : Nat := 0x59B004
/-- 0x59B0.05 RecorderMinSeverity, U8 (R479). -/
abbrev RecorderMinSeverity : Nat := 0x59B005
/-- 0x59B0.06 RecorderWrite, U64 (R479). -/
abbrev RecorderWrite : Nat := 0x59B006
/-- 0x59B0.07 RecorderClearArm, U64 (R479). -/
abbrev RecorderClearArm : Nat := 0x59B007
/-- 0x59B0.08 RecorderClear, U64 (R479). -/
abbrev RecorderClear : Nat := 0x59B008
/-- 0x59B0.09 RecorderDropped, U32 (R479). -/
abbrev RecorderDropped : Nat := 0x59B009
/-- 0x59B1+n.01 MirrorGaps, U32 (R479). -/
abbrev MirrorGaps : Nat := 0x59B101
/-- 0x5A00.01 MeasEpoch, U32 (R501). -/
abbrev MeasEpoch : Nat := 0x5A0001
/-- 0x5A00.02 AttestFlags, U8 (R501). -/
abbrev AttestFlags : Nat := 0x5A0002
/-- 0x5A00.03 DomainsInReset, BITS128 (R501). -/
abbrev DomainsInReset : Nat := 0x5A0003
/-- 0x5A01.01–.08 SignerKey, BITS768 (R501). -/
abbrev SignerKey : Nat := 0x5A0101
/-- 0x5A02.01–.08 SignerKinds, BITS8 (R501). -/
abbrev SignerKinds : Nat := 0x5A0201
/-- 0x5A10.01–.40 CredentialKey, BITS768 (R501). -/
abbrev CredentialKey : Nat := 0x5A1001
/-- 0x5A11.01–.40 CredentialRole, U8 (R501). -/
abbrev CredentialRole : Nat := 0x5A1101
/-- 0x5A12.01–.40 CredentialPartition, U16 (R501). -/
abbrev CredentialPartition : Nat := 0x5A1201
/-- 0x5A20–0x5A21.01–.80 VfPartition, U16 (R501). -/
abbrev VfPartition : Nat := 0x5A2001
/-- 0x5A22–0x5A23.01–.80 TdiState, U8 (R501). -/
abbrev TdiState : Nat := 0x5A2201
/-- 0x5A24.01 VfWithheld, U64 (R501). -/
abbrev VfWithheld : Nat := 0x5A2401
/-- 0x5A30.01 AuditFill, U64 (R501). -/
abbrev AuditFill : Nat := 0x5A3001
/-- 0x5A30.02 AuditLost, U64 (R501). -/
abbrev AuditLost : Nat := 0x5A3002
/-- 0x5A30.03 AuditArchiveSize, U16 (R501). -/
abbrev AuditArchiveSize : Nat := 0x5A3003
/-- 0x5A30.04 AuditExported, U64 (R501). -/
abbrev AuditExported : Nat := 0x5A3004
/-- 0x5A30.05 LastSealInterval, U64 (R501). -/
abbrev LastSealInterval : Nat := 0x5A3005
/-- 0x5A30.06 LastRoot, BITS384 (R501). -/
abbrev LastRoot : Nat := 0x5A3006
/-- 0x1000.01 DeviceGid, U32 (R511). -/
abbrev DeviceGid : Nat := 0x100001
/-- 0x1000.02 ProductCode, U32 (R511). -/
abbrev ProductCode : Nat := 0x100002
/-- 0x1000.03 SiliconRevision, U16 (R511). -/
abbrev SiliconRevision : Nat := 0x100003
/-- 0x1000.04 FirmwareVersion, U32 (R511). -/
abbrev FirmwareVersion : Nat := 0x100004
/-- 0x1000.05 SerialNumber, U64 (R511). -/
abbrev SerialNumber : Nat := 0x100005
/-- 0x1000.06 ProvVersion, U32 (R511). -/
abbrev ProvVersion : Nat := 0x100006
/-- 0x1008.01 IcdonRole, U8 (R511). -/
abbrev IcdonRole : Nat := 0x100801
/-- 0x1008.02 RoleActive, U8 (R511). -/
abbrev RoleActive : Nat := 0x100802
/-- 0x1008.03 IcdonNumber, U32 (R511). -/
abbrev IcdonNumber : Nat := 0x100803
/-- 0x1030.01–.02 MgmtAddress, BITS128 (R511). -/
abbrev MgmtAddress : Nat := 0x103001
/-- 0x1030.03 MopUdpPort, U16 (R511). -/
abbrev MopUdpPort : Nat := 0x103003
/-- 0x1030.04 MopMtu, U16 (R511). -/
abbrev MopMtu : Nat := 0x103004
/-- 0x1030.05 SessionsOpen, U8 (R511). -/
abbrev SessionsOpen : Nat := 0x103005
/-- 0x1030.06 MopSendLimit, U32 (R511). -/
abbrev MopSendLimit : Nat := 0x103006
/-- 0x1030.07 ProxyTimeout, U32 (R511). -/
abbrev ProxyTimeout : Nat := 0x103007
/-- 0x1031.01–.05 LastAccessStatus, U64 (R511). -/
abbrev LastAccessStatus : Nat := 0x103101
/-- 0x1031.06 RefusedMirrorWrites, U32 (R511). -/
abbrev RefusedMirrorWrites : Nat := 0x103106
/-- 0x5C00.01 ImageSelect, U8 (R539). -/
abbrev ImageSelect : Nat := 0x5C0001
/-- 0x5C00.02 TrialState, U8 (R539). -/
abbrev TrialState : Nat := 0x5C0002
/-- 0x5C01.01 StageSource, U64 (R539). -/
abbrev StageSource : Nat := 0x5C0101
/-- 0x5C01.02 StageLength, U32 (R539). -/
abbrev StageLength : Nat := 0x5C0102
/-- 0x5C01.03 StageStart, U8 (R539). -/
abbrev StageStart : Nat := 0x5C0103
/-- 0x5C01.04 StageStatus, U8 (R539). -/
abbrev StageStatus : Nat := 0x5C0104
/-- 0x5C01.05 FwActivate, U32 (R539). -/
abbrev FwActivate : Nat := 0x5C0105
/-- 0x5C01.06 ImageConfirm, U32 (R539). -/
abbrev ImageConfirm : Nat := 0x5C0106
/-- 0x5C01.07 ConfirmTimeout, U32 (R539). -/
abbrev ConfirmTimeout : Nat := 0x5C0107
/-- 0x5C02.01 RecoveryOffset, U32 (R539). -/
abbrev RecoveryOffset : Nat := 0x5C0201
/-- 0x5C02.02 RecoveryData, BITS1024 (R539). -/
abbrev RecoveryData : Nat := 0x5C0202
/-- 0x5C02.03 RecoveryCommit, U8 (R539). -/
abbrev RecoveryCommit : Nat := 0x5C0203
/-- 0x5C02.04 RecoveryStatus, U8 (R539). -/
abbrev RecoveryStatus : Nat := 0x5C0204
/-- 0x5C10.01 ColdReset, U32 (R539). -/
abbrev ColdReset : Nat := 0x5C1001
/-- 0x5C10.02 WarmReset, U32 (R539). -/
abbrev WarmReset : Nat := 0x5C1002
/-- 0x5C10.03 DomainReset, U64 (R539). -/
abbrev DomainReset : Nat := 0x5C1003
/-- 0x5C10.04 LastResetCause, U8 (R539). -/
abbrev LastResetCause : Nat := 0x5C1004
/-- 0x5C20+n.01 RouseConfig, U64 (R539). -/
abbrev RouseConfig : Nat := 0x5C2001
/-- 0x5C20+n.02 RouseTarget, U32 (R539). -/
abbrev RouseTarget : Nat := 0x5C2002
/-- 0x5C20+n.03 RouseCount, U32 (R539). -/
abbrev RouseCount : Nat := 0x5C2003
/-- 0x5C20+n.04 RouseLimit, U32 (R539). -/
abbrev RouseLimit : Nat := 0x5C2004

end Sys2Proof.Machine.O

namespace Sys2Proof.Machine

/-- The access codes of R9, with "none" for a dash of R506. -/
inductive Acc where
  | none | ro | rw | wo | w1c
deriving DecidableEq, Repr

/-- One row of an object table (R503–R507): index range, sub range, type code of R503, width in bits,
access of op, mt, au and tp, whether tp is limited to its own partition, "(Apex only)", the default, the range, whether the object is persisted. -/
structure ObjSpec where
  lo : Nat
  hi : Nat
  s0 : Nat
  s1 : Nat
  ty : Nat
  bits : Nat
  op : Acc
  mt : Acc
  au : Acc
  tp : Acc
  own : Bool
  apex : Bool
  dflt : Nat
  rlo : Int
  rhi : Int
  pers : Bool
deriving DecidableEq, Repr

/-- A row with access op ro, mt ro, au ro, tp ro. -/
def ob0 (lo hi s0 s1 ty bits dflt : Nat) (rlo rhi : Int) (pers : Bool) : ObjSpec :=
  ⟨lo, hi, s0, s1, ty, bits, .ro, .ro, .ro, .ro, false, false, dflt, rlo, rhi, pers⟩
/-- A row with access op ro, mt ro, au ro, tp none. -/
def ob1 (lo hi s0 s1 ty bits dflt : Nat) (rlo rhi : Int) (pers : Bool) : ObjSpec :=
  ⟨lo, hi, s0, s1, ty, bits, .ro, .ro, .ro, .none, false, false, dflt, rlo, rhi, pers⟩
/-- A row with access op rw, mt rw, au ro, tp none. -/
def ob2 (lo hi s0 s1 ty bits dflt : Nat) (rlo rhi : Int) (pers : Bool) : ObjSpec :=
  ⟨lo, hi, s0, s1, ty, bits, .rw, .rw, .ro, .none, false, false, dflt, rlo, rhi, pers⟩
/-- A row with access op rw, mt ro, au ro, tp none. -/
def ob3 (lo hi s0 s1 ty bits dflt : Nat) (rlo rhi : Int) (pers : Bool) : ObjSpec :=
  ⟨lo, hi, s0, s1, ty, bits, .rw, .ro, .ro, .none, false, false, dflt, rlo, rhi, pers⟩
/-- A row with access op wo, mt wo, au none, tp none. -/
def ob4 (lo hi s0 s1 ty bits dflt : Nat) (rlo rhi : Int) (pers : Bool) : ObjSpec :=
  ⟨lo, hi, s0, s1, ty, bits, .wo, .wo, .none, .none, false, false, dflt, rlo, rhi, pers⟩
/-- A row with access op ro, mt rw, au ro, tp none. -/
def ob5 (lo hi s0 s1 ty bits dflt : Nat) (rlo rhi : Int) (pers : Bool) : ObjSpec :=
  ⟨lo, hi, s0, s1, ty, bits, .ro, .rw, .ro, .none, false, false, dflt, rlo, rhi, pers⟩
/-- A row with access op ro, mt w1c, au ro, tp none. -/
def ob6 (lo hi s0 s1 ty bits dflt : Nat) (rlo rhi : Int) (pers : Bool) : ObjSpec :=
  ⟨lo, hi, s0, s1, ty, bits, .ro, .w1c, .ro, .none, false, false, dflt, rlo, rhi, pers⟩
/-- A row with access op w1c, mt w1c, au ro, tp none. -/
def ob7 (lo hi s0 s1 ty bits dflt : Nat) (rlo rhi : Int) (pers : Bool) : ObjSpec :=
  ⟨lo, hi, s0, s1, ty, bits, .w1c, .w1c, .ro, .none, false, false, dflt, rlo, rhi, pers⟩
/-- A row with access op none, mt wo, au none, tp none. -/
def ob8 (lo hi s0 s1 ty bits dflt : Nat) (rlo rhi : Int) (pers : Bool) : ObjSpec :=
  ⟨lo, hi, s0, s1, ty, bits, .none, .wo, .none, .none, false, false, dflt, rlo, rhi, pers⟩
/-- A row with access op rw, mt rw, au ro, tp rw (own). -/
def ob9 (lo hi s0 s1 ty bits dflt : Nat) (rlo rhi : Int) (pers : Bool) : ObjSpec :=
  ⟨lo, hi, s0, s1, ty, bits, .rw, .rw, .ro, .rw, true, false, dflt, rlo, rhi, pers⟩
/-- A row with access op ro, mt ro, au ro, tp ro (own). -/
def ob10 (lo hi s0 s1 ty bits dflt : Nat) (rlo rhi : Int) (pers : Bool) : ObjSpec :=
  ⟨lo, hi, s0, s1, ty, bits, .ro, .ro, .ro, .ro, true, false, dflt, rlo, rhi, pers⟩
/-- A row with access op rw, mt rw, au ro, tp none, written at the Apex lead only. -/
def ob11 (lo hi s0 s1 ty bits dflt : Nat) (rlo rhi : Int) (pers : Bool) : ObjSpec :=
  ⟨lo, hi, s0, s1, ty, bits, .rw, .rw, .ro, .none, false, true, dflt, rlo, rhi, pers⟩
/-- A row with access op wo, mt wo, au none, tp none, written at the Apex lead only. -/
def ob12 (lo hi s0 s1 ty bits dflt : Nat) (rlo rhi : Int) (pers : Bool) : ObjSpec :=
  ⟨lo, hi, s0, s1, ty, bits, .wo, .wo, .none, .none, false, true, dflt, rlo, rhi, pers⟩
/-- A row with access op rw, mt rw, au rw, tp none. -/
def ob13 (lo hi s0 s1 ty bits dflt : Nat) (rlo rhi : Int) (pers : Bool) : ObjSpec :=
  ⟨lo, hi, s0, s1, ty, bits, .rw, .rw, .rw, .none, false, false, dflt, rlo, rhi, pers⟩
/-- A row with access op rw, mt ro, au rw, tp none. -/
def ob14 (lo hi s0 s1 ty bits dflt : Nat) (rlo rhi : Int) (pers : Bool) : ObjSpec :=
  ⟨lo, hi, s0, s1, ty, bits, .rw, .ro, .rw, .none, false, false, dflt, rlo, rhi, pers⟩
/-- A row with access op none, mt none, au none, tp none. -/
def ob15 (lo hi s0 s1 ty bits dflt : Nat) (rlo rhi : Int) (pers : Bool) : ObjSpec :=
  ⟨lo, hi, s0, s1, ty, bits, .none, .none, .none, .none, false, false, dflt, rlo, rhi, pers⟩

/-- Object table, part 0. -/
def objTable0 : List ObjSpec := [
  ob0 0x2000 0x2000 0x01 0x01 1 8 0 0 (2^8 - 1) false,
  ob0 0x2000 0x2000 0x02 0x02 10 128 0 0 (2^128 - 1) false,
  ob0 0x2000 0x2000 0x03 0x03 2 16 0 0 (2^16 - 1) false,
  ob1 0x2000 0x2000 0x04 0x04 7 64 0 (-2^63) (2^63 - 1) false,
  ob1 0x2000 0x2000 0x05 0x05 6 32 0 (-2^31) (2^31 - 1) false,
  ob2 0x2001 0x2001 0x01 0x01 4 64 0 0 (2^64 - 1) false,
  ob2 0x2001 0x2001 0x02 0x02 3 32 0x186A0 10000 1000000 false,
  ob2 0x2001 0x2001 0x03 0x03 3 32 1000 250 10000 false,
  ob2 0x2001 0x2001 0x04 0x04 3 32 500 100 10000 false,
  ob2 0x2001 0x2001 0x05 0x05 2 16 200 10 500 false,
  ob2 0x2001 0x2001 0x06 0x06 4 64 0xF4240 10000 1000000000 false,
  ob2 0x2002 0x2002 0x01 0x48 6 32 0 (-100000) 100000 false,
  ob2 0x2003 0x2003 0x01 0x10 6 32 0 (-100000) 100000 false,
  ob2 0x2004 0x2004 0x01 0x01 2 16 100 1 1000 false,
  ob3 0x2010 0x2010 0x01 0x01 7 64 0 (-2^63) (2^63 - 1) false,
  ob3 0x2010 0x2010 0x02 0x02 6 32 0 (-2^31) (2^31 - 1) false,
  ob3 0x2010 0x2010 0x03 0x03 5 16 37 (-2^15) (2^15 - 1) false,
  ob3 0x2010 0x2010 0x04 0x04 1 8 0 0 2 false,
  ob0 0x2020 0x2020 0x01 0x01 4 64 0 0 (2^64 - 1) false,
  ob0 0x2020 0x2020 0x02 0x02 3 32 0 0 (2^32 - 1) false,
  ob2 0x2100 0x2107 0x01 0x01 3 32 0 0 (2^32 - 1) false,
  ob2 0x2100 0x2107 0x02 0x02 9 80 0 0 (2^80 - 1) false,
  ob2 0x2100 0x2107 0x03 0x03 9 80 0 0 (2^80 - 1) false,
  ob2 0x2100 0x2107 0x04 0x04 3 32 0 0 (2^32 - 1) false,
  ob2 0x2100 0x2107 0x05 0x05 3 32 0 0 (2^32 - 1) false,
  ob2 0x2120 0x2120 0x01 0x08 1 8 0 0 3 false,
  ob0 0x2200 0x2200 0x01 0x01 1 8 0 0 3 false,
  ob0 0x2200 0x2200 0x02 0x02 11 64 0 0 (2^64 - 1) false,
  ob2 0x2200 0x2200 0x03 0x03 1 8 1 0 3 false,
  ob2 0x2200 0x2200 0x04 0x04 2 16 100 1 1000 false,
  ob2 0x2200 0x2200 0x05 0x05 3 32 5000 0 100000 false,
  ob2 0x2200 0x2200 0x06 0x06 3 32 2000 0 20000 false,
  ob2 0x2210 0x2217 0x01 0x01 1 8 0 0 1 false,
  ob2 0x2210 0x2217 0x02 0x02 1 8 0 0 3 false,
  ob2 0x2210 0x2217 0x03 0x03 8 80 0 0 (2^80 - 1) false]

/-- Object table, part 1. -/
def objTable1 : List ObjSpec := [
  ob2 0x2210 0x2217 0x04 0x04 6 32 0 (-1000000) 1000000 false,
  ob2 0x2210 0x2217 0x05 0x05 3 32 0 1 10000000 false,
  ob0 0x2300 0x2300 0x01 0x01 2 16 0 0 (2^16 - 1) false,
  ob1 0x2300 0x2300 0x02 0x02 3 32 0 0 (2^32 - 1) false,
  ob4 0x2300 0x2300 0x03 0x03 3 32 0 0 (2^32 - 1) false,
  ob5 0x2800 0x2800 0x01 0x01 3 32 0 1 100000 false,
  ob2 0x2800 0x2800 0x02 0x02 2 16 200 25 400 false,
  ob2 0x2800 0x2800 0x03 0x03 3 32 0x10000 4096 1048576 false,
  ob2 0x2800 0x2800 0x04 0x04 3 32 1000 100 100000 false,
  ob5 0x2801 0x2801 0x01 0x01 8 256 0 0 (2^256 - 1) false,
  ob6 0x2801 0x2801 0x02 0x02 8 256 0 0 (2^256 - 1) false,
  ob6 0x2801 0x2801 0x03 0x03 8 16 0 0 (2^16 - 1) false,
  ob2 0x2802 0x2802 0x01 0x01 3 32 100 1 10000 false,
  ob2 0x2802 0x2802 0x02 0x02 3 32 10 1 1000 false,
  ob5 0x2803 0x2803 0x01 0x40 3 32 0 0 (2^32 - 1) false,
  ob5 0x2804 0x2804 0x01 0x10 3 32 0 0 (2^32 - 1) false,
  ob5 0x2805 0x2805 0x01 0x10 2 16 5000 0 5000 false,
  ob5 0x2806 0x2806 0x01 0x01 8 16 0 0 (2^16 - 1) false,
  ob5 0x2807 0x2807 0x01 0x01 1 8 8 2 64 false,
  ob5 0x2808 0x2808 0x01 0x20 3 32 0 0 (2^32 - 1) false,
  ob2 0x3000 0x301F 0x01 0x80 4 64 0 0 (2^64 - 1) false,
  ob1 0x3020 0x303F 0x01 0x80 4 64 0 0 (2^64 - 1) false,
  ob2 0x3050 0x3057 0x01 0x01 2 16 0 0 512 false,
  ob2 0x3050 0x3057 0x02 0x81 4 64 0 0 (2^64 - 1) false,
  ob1 0x3050 0x3057 0x82 0x82 2 16 0 0 (2^16 - 1) false,
  ob4 0x3058 0x3058 0x01 0x01 8 8 0 0 (2^8 - 1) false,
  ob7 0x3058 0x3058 0x02 0x02 8 8 0 0 (2^8 - 1) false,
  ob2 0x3059 0x3059 0x01 0x10 1 8 255 0 255 false,
  ob2 0x305A 0x305A 0x01 0x01 3 32 100 10 1000000 false,
  ob1 0x305A 0x305A 0x02 0x02 2 16 0 0 (2^16 - 1) false,
  ob1 0x305B 0x305B 0x01 0x01 2 16 0 0 128 false,
  ob1 0x305B 0x305B 0x02 0x02 2 16 0x4000 0 (2^16 - 1) false,
  ob7 0x305B 0x305B 0x03 0x03 3 32 0 0 (2^32 - 1) false,
  ob7 0x305B 0x305B 0x04 0x04 3 32 0 0 (2^32 - 1) false,
  ob4 0x305C 0x305C 0x01 0x80 8 32 0 0 (2^32 - 1) false]

/-- Object table, part 2. -/
def objTable2 : List ObjSpec := [
  ob5 0x3480 0x3480 0x01 0x01 1 8 0 0 1 false,
  ob5 0x3480 0x3480 0x02 0x02 3 32 0 0 (2^32 - 1) false,
  ob5 0x3480 0x3480 0x03 0x03 8 64 0 0 (2^64 - 1) false,
  ob5 0x3480 0x3480 0x04 0x04 8 256 0 0 (2^256 - 1) false,
  ob6 0x3480 0x3480 0x05 0x05 3 32 0 0 (2^32 - 1) false,
  ob6 0x3480 0x3480 0x06 0x06 3 32 0 0 (2^32 - 1) false,
  ob5 0x3400 0x3400 0x01 0x40 3 32 0 0 (2^32 - 1) false,
  ob2 0x3401 0x3401 0x01 0x01 2 16 10 1 1000 false,
  ob2 0x3401 0x3401 0x02 0x02 2 16 64 1 1024 false,
  ob2 0x3401 0x3401 0x03 0x03 2 16 20 2 1000 false,
  ob2 0x3401 0x3401 0x04 0x07 1 8 0 10 100 false,
  ob2 0x3402 0x3402 0x01 0x01 8 64 0 0 (2^64 - 1) false,
  ob1 0x3403 0x3403 0x01 0x01 3 32 0 0 (2^32 - 1) false,
  ob7 0x3404 0x3404 0x01 0x40 4 64 0 0 (2^64 - 1) false,
  ob1 0x3405 0x3405 0x01 0x40 3 32 0 0 (2^32 - 1) false,
  ob2 0x3410 0x3417 0x01 0x01 3 32 0 0 (2^32 - 1) false,
  ob2 0x3410 0x3417 0x02 0x02 4 64 0 0 (2^64 - 1) false,
  ob2 0x3410 0x3417 0x03 0x03 4 64 0 0 (2^64 - 1) false,
  ob2 0x3418 0x341B 0x01 0x01 8 8 0 0 (2^8 - 1) false,
  ob2 0x3418 0x341B 0x02 0x02 3 32 0 0 (2^32 - 1) false,
  ob1 0x3418 0x341B 0x03 0x03 3 32 0 0 (2^32 - 1) false,
  ob2 0x3420 0x3423 0x01 0x01 4 64 0 0 (2^64 - 1) false,
  ob2 0x3420 0x3423 0x02 0x02 8 64 0 0 (2^64 - 1) false,
  ob2 0x3428 0x3428 0x01 0x01 1 8 0 0 (2^8 - 1) false,
  ob2 0x3800 0x3800 0x01 0x04 1 8 0 0 (2^8 - 1) false,
  ob2 0x3800 0x3800 0x05 0x05 1 8 10 5 25 false,
  ob0 0x3801 0x3801 0x01 0x01 1 8 0 0 (2^8 - 1) false,
  ob0 0x3801 0x3801 0x02 0x02 1 8 255 0 63 false,
  ob0 0x3801 0x3801 0x03 0x03 1 8 0 0 1 false,
  ob0 0x3801 0x3801 0x04 0x04 1 8 255 0 (2^8 - 1) false,
  ob7 0x3801 0x3801 0x05 0x05 3 32 0 0 (2^32 - 1) false,
  ob7 0x3801 0x3801 0x06 0x06 3 32 0 0 (2^32 - 1) false,
  ob2 0x3802 0x3802 0x01 0x01 2 16 1000 10 10000 false,
  ob5 0x3802 0x3802 0x02 0x02 2 16 150 150 1000 false,
  ob1 0x3840 0x3840 0x01 0x48 1 8 0 0 (2^8 - 1) false]

/-- Object table, part 3. -/
def objTable3 : List ObjSpec := [
  ob1 0x3841 0x3841 0x01 0x48 4 64 0 0 (2^64 - 1) false,
  ob1 0x3842 0x3842 0x01 0x48 4 64 0 0 (2^64 - 1) false,
  ob5 0x3843 0x3843 0x01 0x08 1 8 255 0 (2^8 - 1) false,
  ob2 0x3844 0x3844 0x01 0x01 3 32 0xC350 0 (2^32 - 1) false,
  ob2 0x3844 0x3844 0x02 0x02 1 8 1 0 1 false,
  ob8 0x3845 0x3845 0x01 0x01 1 8 0 0 (2^8 - 1) false,
  ob8 0x3845 0x3845 0x02 0x02 1 8 0 0 (2^8 - 1) false,
  ob8 0x3845 0x3845 0x03 0x03 1 8 0 0 (2^8 - 1) false,
  ob1 0x1010 0x1010 0x01 0x01 3 32 0 0 (2^32 - 1) false,
  ob2 0x1010 0x1010 0x02 0x02 2 16 1050 500 1050 false,
  ob1 0x1010 0x1010 0x03 0x03 2 16 0 0 (2^16 - 1) false,
  ob1 0x1010 0x1010 0x04 0x04 1 8 0 0 3 false,
  ob1 0x1020 0x1020 0x01 0x24 5 16 0 (-2^15) (2^15 - 1) false,
  ob5 0x1040 0x1040 0x01 0x10 1 8 0 0 4 true,
  ob5 0x1040 0x1040 0x11 0x11 1 8 0 1 8 true,
  ob1 0x1041 0x1041 0x01 0x01 1 8 0 0 1 false,
  ob1 0x1050 0x1050 0x01 0x01 8 4 0 0 (2^4 - 1) false,
  ob1 0x1050 0x1050 0x02 0x05 2 16 0 0 (2^16 - 1) false,
  ob1 0x1060 0x1060 0x01 0x01 1 8 0 0 (2^8 - 1) false,
  ob1 0x1060 0x1060 0x02 0x02 1 8 0 0 (2^8 - 1) false,
  ob2 0x1060 0x1060 0x03 0x03 2 16 0 0 256 false,
  ob2 0x1070 0x1070 0x01 0x01 4 64 0 0 (2^64 - 1) false,
  ob2 0x1070 0x1070 0x02 0x02 1 8 1 1 64 false,
  ob2 0x1070 0x1070 0x03 0x03 2 16 64 1 1024 false,
  ob2 0x1070 0x1070 0x04 0x04 3 32 2000 1000 1000000 false,
  ob2 0x3C00 0x3C00 0x01 0x01 2 16 16 1 256 false,
  ob2 0x3C00 0x3C00 0x02 0x02 3 32 4096 64 16384 false,
  ob2 0x3C00 0x3C00 0x03 0x03 1 8 1 0 1 false,
  ob2 0x3C00 0x3C00 0x04 0x04 3 32 1000 10 10000 false,
  ob2 0x3C00 0x3C00 0x05 0x05 2 16 512 64 704 false,
  ob2 0x3C01 0x3C01 0x01 0x04 1 8 0 10 100 false,
  ob2 0x3C02 0x3C02 0x01 0x01 3 32 0xEA60 1000 600000 false,
  ob2 0x3C02 0x3C02 0x02 0x02 3 32 0x7530 0 120000 false,
  ob1 0x3C03 0x3C03 0x01 0x01 1 8 0 0 8 false,
  ob7 0x3C03 0x3C03 0x02 0x02 3 32 0 0 (2^32 - 1) false]

/-- Object table, part 4. -/
def objTable4 : List ObjSpec := [
  ob7 0x3C03 0x3C03 0x03 0x03 4 64 0 0 (2^64 - 1) false,
  ob1 0x3C03 0x3C03 0x04 0x04 4 64 0 0 (2^64 - 1) false,
  ob7 0x3C03 0x3C03 0x05 0x05 3 32 0 0 (2^32 - 1) false,
  ob7 0x3C03 0x3C03 0x06 0x06 3 32 0 0 (2^32 - 1) false,
  ob7 0x3C03 0x3C03 0x07 0x07 3 32 0 0 (2^32 - 1) false,
  ob4 0x3C04 0x3C04 0x01 0x01 3 32 0 0 (2^32 - 1) false,
  ob4 0x3C04 0x3C04 0x02 0x02 3 32 0 0 (2^32 - 1) false,
  ob4 0x3C04 0x3C04 0x03 0x03 3 32 0 0 (2^32 - 1) false,
  ob2 0x3C05 0x3C05 0x01 0x01 2 16 768 0 (2^16 - 1) true,
  ob2 0x3C05 0x3C05 0x02 0x02 2 16 64 0 (2^16 - 1) true,
  ob2 0x3C05 0x3C05 0x03 0x03 2 16 16 0 (2^16 - 1) true,
  ob2 0x3C10 0x3C1F 0x01 0x01 1 8 0 0 7 false,
  ob2 0x3C10 0x3C1F 0x02 0x02 4 64 0 0 (2^64 - 1) false,
  ob2 0x3C10 0x3C1F 0x03 0x03 8 64 0 0 (2^64 - 1) false,
  ob1 0x3C20 0x3C20 0x01 0x04 2 16 256 0 (2^16 - 1) false,
  ob4 0x3C20 0x3C20 0x05 0x05 4 64 0 0 (2^64 - 1) false,
  ob4 0x3C20 0x3C20 0x06 0x06 3 32 0 0 (2^32 - 1) false,
  ob2 0x305D 0x305D 0x01 0x01 1 8 1 0 1 false,
  ob2 0x305D 0x305D 0x02 0x02 2 16 16 1 256 false,
  ob5 0x4000 0x4000 0x01 0x01 3 32 0 0 (2^32 - 1) true,
  ob2 0x4000 0x4000 0x02 0x02 3 32 1000 1 3600000 false,
  ob2 0x4000 0x4000 0x03 0x03 3 32 0x15180 0 2592000 false,
  ob2 0x4000 0x4000 0x04 0x04 3 32 100 20 10000 false,
  ob1 0x4001 0x4001 0x01 0x01 3 32 0 0 (2^32 - 1) false,
  ob7 0x4001 0x4001 0x02 0x02 4 64 0 0 (2^64 - 1) false,
  ob1 0x4001 0x4001 0x03 0x03 4 64 0 0 (2^64 - 1) false,
  ob7 0x4001 0x4001 0x04 0x04 3 32 0 0 (2^32 - 1) false,
  ob7 0x4001 0x4001 0x05 0x05 3 32 0 0 (2^32 - 1) false,
  ob4 0x4002 0x4002 0x01 0x01 4 64 0 0 (2^64 - 1) false,
  ob2 0x4010 0x402F 0x01 0x80 4 64 0 0 (2^64 - 1) false,
  ob9 0x4100 0x44FF 0x01 0x01 4 64 0 0 (2^64 - 1) false,
  ob9 0x4100 0x44FF 0x02 0x02 4 64 0 0 (2^64 - 1) false,
  ob0 0x4100 0x44FF 0x03 0x03 1 8 0 0 3 false,
  ob10 0x4100 0x44FF 0x04 0x04 1 8 0 0 8 false,
  ob7 0x4500 0x4500 0x01 0x01 3 32 0 0 (2^32 - 1) false]

/-- Object table, part 5. -/
def objTable5 : List ObjSpec := [
  ob7 0x4500 0x4500 0x02 0x02 3 32 0 0 (2^32 - 1) false,
  ob7 0x4500 0x4500 0x03 0x03 3 32 0 0 (2^32 - 1) false,
  ob11 0x4700 0x4700 0x01 0x01 3 32 1000 100 1000000 false,
  ob11 0x4700 0x4700 0x02 0x02 3 32 150 50 2000 false,
  ob11 0x4700 0x4700 0x03 0x03 3 32 1150 200 10000 false,
  ob11 0x4700 0x4700 0x04 0x04 3 32 100 10 10000 false,
  ob0 0x4700 0x4700 0x05 0x05 4 64 0 0 (2^64 - 1) false,
  ob0 0x4700 0x4700 0x06 0x06 4 64 0 0 (2^64 - 1) false,
  ob12 0x4700 0x4700 0x07 0x07 1 8 0 1 1 false,
  ob1 0x4700 0x4700 0x08 0x08 4 64 0 0 (2^64 - 1) false,
  ob7 0x4701 0x4701 0x01 0x01 3 32 0 0 (2^32 - 1) false,
  ob7 0x4701 0x4701 0x02 0x02 4 64 0 0 (2^64 - 1) false,
  ob7 0x4701 0x4701 0x03 0x03 3 32 0 0 (2^32 - 1) false,
  ob7 0x4701 0x4701 0x04 0x04 3 32 0 0 (2^32 - 1) false,
  ob11 0x4800 0x48FF 0x01 0x01 4 64 0 0 (2^64 - 1) false,
  ob11 0x4800 0x48FF 0x02 0x02 4 64 0 0 (2^64 - 1) false,
  ob1 0x4800 0x48FF 0x03 0x03 1 8 0 0 2 false,
  ob1 0x4800 0x48FF 0x04 0x04 8 128 0 0 (2^128 - 1) false,
  ob1 0x4900 0x4907 0x01 0x01 1 8 0 0 (2^8 - 1) false,
  ob1 0x4900 0x4907 0x02 0x02 8 128 0 0 (2^128 - 1) false,
  ob1 0x4900 0x4907 0x03 0x03 1 8 0 0 (2^8 - 1) false,
  ob1 0x4900 0x4907 0x04 0x04 3 32 0 0 (2^32 - 1) false,
  ob4 0x4900 0x4907 0x05 0x05 1 8 0 0 (2^8 - 1) false,
  ob1 0x4900 0x4907 0x06 0x06 4 64 0 0 (2^64 - 1) false,
  ob2 0x4910 0x491F 0x01 0x01 4 64 0 0 (2^64 - 1) false,
  ob2 0x4920 0x4920 0x01 0x01 3 32 20 1 1000 false,
  ob1 0x4920 0x4920 0x02 0x02 1 8 0 0 16 false,
  ob1 0x4920 0x4920 0x03 0x03 4 64 0 0 (2^64 - 1) false,
  ob7 0x4920 0x4920 0x04 0x04 4 64 0 0 (2^64 - 1) false,
  ob2 0x4920 0x4920 0x05 0x05 9 80 0 0 (2^80 - 1) false,
  ob4 0x4920 0x4920 0x06 0x06 1 8 0 0 (2^8 - 1) false,
  ob7 0x4920 0x4920 0x07 0x07 4 64 0 0 (2^64 - 1) false,
  ob1 0x4B00 0x4B0F 0x01 0x01 1 8 0 0 (2^8 - 1) false,
  ob1 0x4B00 0x4B0F 0x02 0x02 1 8 255 0 63 false,
  ob1 0x4B00 0x4B0F 0x03 0x03 1 8 255 0 63 false]

/-- Object table, part 6. -/
def objTable6 : List ObjSpec := [
  ob1 0x4B00 0x4B0F 0x04 0x04 8 128 0 0 (2^128 - 1) false,
  ob2 0x4B00 0x4B0F 0x05 0x05 8 64 0 0 (2^64 - 1) false,
  ob1 0x4B00 0x4B0F 0x06 0x06 4 64 0 0 (2^64 - 1) false,
  ob1 0x4B00 0x4B0F 0x07 0x07 4 64 0 0 (2^64 - 1) false,
  ob7 0x4B00 0x4B0F 0x08 0x08 4 64 0 0 (2^64 - 1) false,
  ob1 0x4B00 0x4B0F 0x09 0x09 1 8 0 0 (2^8 - 1) false,
  ob2 0x4B10 0x4B10 0x01 0x01 3 32 100 10 10000 false,
  ob2 0x4B10 0x4B10 0x02 0x02 9 80 0 0 (2^80 - 1) false,
  ob4 0x4B10 0x4B10 0x03 0x03 2 16 0 0 (2^16 - 1) false,
  ob7 0x4B10 0x4B10 0x04 0x04 3 32 0 0 (2^32 - 1) false,
  ob1 0x4B40 0x4B7F 0x01 0x01 1 8 0 0 (2^8 - 1) false,
  ob1 0x4B40 0x4B7F 0x02 0x02 8 128 0 0 (2^128 - 1) false,
  ob1 0x4B40 0x4B7F 0x03 0x03 1 8 0 0 (2^8 - 1) false,
  ob4 0x4B40 0x4B7F 0x04 0x04 1 8 0 0 (2^8 - 1) false,
  ob1 0x4B40 0x4B7F 0x05 0x05 4 64 0 0 (2^64 - 1) false,
  ob1 0x4C00 0x4C07 0x01 0x01 1 8 0 0 (2^8 - 1) false,
  ob1 0x4C00 0x4C07 0x02 0x02 1 8 255 0 63 false,
  ob1 0x4C00 0x4C07 0x03 0x03 1 8 255 0 63 false,
  ob1 0x4C00 0x4C07 0x04 0x04 8 128 0 0 (2^128 - 1) false,
  ob2 0x4C00 0x4C07 0x05 0x05 8 64 0 0 (2^64 - 1) false,
  ob1 0x4C00 0x4C07 0x06 0x06 4 64 0 0 (2^64 - 1) false,
  ob1 0x4C00 0x4C07 0x07 0x07 4 64 0 0 (2^64 - 1) false,
  ob7 0x4C00 0x4C07 0x08 0x08 4 64 0 0 (2^64 - 1) false,
  ob1 0x4C00 0x4C07 0x09 0x09 1 8 0 0 (2^8 - 1) false,
  ob1 0x4C00 0x4C07 0x0A 0x0A 1 8 0 0 31 false,
  ob1 0x4C00 0x4C07 0x0B 0x0B 2 16 0 0 (2^16 - 1) false,
  ob2 0x4C10 0x4C10 0x01 0x01 3 32 100 10 10000 false,
  ob2 0x4C10 0x4C10 0x02 0x02 9 80 0 0 (2^80 - 1) false,
  ob4 0x4C10 0x4C10 0x03 0x03 2 16 0 0 (2^16 - 1) false,
  ob1 0x4C40 0x4C7F 0x01 0x01 1 8 0 0 (2^8 - 1) false,
  ob1 0x4C40 0x4C7F 0x02 0x02 8 128 0 0 (2^128 - 1) false,
  ob1 0x4C40 0x4C7F 0x03 0x03 1 8 0 0 (2^8 - 1) false,
  ob4 0x4C40 0x4C7F 0x04 0x04 1 8 0 0 (2^8 - 1) false,
  ob1 0x4C40 0x4C7F 0x05 0x05 4 64 0 0 (2^64 - 1) false,
  ob2 0x4E00 0x4E00 0x01 0x01 2 16 4 0 204 false]

/-- Object table, part 7. -/
def objTable7 : List ObjSpec := [
  ob1 0x4E00 0x4E00 0x02 0x02 9 80 0 0 (2^80 - 1) false,
  ob1 0x4E00 0x4E00 0x03 0x03 3 32 0 0 (2^32 - 1) false,
  ob1 0x4E00 0x4E00 0x04 0x04 1 8 0 0 4 false,
  ob2 0x4E00 0x4E00 0x06 0x06 1 8 4 1 255 false,
  ob2 0x4E00 0x4E00 0x07 0x07 3 32 200 10 10000 false,
  ob2 0x4E00 0x4E00 0x08 0x08 3 32 1000 10 100000 false,
  ob7 0x4E00 0x4E00 0x09 0x09 3 32 0 0 (2^32 - 1) false,
  ob3 0x4E01 0x4E01 0x01 0x10 4 64 0 0 (2^64 - 1) false,
  ob3 0x4E02 0x4E02 0x01 0x10 3 32 1 1 65536 false,
  ob5 0x4E04 0x4E05 0x01 0x80 4 64 0 0 (2^64 - 1) false,
  ob3 0x4E06 0x4E07 0x01 0x80 4 64 0 0 (2^64 - 1) false,
  ob3 0x4E08 0x4E09 0x01 0x80 4 64 0 0 (2^64 - 1) false,
  ob2 0x4E10 0x4E11 0x01 0x80 4 64 0 0 (2^64 - 1) true,
  ob1 0x4F00 0x4F00 0x01 0x01 3 32 0 0 (2^32 - 1) false,
  ob1 0x4F00 0x4F00 0x02 0x02 3 32 0 0 (2^32 - 1) false,
  ob12 0x4F00 0x4F00 0x03 0x03 3 32 0 0 (2^32 - 1) false,
  ob11 0x4F00 0x4F00 0x04 0x04 9 80 0 0 (2^80 - 1) false,
  ob1 0x4F00 0x4F00 0x05 0x05 3 32 0 0 (2^32 - 1) false,
  ob2 0x4F01 0x4F01 0x01 0x04 1 8 0 0 1 false,
  ob2 0x4F01 0x4F01 0x06 0x06 2 16 256 0 (2^16 - 1) false,
  ob2 0x4F02 0x4F02 0x01 0x01 3 32 10 1 1000 false,
  ob7 0x4F02 0x4F02 0x02 0x02 3 32 0 0 (2^32 - 1) false,
  ob2 0x5100 0x51FF 0x01 0x01 4 64 0 0 (2^64 - 1) false,
  ob2 0x5100 0x51FF 0x02 0x02 4 64 0 0 (2^64 - 1) false,
  ob1 0x5100 0x51FF 0x03 0x03 1 8 0 0 (2^8 - 1) false,
  ob11 0x4A20 0x4A20 0x01 0x01 9 80 0 0 (2^80 - 1) false,
  ob11 0x4A20 0x4A20 0x02 0x02 3 32 0 0 (2^32 - 1) false,
  ob11 0x4A20 0x4A20 0x03 0x03 8 64 0 0 (2^64 - 1) false,
  ob11 0x4A20 0x4A20 0x04 0x04 3 32 0x2710 0 10000000 false,
  ob11 0x4A20 0x4A20 0x05 0x05 3 32 0 0 (2^32 - 1) false,
  ob12 0x4A20 0x4A20 0x06 0x06 1 8 0 0 (2^8 - 1) false,
  ob12 0x4A20 0x4A20 0x07 0x07 3 32 0 0 (2^32 - 1) false,
  ob11 0x4A21 0x4A21 0x01 0x01 3 32 300 50 10000 false,
  ob11 0x4A21 0x4A21 0x02 0x02 3 32 100 100 1000000 false,
  ob1 0x4A21 0x4A21 0x03 0x03 1 8 0 0 8 false]

/-- Object table, part 8. -/
def objTable8 : List ObjSpec := [
  ob7 0x4A21 0x4A21 0x04 0x04 3 32 0 0 (2^32 - 1) false,
  ob1 0x4A21 0x4A21 0x05 0x05 3 32 0 0 (2^32 - 1) false,
  ob1 0x4A21 0x4A21 0x06 0x06 3 32 0 0 (2^32 - 1) false,
  ob1 0x4A28 0x4A28 0x01 0x01 3 32 0 0 (2^32 - 1) false,
  ob1 0x4A28 0x4A28 0x02 0x02 3 32 0 0 (2^32 - 1) false,
  ob0 0x1100 0x1100 0x01 0x01 1 8 0 0 (2^8 - 1) false,
  ob1 0x1100 0x1100 0x02 0x02 2 16 0 0 (2^16 - 1) false,
  ob2 0x1100 0x1100 0x03 0x03 2 16 250 100 1000 false,
  ob2 0x1100 0x1100 0x04 0x04 1 8 4 2 16 false,
  ob2 0x1100 0x1100 0x05 0x05 1 8 3 1 255 false,
  ob4 0x1100 0x1100 0x06 0x06 1 8 0 1 1 false,
  ob2 0x1100 0x1100 0x07 0x07 3 32 1000 100 60000 false,
  ob2 0x1100 0x1100 0x08 0x0A 3 32 0 0 (2^32 - 1) false,
  ob7 0x1100 0x1100 0x0B 0x0B 3 32 0 0 (2^32 - 1) false,
  ob7 0x1100 0x1100 0x0C 0x0C 3 32 0 0 (2^32 - 1) false,
  ob7 0x1100 0x1100 0x0D 0x0D 3 32 0 0 (2^32 - 1) false,
  ob2 0x1100 0x1100 0x0E 0x0E 2 16 32 4 48 false,
  ob2 0x1101 0x1101 0x01 0x01 3 32 1000 10 60000 false,
  ob2 0x1101 0x1101 0x02 0x02 3 32 10 7 10000 false,
  ob0 0x1101 0x1101 0x03 0x03 3 32 0 0 (2^32 - 1) false,
  ob1 0x1101 0x1101 0x04 0x04 3 32 0 0 (2^32 - 1) false,
  ob4 0x1101 0x1101 0x05 0x05 3 32 0 0 (2^32 - 1) false,
  ob13 0x1110 0x1110 0x01 0x01 2 16 0 0 (2^16 - 1) false,
  ob1 0x1110 0x1110 0x02 0x02 1 8 0 0 (2^8 - 1) false,
  ob1 0x1110 0x1110 0x03 0x03 2 16 0 0 1024 false,
  ob1 0x1110 0x1110 0x04 0x04 2 16 256 0 (2^16 - 1) false,
  ob11 0x1110 0x1110 0x05 0x05 3 32 10 1 3600 false,
  ob7 0x1110 0x1110 0x06 0x06 3 32 0 0 (2^32 - 1) false,
  ob2 0x1120 0x1120 0x01 0x01 3 32 0x2710 100 600000 false,
  ob1 0x1120 0x1120 0x02 0x02 1 8 0 0 8 false,
  ob7 0x1120 0x1120 0x03 0x03 3 32 0 0 (2^32 - 1) false,
  ob2 0x5400 0x540F 0x01 0x01 4 64 0 0 (2^64 - 1) false,
  ob2 0x5400 0x540F 0x02 0x02 1 8 0 0 (2^8 - 1) false,
  ob2 0x5400 0x540F 0x03 0x07 4 64 0 0 (2^64 - 1) false,
  ob1 0x5400 0x540F 0x08 0x08 1 8 1 1 64 false]

/-- Object table, part 9. -/
def objTable9 : List ObjSpec := [
  ob1 0x5400 0x540F 0x09 0x09 1 8 0 0 1 false,
  ob2 0x5410 0x5410 0x01 0x01 3 32 1000 10 60000 false,
  ob2 0x5410 0x5410 0x02 0x02 3 32 0x2710 100 1000000 false,
  ob2 0x5410 0x5410 0x03 0x03 3 32 1000 10 60000 false,
  ob2 0x5410 0x5410 0x04 0x04 2 16 100 10 10000 false,
  ob7 0x5410 0x5410 0x05 0x05 4 64 0 0 (2^64 - 1) false,
  ob2 0x5410 0x5410 0x06 0x06 3 32 50 1 10000 false,
  ob7 0x5410 0x5410 0x07 0x07 4 64 0 0 (2^64 - 1) false,
  ob2 0x5410 0x5410 0x08 0x08 2 16 256 16 4096 false,
  ob7 0x5410 0x5410 0x09 0x09 4 64 0 0 (2^64 - 1) false,
  ob2 0x5420 0x5420 0x01 0x40 4 64 0 0 (2^64 - 1) false,
  ob2 0x5430 0x5431 0x01 0x80 4 64 0 0 (2^64 - 1) false,
  ob2 0x5432 0x5433 0x01 0x80 4 64 0 0 (2^64 - 1) false,
  ob2 0x5440 0x547F 0x01 0x01 3 32 0 0 (2^32 - 1) false,
  ob2 0x5440 0x547F 0x02 0x02 8 256 0 0 (2^256 - 1) false,
  ob2 0x5440 0x547F 0x03 0x03 1 8 3 2 3 false,
  ob7 0x5800 0x5800 0x01 0x01 4 64 0 0 (2^64 - 1) false,
  ob7 0x5800 0x5800 0x02 0x02 4 64 0 0 (2^64 - 1) false,
  ob5 0x5800 0x5800 0x03 0x03 2 16 24 1 168 false,
  ob1 0x5800 0x5800 0x04 0x04 2 16 0 0 (2^16 - 1) false,
  ob2 0x5800 0x5800 0x05 0x05 3 32 1000 1 60000 false,
  ob8 0x5800 0x5800 0x06 0x06 1 8 0 0 (2^8 - 1) false,
  ob8 0x5801 0x5801 0x01 0x01 3 32 0 0 (2^32 - 1) false,
  ob1 0x5801 0x5801 0x02 0x02 2 16 0 0 8192 false,
  ob13 0x5802 0x5802 0x01 0x01 2 16 0 0 8191 false,
  ob1 0x5802 0x5802 0x02 0x02 3 32 0 0 (2^32 - 1) false,
  ob8 0x5803 0x5803 0x01 0x01 2 16 0 0 (2^16 - 1) false,
  ob1 0x5803 0x5803 0x02 0x02 1 8 0 0 3 false,
  ob1 0x5803 0x5803 0x03 0x16 1 8 16 0 (2^8 - 1) false,
  ob8 0x5804 0x5804 0x01 0x01 4 64 0 0 (2^64 - 1) false,
  ob5 0x5804 0x5804 0x02 0x02 3 32 0 0 (2^32 - 1) false,
  ob5 0x5804 0x5804 0x03 0x03 4 64 0 0 (2^64 - 1) false,
  ob2 0x5900 0x591F 0x01 0x80 4 64 0 0 (2^64 - 1) false,
  ob1 0x5920 0x593F 0x01 0x80 3 32 0 0 (2^32 - 1) false,
  ob4 0x5940 0x5940 0x01 0x01 3 32 0 0 (2^32 - 1) false]

/-- Object table, part 10. -/
def objTable10 : List ObjSpec := [
  ob4 0x5940 0x5940 0x02 0x02 2 16 0 3840 4095 false,
  ob7 0x5940 0x5940 0x03 0x03 3 32 0 0 (2^32 - 1) false,
  ob8 0x5940 0x5940 0x04 0x04 1 8 0 14 15 false,
  ob2 0x5950 0x598F 0x01 0x01 4 64 0 0 (2^64 - 1) false,
  ob2 0x5950 0x598F 0x02 0x02 3 32 0 0 (2^32 - 1) false,
  ob1 0x5950 0x598F 0x03 0x03 3 32 0 0 (2^32 - 1) false,
  ob2 0x5950 0x598F 0x04 0x04 3 32 0 0 (2^32 - 1) false,
  ob5 0x5990 0x599F 0x01 0x01 1 8 0 0 3 false,
  ob5 0x5990 0x599F 0x02 0x02 4 64 0 0 (2^64 - 1) false,
  ob2 0x59A0 0x59A0 0x01 0x01 1 8 0 0 63 false,
  ob4 0x59A0 0x59A0 0x02 0x02 4 64 0 0 (2^64 - 1) false,
  ob8 0x59A0 0x59A0 0x03 0x03 1 8 0 1 1 false,
  ob0 0x59A0 0x59A0 0x04 0x04 1 8 0 0 1 false,
  ob1 0x59A0 0x59A0 0x05 0x05 1 8 0 0 16 false,
  ob1 0x59A0 0x59A0 0x06 0x06 2 16 0 0 256 false,
  ob13 0x59A0 0x59A0 0x07 0x07 1 8 0 0 15 false,
  ob1 0x59A0 0x59A0 0x08 0x08 8 512 0 0 (2^512 - 1) false,
  ob1 0x59B0 0x59B0 0x01 0x01 4 64 0 0 (2^64 - 1) false,
  ob1 0x59B0 0x59B0 0x02 0x02 4 64 0 0 (2^64 - 1) false,
  ob13 0x59B0 0x59B0 0x03 0x03 4 64 0 0 (2^64 - 1) false,
  ob1 0x59B0 0x59B0 0x04 0x04 1 8 0 0 (2^8 - 1) false,
  ob5 0x59B0 0x59B0 0x05 0x05 1 8 2 0 4 false,
  ob4 0x59B0 0x59B0 0x06 0x06 4 64 0 0 (2^64 - 1) false,
  ob8 0x59B0 0x59B0 0x07 0x07 4 64 0 0 (2^64 - 1) false,
  ob8 0x59B0 0x59B0 0x08 0x08 4 64 0 0 (2^64 - 1) false,
  ob7 0x59B0 0x59B0 0x09 0x09 3 32 0 0 (2^32 - 1) false,
  ob7 0x59B1 0x59F0 0x01 0x01 3 32 0 0 (2^32 - 1) false,
  ob0 0x5A00 0x5A00 0x01 0x01 3 32 0 0 (2^32 - 1) false,
  ob0 0x5A00 0x5A00 0x02 0x02 1 8 0 0 (2^8 - 1) false,
  ob0 0x5A00 0x5A00 0x03 0x03 8 128 0 0 (2^128 - 1) false,
  ob5 0x5A01 0x5A01 0x01 0x08 8 768 0 0 (2^768 - 1) true,
  ob5 0x5A02 0x5A02 0x01 0x08 8 8 0 0 (2^8 - 1) false,
  ob5 0x5A10 0x5A10 0x01 0x40 8 768 0 0 (2^768 - 1) true,
  ob5 0x5A11 0x5A11 0x01 0x40 1 8 0 0 4 true,
  ob5 0x5A12 0x5A12 0x01 0x40 2 16 0 0 (2^16 - 1) true]

/-- Object table, part 11. -/
def objTable11 : List ObjSpec := [
  ob3 0x5A20 0x5A21 0x01 0x80 2 16 0 0 (2^16 - 1) false,
  ob10 0x5A22 0x5A23 0x01 0x80 1 8 0 0 (2^8 - 1) false,
  ob7 0x5A24 0x5A24 0x01 0x01 4 64 0 0 (2^64 - 1) false,
  ob1 0x5A30 0x5A30 0x01 0x01 4 64 0 0 (2^64 - 1) false,
  ob7 0x5A30 0x5A30 0x02 0x02 4 64 0 0 (2^64 - 1) false,
  ob5 0x5A30 0x5A30 0x03 0x03 2 16 64 16 512 true,
  ob14 0x5A30 0x5A30 0x04 0x04 4 64 0 0 (2^64 - 1) false,
  ob0 0x5A30 0x5A30 0x05 0x05 4 64 0 0 (2^64 - 1) false,
  ob1 0x5A30 0x5A30 0x06 0x06 8 384 0 0 (2^384 - 1) false,
  ob0 0x1000 0x1000 0x01 0x01 3 32 0 0 (2^32 - 1) false,
  ob0 0x1000 0x1000 0x02 0x02 3 32 0x30345849 0 (2^32 - 1) false,
  ob0 0x1000 0x1000 0x03 0x03 2 16 0 0 (2^16 - 1) false,
  ob0 0x1000 0x1000 0x04 0x04 3 32 0 0 (2^32 - 1) false,
  ob0 0x1000 0x1000 0x05 0x05 4 64 0 0 (2^64 - 1) false,
  ob1 0x1000 0x1000 0x06 0x06 3 32 0 0 (2^32 - 1) false,
  ob5 0x1008 0x1008 0x01 0x01 1 8 0 0 3 true,
  ob0 0x1008 0x1008 0x02 0x02 1 8 0 0 (2^8 - 1) false,
  ob5 0x1008 0x1008 0x03 0x03 3 32 0 0 16777215 true,
  ob5 0x1030 0x1030 0x01 0x02 8 128 0 0 (2^128 - 1) true,
  ob5 0x1030 0x1030 0x03 0x03 2 16 0x3E44 1024 65535 true,
  ob5 0x1030 0x1030 0x04 0x04 2 16 1400 1232 8900 true,
  ob1 0x1030 0x1030 0x05 0x05 1 8 0 0 32 false,
  ob2 0x1030 0x1030 0x06 0x06 3 32 100 1 1000 false,
  ob2 0x1030 0x1030 0x07 0x07 3 32 10 1 1000 false,
  ob1 0x1031 0x1031 0x01 0x05 4 64 0 0 (2^64 - 1) false,
  ob7 0x1031 0x1031 0x06 0x06 3 32 0 0 (2^32 - 1) false,
  ob1 0x5C00 0x5C00 0x01 0x01 1 8 0 0 1 true,
  ob1 0x5C00 0x5C00 0x02 0x02 1 8 0 0 1 false,
  ob5 0x5C01 0x5C01 0x01 0x01 4 64 0 0 (2^64 - 1) false,
  ob5 0x5C01 0x5C01 0x02 0x02 3 32 0 4096 16777216 false,
  ob8 0x5C01 0x5C01 0x03 0x03 1 8 0 1 1 false,
  ob1 0x5C01 0x5C01 0x04 0x04 1 8 0 0 5 false,
  ob8 0x5C01 0x5C01 0x05 0x05 3 32 0 0 (2^32 - 1) false,
  ob8 0x5C01 0x5C01 0x06 0x06 3 32 0 0 (2^32 - 1) false,
  ob5 0x5C01 0x5C01 0x07 0x07 3 32 600 60 86400 false]

/-- Object table, part 12. -/
def objTable12 : List ObjSpec := [
  ob15 0x5C02 0x5C02 0x01 0x01 3 32 0 0 (2^32 - 1) false,
  ob15 0x5C02 0x5C02 0x02 0x02 8 1024 0 0 (2^1024 - 1) false,
  ob15 0x5C02 0x5C02 0x03 0x03 1 8 0 0 (2^8 - 1) false,
  ob15 0x5C02 0x5C02 0x04 0x04 1 8 0 0 3 false,
  ob8 0x5C10 0x5C10 0x01 0x01 3 32 0 0 (2^32 - 1) false,
  ob8 0x5C10 0x5C10 0x02 0x02 3 32 0 0 (2^32 - 1) false,
  ob8 0x5C10 0x5C10 0x03 0x03 4 64 0 0 (2^64 - 1) false,
  ob1 0x5C10 0x5C10 0x04 0x04 1 8 0 0 5 false,
  ob5 0x5C20 0x5C2F 0x01 0x01 4 64 0 0 (2^64 - 1) false,
  ob5 0x5C20 0x5C2F 0x02 0x02 3 32 0 0 (2^32 - 1) false,
  ob1 0x5C20 0x5C2F 0x03 0x03 3 32 0 0 (2^32 - 1) false,
  ob5 0x5C20 0x5C2F 0x04 0x04 3 32 0 0 (2^32 - 1) false]

/-- Every row of the object tables. -/
def objTable : List ObjSpec :=
  objTable0 ++ objTable1 ++ objTable2 ++ objTable3 ++ objTable4 ++ objTable5 ++ objTable6 ++ objTable7 ++ objTable8 ++ objTable9 ++ objTable10 ++ objTable11 ++ objTable12

end Sys2Proof.Machine
end

