-- ==== Sys2Proof/Machine/State.lean ====
section
/-! DEFINITION. The state of the block as plain data: the object dictionaries of the Helad and the Icdon IX40, the state of each engine, what has been sent, and the queue of waiting commands. -/

namespace Sys2Proof.Machine

/-- Why a command stops. It has no constructor: the spec gives every command an effect, so none ends in a fault. -/
inductive Fault where
deriving DecidableEq, Repr

/-- Why a command is refused by the model. -/
inductive Refusal where
  /-- Raised by `exec` for a row that has no meaning yet. Safe. -/
  | notModelled (mnemonic : String)
deriving DecidableEq, Repr

/-- Entries in ascending key order (an engine's table). -/
abbrev Tbl (α : Type) := List (Nat × α)

/-- Entries of an object dictionary that differ from their defaults. -/
abbrev Dict := List (Nat × Nat)

/-- The place something is sent to. -/
inductive Chan where
  /-- The Helad's upstream lane (flits). -/
  | lane
  /-- A die-facing downstream channel, by slot. -/
  | down
  /-- The uplink pair link. -/
  | up
  /-- A downward pair link, 0–63. -/
  | child
  /-- A fabric port (flits). -/
  | port
  /-- The crosslink to the twin. -/
  | xlink
  /-- A host ring: PF ring r, or VF v as 1024 + v. -/
  | host
  /-- A push of records to the management network. -/
  | mgmt
  /-- The answer to a request: session n, or the requester's code. -/
  | reply
  /-- An MSI-X message, by vector. -/
  | msi
  /-- A line of the boundary or the package, by pin number. -/
  | pin
  /-- The host read port. -/
  | readPort
  /-- The bench port. -/
  | bench
  /-- The NCSI or management Ethernet port outside a session. -/
  | eth
deriving DecidableEq, Repr

/-- One thing sent: where to, which instance of it, and the value (records as units). -/
structure Out where
  chan : Chan
  idx  : Nat
  body : List Nat
deriving DecidableEq, Repr

/-- One clock's state beyond its objects (R36–R51, R163): FT in units of 2^-16 ns. -/
structure Clock where
  /-- FT (R36). -/
  ft : Nat
  /-- Fraction of an FT unit carried by the rate correction, in 10^-12 units (R49 keeps the fraction). -/
  frac : Nat
  /-- The rate last corrected in LOCKED, 10^-12 (R44). -/
  lockRate : Int
  /-- GID of the master; 0 none. -/
  master : Nat
  /-- HOLDOVER carried by the master's SyncTags (R38). -/
  mHold : Bool
  /-- STATE of the master's SyncTags. -/
  mState : Nat
  /-- SEGMENT of the master's SyncTags. -/
  mSeg : Nat
  /-- Stamping functions that owe STEPPED (R544), one bit each. -/
  owed : Nat
  /-- The open exchange: REQ_SEQ, t1, t2, t3. -/
  pend : Option (Nat × Nat × Nat × Nat)
  /-- REQ_SEQ of the last DelayReq. -/
  reqSeq : Nat
  /-- Round trips of the last 64 exchanges, newest first, FT units. -/
  rtts : List Int
  /-- Round trips of the last 64 exchanges that were kept, newest first (R163). -/
  rttKept : List Int
  /-- Offsets kept since the last servo update, 2^-16 ps. -/
  thetas : List Int
  /-- Mean round trip of the last exchanges kept (R163). -/
  rttLast : Int
  /-- Consecutive updates within LockThreshold. -/
  good : Nat
  /-- FT of the last valid SyncTag. -/
  lastTag : Nat
  /-- FT of the last servo update. -/
  servoAt : Nat
  /-- Whether FtState has been LOCKED since reset. -/
  wasLocked : Bool
deriving DecidableEq, Repr

/-- A pending timed action (R61): the ACTION code of R541, its instant, up to three parameters, for an object write the key and value. -/
structure Act where
  handle  : Nat
  kind    : Nat
  at_     : Nat
  a       : Nat
  b       : Nat
  c       : Nat
  key     : Nat
  val     : Nat
  /-- Forwarded to units below (R64). -/
  fwd     : Bool
  /-- Its instant fell inside a forward step (R47). -/
  stepped : Bool
  /-- FT of arrival. -/
  arrived : Nat
deriving DecidableEq, Repr

/-- A capture input's state (R67). -/
structure Capture where
  last    : Option Nat
  overrun : Nat
deriving DecidableEq, Repr

/-- Radio time at the Helad (R52–R58). -/
structure Radio where
  /-- FT of the last captured pulse. -/
  pulse : Option Nat
  /-- FT of the pulse before it. -/
  prev : Option Nat
  /-- FT of the last pulse that a valid RT_TOD has named: the frame of `sfn` and `hfn` starts there. -/
  named : Option Nat
  /-- Measured frame period, FT units. -/
  period : Nat
  /-- FtStamp of the last pulse. -/
  stamp : Nat
  /-- A pulse awaits its RT_TOD sample. -/
  fresh : Bool
  /-- The pulse arrived more than 1 µs from the predicted instant. -/
  jumped : Bool
  /-- Consecutive consistent pulses. -/
  run : Nat
  sfn : Nat
  hfn : Nat
  traceable : Bool
  /-- Frames since the last RtMapRecord. -/
  sinceMap : Nat
  /-- FT at which RT_HOLDOVER was entered. -/
  holdFrom : Nat
deriving DecidableEq, Repr

/-- The time state of both parts. -/
structure TimeSt where
  hc : Clock
  ic : Clock
  /-- Last DelayReq received per link of the Icdon IX40: receive FT and REQ_SEQ. -/
  dreq : Tbl (Nat × Nat)
  /-- Links with a DelayReq that no anchor has answered (R251). -/
  dreqNew : List Nat
  /-- An action that launches at a forward step is being carried out: what it stamps carries STEPPED (R47, R544). -/
  stepNow : Bool
  /-- FT of the last SyncTag sent per link. -/
  tagAt : Tbl Nat
  hActs : List Act
  iActs : List Act
  /-- Next handle assigned by the Icdon IX40 and by the Helad. -/
  iHandle : Nat
  hHandle : Nat
  /-- Handles launched at each part. -/
  iDone : List Nat
  hDone : List Nat
  rt : Radio
  /-- Pulses emitted so far, per generator (Helad n, Icdon IX40 16 + n); and generators that have started. -/
  pulseK : Tbl Nat
  pulseOn : List Nat
  /-- Capture inputs (Helad n, Icdon IX40 16 + n). -/
  caps : Tbl Capture
  /-- Host read-port issue is held by the guard rule (R57). -/
  guardHold : Bool
  /-- The root has started FT (R40). -/
  rootOn : Bool
  /-- Root FT and SEGMENT persisted in MRAM (R40, R195). -/
  savedFt : Option (Nat × Nat)
  /-- FT of the last persist. -/
  savedAt : Nat
  /-- Persisted operating hours: seconds and power cycles (R60). -/
  savedOh : Nat × Nat
  /-- Operating hours base restored per slot's device (R60). -/
  ohBase : Tbl (Nat × Nat)
  /-- FT of the Helad before and after its last forward step (R47, R128). -/
  hStep : Nat × Nat
  /-- UT reference FT of R59. -/
  utRef : Nat
  /-- Uplink pair link present (R39). -/
  pairUp : Bool
  /-- Crosslink up. -/
  xlinkUp : Bool
deriving DecidableEq, Repr

/-- A read of host memory in flight (R83): the job it serves, address, bytes, partition, FT of issue, blocks returned. -/
structure ReadReq where
  job  : Nat
  addr : Nat
  len  : Nat
  part : Nat
  at_  : Nat
  seg  : Nat
  off  : Nat
  data : List Nat
deriving DecidableEq, Repr

/-- The Helad's boundary beyond its objects (R69–R98). -/
structure BoundSt where
  /-- Die GID; null before SlotAssign. -/
  gid : Nat
  /-- Domain states 1–5: 0 asleep, 1 waking, 2 awake; FT of the wake request; FT of the last work. -/
  dom : Tbl Nat
  wakeAt : Tbl Nat
  busyAt : Tbl Nat
  /-- Sync wake-up in progress (R50): exchanges left, plus one for the servo update that ends it. -/
  syncLeft : Nat
  /-- The Tray has restored this Helad's operating hours and fence map since its last AO power-up (R60, R88). -/
  restored : Bool
  /-- HAO_RST_N and HMAIN_RST_N asserted. -/
  haoReset : Bool
  hmainReset : Bool
  /-- HMAIN_RST_N was released before HAO_RST_N (R528). -/
  hmainEarly : Bool
  /-- AO_CLK absent. -/
  clkLost : Bool
  /-- Asymmetry of the slot's wavelength and of the fibre's spare, ps (R543). -/
  asym : Int
  asymSpare : Int
  /-- TAP_GRP_ACTIVE, 16 groups. -/
  grpActive : Nat
  /-- Read port: requests by tag, retired tags, tokens in 10^-6 byte (R83–R85). -/
  reads : Tbl ReadReq
  retired : List Nat
  tokens : Nat
  /-- Fence lines: FENCE_REQ, FENCE_ACK; FT each request was raised; the cause of the last change wanted, per unit. -/
  fReq : Nat
  fAck : Nat
  fAt : Tbl Nat
  fCause : Tbl Nat
  /-- Fences with FENCE_TIMEOUT already recorded. -/
  fLate : Nat
  /-- Halt lines: HALT_REQ, HALT_ACK, RADIO_GROUP, FT each was raised, groups with HALT_TIMEOUT recorded. -/
  hReq : Nat
  hAck : Nat
  radio : Nat
  hAt : Tbl Nat
  hLate : Nat
deriving DecidableEq, Repr

/-- An open command (R108–R110): its set, list and version, the stored values or running maxima in list order, and the flags gathered. -/
structure OpenCmd where
  stream  : Nat
  cmdid   : Nat
  part    : Nat
  start   : Nat
  hasSet  : Bool
  set     : Nat
  version : Nat
  members : List Nat
  stored  : List Nat
  flags   : Nat
deriving DecidableEq, Repr

/-- Counters beyond their objects (R101–R115). -/
structure CountSt where
  /-- Active set lists. -/
  active : Tbl (List Nat)
  opens : List OpenCmd
  /-- The last instant sampled, or at which COUNT woke, FT units. -/
  lastAt : Nat
  /-- FT in ns at which COUNT slept since the previous sample. -/
  slept : Option Nat
  /-- A SampleMapRecord is owed. -/
  mapOwed : Bool
  /-- Tap groups with an early tap (R78), each with the counters whose record has carried INCOMPLETE since. -/
  early : Tbl (List Nat)
  /-- Taps waiting in each port's FIFO (R77); boundaries waiting, in hundredths (R80). -/
  fifo : Tbl Nat
  cbFill : Nat
  /-- Energy and commands per partition and 100 ms interval at the Tray (R119): partition × 2^40 + interval to µJ, commands and their streams. -/
  power : Tbl (Nat × Nat × Nat)
  powerK : Nat
  /-- The Tray's copies of active set lists and the version before (R548): slot × 8 + set to versions, newest first. -/
  copySets : Tbl (List (Nat × List Nat))
deriving DecidableEq, Repr

/-- An open trace block (R125, R126): entry bytes, FT of the first entry, partition and class at opening. -/
structure TrBlock where
  bytes : List Nat
  first : Nat
  part  : Nat
  cls   : Nat
deriving DecidableEq, Repr

/-- A loss not yet written (R132): class, cause, packets, bytes, cadence index at the first lost packet, and whether the amounts are unknown. -/
structure TrLoss where
  cls : Nat
  cause : Nat
  packets : Nat
  bytes : Nat
  first : Nat
  unknown : Bool
deriving DecidableEq, Repr

/-- One trace source (R121–R141). -/
structure TrSrc where
  owed : Option Nat
  /-- Index and state flags of the last FULL_SYNC. -/
  full : Option (Nat × Nat)
  block : Option TrBlock
  losses : List TrLoss
  dozing : Bool
  /-- SOURCE_SEQ of the next block, held in AO. -/
  seq : Nat
  /-- The last kept packet began with 0xF0. -/
  lastF0 : Bool
  restart : Bool
  resetDue : Bool
  fullDue : Bool
  marks : List Nat
  /-- A LOSS entry has been written that no FULL_SYNC has followed (R132). -/
  lossMark : Bool
deriving DecidableEq, Repr

/-- The trace funnel beyond its objects (R121–R147). -/
structure TraceSt where
  srcs : Tbl TrSrc
  /-- Beats waiting in each source's FIFO. -/
  fifo : Tbl Nat
  /-- Closed blocks, oldest first: class, source, record, cut number at closing. -/
  closed : List (Nat × Nat × Rec × Nat)
  /-- Source served last in each class. -/
  served : Tbl Nat
  /-- Cadence in force, µs; a written one and the FT it takes effect; the last boundary index. -/
  cad : Nat
  cadNext : Option (Nat × Nat)
  lastK : Nat
  /-- HOLDOVER, DOZING and UNLOCKED at the last boundary (R128). -/
  lastF : Nat
  /-- Sequencer: transition number; counters with a target event pending; KIND 3 comparators above their value; KIND 5 comparators that fired. -/
  trans : Nat
  cntPend : Nat
  above : Nat
  fired5 : Nat
  /-- Bench port: bytes it holds and has not sent, and the records and bytes dropped since the last gap record. -/
  bench : Nat
  gapRecs : Nat
  gapBytes : Nat
deriving DecidableEq, Repr

/-- A flit (R150): its header fields and its 15 payload units. -/
structure FlitHdr where
  ty     : Nat
  port   : Nat
  part   : Nat
  seq    : Nat
  phase  : Nat
  mark   : Bool
  cutId  : Nat
  loss   : Bool
  spare  : Bool
  resumed : Bool
  lead   : Bool
  retx   : Bool
  start  : Nat
  valid  : Nat
deriving DecidableEq, Repr

/-- A record unit as a flit carried it: the unit, the flit's SEQUENCE, CUT_ID and PARTITION. -/
structure RxUnit where
  unit : Nat
  seq  : Nat
  cut  : Nat
  part : Nat
deriving DecidableEq, Repr

/-- The receiver of one link and stream type (R154, R204, R551). -/
structure RxStream where
  /-- SEQUENCE expected next; none before the first flit after a training. -/
  expect : Option Nat
  /-- Units not yet ingested, oldest first: complete records, then the record in progress. -/
  units  : List RxUnit
  /-- Reassembly waits for the next RECORD_START. -/
  resync : Bool
  /-- Flits held ahead of a gap, in SEQUENCE order (R25, R180). -/
  held   : List (List Nat)
  /-- A repair request outstanding: first and last SEQUENCE asked for, FT asked. -/
  asked  : Option (Nat × Nat × Nat)
  /-- FT at which the skew hold of a multi-wavelength link began (R180). -/
  skew   : Option Nat
  /-- Last taken flits, newest first, for the twin's repair requests. -/
  kept   : List (List Nat)
deriving DecidableEq, Repr

/-- The Helad's lane and the Icdon IX40's slots beyond their objects (R148–R176). -/
structure LaneSt where
  /-- Records queued per stream type, oldest first, with the cut number at queuing. -/
  q : Tbl (List (Nat × Rec))
  /-- Units of the head record already sent, per stream type. -/
  sent : Tbl Nat
  /-- Head records of the COUNTER queue that the fining stage has coded or left (R221). -/
  coded : Nat
  /-- Next SEQUENCE per stream type. -/
  seq : Tbl Nat
  /-- Stream types that owe CUT_MARK, with the cut number of each (R156). -/
  mark : List (Nat × Nat)
  /-- Stream types that owe LOSS, RESUMED, one bit each. -/
  loss : Nat
  resume : Nat
  /-- Deficits of the weighted types (R155), and the types of the last 1,024 flits that were strict. -/
  deficit : Tbl Nat
  window : List Bool
  /-- Replay buffer: the last 1,024 flits other than IDLE and TIME, newest first: type, SEQUENCE, packed flit (R172). -/
  replay : List (Nat × Nat × List Nat)
  /-- Replayed flits that wait to be sent, oldest first: type and packed flit (R172). -/
  again : List (Nat × List Nat)
  /-- Flits sent since the upstream superframe began (R149, R167). -/
  frame : Nat
  /-- Downstream channels, keyed slot × 16 + stream type: records queued with the cut number at queuing, units of the head record already sent, next SEQUENCE; keys that owe CUT_MARK, with the cut number (R156, R160). -/
  dq : Tbl (List (Nat × Rec))
  dsent : Tbl Nat
  dseq : Tbl Nat
  dmark : List (Nat × Nat)
  /-- Per slot: flits other than BULK sent since the last BULK flit; flits sent in the downstream superframe, and the superframe count (R149, R160). -/
  dbulk : Tbl Nat
  dframe : Tbl (Nat × Nat)
  /-- AlarmOverflow counted since the last summary. -/
  alarmLost : Nat
  /-- LEAD carried by each downstream channel, and whether it is received. -/
  chLead : Tbl Nat
  chUp : Tbl Nat
  /-- Last SEQUENCE acted on, by type (CONTROL 2, BULK 8), and the other channel's CONTROL and BULK flits of the last 64 KiB, newest first (R161). -/
  acted : Tbl Nat
  other : List (List Nat)
  /-- CONTROL records of a type acted on last, by their header's SEQUENCE (R161). -/
  ctlSeen : Tbl Nat
  /-- FT until which no new FT master is taken after the selected channel was lost to one with LEAD 0 (R161). -/
  timeHold : Option Nat
  /-- Retune in progress: target, LAST_GOOD values, FT at which the settle wait ends. -/
  retune : Option (Nat × List Nat × Nat)
  /-- FT at which the transmitter was lit in training, and the twins named by TrainDone. -/
  litAt : Nat
  trainDone : List Nat
  /-- FT of the last lighting while dozing (R168). -/
  lastLit : Nat
  /-- The optical engine's fault line handled (R100). -/
  oeFault : Bool
  /-- Icdon IX40: receive streams keyed by link number × 16 + stream type; discarded flits per link number (R154). -/
  rx : Tbl RxStream
  errs : Tbl Nat
  /-- Per slot: consecutive SOURCE_PORT mismatches; consecutive uncorrectable codewords; FT light was last lost; DOZE announced; DIE_GID; stored spare settings; FT of the last lighting in DOZE; corrected symbols in the present millisecond. -/
  miswired : Tbl Nat
  fecRun : Tbl Nat
  lossAt : Tbl Nat
  dozeSaid : List Nat
  dieGid : Tbl Nat
  spareSet : List Nat
  dozeFrom : Tbl Nat
  /-- Dozing slots lit by a KEEPALIVE (R165). -/
  keepLit : List Nat
  degraded : List Nat
  fecMs : Tbl (Nat × Nat)
  /-- Slots above DegradeThreshold in their last millisecond. -/
  overMs : List Nat
  /-- Retune at the Icdon IX40 per slot: FT t0 and target. -/
  retuneAt : Tbl (Nat × Nat)
  /-- FT at which light was detected in RETUNE; slots that have trained anew in RETUNE (R173, R176). -/
  burstAt : Tbl Nat
  retrained : List Nat
  /-- Slots whose flits are taken over the crosslink, and slots whose flits the other twin has lost (R159). -/
  viaTwin : List Nat
  forward : List Nat
  /-- Slots of which this shadow has told the lead that its receiver has adapted (R545). -/
  adapted : List Nat
  /-- The Tray's copies of Helad objects per slot (R548), keyed slot × 2^24 + key. -/
  copies : Tbl Nat
  /-- Timed writes that a Helad has accepted and that reach its copy at their instants (R63, R548): handle, instant, slot, key, value. -/
  copyDue : List (Nat × Nat × Nat × Nat × Nat)
deriving DecidableEq, Repr

/-- A host ring as the Icdon IX40 holds it (R188–R192). -/
structure Ring where
  base  : Nat
  log2e : Nat
  prod  : Nat
  cons  : Nat
  cbase : Nat
  log2c : Nat
  cprod : Nat
  ccons : Nat
  enable : Bool
  stopped : Bool
  /-- Where a VF ring's control block lies, as its VF BAR says (R188). -/
  block : Nat
deriving DecidableEq, Repr

/-- The package beyond its objects (R177–R203). -/
structure PkgSt where
  /-- The port plan in force (R181); the standby uplink is in use. -/
  use : Tbl Nat
  /-- Wavelengths per link in force (R180, R181). -/
  width : Nat
  standby : Bool
  /-- Failed wavelengths per port, and ports whose position 8 is in use (R180). -/
  dark : Tbl Nat
  spareUsed : List Nat
  /-- The wavelength that a port's position 8 carries in place of itself (R180). -/
  spareFor : Tbl Nat
  /-- Ports whose laser is still tuning to position 8: FT at which it carries flits (R180). -/
  retune : Tbl Nat
  /-- Rings: PF ring r, or VF v as 1024 + v; completions written since the last cadence. -/
  rings : Tbl Ring
  complUsed : Tbl Nat
  /-- Positions (ring, CONSUMER) acknowledged by the shadow. -/
  ackPos : Tbl Nat
  /-- A new lead replays completions (R192). -/
  replay : Bool
  /-- Completions that the lead owes by the shadow's reckoning since the ring's last acknowledged position: ring, tag, STATUS, CAUSE, HANDLE (R192). -/
  unsaid : List (Nat × Nat × Nat × Nat × Nat)
  /-- The multiple of RingCadence at which rings were last read (R189). -/
  fetchAt : Option Nat
  /-- The PCIe link is up (R203). -/
  pcieUp : Bool
  /-- Result records waiting while the PCIe link is down, oldest first; count dropped. -/
  waiting : List Rec
  waitDrop : Nat
  inputLow : Bool
  /-- Throttle: FT since which the cause has persisted; none without cause. -/
  throttleFrom : Option Nat
  /-- Power state of each switched domain: 1 on; FT of its last work; in reset. -/
  domOn : List Nat
  domWork : Tbl Nat
  domReset : Tbl Nat
  /-- The fabric transmitters are stopped (R177, R201). -/
  dark_ : Bool
  /-- Thermal: sensors at or above throttle. -/
  hot : List Nat
deriving DecidableEq, Repr

/-- A record held in a chunk (R207, R208): its place in admission order, slot or link, ring priority, stream type, flit SEQUENCE and cut number of its first unit, the record, the ingress FT. -/
structure RingRec where
  pos  : Nat
  slot : Nat
  pri  : Nat
  st   : Nat
  seq  : Nat
  cut  : Nat
  rec_ : Rec
  at_  : Nat
deriving DecidableEq, Repr

/-- A chunk (R208): region 0 ring or 1 post-reserve, offset in 256-byte units, stored length in bytes (that of its fined form where it is stored fined). -/
structure Chunk where
  num    : Nat
  slot   : Nat
  pri    : Nat
  region : Nat
  off    : Nat
  len    : Nat
  first  : Nat
  recs   : List RingRec
deriving DecidableEq, Repr

/-- A trigger that has fired and awaits the lead's decision (R211, R212): slot scope, kind, source GID, reference, trigger stamp, and the FT before which it does not act. -/
structure Trig where
  rule  : Nat
  kind  : Nat
  scope : Nat
  gid   : Nat
  ref   : Nat
  stamp : Nat
  due   : Nat
deriving DecidableEq, Repr

/-- A cask (R212–R217): bounds are per slot × 16 + stream type. -/
structure Cask where
  id      : Nat
  rule    : Nat
  kind    : Nat
  status  : Nat
  flags   : Nat
  ref     : Nat
  trig    : Nat
  scope   : Nat
  pre     : Nat
  post    : Nat
  dropped : Nat
  loc     : Nat
  pins    : List Nat
  lo      : Tbl Nat
  hi      : Tbl Nat
deriving DecidableEq, Repr

/-- A fining job (R222): the descriptor, the ring that submitted it, the chunks it pins. -/
structure FinJob where
  desc : Rec
  ring : Option Nat
  pins : List Nat
deriving DecidableEq, Repr

/-- A record retained in the analysis buffer (R206), the SEQUENCE of the flit of its first unit, and the engines that have not read it: bit 0 reduction, bits 8–23 Mash regions, bits 24–31 Steep groups. -/
structure Staged where
  num  : Nat
  slot : Nat
  st   : Nat
  fseq : Nat
  rec_ : Rec
  need : Nat
  at_  : Nat
  /-- Where it begins in the analysis buffer, counted in bytes written since reset. -/
  wpos : Nat
deriving DecidableEq, Repr

/-- History of one fining key (R219): the last two records' words, and whether the history is complete. -/
structure FinHist where
  key   : List Nat
  x1    : List Nat
  x2    : List Nat
  count : Nat
  valid : Bool
deriving DecidableEq, Repr

/-- Grist ingress, the cask store and the fining engine beyond their objects (R204–R224). -/
structure GristSt where
  /-- Ring admission tokens in bytes, and the remainder of their growth (R207). -/
  tokens : Int
  /-- Open chunks keyed slot × 4 + priority; closed chunks oldest first; closed chunks that await fining. -/
  open_  : Tbl Chunk
  chunks : List Chunk
  await  : List Chunk
  /-- Next chunk and record numbers; write offsets of ring and post-reserve in 256-byte units. -/
  nextChunk : Nat
  nextPos   : Nat
  ringHead  : Nat
  postHead  : Nat
  /-- The ingress index, oldest first. -/
  index : List Nat
  /-- Entries written to the index since reset: the next stands at this number of the circular log. -/
  idxCount : Nat
  /-- The second of the last ANCHOR. -/
  anchor : Nat
  /-- Ring-drop and reserve-drop runs keyed slot × 4 + priority: bytes and FT of the start; undecodable runs: slot × 16 + stream type, key, SEQUENCE and cut number of the first flit, bytes. -/
  dropRun : Tbl (Nat × Nat)
  resvRun : Tbl (Nat × Nat)
  undec   : List (Nat × List Nat × Nat × Nat × Nat)
  fired : List Trig
  casks : List Cask
  /-- The drop entries inside a cask's bounds, as the lead has them once it is sealed, by identifier (R212). -/
  caskDrops : Tbl (List Nat)
  nextCask : Nat
  /-- The cask being racked: identifier, port, page offset; the port taken last. -/
  racking : Option (Nat × Nat × Nat)
  lastPort : Nat
  /-- Extents taken in Tier 2: cask, port, first page, pages. -/
  tier2 : List (Nat × Nat × Nat × Nat)
  staging : List Staged
  /-- Last flit SEQUENCE taken per slot or link × 16 + stream type. -/
  taken : Tbl Nat
  nextStage : Nat
  /-- The write position of the analysis buffer, in bytes written since reset (R206). -/
  stagePos : Nat
  /-- Engines that missed records by a staging overrun since the last epoch close: bits 0–31 as in `Staged`, bit 1 the series engine, bits 32–39 the Lauter engine by model slot. -/
  over_ : Nat
  /-- FT of the latest overrun of each of those engines: at a close the ones of the next epoch stay (R320). -/
  overAt : Tbl Nat
  /-- Fining histories of the ingress decoder, per slot, and of the Helad's encoder. -/
  hist  : Tbl (List FinHist)
  hHist : List FinHist
  /-- Job queues of the four fining instances. -/
  jobs : Tbl (List FinJob)
  /-- Tier 2 contents, keyed port × 2^44 + byte address. -/
  t2 : List Host.Cell
deriving DecidableEq, Repr

/-- A series table entry (R230); FLAGS as in the map. `fresh`: no sample has been taken; `rebase`: the FT in ns from which the next sample begins a new baseline (R233). -/
structure SerEnt where
  key    : Nat
  flags  : Nat
  alarms : Nat
  last   : Nat
  mean   : Nat
  var    : Nat
  hi     : Nat
  lo     : Nat
  wmin   : Nat
  wmax   : Nat
  lastFt : Nat
  base   : Nat
  count  : Nat
  fresh  : Bool
  /-- Boundaries, in ns, from which a new baseline is due (R233). -/
  rebase : List Nat
deriving DecidableEq, Repr

/-- A sample that waits for the series engine (R227): die, series, value, stamp, GAP. -/
structure Sample where
  die  : Nat
  ser  : Nat
  val  : Nat
  stm  : Nat
  gap  : Bool
deriving DecidableEq, Repr

/-- An open step (R241): number, FT of opening, members, the records taken. -/
structure StepOpen where
  step : Nat
  at_  : Nat
  members : Tbl Nat
  recs : List Rec
deriving DecidableEq, Repr

/-- Steps of one partition: open ones oldest first, the last 64 closed numbers, and per die the history, the flag and the last known shard. -/
structure StepPart where
  open_  : List StepOpen
  closed : List Nat
  hist   : Tbl Nat
  flagged : List Nat
  /-- Shards of usable records, keyed die × 2^32 + step (R245). -/
  shard  : Tbl Nat
deriving DecidableEq, Repr

/-- The series engine beyond its objects (R227–R249). -/
structure SeriesSt where
  /-- Entries keyed bucket × 8 + way. -/
  ents  : Tbl SerEnt
  /-- Samples of the record being read, in order. -/
  cur   : List Sample
  /-- Series sampled since the last forwarded multiple, keyed die × 2^12 + series: value, GAP, HOLDOVER. -/
  touched : Tbl (Nat × Bool × Bool)
  fwdK  : Nat
  /-- SAMPLE maps, keyed slot × 2^16 + MAP_VERSION (R115). -/
  maps  : Tbl Nat
  /-- SeriesParam in force per index: FT in ns from which it applies, value, value before; indices written since the last boundary. -/
  act   : Tbl (Nat × Nat × Nat)
  changed : List Nat
  /-- SeriesWindow in force, the same way, and whether it was written. -/
  win   : Nat × Nat × Nat
  /-- Superseded values, newest first: series index, or 2^12 for the window, with the instant in ns from which each applied (R233). -/
  past : List (Nat × Nat × Nat)
  winChanged : Bool
  /-- Rebaseline writes that wait for the boundary. -/
  rebase : List Nat
  steps : Tbl StepPart
deriving DecidableEq, Repr

/-- An operator state of R259: operator, floating input, values folded, accumulator (SUM, COUNT, OR), infinities and NaN counts, and the entries of the other operators: MIN, MAX and TOPK as value, GID, SEQ in rank order; LOGHIST and QSKETCH as bucket, count, 0. -/
structure RState where
  op     : Nat
  ity    : Nat
  values : Nat
  acc    : Int
  pinf   : Nat
  ninf   : Nat
  nan    : Nat
  ents   : List (Nat × Nat × Nat)
  /-- KFLAGS gathered (R266). -/
  flags  : Nat
deriving DecidableEq, Repr

/-- A value derived at a Tray (R257): reduction, partition scope, value, die, SEQ, and the record it came from. -/
structure RVal where
  r    : Nat
  part : Nat
  val  : Nat
  gid  : Nat
  seq  : Nat
  slot : Nat
  st   : Nat
  fseq : Nat
  hold : Bool
deriving DecidableEq, Repr

/-- A contribution of a child pair for one scope (R264–R266): its records keyed by reduction, its set, whether a part came late, whether it is a supplement. -/
structure Contrib where
  port : Nat
  part : Nat
  supp : Bool
  late : Bool
  recs : Tbl Rec
  set_ : Option Rec
deriving DecidableEq, Repr

/-- A scope's merged result: operator states by reduction, contributor words, members. -/
structure Scope where
  states  : Tbl RState
  words   : Tbl Nat
  members : Nat
deriving DecidableEq, Repr

/-- An epoch that is open for its result or its supplement (R250–R270). Times in ns; GRACE in µs; HOLD in ms. -/
structure Epoch where
  num     : Nat
  start   : Nat
  len     : Nat
  grace   : Nat
  budget  : Nat
  hold    : Nat
  /-- Members, and membership and home of each partition that takes part. -/
  members : Tbl Nat
  parts   : Tbl (Tbl Nat × Nat)
  /-- Enabled definitions in force: reduction to ReductionDef, ReductionSelect, DefDigest. -/
  defs    : Tbl (Nat × Nat × Nat)
  /-- Reductions that would not reach a tenant exactly, with the die (R269). -/
  inexact : List (Nat × Nat)
  vals    : List RVal
  lateVals : List RVal
  childs  : List Contrib
  closed  : Bool
  over_    : Bool
  main    : Tbl Scope
  posted  : Bool
  suppDone : Bool
  supp    : Tbl Scope
  /-- Mismatch found by the compare (R27): bit 0 main, bit 1 supplement. -/
  mismatch : Nat
  localMain : Nat
  /-- Digests sent: bit 0 main, bit 1 supplement. -/
  digSent : Nat
  /-- A forward step of FT passed the epoch's end (R275). -/
  held    : Bool
deriving DecidableEq, Repr

/-- The reduction engine and the epochs beyond their objects (R250–R275, R25–R27, R408). -/
structure RedSt where
  /-- The epoch pair is held; EpochLength in force, ns. -/
  has   : Bool
  len   : Nat
  epochs : Tbl Epoch
  /-- Records of epochs that have not begun here: slot, stream type, SEQUENCE, record. -/
  early : List (Nat × Nat × Nat × Rec)
  /-- A pair to be taken at the next boundary after EPOCH_SLIP: epoch, start, length. -/
  slip  : Option (Nat × Nat × Nat)
  /-- Per link: exchanges served with an anchor, the second of the last anchor, and the change of EpochLength that it was told last; and the changes so far (R251). -/
  served : Tbl Nat
  anchorSec : Tbl Nat
  told : Tbl Nat
  changes : Nat
  /-- Definitions in force: reduction to ReductionDef, ReductionSelect, DefDigest. -/
  active : Tbl (Nat × Nat × Nat)
  /-- Definitions of each accepted commit at the Apex, by the instant it takes effect (R255). -/
  staged : Tbl (Tbl (Nat × Nat))
  /-- Outputs to be digested: epoch × 2 + kind, record (R27). -/
  outs  : List (Nat × Rec)
  /-- Twin digests sent and received: epoch × 2 + kind to digest and LOCAL. -/
  own   : Tbl (Nat × Nat)
  theirs : Tbl (Nat × Nat)
  /-- Vector numbers: (epoch × 256 + unit) × 2^32 + die to the next number. -/
  vnum  : Tbl Nat
  /-- The definitions in force by the first epoch of each change, of the last sixteen changes (R270). -/
  defsFrom : Tbl (Tbl (Nat × Nat × Nat))
  /-- FT before and after the last forward step (R275). -/
  stepTo : Nat × Nat
  /-- Flits lost here since the last close, of which the twin is told at its agreement (R25): slot × 16 + stream type, first missing SEQUENCE, how many. -/
  lost : List (Nat × Nat × Nat)
deriving DecidableEq, Repr

/-- A launched switch of a binding (R296): binding, instant, the slot it left, and the end of that slot's drain. -/
structure Move where
  bind : Nat
  at_  : Nat
  old  : Nat
  end_ : Nat
deriving DecidableEq, Repr

/-- A FeatureVectorRecord in feature staging (R309): position in the log, the record, and what each subscribing binding still has to do with it: binding, slot, number of the result among its die's. -/
structure FeatVec where
  pos  : Nat
  rec_ : Rec
  need : List (Nat × Nat × Nat)
deriving DecidableEq, Repr

/-- A batch (R292): binding, slot, its vectors with the number of each result, FT of the first; when it is walked, the vectors whose read was uncorrectable. -/
structure Batch where
  bind : Nat
  slot : Nat
  vecs : List (Nat × Rec)
  first : Nat
  bad  : List Nat
deriving DecidableEq, Repr

/-- The Lauter engine beyond its objects (R276–R300). -/
structure LauterSt where
  /-- LauterBinding in force per binding: FT from which it applies, value, value before. -/
  act : Tbl (Nat × Nat × Nat)
  /-- Bindings written since the last boundary. -/
  changed : List Nat
  moves : List Move
  /-- Values of LauterBinding that a boundary or a switch has superseded, newest first: binding, FT from which it applied, value (R233, R291). -/
  past : List (Nat × Nat × Nat)
  /-- Pending switches per binding: instant, slot. -/
  waits : Tbl (Nat × Nat)
  /-- Slots that hold a validated image, and images in validation: bytes. -/
  valid : List Nat
  checking : Tbl Nat
  /-- FT at which each RETIRING slot ends its drain. -/
  retire : Tbl Nat
  /-- STOP_EPOCH and tree of each slot with DEPTH_EXCEEDED; trees found at a shadow before the lead's word. -/
  stop : Tbl (Nat × Nat)
  found : Tbl Nat
  /-- Feature staging, and its write position in bytes. -/
  feats : List FeatVec
  head : Nat
  /-- Per die, the number of the next vector that a binding is to score, in the order in which they entered feature staging. -/
  seq : Tbl Nat
  open_ : List Batch
  closed : List Batch
  /-- The batch each cluster walks. -/
  running : Tbl Batch
  /-- Scores that wait for an earlier one of their die (R289, R293): die, number, and the record with its binding, or none for a vector lost to an overrun. -/
  waiting : List (Nat × Nat × Option (Nat × Rec))
  /-- Per die, the number of the next score to be released. -/
  nextNum : Tbl Nat
  /-- Next SEQUENCE of ScoreResultRecords per die (R289). -/
  outSeq : Tbl Nat
deriving DecidableEq, Repr

/-- What a Mash region or a Steep group feeds on (R304–R307, R315–R317, R323): header of the active image (empty: none), contexts in force (FT in ns from which, mask, mask before), the pending switch (instant, slot, handle), phase of a launched switch (0 none, 1 old image draining, 2 loading), its instant, its slot, the records skipped, streams context × 16 + type that stopped at S, whether it was launched on a FAULTED unit. -/
structure Feed where
  img     : Rec
  ctx     : Nat × Nat × Nat
  sw      : Option (Nat × Nat × Nat)
  phase   : Nat
  from_   : Nat
  to_      : Nat
  skipped : Nat
  stopped : List Nat
  flt     : Bool
  /-- Epoch that an EPOCH image consumes, and per context: highest SEQUENCE consumed in it, SOURCE_GID of that record, HOLDOVER in any stamp. -/
  epoch   : Nat
  cons    : Tbl (Nat × Nat × Bool)
  /-- A record presented and not yet consumed: context, FT (R319). -/
  shown   : Option (Nat × Nat)
  /-- Epoch vectors of a Steep group that wait for all four cores: context to payload words; contexts whose EPOCH_END has been delivered, and done. -/
  vecs    : Tbl (List Nat)
  ends    : List Nat
  ended   : List Nat
deriving DecidableEq, Repr

/-- Mash regions and Steep groups beyond their objects: units 0–15 are regions, 16–23 groups. -/
structure MashSt where
  units  : Tbl Feed
  /-- Agreed last SEQUENCE per context × 16 + stream type, of the last eight closed epochs (R307). -/
  agreed : Tbl (Tbl Nat)
  /-- Next SEQUENCE of the FeatureVectorRecords per source GID (R18, R309). -/
  seq : Tbl Nat
  /-- The record that each vector of a RECORD image comes from, newest first: unit, SOURCE_GID and stamp of the vector, and slot, stream type and flit SEQUENCE of the record (R263). -/
  orig : List (Nat × Nat × Nat × Nat × Nat × Nat)
  /-- Contexts that a boundary has superseded, newest first: unit, FT in ns from which they applied, mask (R233, R304). -/
  past : List (Nat × Nat × Nat)
  /-- Local memory of each tile (16 KiB, bytes not 0), keyed region × 64 + tile (R301, R313). -/
  mem : Tbl (List Host.Cell)
  /-- Configuration store of each tile, keyed the same way (R301, R313). -/
  conf : Tbl (List Nat)
deriving DecidableEq, Repr

/-- A delivery entry in a core's input ring (R337): its address and length in local memory, its 32-byte head. -/
structure SEntry where
  addr : Nat
  len  : Nat
  head : Nat
deriving DecidableEq, Repr

/-- An open hardware loop (R335, R336): first and last bundle of its body, staged or not, stages. -/
structure SLoop where
  first  : Nat
  last   : Nat
  staged : Bool
  stages : Nat
deriving DecidableEq, Repr

/-- The results of the operations of a bundle, which become visible together at its end (R328): the slot, register writes by register number, STATUS bits set, a store, a branch target, a loop that opens (none, or body, staged, stages), the stream operation (0 none, 1 NEXT, 2 DONE, 3 EMIT with its words). -/
structure SEff where
  slot  : Nat
  regs  : List (Nat × Nat)
  set_  : Nat
  store : Option (Nat × List Nat)
  br    : Option Nat
  loop  : Option (Nat × Bool × Nat)
  strm  : Nat
  words : List Nat
deriving DecidableEq, Repr

/-- One Steep core (R325–R338). Registers by number: X0–X63 (physical) 0–63, P 64–71, N 72–79, ACC 80–83, G 84–99, C 100–111. -/
structure SCore where
  pc    : Nat
  regs  : Tbl Nat
  mem   : List Host.Cell
  loops : List SLoop
  /-- Slots of the bundle already executed, with their results; a NEXT that waits: its operation word. -/
  effs  : List SEff
  wait  : Option Nat
  /-- Input ring: entries oldest first, write offset; the entry held, FT since when, whether it has emitted. -/
  ring  : List SEntry
  wp    : Nat
  held  : Option (SEntry × Nat × Bool)
deriving DecidableEq, Repr

/-- The Steep cores. -/
structure SteepSt where
  cores : Tbl SCore
deriving DecidableEq, Repr

/-- A job of the DIGEST domain (R370): kind in priority order 0 descriptor, 1 input, 2 output, 3 program, 4 weights, 5 pitch output, 6 pattern image, 7 sweep; what it serves; the regions to read one after another; the region in progress, bytes of it requested, requests outstanding; blocks received as region, offset, bytes; failure: 0 none, 1 an error response, 2 NO_BUDGET, 3 READ_TIMEOUT, with the address and error code that R84 names. -/
structure Job where
  id   : Nat
  kind : Nat
  ref  : Nat
  part : Nat
  segs : List (Nat × Nat)
  cur  : Nat
  off  : Nat
  wait : Nat
  got  : List (Nat × Nat × List Nat)
  fail : Nat
  fAddr : Nat
  fCode : Nat
deriving DecidableEq, Repr

/-- A pitch run (R357–R360): the descriptor it was issued with; phase 0 requested, 1 output being checked; readings of temperature, rail and clock. -/
structure Pitch where
  unit   : Nat
  slot   : Nat
  tag    : Nat
  run    : Nat
  fenced : Bool
  deferred : Bool
  hold   : Bool
  start  : Nat
  at_    : Nat
  desc   : Rec
  phase  : Nat
  cmdid  : Nat
  temp   : Nat
  volt   : Nat
  freq   : Nat
deriving DecidableEq, Repr

/-- Provenance of one command (R365–R368); a component digest that is pending is none, an invalid one 0. -/
structure Prov where
  id     : Nat
  stream : Nat
  cmdid  : Nat
  part   : Nat
  start  : Nat
  end_   : Option Nat
  flags  : Nat
  desc   : Option (List Nat)
  prog   : Option Nat
  wts    : Option Nat
  inp    : Option Nat
  outp   : Option Nat
deriving DecidableEq, Repr

/-- A replica group as a member Helad holds it (R361). -/
structure RepHel where
  home  : Nat
  part  : Nat
  base  : Nat
  gen   : Nat
  len   : Nat
  every : Nat
  /-- ENABLE of the group at its home. -/
  on    : Bool
  key   : Nat
  /-- Last sweep made or skipped, and whether one is running and which. -/
  last  : Nat
  busy  : Option Nat
deriving DecidableEq, Repr

/-- A member entry of a replica group at its home (R361). -/
structure RepMember where
  gid     : Nat
  streams : Nat
  base    : Nat
  gen     : Nat
deriving DecidableEq, Repr

/-- A taint notice to be formed or formed (R373). -/
structure Notice where
  slot    : Nat
  die     : Nat
  unit    : Nat
  cause   : Nat
  streams : Nat
  ref     : Nat
  run     : Nat
  clean   : Nat
  detect  : Nat
  id      : Nat
  formed  : Option Nat
  seen    : Nat
  next    : Nat
deriving DecidableEq, Repr

/-- The Helad's part of the silent-error defence. -/
structure SiHel where
  jobs     : List Job
  nextJob  : Nat
  /-- Pitch requests and checks; runs deferred: unit, run; next request tag. -/
  requests : List Pitch
  deferred : List (Nat × Nat)
  nextTag  : Nat
  /-- Next run number per unit; START_NS of the last PASS; consecutive ABORTED and SKIPPED results; characterisation: pattern slot and runs left. -/
  next     : Tbl Nat
  lastPass : Tbl Nat
  aborts   : Tbl Nat
  skips    : Tbl Nat
  suspect  : Tbl (Nat × Nat)
  /-- PitchDuty and CLASS in force, and the FT at which written ones take effect. -/
  duty     : Nat
  cls      : Tbl Nat
  change   : Option Nat
  /-- Pattern banks: descriptors by slot; staged version; slots of it verified; an activation that waits for READY: version. -/
  active   : Tbl Rec
  staged   : Tbl Rec
  stVer    : Nat
  verified : List Nat
  badSlots : List Nat
  waitVer  : Option Nat
  /-- Latest reading and its FT per tap port 176–207; FT of the last reading that met a conditional fence's test, per unit; window start and counter value for KIND 3. -/
  readings : Tbl (Nat × Nat)
  metAt    : Tbl Nat
  window   : Tbl (Nat × Nat)
  /-- Provenance and the digest cache: address, length, generation, digest. -/
  provs    : List Prov
  nextProv : Nat
  /-- Failed reads, newest first: 1 an error response or 3 READ_TIMEOUT, the address, the partition, the error code (R84). -/
  faults   : List (Nat × Nat × Nat × Nat)
  cache    : List (Nat × Nat × Nat × Nat)
  /-- Replica groups, keyed HOME_GID × 256 + group number, since a die may be a member of groups of several homes. -/
  groups   : Tbl RepHel
deriving DecidableEq, Repr

/-- The silent-error defence beyond its objects (R353–R381). -/
structure SilentSt where
  hel    : SiHel
  /-- Persisted fence map per slot (R195): slot × 256 + unit. -/
  perDie : Tbl Nat
  /-- The pattern library held in the management heap: active and staged descriptors, and READY dies by slot. -/
  lib    : Tbl Rec
  libNew : Tbl Rec
  ready  : List Nat
  /-- Replica groups: members, key; records of sweeps keyed group × 2^32 + sweep; sweeps compared; last instant of a majority per group × 2^32 + die. -/
  members : Tbl (List RepMember)
  keys    : Tbl Nat
  sets    : Tbl (List Rec)
  done    : List Nat
  clean   : Tbl Nat
  /-- Taint notices and the next NOTICE_ID. -/
  notices : Tbl Notice
  nextNotice : Nat
  noticeId : Nat
  /-- Slots with a unit that has starved and run no pitch since, slot × 256 + unit (R546). -/
  starved : List Nat
deriving DecidableEq, Repr

/-- A snapshot chain that shifts at the Helad (R388): its cut, length in bytes, bytes shifted. -/
structure Shift where
  cut : Nat
  len : Nat
  off : Nat
deriving DecidableEq, Repr

/-- A cut's halt at the Helad (R396): groups requested, groups revoked, end of the hold, whether HALTED was sent and whether it is releasing. -/
structure CutHalt where
  cut     : Nat
  groups  : Nat
  revoked : Nat
  end_    : Nat
  halted  : Bool
  freeing : Bool
deriving DecidableEq, Repr

/-- A cut at the Icdon IX40 (R383–R400): argument, scope, settle time; this device's latch stamp, EARLY, STEPPED; slots dozing and failed at the latch; RX_SEQ per link × 16 + type; in-flight flits per link; reports of dies: slot to record; halt timeouts; missed; child summaries by port. -/
structure CutRec where
  number  : Nat
  at_     : Nat
  arg     : Nat
  scope   : Nat
  settle  : Nat
  cancelled : Bool
  latch   : Option Nat
  early   : Bool
  stepped : Bool
  dozing  : List Nat
  failed  : List Nat
  rx      : Tbl Nat
  flight  : Tbl Nat
  reports : Tbl Rec
  timeouts : List Nat
  missed  : List Nat
  childs  : Tbl Rec
deriving DecidableEq, Repr

/-- The Helad's snapshot and halt state. -/
structure KiHel where
  shifts : Tbl Shift
  halts  : List CutHalt
deriving DecidableEq, Repr

/-- Kiln beyond its objects (R382–R403). -/
structure KilnSt where
  hel  : KiHel
  cuts : List CutRec
  nextCut : Nat
  /-- Instants of cuts open at the Apex: number, X. -/
  opened : List (Nat × Nat)
  /-- The Icdon IX40's own cut number and the kinds of flits that owe CUT_MARK (`flitKey`), with the cut number. -/
  number : Nat
  mark   : List (Nat × Nat)
  /-- The numbers of summaries already formed. -/
  formed : List Nat
deriving DecidableEq, Repr

/-- A partition as this device holds it (R418–R420). -/
structure Part where
  state  : Nat
  effective : Nat
  test   : Bool
  words  : Tbl Nat
  home   : Nat
  /-- Changes that wait for their epoch: epoch, OP, words. -/
  pend   : List (Nat × Nat × Tbl Nat)
  /-- Teardown epoch. -/
  endEpoch : Nat
  /-- Holders below that have reported it sealed. -/
  sealed : List Nat
  /-- FT at which QUARANTINE began. -/
  since  : Nat
deriving DecidableEq, Repr

/-- A queued partition operation (R419). -/
structure PartOp where
  op    : Nat
  part  : Nat
  test  : Bool
  words : Tbl Nat
  req   : Req
deriving DecidableEq, Repr

/-- An open broadcast transfer (R423, R424): manifest, chunks by offset, bytes of the signed image, FT of the first chunk, own failure cause, counts merged from children, children that have answered, whether the status has been sent. -/
structure Transfer where
  manifest : Nat
  chunks   : Tbl (List Nat)
  size     : Nat
  since    : Nat
  cause    : Nat
  done     : Bool
  complete : Nat
  failed   : Nat
  firstGid : Nat
  firstCause : Nat
  heard    : List Nat
  sent     : Bool
deriving DecidableEq, Repr

/-- A membership change that waits for its boundary (R415): die, 0 join or 1 leave, CAUSE, FT before which it does not act. -/
structure Change where
  gid   : Nat
  leave : Bool
  cause : Nat
  after : Nat
deriving DecidableEq, Repr

/-- Twins, membership, partitions and broadcast beyond their objects (R404–R427). Links are downward links 0–63, 64 the crosslink, 65 the uplink. -/
structure FleetSt where
  /-- GID, TwinState and POSTED_EPOCH of the other twin. -/
  twinGid   : Nat
  twinState : Nat
  twinPosted : Nat
  /-- LOCAL causes of the present epoch (R408). -/
  local_    : Nat
  /-- FT of the last heartbeat per link, GID of its sender, consecutive heartbeats, links whose sender is silent. -/
  hbAt      : Tbl Nat
  peer      : Tbl Nat
  /-- The route table (R11), by GID: the link that leads to it — a slot of a Tray, a downward link above, 64 the crosslink, 65 the uplink — and whether it stands at that link itself. -/
  route : Tbl (Nat × Bool)
  hbRun     : Tbl Nat
  silent    : List Nat
  hbSent    : Nat
  departing : Bool
  /-- Latest epoch transmitted in full. -/
  posted    : Nat
  /-- A quorum round: FT of the declaration, FT of the last query, GIDs that voted YES. -/
  quorum    : Option (Nat × Nat × List Nat)
  /-- Votes given as a witness: lead asked about, TERM, twin voted for. -/
  voted     : List (Nat × Nat × Nat)
  /-- A planned handover: its boundary. -/
  handover  : Option Nat
  /-- DEGRADED of the twin's last heartbeat (R406, R413). -/
  twinDeg   : Bool
  /-- UPLINK_LOST of the twin's last heartbeat: a shadow that takes FT over the crosslink (R39, R251, R406). -/
  twinNoUp : Bool
  /-- A mismatch is attributed to this lead (R409). -/
  diverged  : Bool
  mismatchRun : Nat
  /-- Resync wanted; its boundary; engines stopped; copy made; joined twin still to consume its spill; FT of the last failed attempt. -/
  resync    : Bool
  resyncAt  : Option Nat
  stopped   : Bool
  copied    : Bool
  failedAt  : Option Nat
  /-- Both twins begin with empty analysis state at this boundary (R405). -/
  freshAt   : Option Nat
  /-- Fleet members of the subtree, and of each port's. -/
  members   : Tbl Nat
  /-- Dies that have left. -/
  past      : Tbl Nat
  below     : Tbl (Tbl Nat)
  /-- GID of the Tray pair that reported each die below. -/
  homes     : Tbl Nat
  changes   : List Change
  /-- FT since which a slot has been FAILED or MISWIRED. -/
  badFrom   : Tbl Nat
  /-- Dies removed with a silent child, per port. -/
  removed   : Tbl (Tbl Nat)
  parts     : Tbl Part
  ops       : List PartOp
  transfers : Tbl Transfer
  nextTransfer : Nat
  /-- Images written whose validation has not begun: KIND × 256 + slot, bytes. -/
  landed    : List (Nat × Nat)
deriving DecidableEq, Repr

/-- A record queued at a port (R429), for one downward link or for every link of the port. -/
structure UpEnt where
  sub : Nat
  rec_ : Rec
  stream : Nat
  at_ : Nat
  link : Option Nat
  cut : Nat
deriving DecidableEq, Repr

/-- The uplink scheduler beyond its objects (R428–R444). Queues are keyed port × 8 + class. -/
structure UplinkSt where
  q : Tbl (List UpEnt)
  /-- Token buckets, in units of 10^-3 byte, keyed port × 8 for a port, port × 8 + 1 + class for a class, 1024 + q for a subscriber. -/
  tokens : Tbl Nat
  /-- Flits sent in the present superframe, by port × 16 + wavelength (R149). -/
  frame : Tbl Nat
  /-- Deficits per port × 8 + class, and per subscriber queue (port, class, subscriber). -/
  deficit : Tbl Nat
  subDef : List (Nat × Nat × Nat × Nat)
  /-- Bytes of the strict classes in the present millisecond per port × 8 + class, and at port × 8 + 7 the millisecond. -/
  used : Tbl Nat
  /-- Histograms keyed by queue: depth counts, delay counts, max depth, max delay. -/
  hist : Tbl (List Nat × List Nat × Nat × Nat)
  histFrom : Nat
  /-- Deferral origins in effect: ORIGIN and EFFECTIVE. -/
  origins : List (Nat × Nat)
  /-- Own deferral: FT issued and the bulk arrival rate in the last window before it. -/
  ownDefer : Option (Nat × Nat)
  bulkWindow : Nat
  bulkRate : Nat
  /-- Deferral changes that wait for EFFECTIVE: ORIGIN, STATE, EFFECTIVE. -/
  sched : List (Nat × Nat × Nat)
  /-- Deferral range: records held; a racked range being resent, and the FT before which no more of it goes. -/
  range : List Rec
  resend : List Rec
  resendAt : Nat
  /-- Last instants of the 1 µs samples, the histograms and the 1 ms windows, as multiples. -/
  sampleK : Nat
  histK : Nat
  windowK : Nat
  /-- The record in progress at a port, and its units already sent. -/
  prog : Tbl (UpEnt × Nat)
  /-- FT of the last doubling or halving of the decimation factor. -/
  decAt : Nat
  /-- Consecutive spare samples, bytes per millisecond. -/
  spare : List Nat
  sentMs : Nat
  /-- Bytes of the last forwarded set (R441). -/
  lastSet : Nat
  /-- A change of factor is owed a DecimationRecord: old factor. -/
  decOwed : Option Nat
  /-- Ports whose next bulk flit carries LOSS. -/
  bulkLoss : List Nat
  /-- SEQUENCE per link and stream type: (port × 128 + downward link + 1, or port × 128) × 16 + type. -/
  seq : Tbl Nat
deriving DecidableEq, Repr

/-- The device memory (R445–R458): Tier 1 bytes by logical address, the 64-byte blocks that read poisoned or uncorrectable and those with a correctable error, the correctable log by row, the row retirement map with the part of it in force, the bank redirections, the copies and the fill that run, and the patrol's place. -/
structure MemSt where
  t1      : List Host.Cell
  /-- 64-byte blocks of Tier 2 that the expanders answered as poisoned, by byte address (port × 2^44 + offset) / 64 (R183). -/
  t2poison : List Nat
  poison  : List Nat
  uncor   : List Nat
  ce      : Tbl Nat
  ceLog   : Tbl (Nat × Nat)
  map     : List Nat
  taken   : List Nat
  banks   : Tbl Nat
  copying : Tbl Nat
  fill    : Option (Nat × Nat × Nat)
  patrol  : Nat
  /-- The FT at which the present patrol period began (R451). -/
  patrolAt : Nat
deriving DecidableEq, Repr

/-- An entry posted to a queue (R465): its 256 bits, and the record kept in the log. -/
structure QEnt where
  word : Nat
  rec_ : Rec
deriving DecidableEq, Repr

/-- An error handling context, or a pending unit (R469, R471). -/
structure ErrCtx where
  unit   : Nat
  sev    : Nat
  joined : Nat
  first  : Nat
  last   : Nat
  firstFt : Nat
  lastFt : Nat
deriving DecidableEq, Repr

/-- The interrupt controller, error contexts and event recorder beyond their objects (R459–R478). -/
structure IrqSt where
  /-- Unconsumed entries per queue, oldest first. -/
  queues : Tbl (List QEnt)
  /-- Next free unit of each queue's record log. -/
  logHead : Tbl Nat
  /-- Level sources that owe an entry because the queue was full (R462), as 2 × source + REASSERTED. -/
  owed : List Nat
  /-- Conditions and privileged level conditions that are true now, by source number. -/
  conds : List Nat
  ctxs : Tbl ErrCtx
  pend : List ErrCtx
  /-- Per core: privileged sources in handling, innermost first, and those waiting. -/
  nest : Tbl (List Nat)
  wait : Tbl (List Nat)
  /-- Vector register of each core. -/
  vec : Tbl Nat
  /-- The recorder log: sequence, severity, entry; oldest first. -/
  log : List (Nat × Nat × Rec)
  /-- Sequences written to the tail buffer and not yet in MRAM. -/
  tail : List Nat
  recSeq : Nat
  /-- The frozen window of R476, as units. -/
  window : List Nat
  /-- An armed clear: V, the FT of the arm, RecorderLast at the arm. -/
  arm : Option (Nat × Nat × Nat)
  /-- Rate limit of R473: the second, the entries in it, the entries dropped and not yet summarised. -/
  rateSec : Nat
  rateCnt : Nat
  dropSum : Nat
  /-- Per core: whether its external interrupt input for a queue is true (bit q). -/
  ext : Tbl Nat
  /-- The Helad's AO ring of recorder entries (R478): sequence, entry, sent. -/
  ao : List (Nat × Rec × Bool)
  aoSeq : Nat
  /-- Per slot, the next AO-ring SEQUENCE expected. -/
  aoNext : Tbl Nat
deriving DecidableEq, Repr

/-- An occupied audit leaf (R496): identifier, chain head, entries in the present interval, total since CREATE; a leaf of a freed partition empties at the next interval. -/
structure Leaf where
  part  : Nat
  head  : Nat
  count : Nat
  total : Nat
  freed : Bool
deriving DecidableEq, Repr

/-- One selective IDE stream (R485): keys by key set (0, 1) and half, and the set in use; secure when a set is in use. -/
structure IdeStream where
  keys : Tbl Nat
  set_ : Option Nat
deriving DecidableEq, Repr

/-- An SPDM session (R491): whether FINISH has been done, MEAS_EPOCH at its start, key generation. -/
structure SpdmSess where
  binding : Nat
  ready   : Bool
  keyGen  : Nat
deriving DecidableEq, Repr

/-- Partitions' table slots, VFs, identity, SPDM and the audit cask beyond their objects (R481–R502). -/
structure SecSt where
  /-- Secret of the PUF, digest of the provisioning record, generation of the Alias key. -/
  secret   : Nat
  identity : Nat
  alias_   : Nat
  /-- Measurement of the persisted-object area, taken at cold reset (block 5). -/
  persistDig : Nat
  /-- Table slot of each partition (R481). -/
  slots    : Tbl Nat
  /-- IDE streams: 0 the PF, n VF n. -/
  ide      : Tbl IdeStream
  /-- SPDM: negotiation reached per binding (0 none, 1 version, 2 capabilities, 3 algorithms), sessions by identifier, the request a ResponseNotReady token stands for: token, binding, request code, operands. -/
  phase    : Tbl Nat
  sess     : Tbl SpdmSess
  nextSess : Nat
  token    : Option (Nat × Nat × Nat × List Nat)
  nextToken : Nat
  /-- Public key of the Helad of each slot, persisted with the per-die state (R195, R488). -/
  dieKey   : Tbl Nat
  /-- Audit entries not yet sealed, in order of arrival: FT and record. -/
  entries  : List (Nat × Rec)
  leaves   : Tbl Leaf
  /-- Partitions that entered SEALING and owe their PartitionClosedRecord: identifier and E_T. -/
  closing  : List (Nat × Nat)
  lost     : Nat
  gapDue   : Bool
  /-- Entries that the lead has refused since it last sent its positions (R500): SOURCE_GID, TYPE, SEQUENCE. -/
  refused  : List (Nat × Nat × Nat)
  /-- The last INTERVAL of a child pair's seals appended, by link (R502). -/
  childSeal : Tbl Nat
  first    : Bool
  prevRoot : Nat
  /-- The agreed positions of the interval that is to be sealed: interval; SOURCE_GID, TYPE, last SEQUENCE. -/
  agreed   : Option (Nat × List (Nat × Nat × Nat))
  /-- Sealed intervals not yet racked, and those in the Tier 2 archive. -/
  sealed   : Tbl (List Rec)
  archive  : Tbl (List Rec)
  backlog  : Bool
deriving DecidableEq, Repr

/-- One of a session's four subscriptions (R520). -/
structure Sub where
  on   : Bool
  mask : Nat
  seq  : Nat
  dropped : Nat
deriving DecidableEq, Repr

/-- A management session (R494, R516). -/
structure Session where
  cred   : Nat
  role   : Role
  part   : Nat
  port   : Nat
  subs   : Tbl Sub
  /-- Pushed and not yet sent, in hundredths of a byte (R520). -/
  backlog : Nat
  /-- Tags used within the last second: tag, FT, the answer; empty while none has been given. -/
  tags   : List (Nat × Nat × List Nat)
deriving DecidableEq, Repr

/-- A proxied request in flight (R514, R515): the request, whether it is a descriptor, the die, what it does, the items that passed and the result of each item refused before. -/
structure Proxy where
  req   : Req
  desc  : Bool
  write : Bool
  items : List Item
  pre   : List (Nat × Nat × Nat)
  timed : Option Nat
  env   : WriteEnv
  since : Nat
  /-- ALL_BELOW; targets still to answer, answers OK, failed, first failed GID; total targets; ATOMIC. -/
  below : Bool
  left  : List Nat
  ok    : Nat
  failed : Nat
  first : Nat
  total : Nat
  atomic : Bool
deriving DecidableEq, Repr

/-- The answer to a write that waits until every Helad has applied it (R543): the request; whether it has items, whether by descriptor, the items and how each ended. -/
structure HeldAnswer where
  req   : Req
  items : Bool
  desc  : Bool
  list  : List Item
  res   : List (Nat × Nat × Nat)
deriving DecidableEq, Repr

/-- A time setting of the Tray on its way to the Helads (R543): its value, the dies still to answer, since when, whether one has refused, the answers held. -/
structure TimeWait where
  v     : Nat
  left  : List Nat
  since : Nat
  bad   : Bool
  ans   : List HeldAnswer
deriving DecidableEq, Repr

/-- The object protocol's state (R503–R523). -/
structure MopSt where
  sessions : Tbl Session
  /-- WIDE_DATA per requester: 0 the PF, 1 + n core n. -/
  wide : Tbl Nat
  proxies : Tbl Proxy
  /-- Time settings of the Tray that its Helads are applying, by key (R543). -/
  applying : Tbl TimeWait
  /-- Latches of the Helad window (R522). -/
  hvFt : Nat
  hvRt : Nat
  hvOh : Nat
  /-- Twinned write position (R508). -/
  pos : Nat
deriving DecidableEq, Repr

/-- Power, reset and update beyond their objects (R524–R540). -/
structure PowerSt where
  /-- 0 off, 1 bootstrap-free path, 2 started and before InitDone, 3 serving, 4 stopped at critical temperature, 5 management only. -/
  phase : Nat
  /-- Whether the last reset was warm. -/
  warm : Bool
  /-- The persisted objects as the last cold reset found them: what is taken at a cold reset comes from here, whatever is written since (R2, R3, R22, R181, R229). -/
  atCold : Dict
  /-- InitDone has been written since the last cold or warm reset. -/
  initDone : Bool
  /-- Digest of the running image, and of the other one. -/
  imgDigest : Nat
  /-- Staged image: signature accepted, version, digest; none when nothing is staged. -/
  staged : Option (Nat × Nat)
  /-- A stage in progress: signature good, version, digest. -/
  staging : Option (Bool × Nat × Nat)
  /-- FT of the switch boundary of an accepted activation; FT the trial began; the previous image's version and digest. -/
  switchAt : Option Nat
  switching : Bool
  reverting : Bool
  trialFrom : Option Nat
  prevImg : Option (Nat × Nat)
  /-- What this device has written to the QSPI devices 0 (A) and 1 (B): an image's FW_VERSION and digest, a provisioning record's serial number and PROV_VERSION; a device not listed holds what the root of trust reports at a start (R194). -/
  imgs : Tbl (Nat × Nat)
  recs : Tbl (Nat × Nat)
  /-- A provisioning record has verified since the last cold reset (R524, R526). -/
  recOk : Bool
  /-- The input fell away during an activation switch: the next power-up runs the trial image (R540). -/
  trialKeep : Bool
  /-- Recovery data received: offset, 128 bytes. -/
  recov : Tbl (List Nat)
  /-- Layout in force, GiB: ring, post-reserve, feature staging (R22). -/
  layout : Nat × Nat × Nat
  /-- Tier 1 failed to train. -/
  stackBad : Bool
  /-- Rouse entries cleared by a cold reset, which owe a record with AUTO at InitDone: entry, RouseConfig, target, count. -/
  rouseOwed : List (Nat × Nat × Nat × Nat)
  /-- Credential that armed each rouse entry; events counted per entry. -/
  rouseCred : Tbl Nat
  rouseSeen : Tbl Nat
  /-- The Helad's injector entries, as the Tray writes them (R537). -/
  injectors : Tbl Nat
  /-- FT until which FT_JITTER holds a launch at the Helad (R536): handle × 16 + action kind, a pitch run by its unit. -/
  jitter : Tbl Nat
  /-- Extra microseconds an ingress pause lasts, per slot. -/
  paused : Tbl Nat
deriving DecidableEq, Repr

/-- The whole block: one die's Helad and one Icdon IX40. -/
structure State where
  /-- Objects of the Helad, and of the Icdon IX40 (R503–R505), that differ from their defaults, by key = index × 256 + sub-index. -/
  hd : Dict
  cd : Dict
  /-- Everything sent since reset, newest first. -/
  out : List Out
  /-- The model's own field: free values drawn so far. -/
  freeCtr : Nat
  /-- Lines of the boundary and the package, by pin number. -/
  pins : Tbl Nat
  /-- Next SEQUENCE of each record type formed at the Helad and at the Icdon IX40 (R13). -/
  hSeq : Tbl Nat
  iSeq : Tbl Nat
  bd : BoundSt
  tm : TimeSt
  ct : CountSt
  tr : TraceSt
  ln : LaneSt
  pk : PkgSt
  gr : GristSt
  se : SeriesSt
  rd : RedSt
  la : LauterSt
  ma : MashSt
  sp : SteepSt
  si : SilentSt
  ki : KilnSt
  tw : FleetSt
  up : UplinkSt
  me : MemSt
  ir : IrqSt
  sc : SecSt
  mo : MopSt
  pw : PowerSt
  /-- Commands that wait, first in, first out. -/
  pending : List Instr
deriving DecidableEq, Repr

/-- `BoundSt` right after reset. -/
def BoundSt.zero : BoundSt :=
  { gid := 0, dom := [], wakeAt := [], busyAt := [], syncLeft := 0, haoReset := false, hmainReset := false,
    hmainEarly := false, clkLost := false, asym := 0, asymSpare := 0, grpActive := 0, reads := [], retired := [],
    tokens := 0, fReq := 0, fAck := 0, fAt := [], fCause := [], fLate := 0, hReq := 0, hAck := 0, radio := 0,
    hAt := [], hLate := 0, restored := false }

/-- `Clock` right after reset. -/
def Clock.zero : Clock :=
  { ft := 0, frac := 0, lockRate := 0, master := 0, mHold := false, mState := 0, mSeg := 0, owed := 0, pend := none,
    reqSeq := 0, rtts := [], rttKept := [], thetas := [], rttLast := 0, good := 0, lastTag := 0, servoAt := 0, wasLocked := false }

/-- `Radio` right after reset. -/
def Radio.zero : Radio :=
  { pulse := none, prev := none, named := none, period := 0, stamp := 0, fresh := false, jumped := false, run := 0, sfn := 0,
    hfn := 0, traceable := false, sinceMap := 0, holdFrom := 0 }

/-- `TimeSt` right after reset. -/
def TimeSt.zero : TimeSt :=
  { hc := Clock.zero, ic := Clock.zero, dreq := [], tagAt := [], hActs := [], iActs := [], iHandle := 0, hHandle := 0,
    iDone := [], hDone := [], rt := Radio.zero, pulseK := [], pulseOn := [], caps := [], guardHold := false,
    rootOn := false, savedFt := none, savedAt := 0, savedOh := (0, 0), ohBase := [], hStep := (0, 0), utRef := 0, pairUp := false,
    xlinkUp := false, dreqNew := [], stepNow := false }

/-- `CountSt` right after reset. -/
def CountSt.zero : CountSt :=
  { active := [], opens := [], lastAt := 0, slept := none, mapOwed := false, early := [], fifo := [], cbFill := 0,
    power := [], powerK := 0, copySets := [] }

/-- `TraceSt` right after reset. -/
def TraceSt.zero : TraceSt :=
  { srcs := [], fifo := [], closed := [], served := [], cad := 10, cadNext := none, lastK := 0, lastF := 8, trans := 0,
    cntPend := 0, above := 0, fired5 := 0, bench := 0, gapRecs := 0, gapBytes := 0 }

/-- `LaneSt` right after reset. -/
def LaneSt.zero : LaneSt :=
  { q := [], sent := [], coded := 0, seq := [], mark := [], loss := 0, resume := 0, deficit := [], window := [],
    replay := [], again := [], frame := 0, dq := [], dsent := [], dseq := [], dmark := [], dbulk := [], dframe := [], alarmLost := 0, chLead := [], chUp := [], acted := [], other := [], timeHold := none,
    retune := none, litAt := 0, trainDone := [], lastLit := 0, oeFault := false, rx := [], errs := [], miswired := [],
    fecRun := [], lossAt := [], dozeSaid := [], dieGid := [], spareSet := [], dozeFrom := [], keepLit := [],
    degraded := [], fecMs := [], overMs := [], retuneAt := [], burstAt := [], retrained := [], viaTwin := [], forward := [], copies := [], copyDue := [], ctlSeen := [], adapted := [] }

/-- `PkgSt` right after reset. -/
def PkgSt.zero : PkgSt :=
  { use := [], width := 1, standby := false, dark := [], spareUsed := [], retune := [], rings := [], complUsed := [], ackPos := [],
    replay := false, unsaid := [], fetchAt := none, pcieUp := true, waiting := [], waitDrop := 0, inputLow := false, throttleFrom := none,
    domOn := [], domWork := [], domReset := [], dark_ := false, hot := [], spareFor := [] }

/-- `GristSt` right after reset. -/
def GristSt.zero : GristSt :=
  { tokens := 0, open_ := [], chunks := [], await := [], nextChunk := 0, nextPos := 0, ringHead := 0, postHead := 0,
    index := [], anchor := 0, dropRun := [], resvRun := [], undec := [], fired := [], casks := [], caskDrops := [], nextCask := 0,
    racking := none, lastPort := 0, tier2 := [], staging := [], taken := [], nextStage := 0, stagePos := 0, over_ := 0, hist := [],
    hHist := [], jobs := [], t2 := [], overAt := [], idxCount := 0 }

/-- `SeriesSt` right after reset. -/
def SeriesSt.zero : SeriesSt :=
  { ents := [], cur := [], touched := [], fwdK := 0, maps := [], act := [], changed := [], win := (0, 1000, 1000),
    winChanged := false, rebase := [], steps := [], past := [] }

/-- `RedSt` right after reset. -/
def RedSt.zero : RedSt :=
  { has := false, len := 0, epochs := [], early := [], slip := none, served := [], anchorSec := [], told := [], changes := 0,
    active := [], staged := [], outs := [], own := [], theirs := [], vnum := [], stepTo := (0, 0), lost := [], defsFrom := [] }

/-- `LauterSt` right after reset. -/
def LauterSt.zero : LauterSt :=
  { act := [], changed := [], moves := [], waits := [], valid := [], checking := [], retire := [], stop := [],
    found := [], feats := [], head := 0, seq := [], open_ := [], closed := [], running := [], past := [], waiting := [], nextNum := [], outSeq := [] }

/-- `MashSt` right after reset. -/
def MashSt.zero : MashSt :=
  { units := [], agreed := [], seq := [], orig := [], past := [], mem := [], conf := [] }

/-- `SteepSt` right after reset. -/
def SteepSt.zero : SteepSt :=
  { cores := [] }

/-- `SiHel` right after reset. -/
def SiHel.zero : SiHel :=
  { jobs := [], nextJob := 0, requests := [], deferred := [], nextTag := 0, next := [], lastPass := [], aborts := [],
    skips := [], suspect := [], duty := 4, cls := [], change := none, active := [], staged := [], stVer := 0,
    verified := [], badSlots := [], waitVer := none, readings := [], metAt := [], window := [], provs := [],
    nextProv := 0, faults := [], cache := [], groups := [] }

/-- `SilentSt` right after reset. -/
def SilentSt.zero : SilentSt :=
  { hel := SiHel.zero, perDie := [], lib := [], libNew := [], ready := [], members := [], keys := [], sets := [],
    done := [], clean := [], notices := [], nextNotice := 0, noticeId := 0, starved := [] }

/-- `KiHel` right after reset. -/
def KiHel.zero : KiHel :=
  { shifts := [], halts := [] }

/-- `KilnSt` right after reset. -/
def KilnSt.zero : KilnSt :=
  { hel := KiHel.zero, cuts := [], nextCut := 0, opened := [], number := 0, mark := [], formed := [] }

/-- `FleetSt` right after reset. -/
def FleetSt.zero : FleetSt :=
  { twinGid := 0, twinState := 0, twinPosted := 0, local_ := 0, hbAt := [], peer := [], hbRun := [], silent := [],
    hbSent := 0, departing := false, posted := 0, quorum := none, voted := [], handover := none,
    twinDeg := false, diverged := false, mismatchRun := 0, resync := false, resyncAt := none, stopped := false,
    copied := false, failedAt := none, freshAt := none, members := [], past := [], below := [], homes := [],
    changes := [], badFrom := [], removed := [], parts := [], ops := [], transfers := [], nextTransfer := 0,
    landed := [], twinNoUp := false, route := [] }

/-- `UplinkSt` right after reset. -/
def UplinkSt.zero : UplinkSt :=
  { q := [], tokens := [], deficit := [], subDef := [], used := [], hist := [], histFrom := 0, origins := [],
    ownDefer := none, bulkWindow := 0, bulkRate := 0, sched := [], range := [], resend := [], resendAt := 0,
    sampleK := 0, histK := 0, windowK := 0, prog := [], decAt := 0, spare := [], sentMs := 0, lastSet := 0,
    decOwed := none, bulkLoss := [], seq := [], frame := [] }

/-- `MemSt` right after reset. -/
def MemSt.zero : MemSt :=
  { t1 := [], t2poison := [], poison := [], uncor := [], ce := [], ceLog := [], map := [], taken := [], banks := [], copying := [],
    fill := none, patrol := 0, patrolAt := 0 }

/-- `IrqSt` right after reset. -/
def IrqSt.zero : IrqSt :=
  { queues := [], logHead := [], owed := [], conds := [], ctxs := [], pend := [], nest := [], wait := [], vec := [],
    log := [], tail := [], recSeq := 0, window := [], arm := none, rateSec := 0, rateCnt := 0, dropSum := 0,
    ext := [], ao := [], aoSeq := 0, aoNext := [] }

/-- `SecSt` right after reset. -/
def SecSt.zero : SecSt :=
  { secret := 0, identity := 0, alias_ := 0, persistDig := 0, slots := [], ide := [], phase := [], sess := [],
    nextSess := 0, token := none, nextToken := 0, dieKey := [], entries := [], leaves := [], closing := [], lost := 0,
    gapDue := false, refused := [], childSeal := [], first := false, prevRoot := 0, agreed := none, sealed := [], archive := [], backlog := false }

/-- `MopSt` right after reset. -/
def MopSt.zero : MopSt :=
  { sessions := [], wide := [], proxies := [], hvFt := 0, hvRt := 0, hvOh := 0, pos := 0, applying := [] }

/-- `PowerSt` right after reset. -/
def PowerSt.zero : PowerSt :=
  { phase := 0, warm := false, initDone := false, imgDigest := 0, staged := none, staging := none, switchAt := none,
    switching := false, reverting := false, trialFrom := none, prevImg := none, imgs := [], recs := [], recOk := false, trialKeep := false, recov := [], layout := (768, 64, 16),
    stackBad := false, rouseOwed := [], rouseCred := [], rouseSeen := [], injectors := [], jitter := [], paused := [], atCold := [] }

/-- The block right after reset: every field at the value the spec states, and the values that the assumption log names where it states none (log 1). -/
def State.reset : State :=
  { hd := [], cd := [], out := [], freeCtr := 0, pins := [], hSeq := [], iSeq := [], bd := BoundSt.zero,
    tm := TimeSt.zero, ct := CountSt.zero, tr := TraceSt.zero, ln := LaneSt.zero, pk := PkgSt.zero,
    gr := GristSt.zero, se := SeriesSt.zero, rd := RedSt.zero, la := LauterSt.zero, ma := MashSt.zero,
    sp := SteepSt.zero, si := SilentSt.zero, ki := KilnSt.zero, tw := FleetSt.zero, up := UplinkSt.zero,
    me := MemSt.zero, ir := IrqSt.zero, sc := SecSt.zero, mo := MopSt.zero, pw := PowerSt.zero, pending := [] }

end Sys2Proof.Machine
end

