-- ==== Sys2Proof/Machine/Ops.lean ====
section
/-! DEFINITION. The operations every command's meaning is built from: dictionary access, time stamps, the forming of records, the queues that carry them, alarms, interrupt sources, error contexts and the event recorder. -/

namespace Sys2Proof.Machine

/-! ### Object keys and defaults -/

/-- Index of a key. -/
abbrev keyIdx (k : Nat) : Nat := k / 256
/-- Sub-index of a key. -/
abbrev keySub (k : Nat) : Nat := k % 256
/-- The key of instance `n` of an object of which each index holds one instance. -/
abbrev inst (base n : Nat) : Nat := base + 256 * n
/-- The key of instance `n` of an object with 128 instances per index. -/
abbrev inst128 (base n : Nat) : Nat := base + 256 * (n / 128) + n % 128

/-- The table row that defines a key (R510). -/
def specIn : List ObjSpec → Nat → Option ObjSpec
  | [], _ => none
  | o :: t, k =>
    if o.lo ≤ keyIdx k ∧ keyIdx k ≤ o.hi ∧ o.s0 ≤ keySub k ∧ keySub k ≤ o.s1 then some o else specIn t k

/-- The highest sub-index in use at an index, 0 where no chapter defines the index (R15). -/
def subTop : List ObjSpec → Nat → Nat
  | [], _ => 0
  | o :: t, i => if o.lo ≤ i ∧ i ≤ o.hi then max o.s1 (subTop t i) else subTop t i

/-- The object table's row of a key, if any chapter defines it. Sub 0x00 of a defined index holds the highest sub-index in use (R15); the rule gives it no type and no rights: a U8 that every role may read (DEDUCED, log 127). -/
def objSpec (k : Nat) : Option ObjSpec :=
  if keySub k = 0 then
    (if subTop objTable (keyIdx k) = 0 then none
     else some (ob0 (keyIdx k) (keyIdx k) 0 0 1 8 (subTop objTable (keyIdx k)) 0 255 false))
  else specIn objTable k

/-- Address of an object in the Icdon control space (R15). -/
def objAddr (k : Nat) : Nat := 0x100000 + keyIdx k * 0x400 + keySub k * 4

/-- The object that a control-space address names: its word's (R15, R512). -/
def addrKey (a : Nat) : Option Nat :=
  if 0x100000 ≤ a ∧ a ≤ 0x40FFFFF ∧ a % 4 = 0 then some ((a - 0x100000) / 4) else none

/-- The UNIT of R459 that a source names by default. -/
def sourceUnit (src : Nat) : Nat :=
  if src ≤ 0x00F then 0x0C00
  else if src ≤ 0x04F then 0x0300 + (src - 0x010)
  else if src ≤ 0x05F then 0x0200 + (src - 0x050)
  else if src ≤ 0x073 then 0x0100 + (src - 0x060)
  else if src ≤ 0x077 then 0x0800 + (src - 0x074)
  else if src = 0x078 then 0x0900
  else if src = 0x079 then 0x0B00
  else if 0x080 ≤ src ∧ src ≤ 0x08F then 0x0400 + (src - 0x080)
  else if 0x090 ≤ src ∧ src ≤ 0x097 then 0x0500 + (src - 0x090)
  else if 0x098 ≤ src ∧ src ≤ 0x09F then 0x0600 + (src - 0x098)
  else if 0x0A0 ≤ src ∧ src ≤ 0x0A3 then 0x0700 + (src - 0x0A0)
  else if 0x0A4 ≤ src ∧ src ≤ 0x0AF then 0x0D00 + (src - 0x0A4)
  else if 0x110 ≤ src ∧ src ≤ 0x123 then 0x0100 + (src - 0x110)
  else if 0x134 ≤ src ∧ src ≤ 0x147 then 0x0100 + (src - 0x134)
  else 0x0C00

/-- The reset value of a SourceConfig (R460). -/
def sourceConfigReset (src : Nat) : Nat :=
  1 + (if 0x100 ≤ src ∧ src ≤ 0x1FF then 2 else 0) + (if 0x010 ≤ src ∧ src ≤ 0x0A3 then 4 else 0)
    + sourceUnit src * 2 ^ 16 + 2 * 2 ^ 32

/-- Defaults that a rule gives as a field map or a list; 0xFF stands for a PortUse that has not been written, whose default is its role's (R202) (R101, R121, R232, R433, R460, R464 and the tables). -/
def fieldDefault (k : Nat) : Nat :=
  let i := keyIdx k
  let j := keySub k
  if 0x3000 ≤ i ∧ i ≤ 0x301F then 2 * 2 ^ 30 + 2 ^ 40
  else if i = 0x1040 ∧ j ≤ 0x10 then 0xFF
  else if i = 0x3400 then 3
  else if i = 0x3480 then (if j = 3 then 2 ^ 64 - 1 else if j = 4 then 7 * 2 ^ 0x40 else 0)
  else if i = 0x3401 then (if j = 4 then 100 else if j = 5 then 85 else if j = 6 then 70 else if j = 7 then 50 else 0)
  else if i = 0x3800 then (if j = 1 then 30 else if j = 2 then 55 else if j = 3 then 10 else if j = 4 then 5 else 0)
  else if i = 0x3C01 then (if j = 1 then 100 else if j = 2 then 95 else if j = 3 then 80 else if j = 4 then 60 else 0)
  else if i = 0x4E04 ∨ i = 0x4E05 then 0xFFFFFF * 2 ^ 24
  else if i = 0x4E10 ∨ i = 0x4E11 then 32 * 2 ^ 48
  else if i = 0x4F01 then (if j = 1 ∨ j = 4 then 1 else 0)
  else if 0x4010 ≤ i ∧ i ≤ 0x402F then 2 + 6 * 2 ^ 8 + 256 * 2 ^ 16 + 8 * 2 ^ 32 + 20 * 2 ^ 40 + 64 * 2 ^ 48
  else if 0x4100 ≤ i ∧ i ≤ 0x44FF then (if j = 1 then 32 * 2 ^ 38 + 32 * 2 ^ 44 + 4 * 2 ^ 56 + 2 * 2 ^ 60 else if j = 2 then 15 + 50000 * 2 ^ 16 else 0)
  else if 0x4B00 ≤ i ∧ i ≤ 0x4B0F ∧ j = 5 then 2 ^ 64 - 1
  else if 0x4C00 ≤ i ∧ i ≤ 0x4C07 ∧ j = 5 then 2 ^ 64 - 1
  else if 0x5400 ≤ i ∧ i ≤ 0x540F then
    (if j = 1 then 64 * 2 ^ 36
     else if j = 3 then 10 + 64 * 2 ^ 36 else if j = 4 then 60 + 64 * 2 ^ 36
     else if j = 5 then 50 + 64 * 2 ^ 36 else if j = 6 ∨ j = 7 then 25 + 64 * 2 ^ 36 else 0)
  else if i = 0x5430 ∨ i = 0x5431 then 64 * 2 ^ 36
  else if 0x5900 ≤ i ∧ i ≤ 0x591F then sourceConfigReset ((i - 0x5900) * 128 + j - 1)
  else if 0x5950 ≤ i ∧ i ≤ 0x598F then
    (if j = 1 then (if i = 0x5950 then 1 else 0) + 16 * 2 ^ 16 + 21 * 2 ^ 21
     else if j = 2 then (i - 0x5950) * 2 ^ 22 else 0)
  else if i = 0x5A02 ∧ j = 1 then 0xBF
  else 0

/-- The default of an object at one part (R68 gives ActionQueueFree two). -/
def objDefault (sd : Side) (k : Nat) : Nat :=
  if k = O.ActionQueueFree then (match sd with | .hel => 64 | .icd => 1024)
  else match objSpec k with
    | some o => if o.dflt = 0 then fieldDefault k else o.dflt
    | none => 0

/-! ### Dictionaries -/

/-- The dictionary of one part. -/
def State.dict (sd : Side) (s : State) : Dict := match sd with | .hel => s.hd | .icd => s.cd

/-- An object's value at one part: what the dictionary holds, else its default (R504). -/
def State.ob (sd : Side) (k : Nat) (s : State) : Nat := (tget (s.dict sd) k).getD (objDefault sd k)

/-- An object of the Helad. -/
abbrev State.h (s : State) (k : Nat) : Nat := s.ob .hel k
/-- An object of the Icdon IX40. -/
abbrev State.i (s : State) (k : Nat) : Nat := s.ob .icd k

/-- A persisted object of the Icdon IX40 as the last cold reset found it (R2). -/
def State.coldVal (s : State) (k : Nat) : Nat := (tget s.pw.atCold k).getD (objDefault .icd k)

/-- Stores an object's value; the newest entry of a key stands until the command ends (`State.commit`). -/
def State.setOb (sd : Side) (k v : Nat) (s : State) : State :=
  match sd with
  | .hel => { s with hd := (k, v) :: s.hd }
  | .icd => { s with cd := (k, v) :: s.cd }

/-- Stores an object of the Helad. -/
abbrev State.hSet (s : State) (k v : Nat) : State := s.setOb .hel k v
/-- Stores an object of the Icdon IX40. -/
abbrev State.iSet (s : State) (k v : Nat) : State := s.setOb .icd k v

/-- Places one entry of a dictionary in ascending key order; a value equal to the default is not listed. -/
def dictPut (sd : Side) (k v : Nat) : Dict → Dict
  | [] => if v = objDefault sd k then [] else [(k, v)]
  | p :: t =>
    if k < p.1 then (if v = objDefault sd k then p :: t else (k, v) :: p :: t)
    else if k = p.1 then (if v = objDefault sd k then t else (k, v) :: t)
    else p :: dictPut sd k v t

/-- The canonical dictionary of a list of writes, the newest first: keys strictly ascending, no default listed. -/
def dictCanon (sd : Side) : Dict → Dict
  | [] => []
  | p :: t => dictPut sd p.1 p.2 (dictCanon sd t)

/-- The end of a command: both dictionaries in canonical form. -/
def State.commit (s : State) : State := { s with hd := dictCanon .hel s.hd, cd := dictCanon .icd s.cd }

/-- Carries out a command's effect on everything but the queue of waiting commands. -/
def run (f : State → State) (s : State) : Host.Outcome State Fault Refusal :=
  .next ({ f s with pending := s.pending }).commit

/-- Adds to a counter object of `w` bits, wrapping. -/
def State.addOb (sd : Side) (k w n : Nat) (s : State) : State := s.setOb sd k ((s.ob sd k + n) % 2 ^ w)

/-- Adds to a 32-bit count of the Icdon IX40. -/
abbrev State.iCount (s : State) (k : Nat) : State := s.addOb .icd k 32 1
/-- Adds to a 32-bit count of the Helad. -/
abbrev State.hCount (s : State) (k : Nat) : State := s.addOb .hel k 32 1

/-- Signed value of an Icdon IX40 object of `w` bits. -/
def State.iS (s : State) (w k : Nat) : Int := toS w (s.i k)

/-! ### Sending and free values -/

/-- Appends to what has been sent. -/
def State.put (c : Chan) (i : Nat) (b : List Nat) (s : State) : State := { s with out := ⟨c, i, b⟩ :: s.out }

/-- A fresh free value of `w` bits. -/
def State.fresh (w : Nat) (s : State) : Nat × State :=
  (Config.free s.freeCtr % 2 ^ w, { s with freeCtr := s.freeCtr + 1 })

/-- Drives a line of the boundary or the package. -/
def State.pin (p v : Nat) (s : State) : State := { s with pins := tset s.pins p v }

/-- Level of a line. -/
def State.pinOf (s : State) (p : Nat) : Nat := tgetD s.pins p 0

/-! ### Fabric time -/

/-- One nanosecond in FT units of 2^-16 ns (R36). -/
abbrev ns (n : Nat) : Nat := n * 65536
/-- One microsecond in FT units. -/
abbrev us (n : Nat) : Nat := n * 65536000
/-- One millisecond in FT units. -/
abbrev ms (n : Nat) : Nat := n * 65536000000

/-- The clock of a part. -/
def State.clk (sd : Side) (s : State) : Clock := match sd with | .hel => s.tm.hc | .icd => s.tm.ic

/-- Replaces the clock of a part. -/
def State.setClk (sd : Side) (c : Clock) (s : State) : State :=
  match sd with
  | .hel => { s with tm := { s.tm with hc := c } }
  | .icd => { s with tm := { s.tm with ic := c } }

/-- FT now at a part (R36). -/
abbrev State.ft (s : State) (sd : Side) : Nat := (s.clk sd).ft

/-- Helad power domains (R70): 0 AO, 1 TIME, 2 COUNT, 3 TRACE, 4 LANE, 5 DIGEST; states 0 asleep, 1 waking, 2 awake. -/
def State.domState (s : State) (d : Nat) : Nat := if d = 0 then 2 else tgetD s.bd.dom d 0

/-- Whether a Helad domain is awake. -/
def State.awake (s : State) (d : Nat) : Bool := s.domState d == 2

/-- Whether the Helad dozes: its TIME domain sleeps (R49). -/
def State.dozing (s : State) : Bool := !s.awake 1

/-- HOLDOVER in a part's stamps (R38). -/
def State.holdoverFlag (sd : Side) (s : State) : Bool :=
  let st := s.ob sd O.FtState
  st == 3 || st == 4 || (s.clk sd).mHold

/-- The FtStamp (R37) of an instant taken at a part. -/
def State.stampOf (sd : Side) (t : Nat) (stepped : Bool) (s : State) : Nat :=
  let st := s.ob sd O.FtState
  packFields [(0, 80, t), (80, 1, b2n (s.holdoverFlag sd)), (81, 1, b2n (sd == .hel && s.dozing)),
    (82, 1, b2n (st == 0 || st == 1)), (83, 1, b2n stepped), (88, 16, s.ob sd O.FtSegment)]

/-- The FtStamp of now, without the mark of a step. -/
abbrev State.stamp (s : State) (sd : Side) : Nat := s.stampOf sd (s.ft sd) false

/-- The stamping functions of R544. -/
abbrev fnCommand : Nat := 0
/-- Counter samples. -/
abbrev fnSample : Nat := 1
/-- RT pulse capture. -/
abbrev fnPulse : Nat := 2
/-- Capture inputs. -/
abbrev fnCapture : Nat := 3
/-- The formation of records. -/
abbrev fnRecord : Nat := 4
/-- Entries of the event queues (R461). -/
abbrev fnQueue : Nat := 5
/-- Pitch runs and fences. -/
abbrev fnDigest : Nat := 6
/-- The trace sequencer's TriggerRecords. -/
abbrev fnTrigger : Nat := 7
/-- Entries of the recorder and of the AO ring (R474, R478). -/
abbrev fnRecorder : Nat := 8
/-- T1 of a SyncTag (R41). -/
abbrev fnSync : Nat := 9
/-- T4 of an exchange (R41). -/
abbrev fnReq : Nat := 10
/-- The times of an error context (R469). -/
abbrev fnContext : Nat := 11
/-- Every stamping function owes STEPPED after a forward step. A FULL_SYNC of trace has it from its boundary (R128). -/
abbrev allOwed : Nat := 2 ^ 12 - 1

/-- Whether a stamp taken now carries STEPPED: the first of its function after a forward step does, and so does every one of an action that launches at a step (R47, R544). -/
def State.marked (sd : Side) (fn : Nat) (s : State) : Bool := bit (s.clk sd).owed fn || s.tm.stepNow

/-- The FtStamp a stamping function takes now; its mark of a step is then paid (R47, R544). -/
def State.takeStamp (sd : Side) (fn : Nat) (s : State) : Nat × State :=
  let c := s.clk sd
  (s.stampOf sd c.ft (s.marked sd fn), s.setClk sd { c with owed := setBit c.owed fn false })

/-- Carries out the launch of an action, whose records carry STEPPED when a step passed over its instant (R47). -/
def State.stepping (stepped : Bool) (f : State → State) (s : State) : State :=
  let t := f { s with tm := { s.tm with stepNow := stepped } }
  { t with tm := { t.tm with stepNow := false } }

/-- The FtStamp of an instant as a number without flags beyond those of the node (a scheduled instant). -/
def State.stampAt (sd : Side) (t : Nat) (s : State) : Nat := s.stampOf sd t false

/-! ### Identity and the forming of records -/

/-- GID of the Helad (null before SlotAssign, R522). -/
abbrev State.hGid (s : State) : Nat := s.bd.gid

/-- GID of the Icdon IX40. -/
abbrev State.iGid (s : State) : Nat := s.i O.DeviceGid

/-- The pair GID (R542): that of the twin with the lower GID NUMBER. -/
def State.pairGid (s : State) : Nat :=
  if s.tw.twinGid = 0 then s.iGid
  else if s.tw.twinGid % 2 ^ 24 < s.iGid % 2 ^ 24 then s.tw.twinGid else s.iGid

/-- Record types that the Icdon IX40 forms with the pair GID (R542): the outputs of R32 that twin identity covers, the records of R545, and the RetuneCommand, which both twins send alike (R160). -/
def pairTypes : List Nat :=
  [0x52, 0x53, 0x54, 0x70, 0x80, 0x81, 0x82, 0x83, 0x84, 0x90, 0x91, 0x92, 0x93, 0xA1, 0xA2, 0xC4, 0xC5, 0xD4]

/-- Outputs of R32 that the output digest of R27 covers. -/
def digestTypes : List Nat := [0x70, 0x80, 0x81, 0x82, 0x83, 0x84, 0x90, 0x91, 0x92, 0x93, 0xA1, 0xA2, 0xC4, 0xC5, 0xD4, 0xF6]

/-- Epoch and kind under which a covered record is digested: those of its own fields for the reduction's records, else the present epoch, MAIN. -/
def digestKey (now : Nat) (r : Rec) : Nat :=
  let ty := rType r
  if ty = 0x90 then recFld r 144 48 * 2 + recFld r 200 1
  else if ty = 0x91 then recFld r 144 48 * 2
  else if ty = 0x92 then recFld r 128 48 * 2 + recFld r 176 1
  else if ty = 0x93 then recFld r 144 48 * 2 + 1
  else if ty = 0xA2 then recFld r 256 48 * 2
  else now * 2

/-- SOURCE_GID of a record formed at a part. -/
def State.srcGid (sd : Side) (ty : Nat) (s : State) : Nat :=
  match sd with
  | .hel => s.hGid
  | .icd => if pairTypes.contains ty then s.pairGid else s.iGid

/-- Next SEQUENCE of a type at a part (R13). -/
def State.seqOf (sd : Side) (ty : Nat) (s : State) : Nat :=
  match sd with | .hel => tgetD s.hSeq ty 0 | .icd => tgetD s.iSeq ty 0

/-- Advances the SEQUENCE of a type. -/
def State.bumpSeq (sd : Side) (ty : Nat) (s : State) : State :=
  match sd with
  | .hel => { s with hSeq := tset s.hSeq ty ((s.seqOf .hel ty + 1) % 2 ^ 32) }
  | .icd => { s with iSeq := tset s.iSeq ty ((s.seqOf .icd ty + 1) % 2 ^ 32) }

/-- Keeps a covered output for the digest of its epoch, while the epoch pair is held (R27). -/
def State.keepOutput (r : Rec) (s : State) : State :=
  if s.rd.has then { s with rd := { s.rd with outs := (digestKey (s.i O.EpochNow) r, r) :: s.rd.outs } } else s

/-- Forms a record at a part: header of R13, next SEQUENCE, and the fields of its table. -/
def State.form (sd : Side) (ty len flags part : Nat) (fs : List (Nat × Nat × Nat)) (s : State) : Rec × State :=
  let r := mkRec ty len flags (s.srcGid sd ty) (s.seqOf sd ty) part fs
  (r, (if sd = .icd ∧ digestTypes.contains ty then s.keepOutput r else s).bumpSeq sd ty)

/-- Forms a record of the Icdon IX40 about a die, numbered with those of its TYPE about that die, so that no SEQUENCE depends on the order in which the flits of several dies arrive (R18). DESIGN CHOICE (log 174): R13 counts per source and type, and R18 admits no order between the dies. -/
def State.formOf (die ty len part : Nat) (fs : List (Nat × Nat × Nat)) (s : State) : Rec × State :=
  let k := ty + 256 * (die % 2 ^ 24 + 1)
  let r := mkRec ty len 0 (s.srcGid .icd ty) (s.seqOf .icd k) part fs
  (r, (if digestTypes.contains ty then s.keepOutput r else s).bumpSeq .icd k)

/-- Forms a record of the Icdon IX40 whose first `keep` units hold its fields and whose tail holds its entries. -/
def State.formTail (ty keep part : Nat) (fs : List (Nat × Nat × Nat)) (tail : Rec) (s : State) : Rec × State :=
  let r := (mkRec ty (keep + tail.length) 0 (s.srcGid .icd ty) (s.seqOf .icd ty) part fs).take keep ++ tail
  (r, (if digestTypes.contains ty then s.keepOutput r else s).bumpSeq .icd ty)

/-! ### The Helad's lane queues -/

/-- Stream types of R151. -/
abbrev stAlarm : Nat := 1
/-- CONTROL. -/
abbrev stControl : Nat := 2
/-- TIME. -/
abbrev stTime : Nat := 3
/-- COUNTER. -/
abbrev stCounter : Nat := 4
/-- TRACE. -/
abbrev stTrace : Nat := 5
/-- DIGEST. -/
abbrev stDigest : Nat := 6
/-- EVENT. -/
abbrev stEvent : Nat := 7
/-- BULK. -/
abbrev stBulk : Nat := 8
/-- SERIES. -/
abbrev stSeries : Nat := 9
/-- AUDIT. -/
abbrev stAudit : Nat := 10
/-- CONTRIB. -/
abbrev stContrib : Nat := 11
/-- REPAIR. -/
abbrev stRepair : Nat := 12

/-- Records waiting in one stream type at the Helad. -/
def State.laneQ (s : State) (st : Nat) : List (Nat × Rec) := tgetD s.ln.q st []

/-- Bytes waiting in one stream type at the Helad. -/
def State.laneBytes (s : State) (st : Nat) : Nat := 16 * lsum ((s.laneQ st).map fun p => p.2.length)

/-- Queues a record at the Helad in a stream type (R151, R155). -/
def State.hQueue (st : Nat) (r : Rec) (s : State) : State :=
  { s with ln := { s.ln with q := tset s.ln.q st (s.laneQ st ++ [(s.h O.HeladCutNumber, r)]) } }

/-- Requests that a Helad domain wake (R74): latched, and the domain begins to come up. While HMAIN_RST_N or HAO_RST_N holds the domains in reset nothing wakes (R76). -/
def State.wake (d : Nat) (s : State) : State :=
  if s.domState d = 0 ∧ !s.bd.hmainReset ∧ !s.bd.haoReset then { s with bd := { s.bd with dom := tset s.bd.dom d 1, wakeAt := tset s.bd.wakeAt d s.tm.hc.ft } } else s

/-- Queues a record formed in COUNT, TRACE or DIGEST, or an alarm, which wakes LANE (R74). -/
def State.hQueueW (st : Nat) (r : Rec) (s : State) : State := (s.hQueue st r).wake 4

/-! ### The Helad's AO ring and alarms -/

/-- A recorder entry of R474: body `r` of `nb` bytes, sequence `q`; a body holds at most 960 bytes. -/
def recEntry (src seq sev eflags source stamp oh cyc nb : Nat) (r0 : Rec) : Rec :=
  let r := r0.take 60
  let n := r.length + 4
  let u := splitUnits (r.length + 3)
    (packFields (header 0xF4 n 0 src seq 0 ++
      [(128, 40, oh), (168, 32, cyc), (200, 3, sev), (203, 5, eflags), (216, 12, source), (256, 128, stamp)]) + joinUnits r * 2 ^ 384)
  u ++ [packFields [(0, 32, min nb 960), (96, 32, crc32c (recBytes u ++ natBytes 12 (min nb 960)))]]

/-- Keeps the newest entries of the AO ring within 64 KiB (R478). -/
def aoTrim (l : List (Nat × Rec × Bool)) : List (Nat × Rec × Bool) :=
  let f := fun (acc : Nat × List (Nat × Rec × Bool)) e =>
    let n := acc.1 + 16 * e.2.1.length
    if n ≤ 65536 then (n, e :: acc.2) else (65537, acc.2)
  (l.reverse.foldl f (0, [])).2

/-- Sends the AO-ring entries not sent yet, in SEQUENCE order, in EVENT (R478); while LANE sleeps they wait. -/
def State.aoFlush (s : State) : State :=
  if s.awake 4 then
    let owed := s.ir.ao.filter fun e => !e.2.2
    let s : State := owed.foldl (fun s e => s.hQueue stEvent e.2.1) s
    { s with ir := { s.ir with ao := s.ir.ao.map fun e => (e.1, e.2.1, true) } }
  else s

/-- Writes a record to the Helad's AO ring (R478). -/
def State.hRing (sev : Nat) (r : Rec) (s : State) : State :=
  let (stm, s) := s.takeStamp .hel fnRecorder
  let e := recEntry s.hGid s.ir.aoSeq sev 0 0 stm (s.h O.OhSeconds) (s.h O.PowerCycles) (16 * r.length) r
  { s with ir := { s.ir with ao := aoTrim (s.ir.ao ++ [(s.ir.aoSeq, e, false)]), aoSeq := s.ir.aoSeq + 1 } }.aoFlush

/-- The fields of an AlarmRecord beyond its header (R459). -/
def alarmFields (stamp code sev unit detail : Nat) : List (Nat × Nat × Nat) :=
  [(128, 128, stamp), (256, 16, code), (272, 8, sev), (288, 16, unit), (320, 64, detail)]

/-- Queues an AlarmRecord in ALARM; one that finds the 16 KiB queue full is counted (R155). -/
def State.hAlarmQueue (r : Rec) (s : State) : State :=
  if s.laneBytes stAlarm + 16 * r.length ≤ 16384 then s.hQueueW stAlarm r
  else { (s.hCount O.AlarmOverflow) with ln := { s.ln with alarmLost := s.ln.alarmLost + 1 } }

/-- A Helad alarm event: AlarmRecord to the AO ring and to ALARM (R459, R478). -/
def State.hAlarm (code sev detail : Nat) (s : State) : State :=
  let (st, s) := s.takeStamp .hel fnRecord
  let (r, s) := s.form .hel 0xF3 3 0 0 (alarmFields st code sev (0x0300 + s.h O.SlotNumber % 64) detail)
  (s.hRing sev r).hAlarmQueue r

/-! ### The event recorder (R473–R477) -/

/-- Capacity of the recorder area in bytes (R195). -/
abbrev recorderBytes : Nat := 12 * 1024 * 1024

/-- Keeps the newest entries within the recorder area. -/
def logTrim (l : List (Nat × Nat × Rec)) : List (Nat × Nat × Rec) :=
  let f := fun (acc : Nat × List (Nat × Nat × Rec)) e =>
    let n := acc.1 + 16 * e.2.2.length
    if n ≤ recorderBytes then (n, e :: acc.2) else (recorderBytes + 1, acc.2)
  (l.reverse.foldl f (0, [])).2

/-- Appends an entry with a body of `nb` bytes to the recorder, whatever the rate. -/
def State.recAppendN (sev eflags source nb : Nat) (r : Rec) (s : State) : State :=
  let (stm, s) := s.takeStamp .icd fnRecorder
  let e := recEntry s.iGid s.ir.recSeq sev eflags source stm (s.i O.OhSeconds) (s.i O.PowerCycles) nb r
  let l := logTrim (s.ir.log ++ [(s.ir.recSeq, sev, e)])
  let s : State := { s with ir := { s.ir with log := l, tail := s.ir.tail ++ [s.ir.recSeq], recSeq := s.ir.recSeq + 1 } }
  (s.iSet O.RecorderFirst ((l.head?.map (·.1)).getD 0)).iSet O.RecorderLast (s.ir.recSeq - 1)

/-- Appends an entry whose body is a record. -/
abbrev State.recAppend (sev eflags source : Nat) (r : Rec) (s : State) : State := s.recAppendN sev eflags source (16 * r.length) r

/-- A new second of the rate limit; after dropped entries one summary entry carries their count (R473). -/
def State.recSecond (s : State) : State :=
  let sec := s.ft .icd / ns 1000000000
  if s.ir.rateSec = sec then s
  else
    let lost := s.ir.dropSum
    let s : State := { s with ir := { s.ir with rateSec := sec, rateCnt := 0, dropSum := 0 } }
    if lost = 0 then s else s.recAppend 2 8 0x0B0 [lost]

/-- Writes a recorder entry: at most 10,000 a second, beyond which entries below FAILED are dropped and counted (R473). -/
def State.recordN (sev eflags source nb : Nat) (r : Rec) (s : State) : State :=
  let s : State := s.recSecond
  if s.ir.rateCnt ≥ 10000 ∧ sev < 3 then
    { (s.iCount O.RecorderDropped) with ir := { s.ir with dropSum := s.ir.dropSum + 1 } }
  else { s with ir := { s.ir with rateCnt := s.ir.rateCnt + 1 } }.recAppendN sev eflags source nb r

/-- A recorder entry whose body is a record. -/
abbrev State.record (sev eflags source : Nat) (r : Rec) (s : State) : State := s.recordN sev eflags source (16 * r.length) r

/-- Sets this device's TwinState; the recorder keeps every change, with the new state for a body (R473). The spec gives that entry no severity: it is a free value (log 148). -/
def State.setTwinState (t : Nat) (s : State) : State :=
  if s.i O.TwinState = t then s
  else
    let (f, s) := (s.iSet O.TwinState t).fresh 8
    s.record (f % 5) 0 0x0B0 [t]

/-! ### Privileged sources (R467, R468) -/

/-- Delivers to a core the waiting privileged sources that it may take now: lower number than the one in handling, up to 16 deep. -/
def State.privDeliver (core : Nat) (s : State) : State :=
  let nest := tgetD s.ir.nest core []
  let wait := sortBy id (tgetD s.ir.wait core [])
  match wait with
  | [] => s
  | p :: rest =>
    if nest.length < 16 ∧ (nest.all fun q => p < q)  then
      { s with ir := { s.ir with nest := tset s.ir.nest core (p :: nest), wait := tset s.ir.wait core rest,
                                 vec := tset s.ir.vec core (s.i (inst O.PrivVector p)) } }
    else s

/-- Occurrence of privileged source `p`: a recorder entry, the vector register of the core PrivTarget names, its machine external interrupt. -/
def State.priv (p : Nat) (detail : Nat) (s : State) : State :=
  let core := s.i (inst O.PrivTarget p)
  let s : State := { s with ir := { s.ir with wait := tset s.ir.wait core (tgetD s.ir.wait core [] ++ [p]) } }
  let s : State := s.iSet (inst128 O.IrqStatus p) (setBits (setBit (s.i (inst128 O.IrqStatus p)) 8 true) 0 8 (sat 255 (bits (s.i (inst128 O.IrqStatus p)) 0 8 + 1)))
  (s.record (bits (s.i (inst128 O.IrqSource p)) 32 3) 2 p [detail]).privDeliver core

/-- A privileged level condition rises (R467, R462). -/
def State.privLevel (p : Nat) (on : Bool) (detail : Nat) (s : State) : State :=
  if on then
    if s.ir.conds.contains p then s
    else { s with ir := { s.ir with conds := p :: s.ir.conds } }.priv p detail
  else { s with ir := { s.ir with conds := s.ir.conds.filter (· != p) } }

/-! ### Queues (R461–R466) -/

/-- Ring size of a queue in entries. -/
def State.queueSize (s : State) (q : Nat) : Nat := 2 ^ bits (s.i (inst O.QueueControl q)) 16 5

/-- Whether a queue is full: PRODUCER − CONSUMER equals the ring size. -/
def State.queueFull (s : State) (q : Nat) : Bool :=
  (s.i (inst O.QueueProducer q) + 2 ^ 32 - s.i (inst O.QueueConsumer q)) % 2 ^ 32 ≥ s.queueSize q

/-- Where a record of `n` units goes in the record log of a queue, if a free run is large enough (R465). -/
def State.logPlace (s : State) (q n : Nat) : Option Nat :=
  let cap := 2 ^ bits (s.i (inst O.QueueControl q)) 21 5 / 16
  let live := ((tgetD s.ir.queues q []).filter fun e => bits e.word 48 16 != 0).map fun e => (bits e.word 64 32, bits e.word 48 16)
  let free := fun (o : Nat) => o + n ≤ cap && live.all fun e => o + n ≤ e.1 || e.1 + e.2 ≤ o
  let h := tgetD s.ir.logHead q 0
  if free h then some h else if free 0 then some 0 else none

/-- The queue's interrupt (R466): a level at the core's input, or an MSI-X message when the queue turns non-empty. -/
def State.queueSignal (q : Nat) (wasEmpty : Bool) (s : State) : State :=
  let c := s.i (inst O.QueueControl q)
  let tgt := bits c 1 3
  if tgt ≤ 3 then
    let on := s.i (inst O.QueueProducer q) != s.i (inst O.QueueConsumer q)
    { s with ir := { s.ir with ext := tset s.ir.ext tgt (setBit (tgetD s.ir.ext tgt 0) q on) } }
  else if tgt = 4 ∧ wasEmpty then s.put .msi (bits c 4 12) [q] else s

/-- Posts one entry to a queue that has room (R465). `hdr` holds the low bits [47:0] of the entry. -/
def State.postEntry (q hdr stamp : Nat) (r : Rec) (s : State) : State :=
  let prod := s.i (inst O.QueueProducer q)
  let place := if r.isEmpty then some 0 else s.logPlace q r.length
  let kept := place.isSome && !r.isEmpty
  let off := place.getD 0
  let word := packFields [(0, 48, setBit hdr 14 (place.isNone)), (48, 16, if kept then r.length else 0),
    (64, 32, if kept then off else 0), (96, 32, prod), (128, 128, stamp)]
  let e : QEnt := ⟨word, if kept then r else []⟩
  let empty := prod == s.i (inst O.QueueConsumer q)
  let s : State := { s with ir := { s.ir with queues := tset s.ir.queues q (tgetD s.ir.queues q [] ++ [e]), logHead := if kept then tset s.ir.logHead q (off + r.length) else s.ir.logHead } }
  (s.iSet (inst O.QueueProducer q) ((prod + 1) % 2 ^ 32)).queueSignal q empty

/-- Whether a queue is enabled. -/
def State.queueOn (s : State) (q : Nat) : Bool := bit (s.i (inst O.QueueControl q)) 0

/-- Privileged level source QUEUE0_FULL follows queue 0 (R467). -/
def State.queue0Check (s : State) : State := s.privLevel 8 (s.queueFull 0) 0

/-! ### Error handling contexts (R469–R472) -/

/-- The fields of an ErrorContextRecord beyond its header (R470). -/
def ctxFields (n ev : Nat) (c : ErrCtx) : List (Nat × Nat × Nat) :=
  [(128, 4, n), (136, 8, ev), (144, 16, c.unit), (160, 8, c.sev), (176, 32, sat (2 ^ 32 - 1) c.joined),
   (208, 12, c.first), (220, 12, c.last), (256, 128, c.firstFt), (384, 128, c.lastFt)]

/-- SourceStatus of a source with its fields (ARRIVALS, ACTIVE, LEVEL, DROPPED). -/
def statusWord (arr : Nat) (act lev : Bool) (drop : Nat) : Nat :=
  packFields [(0, 8, arr), (8, 1, b2n act), (9, 1, b2n lev), (16, 8, drop)]

/-- Whether a message source may post an entry to a queue now (R461, R464): it is enabled, ARRIVALS is below 255, and the queue is enabled and has room. -/
def State.msgOpen (src q : Nat) (s : State) : Bool :=
  bit (s.i (inst128 O.IrqSource src)) 0 && bits (s.i (inst128 O.IrqStatus src)) 0 8 != 255 && s.queueOn q && !s.queueFull q

/-- An occurrence of a message source toward a queue (R461, R464, R465): one entry that carries what was dropped before it, or one more in DROPPED; a disabled source does neither. -/
def State.msgPost (src q sv : Nat) (r : Rec) (s : State) : State :=
  let cfg := s.i (inst128 O.IrqSource src)
  let st := s.i (inst128 O.IrqStatus src)
  let arr := bits st 0 8
  let drop := bits st 16 8
  if !bit cfg 0 then s
  else if s.msgOpen src q then
    let hdr := packFields [(0, 12, src), (15, 1, b2n (bit cfg 2)), (16, 8, arr + 1), (24, 8, drop), (32, 3, sv)]
    let (stm, s) := s.takeStamp .icd fnQueue
    (s.iSet (inst128 O.IrqStatus src) (statusWord (arr + 1) true false 0)).postEntry q hdr stm r
  else
    let s : State := s.iSet (inst128 O.IrqStatus src) (statusWord arr (arr > 0) false (sat 255 (drop + 1)))
    if s.queueOn q && s.queueFull q then s.iSet (inst O.QueueControl q) (setBit (s.i (inst O.QueueControl q)) 26 true) else s

/-- Posts an ErrorContextRecord to ErrorQueue under the controller's own source 0x0B0 and to the recorder (R470). -/
def State.ctxPost (n ev : Nat) (c : ErrCtx) (s : State) : State :=
  let (r, s) := s.form .icd 0xF2 4 0 0 (ctxFields n ev c)
  ((s.msgPost 0x0B0 (s.i O.ErrorQueue) c.sev r).record c.sev 0 0x0B0 r).queue0Check

/-- The lowest free context. -/
def State.freeCtx (s : State) : Option Nat := (List.range 16).find? fun n => (tget s.ir.ctxs n).isNone

/-- Whether the device is in observe-only mode (R472). -/
def State.observeOnly (s : State) : Bool := s.i O.ObserveOnly == 1

/-- Adds an error to a context or pending entry. -/
def ErrCtx.join (c : ErrCtx) (sev src ft : Nat) : ErrCtx :=
  { c with joined := sat (2 ^ 32 - 1) (c.joined + 1), sev := max c.sev sev, last := src, lastFt := ft }

/-- Keeps the counts of contexts and pending units, and the level source PENDING_HIGH, in step (R467, R471). -/
def State.ctxCounts (s : State) : State :=
  ((s.iSet O.ContextsOpen s.ir.ctxs.length).iSet O.PendingUnits s.ir.pend.length).privLevel 13 (s.ir.pend.length ≥ 224) 0

/-- An error against a unit (R469). -/
def State.errorOn (unit sev src : Nat) (r : Rec) (s : State) : State :=
  let (ft, s) := s.takeStamp .icd fnContext
  let s : State := match s.ir.ctxs.find? fun p => p.2.unit == unit with
    | some p =>
      let c := p.2.join sev src ft
      let s : State := { s with ir := { s.ir with ctxs := tset s.ir.ctxs p.1 c } }
      if p.2.sev < sev then s.ctxPost p.1 1 c else s
    | none =>
      let c : ErrCtx := ⟨unit, sev, 1, src, src, ft, ft⟩
      match s.freeCtx with
      | some n => { s with ir := { s.ir with ctxs := tset s.ir.ctxs n c } }.ctxPost n 0 c
      | none =>
        if s.ir.pend.any fun c => c.unit == unit then
          { s with ir := { s.ir with pend := s.ir.pend.map fun (c : ErrCtx) => if c.unit == unit then c.join sev src ft else c } }
        else if s.ir.pend.length < 256 then { s with ir := { s.ir with pend := s.ir.pend ++ [c] } }
        else
          let s : State := s.record sev 1 src r
          if s.observeOnly then s else ((s.iSet O.ObserveOnly 1).record 2 0 0x003 [1]).privLevel 3 true 0
  s.ctxCounts

/-! ### Occurrences of sources -/

/-- An occurrence of a message source (R461, R465, R469, R473): its entry; the error contexts, whether or not the entry could be posted (R480); the recorder, which keeps entries posted and mirrored entries of sufficient severity, and every AlarmRecord. DEDUCED (log 147): a disabled source posts and counts nothing, but its occurrence is still an error, and its AlarmRecord is still kept. -/
def State.occur (src : Nat) (sev : Option Nat) (r : Rec) (s : State) : State :=
  let cfg := s.i (inst128 O.IrqSource src)
  let sv := sev.getD (bits cfg 32 3)
  let q := bits cfg 8 6
  let alarm := decide (0x200 ≤ src ∧ src ≤ 0x5FF)
  let posted := s.msgOpen src q
  let s : State := s.msgPost src q sv r
  let s : State := if bit cfg 2 then s.errorOn (if alarm then recFld r 288 16 else bits cfg 16 16) sv src r else s
  let s : State := if alarm || ((posted || rType r = 0xF4) && sv ≥ s.i O.RecorderMinSeverity) then s.record sv (if rType r = 0xF4 then 4 else 0) src r else s
  s.queue0Check

/-- The entry of a level source, with what was dropped before it, and its copy in the recorder (R462, R465, R473). -/
def State.levelEntry (src : Nat) (reasserted : Bool) (s : State) : State :=
  let cfg := s.i (inst128 O.IrqSource src)
  let sv := bits cfg 32 3
  let hdr := packFields [(0, 12, src), (12, 1, 1), (13, 1, b2n reasserted), (15, 1, b2n (bit cfg 2)),
    (24, 8, bits (s.i (inst128 O.IrqStatus src)) 16 8), (32, 3, sv)]
  let (stm, s) := s.takeStamp .icd fnQueue
  let s : State := (s.iSet (inst128 O.IrqStatus src) (setBits (s.i (inst128 O.IrqStatus src)) 16 8 0)).postEntry (bits cfg 8 6) hdr stm []
  (if sv ≥ s.i O.RecorderMinSeverity then s.record sv 0 src [] else s).queue0Check

/-- A level source posts its entry and is ACTIVE; while the queue is full it owes the entry (R462); a disabled queue takes nothing, and DROPPED counts the occurrence (R464). -/
def State.levelPost (src : Nat) (reasserted : Bool) (s : State) : State :=
  let cfg := s.i (inst128 O.IrqSource src)
  let st := s.i (inst128 O.IrqStatus src)
  let q := bits cfg 8 6
  let s : State := if !s.queueOn q then s.iSet (inst128 O.IrqStatus src) (statusWord 0 (bit st 8) true (sat 255 (bits st 16 8 + 1)))
    else
      let s : State := s.iSet (inst128 O.IrqStatus src) (statusWord 0 true true (bits st 16 8))
      if s.queueFull q then { s with ir := { s.ir with owed := s.ir.owed ++ [2 * src + b2n reasserted] } } else s.levelEntry src reasserted
  if bit cfg 2 then s.errorOn (bits cfg 16 16) (bits cfg 32 3) src [] else s

/-- A condition of R546 becomes true or false (R462). -/
def State.cond (src : Nat) (on : Bool) (s : State) : State :=
  let was := s.ir.conds.contains src
  let cfg := s.i (inst128 O.IrqSource src)
  if on ∧ !was then
    let s : State := { s with ir := { s.ir with conds := src :: s.ir.conds } }
    if bit cfg 0 && !bit (s.i (inst128 O.IrqStatus src)) 8 then s.levelPost src false else s
  else if !on ∧ was then { s with ir := { s.ir with conds := s.ir.conds.filter (· != src) } }
  else s

/-- Sources of the analysis units (R459). -/
abbrev srcKiln : Nat := 0x0A4
/-- Cask store. -/
abbrev srcCask : Nat := 0x0A5
/-- Series engine. -/
abbrev srcSeries : Nat := 0x0A6
/-- Reduction engine. -/
abbrev srcReduction : Nat := 0x0A7
/-- Pitch controller. -/
abbrev srcPitch : Nat := 0x0A8
/-- Membership engine. -/
abbrev srcMember : Nat := 0x0A9
/-- Time unit. -/
abbrev srcTime : Nat := 0x0AA
/-- Uplink scheduler. -/
abbrev srcUplink : Nat := 0x0AB
/-- Broadcast tree. -/
abbrev srcTree : Nat := 0x0AC
/-- Partition and security unit. -/
abbrev srcSecurity : Nat := 0x0AD
/-- Fill engine. -/
abbrev srcFill : Nat := 0x0AE
/-- Bank copy. -/
abbrev srcBank : Nat := 0x0AF

/-- A write of one unit's area refused by R23: an event that names the engine and the address. -/
def State.accessEvent (src engine addr : Nat) (s : State) : State :=
  s.occur src none [engine + addr * 2 ^ 64]

/-! ### Switched domains (R200, R530) -/

/-- Whether a switched domain is in reset. -/
def State.inReset (d : Nat) (s : State) : Bool := match tget s.pk.domReset d with | some t => decide (s.ft .icd < t) | none => false

/-- An on-demand domain is powered by its engine's work, and idles from the last of it. -/
def State.domainUse (d : Nat) (s : State) : State :=
  { s with pk := { s.pk with domOn := if s.pk.domOn.contains d then s.pk.domOn else d :: s.pk.domOn, domWork := tset s.pk.domWork d (s.ft .icd) } }

/-! ### Roles and the Icdon IX40's ports -/

/-- The role in force (R2). -/
abbrev State.role (s : State) : Nat := s.i O.RoleActive

/-- Notes a cause that acts at this twin only, for the LOCAL field of the present epoch's digest (R408). -/
def State.localMark (b : Nat) (s : State) : State := { s with tw := { s.tw with local_ := setBit s.tw.local_ b true } }

/-- Whether this device leads its pair (TwinState LEAD or ALONE, R404). -/
def State.isLead (s : State) : Bool := s.i O.TwinState == 2 || s.i O.TwinState == 6

/-- Whether this device is the Apex lead. -/
def State.apexLead (s : State) : Bool := s.role == 3 && s.isLead

/-- Whether the device serves telemetry: LEAD, SHADOW, DIVERGED or ALONE. -/
def State.serving (s : State) : Bool :=
  let t := s.i O.TwinState
  t == 2 || t == 3 || t == 5 || t == 6

/-- The use in force of a fabric port (R181). -/
def State.portUse (s : State) (p : Nat) : Nat := tgetD s.pk.use p 0

/-- The lowest port with a use. -/
def State.portOf (s : State) (u : Nat) : Option Nat := (List.range 16).find? fun p => s.portUse p == u

/-- The port of the uplink in use: the standby uplink after a switch to it (R181). -/
def State.upPort (s : State) : Option Nat := if s.pk.standby then s.portOf 4 else s.portOf 3

/-- Downward ports. -/
def State.downPorts (s : State) : List Nat := (List.range 16).filter fun p => s.portUse p == 1

/-- Downward links of one port: groups of the width in force, each aligned to its own size (R180). -/
def State.linksPerPort (s : State) : Nat := 8 / max 1 s.pk.width

/-- Downward links, numbered from 0 in ascending order of port and, within a port, of wavelength: a Row has at most 32, an Apex 64 (R2). DESIGN CHOICE: the spec gives them no numbers. -/
def State.downLinks (s : State) : List Nat := List.range (min (if s.role = 2 then 32 else 64) (s.downPorts.length * s.linksPerPort))

/-- The port of a downward link. -/
def State.linkPort (s : State) (d : Nat) : Option Nat := s.downPorts[d / max 1 s.linksPerPort]?

/-- The downward link that holds a wavelength of a port. -/
def State.linkAt (s : State) (p w : Nat) : Option Nat := (s.downPorts.idxOf? p).map fun i => i * s.linksPerPort + w / max 1 s.pk.width

/-- The link number of the crosslink among a device's fabric links: downward links are 0–63. -/
abbrev xLinkNo : Nat := 64
/-- The link number of the uplink. -/
abbrev upLinkNo : Nat := 65

/-- Wavelengths that a port's links use: the width of one link upward, all eight elsewhere. -/
def State.portWaves (s : State) (p : Nat) : Nat :=
  if s.portUse p = 3 ∨ s.portUse p = 4 then (if s.role = 2 then 1 else s.pk.width) else 8

/-- Whether a wavelength of a port carries flits (R180): one that has not failed; position 8 once the laser of a failed one is tuned to it. -/
def State.waveLit (p w : Nat) (s : State) : Bool :=
  !bit (tgetD s.pk.dark p 0) w &&
    (w != 8 || (s.pk.spareUsed.contains p && (match tget s.pk.retune p with | some t => decide (t ≤ s.ft .icd) | none => true)))

/-- The active wavelengths of some positions of a port, in ascending order: position 8 where it carries one of them (R180). -/
def State.activeWaves (p : Nat) (ws : List Nat) (s : State) : List Nat :=
  (ws ++ (if ws.contains (tgetD s.pk.spareFor p 0) then [8] else [])).filter fun w => s.waveLit p w

/-- The active wavelengths of a downward link of a port. -/
def State.downWaves (p d : Nat) (s : State) : List Nat :=
  s.activeWaves p ((List.range s.pk.width).map fun i => d % max 1 s.linksPerPort * s.pk.width + i)

/-- The scope that 0 stands for when no die below is named: every slot of a Tray, every downward link above (R211). -/
def State.wholeScope (s : State) : Nat :=
  if s.role = 1 then 2 ^ 64 - 1 else (s.downLinks.map fun d => 2 ^ d).sum

/-- Fires the trigger rules of a kind whose match holds: each waits for the lead's decision (R211). -/
def State.fireRules (kind : Nat) (hit : Nat → Bool) (slot : Option Nat) (gid ref stamp due : Nat) (s : State) : State :=
  (List.range 16).foldl (fun s r =>
    if s.i (inst O.RuleKind r) = kind ∧ hit (s.i (inst O.RuleMatch r)) then
      let sc := s.i (inst O.RuleScope r)
      let scope := if sc ≠ 0 then sc else match slot with | some k => 2 ^ k | none => s.wholeScope
      { s with gr := { s.gr with fired := s.gr.fired ++ [⟨r, kind, scope, gid, ref, stamp, due⟩] } }
    else s) s

/-- An alarm event of the Icdon IX40: an AlarmRecord at source 0x200 + code (R459). -/
def State.iAlarm (code sev unit detail : Nat) (s : State) : State :=
  let (st, s) := s.takeStamp .icd fnRecord
  let (r, s) := s.form .icd 0xF3 3 0 0 (alarmFields st code sev unit detail)
  (s.occur (0x200 + code) (some sev) r).fireRules 3 (fun m => m % 65536 == 0xFFFF || m % 65536 == code) none s.iGid (rSeq r) st 0

/-- TIME stands outside the service classes: it is served first and charged to no shaper (R428, R430). Its records wait under this number. -/
abbrev timeClass : Nat := 5

/-- Service class of a stream type (R428). -/
def classOf (st : Nat) : Nat :=
  if st = stTime then timeClass
  else if st = stAlarm then 0
  else if st = stControl ∨ st = stContrib ∨ st = stDigest then 1
  else if st = stSeries then 2
  else if st = stAudit then 3 else 4

/-- Whether the first flit of a kind with a cut's tag still owes its CUT_MARK (R156). -/
def owes (l : List (Nat × Nat)) (key cut : Nat) : Bool := l.contains (key, cut)

/-- CUT_MARK of a kind of flits has been sent for a cut, and with it for every cut latched before (R156). -/
def paid (l : List (Nat × Nat)) (key cut : Nat) : List (Nat × Nat) :=
  l.filter (fun e => e.1 != key) ++ ((l.filter fun e => e.1 == key).dropWhile fun e => e.2 != cut).drop 1

/-- The stream of flits of a port that has a SEQUENCE of its own (R150): the port, of a downward port the link, and the stream type. -/
def flitKey (p : Nat) (link : Option Nat) (st : Nat) : Nat := (p * 128 + (match link with | some d => d + 1 | none => 0)) * 16 + st

/-- Service class of a record: that of its stream type, and of a REPAIR flit that of the type it repairs (R428). -/
def entClass (st : Nat) (r : Rec) : Nat := if st = stRepair then classOf (bits (r.getD 2 0) 0 4) else classOf st

/-- Records queued at a port in a class. -/
def State.portQ (s : State) (p c : Nat) : List UpEnt := tgetD s.up.q (p * 8 + c) []

/-- Subscriber of a record (R429). -/
def subscriberOf (r : Rec) : Nat := if rPart r ≠ 0 then rPart r else rSrc r

/-- Distinct subscriber queues of a port over all classes. -/
def State.subQueues (s : State) (p : Nat) : List (Nat × Nat) :=
  ((List.range 5).flatMap fun c => (s.portQ p c).map fun e => (c, e.sub)).eraseDups

/-- Charged length of a record at a port (R432). -/
def State.charged (s : State) (p : Nat) (r : Rec) : Nat := 16 * r.length + s.i (inst O.PortOverhead p)

/-- Queues a record at a fabric port for one link (R428, R429, R442); what arrives at the uplink in bulk is measured (R441). -/
def State.portQueue (p : Nat) (link : Option Nat) (st : Nat) (r : Rec) (s : State) : State :=
  let c := entClass st r
  let q := s.portQ p c
  let qs := s.subQueues p
  let sub0 := subscriberOf r
  let over_ := c != timeClass && !qs.contains (c, sub0) && qs.length ≥ 4096
  let s : State := if over_ then s.addOb .icd O.SubscriberOverflow 64 1 else s
  let s : State := if c = 4 ∧ s.upPort = some p then { s with up := { s.up with bulkWindow := s.up.bulkWindow + s.charged p r } } else s
  let bulkBytes := lsum (q.map fun e => 16 * e.rec_.length)
  if c = 4 ∧ s.i (inst O.BulkDeferred p) = 1 ∧ bulkBytes + 16 * r.length > s.i O.BulkQueueLimit * 1048576 then
    { (s.addOb .icd O.BulkDiscarded 64 1) with up := { s.up with bulkLoss := p :: s.up.bulkLoss } }
  else
    { s with up := { s.up with q := tset s.up.q (p * 8 + c) (q ++ [⟨if over_ then 0xFFFFFFFF else sub0, r, st, s.ft .icd, link, s.ki.number⟩]) } }

/-- Queues a TIME record at a fabric port for a link, to leave on one wavelength; TIME has no subscribers, and its entries hold the wavelength in that place (R180). -/
def State.timeQueue (p : Nat) (link : Option Nat) (w : Nat) (r : Rec) (s : State) : State :=
  { s with up := { s.up with q := tset s.up.q (p * 8 + timeClass) (s.portQ p timeClass ++ [⟨w, r, stTime, s.ft .icd, link, s.ki.number⟩]) } }

/-- Queues a record at a fabric port, for one downward link or for every link of the port. -/
def State.portSendTo (p : Nat) (link : Option Nat) (st : Nat) (r : Rec) (s : State) : State :=
  if link.isNone ∧ s.portUse p = 1 then
    (s.downLinks.filter fun d => s.linkPort d == some p).foldl (fun s d => s.portQueue p (some d) st r) s
  else s.portQueue p link st r

/-- Queues a record at a fabric port for every link of it. -/
abbrev State.portSend (p st : Nat) (r : Rec) (s : State) : State := s.portSendTo p none st r

/-- Queues a record for one downward link. -/
def State.linkSend (d st : Nat) (r : Rec) (s : State) : State :=
  match s.linkPort d with | some p => s.portSendTo p (some d) st r | none => s

/-- Sends a record on the uplink; only the lead lights it (R21). -/
def State.upSend (st : Nat) (r : Rec) (s : State) : State :=
  if s.isLead then (match s.upPort with | some p => s.portSend p st r | none => s) else s

/-- Sends a record on every downward pair link; only the lead lights them (R21). -/
def State.childSend (st : Nat) (r : Rec) (s : State) : State :=
  if s.isLead then s.downPorts.foldl (fun s p => s.portSend p st r) s else s

/-- Sends a record to the twin over the crosslink. -/
def State.xSend (st : Nat) (r : Rec) (s : State) : State :=
  match s.portOf 2 with | some p => s.portSend p st r | none => s

/-- A value of a message between the twins in units of 112 bits, of which all but the last are marked. -/
def msgUnits : Nat → Nat → List Nat
  | 0, v => [v % 2 ^ 112]
  | n + 1, v => if v < 2 ^ 112 then [v] else (v % 2 ^ 112 + 2 ^ 112) :: msgUnits n (v / 2 ^ 112)

/-- Cuts a list into pieces of at most 1,024. -/
def chunksOf : Nat → List Nat → List (List Nat)
  | 0, _ => []
  | n + 1, l => if l.length ≤ 1024 then [l] else l.take 1024 :: chunksOf n (l.drop 1024)

/-- Queues a record of the device itself at its crosslink port. Its subscriber is this device, whose queue always stands (DESIGN CHOICE, log 133), so that it meets no limit of R429. -/
def State.xOwn (st : Nat) (r : Rec) (s : State) : State :=
  match s.portOf 2 with
  | some p => { s with up := { s.up with q := tset s.up.q (p * 8 + entClass st r) (s.portQ p (entClass st r) ++ [⟨s.iGid, r, st, s.ft .icd, none, s.ki.number⟩]) } }
  | none => s

/-- A message between the twins as records for CONTROL on the crosslink: what it says, its values in order. DESIGN CHOICE (log 133): the spec names what the twins tell each other and gives it no record. -/
def msgRecs (src tag : Nat) (body : List Nat) : List Rec :=
  let us := body.flatMap (msgUnits 16)
  (chunksOf (us.length + 1) us).zipIdx.map fun c =>
    (mkRec 0x60 (2 + c.1.length) 0 src 0 0 [(128, 16, tag), (160, 32, c.2), (192, 32, us.length)]).take 2 ++ c.1

/-- Tells the twin something over the crosslink, where a message is a record like others (R17). -/
def State.xMsg (tag : Nat) (body : List Nat) (s : State) : State := (msgRecs s.iGid tag body).foldl (fun s r => s.xOwn stControl r) s

/-- A flit that the twin lacks, as a record of the stream type REPAIR: its link, its sixteen units (R25, R151, R159). DESIGN CHOICE (log 133): the spec gives a repaired flit no record. -/
def repairRec (src link : Nat) (f : List Nat) : Rec := (mkRec 0x60 18 0 src 0 0 [(128, 16, 0x25), (160, 32, link)]).take 2 ++ f

/-- Sends the twin a flit (R25, R159). -/
def State.xRepair (link : Nat) (f : List Nat) (s : State) : State := s.xOwn stRepair (repairRec s.iGid link f)

/-- Records waiting on a slot's downstream channel in one stream type, with the cut number at queuing. -/
def State.downQ (s : State) (slot st : Nat) : List (Nat × Rec) := tgetD s.ln.dq (slot * 16 + st) []

/-- Queues a record on a slot's downstream channel (R160). -/
def State.downSend (slot st : Nat) (r : Rec) (s : State) : State :=
  { s with ln := { s.ln with dq := tset s.ln.dq (slot * 16 + st) (s.downQ slot st ++ [(s.ki.number, r)]) } }

/-- Slots whose die is attached: ACTIVE, DOZE or RETUNE (R164). -/
def State.liveSlots (s : State) : List Nat :=
  (List.range 64).filter fun k =>
    let st := s.i (O.SlotState + k)
    st == 2 || st == 3 || st == 4

/-- Sends a record below: at a Tray on every slot's downstream channel, above it on every downward port. -/
def State.belowSend (st : Nat) (r : Rec) (s : State) : State :=
  if s.role = 1 then (List.range 64).foldl (fun s k => s.downSend k st r) s else s.childSend st r

/-- Marks engines, by their bits of R206's staging, as having missed records now: the results that depend on them carry STAGING_OVERRUN (R206, R271, R309, R320). -/
def State.overMarks (l : List Nat) (s : State) : State :=
  { s with gr := { s.gr with over_ := l.foldl (fun m b => setBit m b true) s.gr.over_, overAt := l.foldl (fun t b => tset t b (s.ft .icd)) s.gr.overAt } }

/-- Marks one engine. -/
abbrev State.overMark (b : Nat) (s : State) : State := s.overMarks [b]

/-! ### Hosts and management sessions -/

/-- Pushes a record to every subscription of the sessions that may receive it and that names its TYPE, within MopSendLimit (R520). -/
def State.mgmtPush (to_ : Session → Bool) (r : Rec) (s : State) : State :=
  s.mo.sessions.foldl (fun s p =>
    let se := p.2
    se.subs.foldl (fun s q =>
      let sb := q.2
      if sb.on && bit sb.mask (rType r) && to_ se then
        let now := tgetD s.mo.sessions p.1 se
        if now.backlog ≤ 100 * Config.mopBurst then
          let s : State := s.put .mgmt p.1 (packFields [(0, 8, q.1), (32, 32, sb.dropped), (64, 64, sb.seq)] :: r)
          { s with mo := { s.mo with sessions := tset s.mo.sessions p.1 { now with backlog := now.backlog + 100 * (16 * r.length + 16), subs := tset now.subs q.1 { sb with seq := sb.seq + 1, dropped := 0 } } } }
        else
          { s with mo := { s.mo with sessions := tset s.mo.sessions p.1 { now with subs := tset now.subs q.1 { sb with dropped := sb.dropped + 1 } } } }
      else s) s) s

/-- Pushes an exact record to the sessions of operator, maintainer and auditor. -/
def State.mgmtPost (r : Rec) (s : State) : State := s.mgmtPush (fun se => se.role != .tp) r

/-- Pushes an exact record of a result that both twins form: the lead alone posts it (R267, R290). -/
def State.leadPost (r : Rec) (s : State) : State := if s.isLead then s.mgmtPost r else s

/-- Pushes a record in tenant form to the tenant-proxy sessions of a partition (R482). -/
def State.tenantPost (part : Nat) (r : Rec) (s : State) : State := s.mgmtPush (fun se => se.role == .tp && se.part == part) r

/-- How many of the oldest records hold at least `n` bytes. -/
def dropCount : Nat → List Rec → Nat
  | 0, _ => 0
  | _, [] => 0
  | n + 1, r :: t => 1 + dropCount (n + 1 - 16 * r.length) t

/-- Posts a record to PF host ring 0; only the lead writes results (R192). While the PCIe link is down records wait, up to 1 GiB, and then the oldest are dropped and counted (R203). -/
def State.hostPost (r : Rec) (s : State) : State :=
  if !s.isLead then s
  else if s.pk.pcieUp then s.put .host 0 r
  else
    let w := s.pk.waiting ++ [r]
    let k := dropCount (16 * lsum (w.map (·.length)) - 1073741824) w
    { s with pk := { s.pk with waiting := w.drop k, waitDrop := s.pk.waitDrop + k } }

/-! ### Tier 1 memory -/

/-- A byte of Tier 1: what is listed, else 0. -/
def memByte (m : List Host.Cell) (a : Nat) : BitVec 8 := (tget m a).getD 0#8

/-- Writes one byte, keeping addresses ascending and listing no zero. -/
def memPut (a : Nat) (b : BitVec 8) : List Host.Cell → List Host.Cell
  | [] => if b = 0#8 then [] else [(a, b)]
  | p :: t =>
    if a < p.1 then (if b = 0#8 then p :: t else (a, b) :: p :: t)
    else if a = p.1 then (if b = 0#8 then t else (a, b) :: t)
    else p :: memPut a b t

/-- Writes bytes from an address upward. -/
def memWrite : Nat → List Nat → List Host.Cell → List Host.Cell
  | _, [], m => m
  | a, b :: t, m => memWrite (a + 1) t (memPut a (BitVec.ofNat 8 b) m)

/-- Reads `n` bytes from an address upward. -/
def memRead (m : List Host.Cell) (a n : Nat) : List Nat := (List.range n).map fun k => (memByte m (a + k)).toNat

/-- The canonical form of a memory: addresses strictly ascending, no zero listed. -/
def Memory.wf : List Host.Cell → Bool
  | [] => true
  | [p] => p.2 != 0#8
  | p :: q :: t => p.2 != 0#8 && p.1 < q.1 && Memory.wf (q :: t)

/-- The canonical form of a dictionary: keys strictly ascending, no default listed. -/
def Dict.wf (sd : Side) : Dict → Bool
  | [] => true
  | [p] => p.2 != objDefault sd p.1
  | p :: q :: t => p.2 != objDefault sd p.1 && p.1 < q.1 && Dict.wf sd (q :: t)

end Sys2Proof.Machine
end

