-- ==== Sys2Proof/Machine/Operands.lean ====
section
/-! DEFINITION. Requests: the rights, ranges and twin order of R503–R509, and the ways an answer goes back (R191, R513, R516–R519). -/

namespace Sys2Proof.Machine

/-- Status codes of R191 and R518. -/
abbrev stOk : Nat := 0
/-- LEAD_TOO_SHORT. -/
abbrev stLead : Nat := 1
/-- ACCESS_DENIED. -/
abbrev stDenied : Nat := 2
/-- MALFORMED. -/
abbrev stMalformed : Nat := 3
/-- QUEUE_FULL. -/
abbrev stQueueFull : Nat := 4
/-- UNKNOWN_OPCODE. -/
abbrev stUnknown : Nat := 5
/-- ARG_FAULT. -/
abbrev stArg : Nat := 6
/-- NO_OBJECT. -/
abbrev stNoObject : Nat := 7
/-- RANGE. -/
abbrev stRange : Nat := 8
/-- BUSY. -/
abbrev stBusy : Nat := 9
/-- NOT_READY. -/
abbrev stNotReady : Nat := 10
/-- TIMEOUT. -/
abbrev stTimeout : Nat := 11
/-- PARTIAL. -/
abbrev stPartial : Nat := 12
/-- UNREACHABLE. -/
abbrev stUnreachable : Nat := 13

/-- Outcome of an operation: STATUS, CAUSE, HANDLE. -/
structure Res where
  st : Nat
  cause : Nat
  handle : Nat
deriving DecidableEq, Repr

/-- Done. -/
abbrev ok : Res := ⟨0, 0, 0⟩
/-- Done, with a timed-action handle. -/
abbrev okH (h : Nat) : Res := ⟨0, 0, h⟩
/-- Refused with a status and a cause. -/
abbrev no (st : Nat) (cause : Nat := 0) : Res := ⟨st, cause, 0⟩

/-- Whether the Helad holds the objects of an index (R510). -/
def heladIdx (i : Nat) : Bool :=
  (0x2800 ≤ i && i ≤ 0x28FF) || (0x3000 ≤ i && i ≤ 0x30FF) || (0x3400 ≤ i && i ≤ 0x347F) ||
  (0x3800 ≤ i && i ≤ 0x3802) || i == 0x4A28 || (0x4E00 ≤ i && i ≤ 0x4E11)

/-- Whether the Helad has its own instance of an index that both parts hold (R68, R543). -/
def bothIdx (i : Nat) : Bool :=
  i == 0x2000 || i == 0x2001 || i == 0x2004 || i == 0x2020 || (0x2100 ≤ i && i ≤ 0x2103) || i == 0x2120 ||
  (0x2200 ≤ i && i ≤ 0x2217) || i == 0x2300

/-- Whether a part holds an object: the area of time is held by both (R510), less what R68 does not give the Helad. -/
def holds (sd : Side) (k : Nat) : Bool :=
  let i := keyIdx k
  match sd with
  | .hel => heladIdx i || (bothIdx i && k != O.FtStartValue && (keyIdx k != 0x2001 || keySub k != 1))
  | .icd => !heladIdx i

/-- The access code of a role in a row (R506). -/
def ObjSpec.acc (o : ObjSpec) (r : Role) : Acc :=
  match r with | .op => o.op | .mt => o.mt | .au => o.au | .tp => o.tp

/-- Whether an instance belongs to a partition (R506, "own"): a step entry by the partition of its StepConfig, a VF by its binding. -/
def State.owns (s : State) (part key : Nat) : Bool :=
  let i := keyIdx key
  if 0x4100 ≤ i ∧ i ≤ 0x44FF then bits (s.i (inst O.StepConfig (i - 0x4100))) 0 16 == part
  else if i = 0x5A22 ∨ i = 0x5A23 then s.i (inst O.VfPartition (i - 0x5A22) + keySub key - 1) == part
  else false

/-- The partition bound to VF `v`, numbered from 1 (R501). -/
def State.vfPart (s : State) (v : Nat) : Nat := s.i (inst128 O.VfPartition (v - 1))

/-- The rights under which a request is judged: PF BAR0 carries operator rights, a management core the maintainer's, a VF and its rings tenant-proxy rights for its own partition, a session those of its credential (R186, R495). The rights of a request from a PF ring and of one forwarded between devices travel with it. -/
def State.judged (s : State) (q : Req) : Req :=
  match q.who with
  | .pf => { q with role := .op }
  | .core _ => { q with role := .mt }
  | .vf v => { q with role := .tp, part := s.vfPart v }
  | .ring n => if 1024 ≤ n then { q with role := .tp, part := s.vfPart (n - 1024) } else q
  | .session n => (match tget s.mo.sessions n with | some se => { q with role := se.role, part := se.part } | none => q)
  | .device _ => q

/-- What the start-up refuses (R2, R524, R526): in the bootstrap-free path all but reads of 0x1000.01–.06; before InitDone, and in a device that serves its management ports only, objects whose function has not started, which are those of telemetry and analysis (DEDUCED, log 125: indexes 0x2000–0x57FF); everything while a critical temperature keeps the device in AO (R201). -/
def State.startGate (s : State) (wr : Bool) (key : Nat) : Option Res :=
  let ph := s.pw.phase
  if ph = 1 then (if !wr ∧ keyIdx key = 0x1000 ∧ 1 ≤ keySub key ∧ keySub key ≤ 6 then none else some (no stDenied))
  else if ph = 4 ∨ ((ph = 2 ∨ ph = 5) ∧ 0x2000 ≤ keyIdx key ∧ keyIdx key ≤ 0x57FF) then some (no stBusy)
  else none

/-- Rights of a read (R506): none when granted, else the refusal. -/
def State.readRight (s : State) (q0 : Req) (key : Nat) : Option Res :=
  let q := s.judged q0
  match objSpec key with
  | none => some (no stNoObject)
  | some o =>
    match o.acc q.role with
    | .none => some (no stDenied)
    | _ => if q.role = .tp ∧ o.own ∧ !s.owns q.part key then some (no stDenied) else s.startGate false key

/-- Rights of a write (R506, R507). -/
def State.writeRight (s : State) (q0 : Req) (key : Nat) : Option Res :=
  let q := s.judged q0
  match objSpec key with
  | none => some (no stNoObject)
  | some o =>
    match o.acc q.role with
    | .none | .ro => some (no stDenied)
    | _ =>
      if q.role = .tp ∧ o.own ∧ !s.owns q.part key then some (no stDenied)
      else if o.apex ∧ !s.apexLead then some (no stDenied 8)
      else s.startGate true key

/-- Whether a value lies in an object's type and range (R503, R504). -/
def inRange (key v : Nat) : Bool :=
  match objSpec key with
  | none => false
  | some o =>
    v < 2 ^ o.bits &&
      (if 5 ≤ o.ty ∧ o.ty ≤ 7 then decide (o.rlo ≤ toS o.bits v ∧ toS o.bits v ≤ o.rhi)
       else decide (o.rlo ≤ (v : Int) ∧ (v : Int) ≤ o.rhi))

/-- The local set of R508: objects whose writes apply at the device addressed. -/
def localKey (k : Nat) : Bool :=
  let i := keyIdx k
  k == O.IcdonNumber || i == 0x1010 || i == 0x1020 || i == 0x1030 || i == 0x1031 || i == 0x3480 ||
  (0x5800 ≤ i && i ≤ 0x5804) || (0x5900 ≤ i && i ≤ 0x59F0) || (0x5A10 ≤ i && i ≤ 0x5A12) ||
  (match objSpec k with | some o => o.op == .w1c || o.mt == .w1c | none => false)

/-- Whether a twinned write can be carried out (R508): at the lead, or at a twin that reaches the lead. A device without a role is no twin, and R3 has the maintainer write the compared values of a device OUT_OF_SERVICE. -/
def State.twinReach (s : State) (k : Nat) : Bool :=
  s.isLead || s.role == 0 || localKey k || (s.tm.xlinkUp && (s.tw.twinState == 2 || s.tw.twinState == 6)) ||
  ((k == O.IcdonRole || k == O.SeriesHashSeed) && s.i O.TwinState == 7)

/-- A write accepted at the lead is sent to the shadow in the next write position (R508). -/
def State.twinOrder (k v : Nat) (s : State) : State :=
  if localKey k || s.role == 0 || !s.tm.xlinkUp then s
  else { s with mo := { s.mo with pos := s.mo.pos + 1 } }.xMsg 0x508 [s.mo.pos, k, v]

/-- The LastAccessStatus word of R513. -/
def lastAccess (k : Nat) (r : Res) : Nat :=
  packFields [(0, 16, keyIdx k), (16, 8, keySub k), (24, 8, r.st), (32, 8, r.cause)]

/-- What the lead writes to a ring's control block: CONSUMER, COMPLETION_PRODUCER and STOPPED (R188). -/
def State.ringPost (ring : Nat) (s : State) : State :=
  match tget s.pk.rings ring with
  | some r => s.put .host (0x800 + ring) [r.cons, (r.cprod + tgetD s.pk.complUsed ring 0) % 2 ^ 32, b2n r.stopped]
  | none => s

/-- Writes a CompletionRecord to a ring, whose COMPLETION_PRODUCER follows (R188, R191). From its taking the lead to the next acknowledged position a new lead's completions carry REPLAYED (R192). A shadow writes none and keeps what the lead owes, for the case that it takes the lead before the ring's next position (R192). -/
def State.complete (ring : Nat) (tag : Nat) (replayed : Bool) (r : Res) (s : State) : State :=
  if s.isLead then
    let (c, s) := s.form .icd 0x61 2 0 0
      [(128, 32, tag), (160, 16, r.st), (176, 1, b2n (replayed || s.pk.replay)), (184, 8, r.cause), (192, 32, r.handle)]
    ({ s with pk := { s.pk with complUsed := tset s.pk.complUsed ring (tgetD s.pk.complUsed ring 0 + 1) } }.put .host ring c).ringPost ring
  else { s with pk := { s.pk with unsaid := s.pk.unsaid ++ [(ring, tag, r.st, r.cause, r.handle)] } }

/-- A tag used in a session within the last second, with its answer when it has one (R519). -/
def Session.keep (se : Session) (tag now : Nat) (body : List Nat) : Session :=
  { se with tags := (tag, now, body) :: se.tags.filter fun t => t.1 != tag && decide (now < t.2.1 + ms 1000) }

/-- The response of a session's request, kept for a repeated TAG; a closed session gets none (R516, R519, R523). -/
def State.reply (n tag : Nat) (body : List Nat) (s : State) : State :=
  match tget s.mo.sessions n with
  | none => s
  | some se => { s with mo := { s.mo with sessions := tset s.mo.sessions n (se.keep tag (s.ft .icd) (tag :: body)) } }.put .reply n (tag :: body)

/-- The answer to a request on an object: a ring completion, a session's answer, or the mirror's LastAccessStatus: a refused read of the PF is aborted, a refused write of the PF is discarded and counted, and a refused access of a core raises its access fault (R191, R513, R517). -/
def State.answer (q : Req) (k : Nat) (wr : Bool) (r : Res) (vals : List Nat) (s : State) : State :=
  match q.who with
  | .ring n => s.complete n q.tag false r
  | .session n => s.reply n q.tag ([r.st, r.cause, r.handle] ++ vals)
  | .device _ => s.put .reply 0xFFFF ([q.tag, r.st, r.cause, r.handle] ++ vals)
  | .vf n => s.put .reply (0x1000 + n) ([q.tag, r.st, r.cause] ++ vals)
  | .pf =>
    if r.st = 0 then (if wr then s else s.put .reply 0x2000 vals)
    else
      let s : State := s.iSet O.LastAccessStatus (lastAccess k r)
      if wr then s.iCount O.RefusedMirrorWrites else s.put .reply 0x2000 [r.st]
  | .core n =>
    if r.st = 0 then (if wr then s else s.put .reply (0x2001 + n) vals)
    else
      (s.iSet (O.LastAccessStatus + 1 + n % 4) (lastAccess k r)).put .reply (0x2001 + n) [r.st]

/-- An operation on the state that says how it ended. -/
abbrev Op := State → State × Res

/-- A refusal leaves the state as it was. -/
def refuse (st : Nat) (cause : Nat := 0) : Op := fun s => (s, no st cause)

/-- In observe-only mode write descriptors of other requesters than the operator and the maintainer are refused (R472). -/
def State.observeBlocks (s : State) (q : Req) : Bool :=
  s.observeOnly && !((s.judged q).role == .op || (s.judged q).role == .mt)

/-- Whether a write received here is carried out at the other twin: this one does not lead and the object is twinned (R508). -/
def State.forwards (s : State) (k : Nat) : Bool :=
  !(s.isLead || s.role == 0 || localKey k || ((k == O.IcdonRole || k == O.SeriesHashSeed) && s.i O.TwinState == 7))

/-- The outcome of a twinned or local write that has passed its checks: carried out here and sent to the shadow, or handed to the lead, which applies it and sends it back in its position; both twins hold the state that decides it (R508). -/
def State.writeThrough (k v : Nat) (f : Op) : Op := fun s =>
  let p := f s
  if s.forwards k then (s.xMsg 0x5082 [k, v], p.2)
  else if p.2.st ≠ 0 then p
  else (p.1.twinOrder k v, p.2)

/-- Holds the answer to a write of a time setting until the Helads have applied it (R543). -/
def State.holdAnswer (k : Nat) (a : HeldAnswer) (s : State) : State :=
  match tget s.mo.applying k with
  | some w => { s with mo := { s.mo with applying := tset s.mo.applying k { w with ans := w.ans ++ [a] } } }
  | none => s

/-- A write of an object of the Icdon IX40: rights, range, twin order, the operation, the answer (R504–R508); that of a time setting is held until the Helads have applied it (R543). -/
def State.reqWrite (q : Req) (k v : Nat) (f : Op) (s : State) : State :=
  match s.writeRight q k with
  | some r => s.answer q k true r []
  | none =>
    if !inRange k v then s.answer q k true (no stRange) []
    else if !s.twinReach k || s.observeBlocks q then s.answer q k true (no stBusy) []
    else
      let p := s.writeThrough k v f
      if p.2.st = 0 ∧ (tget p.1.mo.applying k).isSome then p.1.holdAnswer k ⟨q, false, false, [], []⟩
      else p.1.answer q k true p.2 []

/-- The Tray's copy of a Helad object follows every write the Helad accepts (R548); a timed write accepted before and due by now is past. -/
def State.copySet (slot k v : Nat) (s : State) : State :=
  { s with ln := { s.ln with copies := tset s.ln.copies (slot * 2 ^ 24 + k) v
                             copyDue := s.ln.copyDue.filter fun e => !(e.2.2.1 == slot && e.2.2.2.1 == k && decide (e.2.1 ≤ s.ft .icd)) } }

/-- A timed write that a Helad has accepted: the copy follows at its instant (R63, R548). -/
def State.copyLater (h t slot k v : Nat) (s : State) : State := { s with ln := { s.ln with copyDue := s.ln.copyDue ++ [(h, t, slot, k, v)] } }

/-- The value of a Helad's object in the Tray's copy, if it has one (R548): the last timed write that is due, else what was written. -/
def State.copied (s : State) (slot k : Nat) : Option Nat :=
  match (sortBy (·.2.1) (s.ln.copyDue.filter fun e => e.2.2.1 == slot && e.2.2.2.1 == k && decide (e.2.1 ≤ s.ft .icd))).getLast? with
  | some e => some e.2.2.2.2
  | none => tget s.ln.copies (slot * 2 ^ 24 + k)

/-- Whether the Helad's die can be reached (R514): its slot is not FAILED, MISWIRED or DARK at its Tray, or it stands in the route table above. -/
def State.heladReach (s : State) : Bool :=
  if s.role ≤ 1 then
    let st := s.i (O.SlotState + s.h O.SlotNumber % 64)
    st != 0 && st != 5 && st != 6
  else s.hGid != 0

/-- The domain that holds a Helad object, when it is not AO (R547): COUNT, TRACE or LANE. -/
def heladDomain (k : Nat) : Option Nat :=
  let i := keyIdx k
  if (0x3020 ≤ i ∧ i ≤ 0x303F) ∨ i = 0x305B ∨ i = 0x305C then some 2
  else if k = O.BufferFill ∨ i = 0x3404 ∨ (0x3418 ≤ i ∧ i ≤ 0x341B ∧ keySub k = 3) ∨ i = 0x3428 ∨ k = O.SnapBufferFill then some 3
  else if k = O.RetransmitLost ∨ k = O.AlarmOverflow then some 4
  else none

/-- A proxied access wakes LANE, which carries it, and the domain that holds the object (R547). -/
def State.wakeFor (k : Nat) (s : State) : State :=
  match heladDomain k with | some d => (s.wake 4).wake d | none => s.wake 4

/-- While HMAIN_RST_N or HAO_RST_N is asserted no proxied access is answered (R547). -/
def State.heladReset (s : State) : Bool := s.bd.haoReset || s.bd.hmainReset

/-- Objects of a Helad that only its Tray writes (R537, R543): a direct write from any role is refused. -/
def trayOnly (k : Nat) : Bool := keyIdx k == 0x2001 || keyIdx k == 0x2002

/-- A write of an object of the Helad that has behaviour of its own, by proxy (R514): the receiving Icdon IX40 checks rights and range, the Helad acts and answers. -/
def State.proxyWrite (q : Req) (k v : Nat) (f : Op) (s : State) : State :=
  match s.writeRight q k with
  | some r => s.answer q k true r []
  | none =>
    if trayOnly k then s.answer q k true (no stDenied) []
    else if !inRange k v then s.answer q k true (no stRange) []
    else if s.observeBlocks q then s.answer q k true (no stBusy) []
    else if !s.heladReach then s.answer q k true (no stUnreachable) []
    else if s.heladReset then s.answer q k true (no stTimeout) []
    else
      let p := f (s.wakeFor k)
      let s : State := if p.2.st = 0 then p.1.copySet (p.1.h O.SlotNumber) k v else p.1
      s.answer q k true p.2 []

/-- Whether a requester may submit descriptors (R495): PF rings, partition operations, cuts, broadcasts and reductions are the operator's and the maintainer's. -/
def State.ringRights (s : State) (q : Req) : Bool := (s.judged q).role == .op || (s.judged q).role == .mt

/-- Whether a request may be acted on: one of a ring waits at the lead until the shadow has acknowledged the ring's position (R192). -/
def State.acked (s : State) (q : Req) : Bool :=
  match q.who with
  | .ring n => !(s.isLead && s.tm.xlinkUp) || tgetD s.pk.ackPos n 0 == (match tget s.pk.rings n with | some r => r.cons | none => 0)
  | _ => true

/-- A descriptor's operation (R190, R192, R495, R521): its position acknowledged, the requester's rights, observe-only, the operation, the completion. -/
def State.descriptor (q : Req) (f : Op) (s : State) : State :=
  if !s.acked q then s
  else if !s.ringRights q || s.observeBlocks q then s.answer q 0 true (no stDenied) []
  else
    let p := f s
    p.1.answer q 0 true p.2 []

/-- The instant check of R19: an instant less than 50 µs ahead is refused. -/
def State.leadOk (s : State) (at_ : Nat) : Bool := s.ft .icd + us 50 ≤ at_

end Sys2Proof.Machine
end

