-- ==== Sys2Proof/Machine/Fining.lean ====
section
/-! DEFINITION. The fining code: predictors, residues and the adaptive Rice code of R218–R221. -/

namespace Sys2Proof.Machine

/-- One 64-bit residue as an unsigned number (zig-zag, R220). -/
def zigzag (r : Nat) : Nat := ((r * 2) % 2 ^ 64) ^^^ (if r.testBit 63 then 2 ^ 64 - 1 else 0)

/-- The residue of a zig-zag number. -/
def unzigzag (u : Nat) : Nat := if u.testBit 0 then 2 ^ 64 - 1 - u / 2 else u / 2

/-- The smallest `k` up to 63 with `n << k ≥ a` (R220). -/
def riceK (a n : Nat) : Nat := ((List.range 64).find? fun k => decide (a ≤ n <<< k)).getD 63

/-- The adaptive state after a word (R220). -/
def riceNext (a n u : Nat) : Nat × Nat :=
  let a := min (a + u) (2 ^ 72 - 1)
  if n + 1 = 32 then (a / 2, 16) else (a, n + 1)

/-- The code of one word as (bits, value), least significant bit first. -/
def riceWord (k u : Nat) : Nat × Nat :=
  let q := u >>> k
  if q < 48 then (q + 1 + k, (2 ^ q - 1) + (u % 2 ^ k) <<< (q + 1)) else (48 + 64, (2 ^ 48 - 1) + u <<< 48)

/-- Codes a list of residues: length in bits and the stream (R220). -/
def riceEncode : Nat → Nat → List Nat → Nat × Nat
  | _, _, [] => (0, 0)
  | a, n, r :: t =>
    let u := zigzag r
    let w := riceWord (riceK a n) u
    let st := riceNext a n u
    let rest := riceEncode st.1 st.2 t
    (w.1 + rest.1, w.2 + rest.2 <<< w.1)

/-- The number of 1 bits at the bottom of a stream, at most `m`. -/
def leadOnes : Nat → Nat → Nat
  | 0, _ => 0
  | m + 1, x => if x.testBit 0 then leadOnes m (x / 2) + 1 else 0

/-- Decodes `c` words from a stream of `len` bits: the residues and the bits used, or none when the stream ends early (R220). -/
def riceDecode : Nat → Nat → Nat → Nat → Nat → Option (List Nat × Nat)
  | 0, _, _, _, _ => some ([], 0)
  | c + 1, a, n, len, x =>
    let k := riceK a n
    let q := leadOnes 48 x
    let used := if q < 48 then q + 1 + k else 112
    if len < used then none
    else
      let u := if q < 48 then (q <<< k) + bits x (q + 1) k else bits x 48 64
      let st := riceNext a n u
      match riceDecode c st.1 st.2 (len - used) (x >>> used) with
      | some (rs, m) => some (unzigzag u :: rs, used + m)
      | none => none

/-- The first predicted byte of an original type (R218): fields of a CommandCounterRecord from byte 64, values of a CounterSampleRecord from byte 48, else after the header. -/
def firstWord (ty : Nat) : Nat := if ty = 0x30 then 64 else if ty = 0x31 then 48 else 16

/-- The history key of a record (R219). -/
def finKey (r : Rec) : List Nat :=
  if rType r = 0x30 then [rSrc r, recFld r 448 4, recFld r 452 3, recFld r 472 16, recFld r 456 10]
  else if rType r = 0x31 then [rSrc r, 0x31, recFld r 256 16, recFld r 272 16]
  else [rSrc r, rType r, rLen r]

/-- How many words of a record are predicted (R218): COUNT fields or values of a counter record, as far as the record holds them; else all that follow the header. -/
def finCount (r : Rec) : Nat :=
  let n := (128 * r.length - 8 * firstWord (rType r)) / 64
  if rType r = 0x30 then min n (recFld r 456 10) else if rType r = 0x31 then min n (recFld r 272 16) else n

/-- The predicted words of a record. -/
def finWords (r : Rec) : List Nat :=
  let b := 8 * firstWord (rType r)
  (List.range (finCount r)).map fun i => recFld r (b + 64 * i) 64

/-- The prediction of word `i` under a MODE (R219). -/
def predict (mode : Nat) (x1 x2 done : List Nat) (i : Nat) : Nat :=
  let a := x1.getD i 0
  if mode = 0 then 0
  else if mode = 1 then a
  else if mode = 2 then
    (if i = 0 then a else (a + done.getD (i - 1) 0 + 2 ^ 64 - x1.getD (i - 1) 0) % 2 ^ 64)
  else (2 * a + 2 ^ 64 - x2.getD i 0) % 2 ^ 64

/-- The residues of a record's words. -/
def residues (mode : Nat) (x1 x2 ws : List Nat) : List Nat :=
  (List.range ws.length).map fun i => (ws.getD i 0 + 2 ^ 64 - predict mode x1 x2 ws i) % 2 ^ 64

/-- The words of a list of residues. -/
def unresidue (mode : Nat) (x1 x2 rs : List Nat) : List Nat :=
  (List.range rs.length).foldl (fun ws i => ws ++ [(rs.getD i 0 + predict mode x1 x2 ws i) % 2 ^ 64]) []

/-- The history of a key in a table. -/
def histOf (h : List FinHist) (k : List Nat) : Option FinHist := h.find? fun e => e.key == k

/-- A key's history after a record. -/
def histPut (h : List FinHist) (k ws : List Nat) (reset : Bool) : List FinHist :=
  match histOf h k with
  | some e => (if reset then ⟨k, ws, [], 1, true⟩ else ⟨k, ws, e.x1, e.count + 1, true⟩) :: h.filter (fun e => e.key != k)
  | none => ⟨k, ws, [], 1, true⟩ :: h

/-- Whether a MODE may be used with a type (R219). -/
def modeFor (ty mode : Nat) : Bool := mode ≤ 1 || ty == 0x30 || ty == 0x31

/-- The shortest coding of residue lists over the allowed MODEs and all K_INIT; ties to the lower MODE, then the lower K_INIT (R221): bits, MODE, K_INIT, stream. -/
def bestCode (ty modes : Nat) (x1 x2 ws : List Nat) : Nat × Nat × Nat × Nat :=
  ((List.range 4).filter fun m => modes.testBit m && modeFor ty m).foldl (fun best m =>
    let rs := residues m x1 x2 ws
    (List.range 64).foldl (fun best k =>
      let e := riceEncode (2 ^ k) 1 rs
      if e.1 < best.1 then (e.1, m, k, e.2) else best) best) (2 ^ 40, 0, 0, 0)

/-- Codes a record against a history (R218): the FinedRecord when it is shorter, else the record; and the history after it. A record with bits behind its predicted words, which no FinedRecord could give back, stays as it is (DEDUCED, log 160). `resync`: every so many records of a key carry HIST_RESET. -/
def finEncode (modes resync : Nat) (h : List FinHist) (r : Rec) : Rec × List FinHist :=
  if rType r = 0x34 then (r, h)
  else
    let k := finKey r
    let ws := finWords r
    let old := histOf h k
    let reset := match old with | none => true | some e => resync != 0 && e.count % resync == 0
    let x1 := if reset then [] else (old.map (·.x1)).getD []
    let x2 := if reset then [] else (old.map (·.x2)).getD []
    let c := bestCode (rType r) modes x1 x2 ws
    let fw := firstWord (rType r)
    let n := 32 + (fw - 16) + (c.1 + 7) / 8
    let len := (n + 15) / 16
    let fixed := bits (joinUnits r) 128 (8 * (fw - 16))
    let f := splitUnits len (packFields [(0, 8, 0x34), (8, 4, 1), (12, 4, rFlags r), (16, 16, len), (32, 32, rSrc r), (64, 32, rSeq r), (96, 16, rPart r),
      (128, 8, rType r), (136, 4, rVersion r), (140, 2, c.2.1), (142, 1, b2n reset), (144, 6, c.2.2.1), (160, 16, rLen r), (176, 16, ws.length),
      (192, 32, c.1), (256, 8 * (fw - 16), fixed), (256 + 8 * (fw - 16), c.1, c.2.2.2)])
    let h0 := h
    let h := match old with
      | some e => if reset then ⟨k, ws, [], e.count + 1, true⟩ :: h.filter (fun e => e.key != k) else histPut h k ws false
      | none => histPut h k ws true
    if len < r.length ∧ joinUnits r / 2 ^ (8 * fw + 64 * ws.length) = 0 then (f, h) else (r, histPut h0 k ws false)

/-- The record that a FinedRecord stands for, without its coded words (R218). -/
def finedShell (f : Rec) : Rec :=
  let ty := recFld f 128 8
  let fw := firstWord ty
  splitUnits (recFld f 160 16) (packFields [(0, 8, ty), (8, 4, recFld f 136 4), (12, 4, rFlags f), (16, 16, recFld f 160 16), (32, 32, rSrc f), (64, 32, rSeq f), (96, 16, rPart f),
    (128, 8 * (fw - 16), bits (joinUnits f) 256 (8 * (fw - 16)))])

/-- The history key of a FinedRecord's original (R219). -/
def finedKey (f : Rec) : List Nat := finKey (finedShell f)

/-- Restores a FinedRecord (R218–R221): the original and the history after it; none when the stream is faulty, reaches past the record, or the key's history is incomplete. -/
def finDecode (h : List FinHist) (f : Rec) : Option (Rec × List FinHist) :=
  let ty := recFld f 128 8
  let fw := firstWord ty
  let len := recFld f 160 16
  let head := joinUnits (finedShell f)
  let k := finedKey f
  let reset := bits (joinUnits f) 142 1 == 1
  let old := histOf h k
  let ok := reset || (match old with | some e => e.valid | none => false)
  if !ok ∨ 16 * f.length < 32 + (fw - 16) + (recFld f 192 32 + 7) / 8 then none
  else
    let x1 := if reset then [] else (old.map (·.x1)).getD []
    let x2 := if reset then [] else (old.map (·.x2)).getD []
    let nb := recFld f 192 32
    match riceDecode (recFld f 176 16) (2 ^ recFld f 144 6) 1 nb (bits (joinUnits f) (256 + 8 * (fw - 16)) nb) with
    | some (rs, used) =>
      if used = nb then
        let ws := unresidue (recFld f 140 2) x1 x2 rs
        let r := splitUnits len (head + (packFields (ws.zipIdx.map fun p => (64 * p.2, 64, p.1))) <<< (8 * fw))
        some (r, histPut h k ws reset)
      else none
    | none => none

/-- Marks a key's history incomplete. -/
def histBreak (h : List FinHist) (k : List Nat) : List FinHist := h.map fun e => if e.key = k then { e with valid := false } else e

/-- Cuts bytes into records: whole records and the bytes that do not form one (R223). -/
def recordsOf : Nat → List Nat → List Rec × List Nat
  | 0, bs => ([], bs)
  | fuel + 1, bs =>
    match bs with
    | [] => ([], [])
    | _ =>
      let len := bits (bytesNat (bs.take 4)) 16 16
      if len = 0 ∨ bs.length < 16 * len then ([], bs)
      else
        let rest := recordsOf fuel (bs.drop (16 * len))
        (bytesRec (bs.take (16 * len)) :: rest.1, rest.2)

end Sys2Proof.Machine
end

