-- ==== Sys2Proof/Machine/Memory.lean ====
section
/-! DEFINITION. Tier 1 memory: layout, writes and poison, error records, patrol, fill, and the retirement of rows and banks (R22, R445–R458). -/

namespace Sys2Proof.Machine

/-- Bytes of Tier 1: 20 stacks of 48 GiB (R22). -/
abbrev t1Size : Nat := 960 * 1073741824

/-- The regions of R22 in the order of its table: name number, base and size in MiB, with the layout in force. -/
def State.regions (s : State) : List (Nat × Nat × Nat) :=
  let l := s.pw.layout
  let sizes := [l.1 * 1024, l.2.1 * 1024, 4096, 1024, 2048, 2560, 1024, l.2.2 * 1024, 4096, 16384, 256, 256]
  let r := sizes.foldl (fun (acc : Nat × List (Nat × Nat × Nat)) z => (acc.1 + z, acc.2 ++ [(acc.2.length, acc.1, z)])) (0, [])
  r.2 ++ [(12, r.1, 960 * 1024 - r.1)]

/-- Base address of a region of R22. -/
def State.regionBase (s : State) (n : Nat) : Nat := ((s.regions.find? fun r => r.1 == n).map fun r => r.2.1 * 1048576).getD 0

/-- Whether bytes lie wholly in one region of a list; the rows retired at the last cold reset are taken from the heap (R454). -/
def State.inRegion (s : State) (names : List Nat) (addr len : Nat) : Bool :=
  s.regions.any fun r => names.contains r.1 && decide (r.2.1 * 1048576 ≤ addr ∧
    addr + len ≤ (r.2.1 + r.2.2) * 1048576 - (if r.1 = 12 then 8192 * s.me.taken.length else 0))

/-- Regions of R22 that the fining engine may read: the look-back ring. The table names it as a writer of no region of Tier 1 (DEDUCED, log 122). -/
def finingReads : List Nat := [0]
/-- Regions of R22 that the management cores read: series table, audit cask, event queues, management heap. -/
def mgmtReads : List Nat := [4, 9, 10, 12]

/-- The stack of a Tier 1 block and its bank and row, in the LOCATION form of R450: the physical granules are interleaved over the 20 stacks (R177). DEDUCED (log 123): granule g lies on stack g mod 20; with no retired row in force the physical granules are the logical ones (R454). -/
def t1Location (taken : List Nat) (b : Nat) : Nat :=
  let g := if taken.isEmpty then b / 64 else Config.t1Granule taken (b / 64)
  g % 20 + 32 * (Config.t1Row g % 2 ^ 23)

/-- A part of Tier 2 that an access may reach (R183): the port has an expander, and the bytes lie in the part of it that is used. -/
def State.inTier2 (s : State) (a n : Nat) : Bool :=
  let p := a / 2 ^ 44
  decide (p < 4) && bit (s.i O.Tier2Present) p && s.pk.domOn.contains (88 + p) && decide (a % 2 ^ 44 + n ≤ s.i (O.Tier2Capacity + p) * 1073741824)

/-! ### Error records (R450) -/

/-- RFLAGS of a Tier 1 record: the row is in the map, the block in the heap, the bank redirected. -/
def State.memFlags (b loc : Nat) (s : State) : Nat :=
  b2n (s.me.map.any fun r => r % 2 ^ 28 == loc % 2 ^ 28) + 2 * b2n (s.inRegion [12] (64 * b) 64) +
    4 * b2n ((tget s.me.banks (loc % 2 ^ 15)).isSome)

/-- Forms a MemoryErrorRecord and posts it at its source; counts it; an uncorrectable or poisoned read marks LOCAL MEMORY_ERROR (R447, R450). -/
def State.memRecord (src mem kind origin unit rep symbol rflags addr loc : Nat) (s : State) : State :=
  let (st, s) := s.takeStamp .icd fnRecord
  let (r, s) := s.form .icd 0xF0 4 0 0
    [(128, 128, st), (256, 8, mem), (264, 8, kind), (272, 8, origin), (280, 8, unit), (288, 16, sat 65535 rep),
     (304, 8, symbol), (312, 8, rflags), (320, 64, addr), (384, 32, loc)]
  let s : State := if kind = 1 ∨ kind = 2 ∨ kind = 4 then { s with tw := { s.tw with local_ := setBit s.tw.local_ 1 true } } else s
  s.occur src none r

/-- An error of the Tier 1 block `b`. -/
def State.t1Error (b kind origin unit rep symbol : Nat) (s : State) : State :=
  let loc := t1Location s.me.taken b
  (s.addOb .icd O.UncorrectableCount 64 1).memRecord (0x060 + loc % 32 % 20) 0 kind origin unit rep symbol (s.memFlags b loc) (64 * b) loc

/-- A correctable event on a Tier 1 block: recorded when it is the first on its row in a CeLogInterval, else counted in REPEAT of the row's next record (R450; DEDUCED, log 182). -/
def State.t1Corrected (b origin unit symbol : Nat) (s : State) : State :=
  let loc := t1Location s.me.taken b
  let s : State := s.addOb .icd O.CorrectedCount 64 1
  match tget s.me.ceLog loc with
  | some (t, n) =>
    if s.ft .icd < t + ms (s.i O.CeLogInterval) then { s with me := { s.me with ceLog := tset s.me.ceLog loc (t, n + 1) } }
    else { s with me := { s.me with ceLog := tset s.me.ceLog loc (s.ft .icd, 0) } }.memRecord (0x060 + loc % 32 % 20) 0 0 origin unit n symbol (s.memFlags b loc) (64 * b) loc
  | none =>
    { s with me := { s.me with ceLog := tset s.me.ceLog loc (s.ft .icd, 0) } }.memRecord (0x060 + loc % 32 % 20) 0 0 origin unit 0 symbol (s.memFlags b loc) (64 * b) loc

/-- What an engine's read of `n` bytes at `a` logs: a record for each block that reads poisoned or uncorrectable, and the correctable events (R446, R447). -/
def State.t1ReadErrors (unit a n : Nat) (s : State) : State :=
  let hit := fun (b : Nat) => decide (b * 64 < a + n ∧ a < b * 64 + 64)
  let u := Config.memUnit unit % 256
  let s : State := (s.me.poison.filter hit).foldl (fun s b => s.t1Error b (if s.me.uncor.contains b then 1 else 2) 0 u 0 0xFF) s
  (s.me.ce.filter fun p => hit p.1).foldl (fun s p => s.t1Corrected p.1 0 u p.2) s

/-- A poisoned Tier 2 read completes as uncorrectable (R183, R447): recorded with KIND POISON_READ, its ADDRESS the port and page. `b`: the block, its byte address / 64. -/
def State.t2Error (unit b : Nat) (s : State) : State :=
  (s.addOb .icd O.UncorrectableCount 64 1).memRecord (0x074 + b / 2 ^ 38 % 4) 1 2 0 (Config.memUnit unit % 256) 0 0xFF 0 (b / 2 ^ 38 % 4 + b % 2 ^ 38 / 64 * 4096) 0

/-- An uncorrectable read of on-chip SRAM by an engine (R447, R450): recorded with MEMORY 2; the word address and the instance are free values. -/
def State.sramError (unit : Nat) (s : State) : State :=
  let a := s.fresh 64
  let i := a.2.fresh 16
  (i.2.addOb .icd O.UncorrectableCount 64 1).memRecord 0x079 2 1 0 (Config.memUnit unit % 256) 0 0xFF 0 a.1 i.1

/-- A write of bytes to Tier 2: a block covered whole loses its poison. -/
def State.t2Write (a : Nat) (bs : List Nat) (s : State) : State :=
  { s with gr := { s.gr with t2 := memWrite a bs s.gr.t2 },
           me := { s.me with t2poison := s.me.t2poison.filter fun b => !decide (a ≤ b * 64 ∧ b * 64 + 64 ≤ a + bs.length) } }

/-- What a reader gets of Tier 1: a read that meets a poisoned or uncorrectable block reads as all ones (R447). -/
def State.t1Read (s : State) (a n : Nat) : List Nat :=
  if s.me.poison.any fun b => decide (b * 64 < a + n ∧ a < b * 64 + 64) then List.replicate n 255 else memRead s.me.t1 a n

/-- A write of bytes to Tier 1: a block covered whole loses its error; one that reads uncorrectable and is written in part is stored as poisoned and logged with POISON_WRITE (R448). -/
def State.t1Write (unit a : Nat) (bs : List Nat) (s : State) : State :=
  let n := bs.length
  let hit := fun (b : Nat) => decide (b * 64 < a + n ∧ a < b * 64 + 64)
  let whole := fun (b : Nat) => decide (a ≤ b * 64 ∧ b * 64 + 64 ≤ a + n)
  let part := s.me.poison.filter fun b => hit b && !whole b
  let s : State := { s with me := { s.me with t1 := memWrite a bs s.me.t1, poison := s.me.poison.filter fun b => !whole b,
                                              uncor := s.me.uncor.filter fun b => !hit b, ce := s.me.ce.filter fun p => !hit p.1 } }
  part.foldl (fun s b => s.t1Error b 3 0 (Config.memUnit unit % 256) 0 0xFF) s

/-! ### Patrol (R451) -/

/-- PATROL_READ: the next block in physical order is read and what it shows is logged; nothing is written back. Patrol begins at InitDone, stops at throttle step 3, and restarts from the lowest block when the period is over; one that runs late goes on to its last block first (R451). `verdict`: 0 clean, 1 correctable at `symbol`, 2 uncorrectable. -/
def State.patrolRead (verdict symbol : Nat) (s : State) : State :=
  let total := t1Size / 64
  let due := s.me.patrolAt + s.i O.PatrolPeriod * ns 3600000000000
  if !s.pw.initDone ∨ s.i O.ThrottleStep ≥ 3 ∨ (total ≤ s.me.patrol ∧ s.ft .icd < due) then s
  else
    let s : State := if total ≤ s.me.patrol then { s with me := { s.me with patrol := 0, patrolAt := due } } else s
    let b := Config.patrolBlock s.me.taken s.me.patrol % total
    let s : State :=
      if s.me.poison.contains b then s.t1Error b (if s.me.uncor.contains b then 1 else 2) 1 0xFF 0 0xFF
      else if verdict = 2 then { s with me := { s.me with poison := b :: s.me.poison, uncor := b :: s.me.uncor } }.t1Error b 1 1 0xFF 0 0xFF
      else match tget s.me.ce b with
        | some sym => s.t1Corrected b 1 0xFF sym
        | none => if verdict = 1 then { s with me := { s.me with ce := tset s.me.ce b symbol } }.t1Corrected b 1 0xFF symbol else s
    let next := s.me.patrol + 1
    { s with me := { s.me with patrol := next } }.iSet O.PatrolProgress (next * 1000 / total)

/-- PATROL_READ. -/
def execPatrolRead (verdict symbol : Nat) : State → Host.Outcome State Fault Refusal := run (State.patrolRead verdict symbol)

/-! ### Retirement (R455, R456) -/

/-- A row enters the persisted map; one already there changes nothing; a full map refuses (R455). -/
def State.rowRetireOp (v : Nat) : Op := fun s =>
  if 20 ≤ v % 32 ∨ 6144 ≤ bits v 15 13 ∨ bits v 28 4 ≠ 0 then (s, no stRange)
  else if s.me.map.contains v then (s, ok)
  else if 8192 ≤ s.me.map.length then (s, no stBusy 3)
  else (({ s with me := { s.me with map := s.me.map ++ [v] } }.iSet O.MapEntries (s.me.map.length + 1)), ok)

/-- ROW_RETIRE. -/
def execRowRetire (q : Req) (v : Nat) : State → Host.Outcome State Fault Refusal :=
  run (State.reqWrite q O.RowRetire v (State.rowRetireOp v))

/-- A bank copy begins; refused without a spare, or while another copy of the stack runs; BankCopyStatus says which (R456). -/
def State.bankRetireOp (v : Nat) : Op := fun s =>
  let k := v % 32
  if 20 ≤ k ∨ bit v 15 then (s, no stRange)
  else if (tget s.me.copying k).isSome then (s.iSet O.BankCopyStatus 3, no stBusy)
  else if s.i (O.SparesFree + k) = 0 then (s.iSet O.BankCopyStatus 2, no stBusy 7)
  else ({ s with me := { s.me with copying := tset s.me.copying k v } }.iSet O.BankCopyStatus 1, ok)

/-- BANK_RETIRE. -/
def execBankRetire (q : Req) (v : Nat) : State → Host.Outcome State Fault Refusal :=
  run (State.reqWrite q O.BankRetire v (State.bankRetireOp v))

/-- BANK_COPY_DONE: copying is traffic of class 5, which throttle step 3 stops (R199). Blocks of the bank that read uncorrectable stand poisoned in the spare, logged with ORIGIN bank copy; every access is redirected, persistently, and the stack has one spare fewer (R456). -/
def State.bankCopyDone (stack : Nat) (s : State) : State :=
  match (if s.i O.ThrottleStep ≥ 3 then none else tget s.me.copying stack) with
  | none => s
  | some v =>
    let bad := s.me.poison.filter fun b => t1Location s.me.taken b % 2 ^ 15 == v % 2 ^ 15
    let s : State := bad.foldl (fun s b => s.t1Error b (if s.me.uncor.contains b then 1 else 2) 3 0xFF 0 0xFF) s
    let free := s.i (O.SparesFree + stack)
    let s : State := { s with me := { s.me with uncor := s.me.uncor.filter fun b => !bad.contains b,
                                                banks := tset s.me.banks v (16 - free), copying := tdel s.me.copying stack } }
    let s : State := (s.iSet (O.SparesFree + stack) (free - 1)).iSet O.BankCopyStatus (b2n (!s.me.copying.isEmpty))
    s.occur srcBank none [v]

/-- BANK_COPY_DONE. -/
def execBankCopyDone (stack : Nat) : State → Host.Outcome State Fault Refusal := run (State.bankCopyDone stack)

/-! ### Fill (R453) -/

/-- A fill begins over whole 4 KiB units of Tier 1; one fill runs at a time. -/
def State.fillOp (v : Nat) : Op := fun s =>
  let n := s.i O.FillLength
  if t1Size / 4096 < v + n then (s, no stRange)
  else if s.me.fill.isSome then (s, no stBusy)
  else ({ s with me := { s.me with fill := some (v, n, s.i O.FillPattern) } }, ok)

/-- FILL_SUBMIT. -/
def execFillSubmit (q : Req) (v : Nat) : State → Host.Outcome State Fault Refusal :=
  run (State.reqWrite q O.FillSubmit v (State.fillOp v))

/-- Bytes of a repeated 64-bit pattern. -/
def patternBytes (pat n : Nat) : List Nat := (List.range (8 * n)).map fun k => pat / 2 ^ (8 * (k % 8)) % 256

/-- FILL_DONE: the pattern stands over whole blocks, whose errors it clears, and the FillDone event carries the bytes written; class 5 does not run at throttle step 3 (R199). -/
def State.fillDone (s : State) : State :=
  match (if s.i O.ThrottleStep ≥ 3 then none else s.me.fill) with
  | none => s
  | some (a, n, pat) =>
    let lo := 4096 * a
    let hi := lo + 4096 * n
    let inside := fun (b : Nat) => decide (lo ≤ 64 * b ∧ 64 * b < hi)
    let kept := s.me.t1.filter fun c => decide (c.1 < lo ∨ hi ≤ c.1)
    let t1 := if pat = 0 then kept else memWrite lo (patternBytes pat (512 * n)) kept
    let s : State := { s with me := { s.me with t1 := t1, poison := s.me.poison.filter fun b => !inside b, uncor := s.me.uncor.filter fun b => !inside b,
                                                ce := s.me.ce.filter fun p => !inside p.1, fill := none } }
    s.occur srcFill none [4096 * n]

/-- FILL_DONE. -/
def execFillDone : State → Host.Outcome State Fault Refusal := run State.fillDone

end Sys2Proof.Machine
end

