-- ==== Sys2Proof/Machine/Time.lean ====
section
/-! DEFINITION. Fabric time, radio time, operating hours, pulses and capture (R36–R68, R162, R163, R541–R544). -/

namespace Sys2Proof.Machine

/-- A link's number in the tables of the time unit. -/
def linkNum : Link → Nat
  | .slot n => n
  | .down n => 128 + n
  | .port n => 220 + n
  | .xlink => 200
  | .chan n => 210 + n

/-- The number of a wavelength of a link, each of which carries its own TIME exchanges (R180); a die-facing channel is its only one. -/
def waveNum (l : Link) (w : Nat) : Nat := linkNum l + 1024 * w

/-- The active wavelengths of a link, in ascending order (R180). -/
def State.tagWaves (l : Link) (s : State) : List Nat :=
  match l with
  | .slot _ | .chan _ => [0]
  | .down d => match s.linkPort d with | some p => s.downWaves p d | none => []
  | .port p => s.activeWaves p (List.range (s.portWaves p))
  | .xlink => match s.portOf 2 with | some p => s.activeWaves p (List.range 8) | none => []

/-- The link of a number, where a receiver of the Icdon IX40 stands. -/
def linkOfNum (k : Nat) : Option Link :=
  if k < 64 then some (.slot k) else if 128 ≤ k ∧ k < 192 then some (.down (k - 128)) else if k = 200 then some .xlink
  else if 220 ≤ k then some (.port (k - 220)) else none

/-- FT of an FtStamp (R37). -/
abbrev stampFt (x : Nat) : Nat := bits x 0 80

/-! ### Timed actions (R28–R30, R61–R64, R541) -/

/-- Pending timed actions of a part. -/
def State.acts (sd : Side) (s : State) : List Act := match sd with | .hel => s.tm.hActs | .icd => s.tm.iActs

/-- Replaces the pending timed actions of a part and keeps ActionQueueFree. -/
def State.setActs (sd : Side) (l : List Act) (s : State) : State :=
  let s : State := match sd with
    | .hel => { s with tm := { s.tm with hActs := l } }
    | .icd => { s with tm := { s.tm with iActs := l } }
  s.setOb sd O.ActionQueueFree ((match sd with | .hel => 64 | .icd => 1024) - l.length)

/-- Marks a handle as launched at a part. -/
def State.launched (sd : Side) (h : Nat) (s : State) : State :=
  match sd with
  | .hel => { s with tm := { s.tm with hDone := h :: s.tm.hDone } }
  | .icd => { s with tm := { s.tm with iDone := h :: s.tm.iDone } }

/-- Handles launched at a part. -/
def State.done (sd : Side) (s : State) : List Nat := match sd with | .hel => s.tm.hDone | .icd => s.tm.iDone

/-- The order of R29 of an ACTION code: cut, model switch, region and group switch, pitch run, pulse, object write. -/
def actOrder (kind : Nat) : Nat :=
  if kind = 0 then 1 else if kind = 1 then 3 else if kind ≤ 3 then 4 else if kind = 4 then 5 else if kind = 5 then 6 else 7

/-- Whether action `a` launches before action `b`: earlier instant, then R29's order, then ascending handle. -/
def actBefore (a b : Act) : Bool :=
  a.at_ < b.at_ || (a.at_ == b.at_ && (actOrder a.kind < actOrder b.kind ||
    (actOrder a.kind == actOrder b.kind && a.handle ≤ b.handle)))

/-- The end of the present epoch, FT units, while an epoch pair is held (R250). -/
def State.epochEnd (s : State) : Option Nat :=
  if s.rd.has then some (ns (s.i O.EpochStartNs) + ns (max 1 s.rd.len)) else none

/-- Whether an action launches before an epoch close at `b` (R29, order 2). -/
def Act.beforeClose (a : Act) (b : Nat) : Bool := a.at_ < b || (a.at_ == b && actOrder a.kind < 2)

/-- Whether an action of the Icdon IX40 waits for an epoch close that FT has reached (R29). The Helad closes no epoch. -/
def State.closeFirst (sd : Side) (a : Act) (s : State) : Bool :=
  match sd, s.epochEnd with
  | .icd, some b => decide (b ≤ s.ft .icd) && !a.beforeClose b
  | _, _ => false

/-- Pending actions of a part whose instant FT has reached. -/
def State.reached (sd : Side) (s : State) : List Act := (s.acts sd).filter fun a => a.at_ ≤ s.ft sd

/-- The pending action of a part that launches next among those whose instant FT has reached (R28, R29). -/
def State.dueAct (sd : Side) (s : State) : Option Act :=
  (s.reached sd).find? fun a => (s.reached sd).all (actBefore a) && !s.closeFirst sd a

/-- The due action, when it satisfies a test. -/
def State.dueOf (sd : Side) (p : Act → Bool) (s : State) : Option Act :=
  match s.dueAct sd with
  | some a => if p a then some a else none
  | none => none

/-- Takes a launched action out of the queue. -/
def State.takeAct (sd : Side) (a : Act) (s : State) : State :=
  (s.setActs sd (removeFirst (fun b => b.handle == a.handle && b.kind == a.kind) (s.acts sd))).launched sd a.handle

/-- A MissedAction record (R541): sent in EVENT by a Helad, placed in the management event queue by an Icdon IX40. -/
def State.missed (sd : Side) (a : Act) (cause actual : Nat) (s : State) : State :=
  let (r, s) := s.form sd 0x26 4 0 0
    [(128, 32, a.handle), (160, 8, a.kind), (168, 8, cause), (176, 16, if a.kind = 6 then keyIdx a.key else 0),
     (192, 8, if a.kind = 6 then keySub a.key else 0), (256, 128, s.stampAt sd a.at_), (384, 128, actual)]
  match sd with
  | .hel => s.hQueue stEvent r
  | .icd => s.occur srcTime none r

/-- The domain that holds an object written at an instant, or that a pulse or a write needs awake: TIME always (R61), and the object's own (R547). -/
def State.wakeAct (a : Act) (s : State) : State :=
  match (if a.kind = 6 then heladDomain a.key else none) with
  | some d => (s.wake 1).wake d
  | none => s.wake 1

/-- Whether an action wakes a dozing Helad (R61): a pitch run, a pulse, an object write. -/
def Act.wakes (a : Act) : Bool := 4 ≤ a.kind

/-- The Helad begins waking what an action needs 4 µs before its instant, or at once when less remains (R62). -/
def State.wakeAhead (s : State) : State :=
  (s.tm.hActs.filter fun a => a.wakes && decide (a.at_ ≤ s.ft .hel + us 4)).foldl (fun s a => s.wakeAct a) s

/-- Whether the Helad is awake for an action that wakes it (R62). -/
def State.awakeFor (a : Act) (s : State) : Bool :=
  !a.wakes || (s.awake 1 && (match (if a.kind = 6 then heladDomain a.key else none) with | some d => s.awake d | none => true))

/-- Whether a launch is late (R62): the action, which needs waking, arrived less than 4 µs ahead and launches more than two HCLK cycles (81,920 FT units) after its instant. A Helad that is awake for it launches within that bound. -/
def State.launchLate (a : Act) (s : State) : Bool :=
  decide (a.at_ < a.arrived + us 4) && decide (a.at_ + 81920 < s.ft .hel)

/-- The record of a late launch, stamped at the launch (R62, R541); after a step over the instant it carries STEPPED (R47). -/
def State.lateRecord (a : Act) : State → State :=
  State.stepping a.stepped fun s =>
    let (stm, s) := s.takeStamp .hel fnRecord
    s.missed .hel a 2 stm

/-- A unit receives a timed action: after its instant it is missed (R30), with the queue full it is refused (R61), under its handle where the issuing device has assigned one (R64, R541). -/
def State.queueAct (sd : Side) (a : Act) (s : State) : State × Bool :=
  if a.at_ < s.ft sd then
    let (stm, s) := s.takeStamp sd fnRecord
    (s.missed sd a 0 stm, false)
  else if (s.acts sd).length ≥ (match sd with | .hel => 64 | .icd => 1024) then
    let (stm, s) := (s.addOb sd O.ActionRefused 32 1).takeStamp sd fnRecord
    (s.missed sd (if a.fwd || a.kind == 0 then a else { a with handle := 0 }) 1 stm, false)
  else
    let s : State := s.setActs sd (s.acts sd ++ [a])
    (match sd with | .hel => s.wakeAhead | .icd => s, true)

/-- The next handle of the Icdon IX40; cut numbers keep the handles below 2^31. DESIGN CHOICE: the spec numbers only cuts. -/
def State.newHandle (s : State) : Nat × State :=
  (2 ^ 31 + s.tm.iHandle % 2 ^ 30, { s with tm := { s.tm with iHandle := (s.tm.iHandle + 1) % 2 ^ 32 } })

/-- The next handle of the Helad, apart from those of an Icdon IX40. -/
def State.newHandleH (s : State) : Nat × State :=
  (3 * 2 ^ 30 + s.tm.hHandle % 2 ^ 30, { s with tm := { s.tm with hHandle := (s.tm.hHandle + 1) % 2 ^ 32 } })

/-- A descriptor as forwarded to the level below (R19, R190): opcode, handle in TAG, instant, argument. -/
def fwdRec (opcode handle at_ arg gid : Nat) : Rec :=
  mkRec 0x60 4 0 0 0 0 [(128, 16, opcode), (144, 1, 1), (145, 1, 1), (160, 32, handle), (192, 32, gid), (256, 80, at_), (480, 32, arg)]

/-- A timed action as forwarded to the level below with all that its holders need (R19, R384, R541): opcode, handle, instant, parameters, key and value. DESIGN CHOICE (log 143): the spec names what is forwarded and gives no layout for what the 32-bit ARG cannot hold. -/
def actRec (a : Act) : Rec :=
  mkRec 0x60 7 0 0 0 0 [(128, 16, if a.kind = 0 then 0x50 else 2), (144, 1, 1), (145, 1, 1), (160, 32, a.handle), (192, 32, a.key), (256, 80, a.at_), (480, 32, a.a),
    (512, 64, a.b), (576, 64, a.c), (640, 256, a.val)]

/-! ### The servo (R39–R46) -/

/-- The link on which the Icdon IX40 takes FT (R39): none at the Apex lead. -/
def State.masterLink (s : State) : Option Link :=
  if s.role = 3 then (if s.isLead then none else some .xlink)
  else if s.tm.pairUp then (s.upPort.map Link.port)
  else if s.isLead then none else some .xlink

/-- The configured asymmetry of a part's master link, ps (R42, R543). -/
def State.asymOf (sd : Side) (l : Link) (s : State) : Int :=
  match sd with
  | .hel => if s.h O.SpareActive = 1 then s.bd.asymSpare else s.bd.asym
  | .icd => match l with
    | .port n => s.iS 32 (O.FabricLinkAsymmetry + n)
    | .xlink => s.iS 32 (O.FabricLinkAsymmetry + (s.portOf 2).getD 0)
    | _ => 0

/-- An FT difference in units of 2^-16 ps. -/
abbrev ftPs (d : Int) : Int := d * 1000

/-- An offset of 2^-16 ps units in ps. -/
abbrev psOf (x : Int) : Int := Int.tdiv x 65536

/-- The offset and round trip of an exchange (R41), in 2^-16 ps and FT units. -/
def exchange (t1 t2 t3 t4 : Nat) (a : Int) : Int × Int :=
  let d := ((t2 : Int) - t1) - ((t4 : Int) - t3)
  ((ftPs d - a * 65536) / 2, ((t2 : Int) - t1) + ((t4 : Int) - t3))

/-- The smallest of a list of round trips. -/
def minOf : List Int → Option Int
  | [] => none
  | a :: t => some (t.foldl min a)

/-- The mean of a list of offsets. -/
def meanI (l : List Int) : Int := if l.isEmpty then 0 else l.sum / l.length

/-- Adds a completed exchange to a clock: the offset is kept unless its round trip exceeds the smallest of the last 64 by more than 2 ns. -/
def Clock.keep (c : Clock) (theta rtt : Int) : Clock :=
  let good := match minOf c.rtts with | none => true | some m => decide (rtt ≤ m + ((ns 2 : Nat) : Int))
  let kept := if good then (rtt :: c.rttKept).take 64 else c.rttKept
  { c with rtts := (rtt :: c.rtts).take 64, rttKept := kept, thetas := if good then theta :: c.thetas else c.thetas,
           rttLast := if good then meanI kept else c.rttLast }

/-- Whether a pulse generator of a part is armed, its number in the tables, and its output. -/
def pulseNum (sd : Side) (n : Nat) : Nat := match sd with | .hel => n | .icd => 16 + n

/-- Pulses of an armed periodic generator whose instants lie after `lo` and up to `hi`, from the next one due (R47). -/
def State.skippedOf (sd : Side) (n lo hi : Nat) (s : State) : Nat :=
  let c := s.ob sd (inst O.PulseControl n)
  let per := s.ob sd (inst O.PulsePeriod n)
  let st := s.ob sd (inst O.PulseStartFt n)
  let cnt := s.ob sd (inst O.PulseCount n)
  let k := tgetD s.tm.pulseK (pulseNum sd n) 0
  if bit c 3 ∧ bit c 1 ∧ 0 < per ∧ st + k * per ≤ hi then
    let first := if lo < st + k * per then k else (lo - st) / per + 1
    let last := (hi - st) / per
    let last := if cnt = 0 then last else min last (cnt - 1)
    if first ≤ last then last - first + 1 else 0
  else 0

/-- Marks the pulses skipped across a step or load from `lo` to `hi` in every generator of a part (R47); the total. -/
def State.skipPulses (sd : Side) (lo hi : Nat) (s : State) : Nat × State :=
  (List.range (match sd with | .hel => 4 | .icd => 8)).foldl (fun acc n =>
    let s : State := acc.2
    let k := s.skippedOf sd n lo hi
    if k = 0 then acc else
      let c := s.ob sd (inst O.PulseControl n)
      let c' := setBits (setBit c 4 true) 16 16 (sat 0xFFFF (bits c 16 16 + k))
      let next := tgetD s.tm.pulseK (pulseNum sd n) 0 + k
      let cnt := s.ob sd (inst O.PulseCount n)
      let over_ := cnt != 0 && decide (cnt ≤ next)
      let s : State := s.setOb sd (inst O.PulseControl n) (if over_ then setBit c' 3 false else c')
      (acc.1 + k, { s with tm := { s.tm with
        pulseK := tset s.tm.pulseK (pulseNum sd n) next, pulseOn := if over_ then s.tm.pulseOn.filter (· != pulseNum sd n) else s.tm.pulseOn } }))
    (0, s)

/-- A state change of a part's FT (R46): FtState, and a TimeStateRecord to the event queue: of a Helad, EVENT and the AO ring. -/
def State.ftChange (sd : Side) (new : Nat) (offPs : Int) (skipped : Nat) (stepped : Bool) (s : State) : State :=
  let old := s.ob sd O.FtState
  let s : State := s.setOb sd O.FtState new
  let c := s.clk sd
  let root := sd == .icd && s.apexLead
  let (r, s) := s.form sd 0x20 3 0 0
    [(128, 128, s.stampOf sd c.ft stepped), (256, 8, old), (264, 8, new), (272, 16, sat 0xFFFF skipped),
     (288, 32, if root then 0 else c.master), (320, 64, ofS 64 offPs)]
  let s : State := match sd with
    | .hel => (s.hRing 2 r).hQueue stEvent r
    | .icd => s.occur srcTime none r
  let s : State := if sd = .icd ∧ new = 0 ∧ c.wasLocked then s.priv 4 0 else s
  if new = 2 then s.setClk sd { s.clk sd with wasLocked := true } else s

/-- Moves a part's FT forward (R44, R47): a step marks the actions it passes over and the stamps owed; a load on leaving FREE does not (R544), and copies SEGMENT. The part's own timers move with FT, and an open exchange, taken before, is dropped. -/
def State.ftForward (sd : Side) (d : Nat) (step : Bool) (s : State) : Nat × State :=
  let c := s.clk sd
  let lo := c.ft
  let hi := c.ft + d
  let s : State := s.setClk sd { c with ft := hi, owed := if step then allOwed else c.owed, lastTag := c.lastTag + d, servoAt := c.servoAt + d, pend := none }
  let s : State := if step then s.setActs sd ((s.acts sd).map fun a => if lo < a.at_ ∧ a.at_ ≤ hi then { a with stepped := true } else a) else s
  let s : State := if !step then s else match sd with
    | .icd => { s with rd := { s.rd with stepTo := (lo, hi) } }
    | .hel => { s with tm := { s.tm with hStep := (lo, hi) } }
  let s : State := if !step ∨ s.ob sd O.FtSegment < c.mSeg then s.setOb sd O.FtSegment c.mSeg else s
  s.skipPulses sd lo hi

/-- A correction toward the master, within SlewLimit (R41, R45): its size is the servo's own, its sense is against the offset. -/
def slew (limitPpm : Nat) (theta rate : Int) : Int :=
  let lim : Int := (limitPpm : Int) * 1000000
  let g := clampI (-lim) lim (Config.servoGain theta rate)
  if 0 < theta then -(g.natAbs : Int) else if theta < 0 then (g.natAbs : Int) else 0

/-- A rate that one correction may reach: within SlewLimit of the rate in force (R41). -/
def slewTo (limitPpm : Nat) (from_ to_ : Int) : Int :=
  clampI (from_ - (limitPpm : Int) * 1000000) (from_ + (limitPpm : Int) * 1000000) to_

/-- Sets the rate in force, kept in RateCorrection (10^-12, 32 bits). -/
def State.setRate (sd : Side) (r : Int) (s : State) : State :=
  s.setOb sd O.RateCorrection (ofS 32 (clampI (-2 ^ 31) (2 ^ 31 - 1) r))

/-- The rate in force of a part, 10^-12. -/
def State.rateOf (sd : Side) (s : State) : Int := toS 32 (s.ob sd O.RateCorrection)

/-- The value of R543 objects at a part: both parts hold their own. -/
def State.servoParam (sd : Side) (k : Nat) (s : State) : Nat := s.ob sd k

/-- One servo update of a part from the mean offset `theta`, 2^-16 ps, node minus master (R41, R44, R45). -/
def State.servo (sd : Side) (theta : Int) (s : State) : State :=
  let st := s.ob sd O.FtState
  let off := psOf theta
  let behind : Nat := (Int.toNat (-theta)) / 1000
  let thr : Nat := s.ob sd O.LockThreshold
  let within := decide (off.natAbs ≤ thr)
  let stepThr := ns (s.ob sd O.StepForwardThreshold)
  let lim := s.ob sd O.SlewLimit
  let s : State := s.setOb sd O.MasterOffset (ofS 64 off)
  let c := s.clk sd
  if st = 0 then
    let (sk, s) := if theta < 0 then s.ftForward sd behind false else (0, s)
    let s : State := s.setClk sd { s.clk sd with good := 0 }
    let s : State := if 0 < theta then s.setRate sd (slewTo lim (s.rateOf sd) (c.lockRate + slew lim theta (s.rateOf sd))) else s
    s.ftChange sd 1 off sk false
  else if st = 1 then
    let good := if within then c.good + 1 else 0
    let s : State := s.setRate sd (slewTo lim (s.rateOf sd) (c.lockRate + slew lim theta (s.rateOf sd)))
    let s : State := s.setClk sd { s.clk sd with good := good }
    if good ≥ 16 then (s.setClk sd { s.clk sd with lockRate := s.rateOf sd, good := 0 }).ftChange sd 2 off 0 false else s
  else if st = 2 then
    if behind > stepThr then
      let (sk, s) := s.ftForward sd behind true
      (s.setClk sd { s.clk sd with good := 0 }).ftChange sd 4 off sk true
    else
      let s : State := s.setRate sd (s.rateOf sd + slew lim theta (s.rateOf sd))
      s.setClk sd { s.clk sd with lockRate := s.rateOf sd }
  else
    if st = 3 ∧ ¬ (2 ≤ c.mState ∧ c.mState ≤ 4) then s
    else if behind > stepThr then
      let (sk, s) := s.ftForward sd behind true
      (s.setClk sd { s.clk sd with good := 0 }).ftChange sd 4 off sk true
    else
      let good := if st = 4 then (if within then c.good + 1 else 0) else 0
      let s : State := s.setRate sd (slewTo lim (s.rateOf sd) (c.lockRate + slew lim theta (s.rateOf sd)))
      let s : State := s.setClk sd { s.clk sd with good := good }
      if st = 3 then s.ftChange sd 4 off 0 false
      else if good ≥ 16 then
        (s.setClk sd { s.clk sd with lockRate := s.rateOf sd, good := 0 }).ftChange sd 2 off 0 false
      else s

/-- TIME stands on a wavelength of a link only until its exchange ends: a record of it that has not left is dropped without LOSS, its flit's SEQUENCE going on (R152, R155). -/
def State.timeDrop (l : Link) (w : Nat) (s : State) : State :=
  match l with
  | .slot n =>
    let k := n * 16 + stTime
    { s with ln := { s.ln with dq := tset s.ln.dq k [], dseq := tset s.ln.dseq k ((tgetD s.ln.dseq k 0 + (s.downQ n stTime).length) % 2 ^ 28) } }
  | .chan _ =>
    { s with ln := { s.ln with q := tset s.ln.q stTime [], seq := tset s.ln.seq stTime ((tgetD s.ln.seq stTime 0 + (s.laneQ stTime).length) % 2 ^ 28) } }
  | _ =>
    let p := match l with | .down d => s.linkPort d | .port n => some n | _ => s.portOf 2
    let on := match l with | .down d => some d | _ => none
    match p with
    | some p =>
      let k := p * 8 + timeClass
      let key := flitKey p on stTime
      let q := s.portQ p timeClass
      { s with up := { s.up with q := tset s.up.q k (q.filter fun e => !(e.link == on && e.sub == w)), seq := tset s.up.seq key ((tgetD s.up.seq key 0 + (q.filter fun e => e.link == on && e.sub == w).length) % 2 ^ 28) } }
    | none => s

/-- Queues a TIME record on a wavelength of a link; what its exchange before left unsent is dropped (R155, R180). -/
def State.timeSend (l : Link) (w : Nat) (r : Rec) (s : State) : State :=
  let s : State := s.timeDrop l w
  match l with
  | .slot n => s.downSend n stTime r
  | .chan _ => s.hQueue stTime r
  | .down d => match s.linkPort d with | some p => s.timeQueue p (some d) w r | none => s
  | .port p => s.timeQueue p none w r
  | .xlink => match s.portOf 2 with | some p => s.timeQueue p none w r | none => s

/-- The stamps of a TIME record that leaves (R41, R162): a SyncTag takes T1 at the serialiser. -/
def stampOut (stm : Nat) (r : Rec) : Rec := if rType r = 0x23 then listSet r 1 stm else r

/-- A DelayReq of a part leaves: t3 of the open exchange is this instant (R41). -/
def State.delayLeaves (sd : Side) (r : Rec) (s : State) : State :=
  let c := s.clk sd
  match c.pend with
  | some (q, t1, t2, _) => if rType r = 0x24 ∧ recFld r 128 32 = q then s.setClk sd { c with pend := some (q, t1, t2, c.ft) } else s
  | none => s

/-- SYNC_TAG_SEND: every SyncInterval a SyncTag goes out on each active wavelength of a link, T1 taken as it leaves (R41, R162, R180); pair links carry it from the lead only (R21). A device whose transmitters are stopped sends none (R177, R201). -/
def State.syncTagSend (l : Link) (w : Nat) (s : State) : State :=
  let k := waveNum l w
  let now := s.ft .icd
  let due := match tget s.tm.tagAt k with | none => true | some t => decide (t + ns (s.i O.SyncInterval) ≤ now)
  let may := match l with | .slot _ => true | .down n => s.isLead && s.downLinks.contains n | .port _ => false | .xlink => s.isLead | .chan _ => false
  if due && may && (s.tagWaves l).contains w && !s.pk.dark_ then
    let d := tgetD s.tm.dreq k (0, 0)
    let (r, s) := s.form .icd 0x23 4 0 0
      [(128, 128, s.stamp .icd), (256, 128, d.1), (384, 32, d.2), (416, 8, s.i O.FtState)]
    { s with tm := { s.tm with tagAt := tset s.tm.tagAt k now } }.timeSend l w r
  else s

/-- SYNC_TAG_SEND. -/
def execSyncTagSend (l : Link) (wave : Nat) : State → Host.Outcome State Fault Refusal := run (State.syncTagSend l wave)

/-- The channel whose Tray twin leads by the present lead indications: the lower of two that both claim it (R39, R161). -/
def State.leadChannel (s : State) : Option Nat := (List.range 2).find? fun c => tgetD s.ln.chLead c 0 == 1

/-- Whether a link is the one a part takes FT from (R39, R161): a Helad's selected channel, or before it has one the channel of the lead indication. -/
def State.isMaster (sd : Side) (l : Link) (s : State) : Bool :=
  match sd, l with
  | .hel, .chan c =>
    (if s.h O.SelectedChannel = 0xFF then s.leadChannel == some c else s.h O.SelectedChannel == c) &&
      (match s.ln.timeHold with | some t => decide (t ≤ s.ft .hel) | none => true)
  | .icd, _ => s.masterLink == some l
  | _, _ => false

/-- A part's master changes (R44): what was measured against the old one is dropped, and LOCKED and RELOCK go to HOLDOVER at once, at the rate last corrected in LOCKED. -/
def State.masterMoved (sd : Side) (s : State) : State :=
  let c := s.clk sd
  let st := s.ob sd O.FtState
  let s : State := s.setClk sd { c with rtts := [], rttKept := [], thetas := [], pend := none, good := 0 }
  if st = 2 ∨ st = 4 then (s.setRate sd c.lockRate).ftChange sd 3 0 0 false else s

/-- Carries out what may move the Icdon IX40's master link: to another master it goes by R44; the root has none. -/
def State.keepMaster (f : State → State) (s : State) : State :=
  let t := f s
  if t.masterLink.isSome && t.masterLink != s.masterLink && s.tm.ic.master != 0 then t.masterMoved .icd else t

/-- Whether a part answers SyncTags of a link with DelayReqs: not a Helad in its sync wake-up (R163), nor a twin on a pair link that it keeps dark (R21; DEDUCED, log 103). -/
def State.mayAnswer (sd : Side) (l : Link) (s : State) : Bool :=
  match sd, l with
  | .hel, _ => s.bd.syncLeft == 0 || s.h O.LaneState == 2
  | .icd, .port _ => s.isLead
  | .icd, _ => true

/-- SYNC_TAG: the previous exchange completes with the tag's T4, and a DelayReq answers it; a part whose transmitter is dark forms a one-way exchange (R41, R162, R163). A change of master takes LOCKED and RELOCK to HOLDOVER at once (R44). The servo uses the exchanges of the link's lowest-numbered active wavelength; a tag of another is answered on it (R180). -/
def State.syncTag (sd : Side) (l : Link) (w : Nat) (r : Rec) (s : State) : State :=
  if !s.isMaster sd l || (sd == .hel && s.bd.hmainReset) then s
  else if (s.tagWaves l).head? != some w then
    if !s.mayAnswer sd l || !(s.tagWaves l).contains w then s
    else
      let q := ((s.clk sd).reqSeq + 1) % 2 ^ 32
      let (d, s) := (s.setClk sd { s.clk sd with reqSeq := q }).form sd 0x24 2 0 0 [(128, 32, q)]
      s.timeSend l w d
  else
    let c := s.clk sd
    let now := c.ft
    let t1s := recFld r 128 128
    let src := rSrc r
    let changed := c.master != 0 && c.master != src
    let s : State := s.setClk sd { c with master := src, lastTag := now, mHold := bit t1s 80, mState := recFld r 416 8, mSeg := bits t1s 88 16 }
    let s : State := if changed then s.masterMoved sd else s
    let a := s.asymOf sd l
    let c := s.clk sd
    if !s.mayAnswer sd l then
      let dDown := (ftPs c.rttLast + a * 65536) / 2
      let theta := ftPs ((now : Int) - (stampFt t1s : Int)) - dDown
      let s : State := s.setClk sd { c with thetas := theta :: c.thetas, pend := none }
      match sd with
      | .hel => { s with bd := { s.bd with syncLeft := if 1 < s.bd.syncLeft then s.bd.syncLeft - 1 else s.bd.syncLeft } }
      | .icd => s
    else
      let c := match c.pend with
        | some (q, t1, t2, t3) =>
          if q = recFld r 384 32 then
            let e := exchange t1 t2 t3 (stampFt (recFld r 256 128)) a
            c.keep e.1 e.2
          else c
        | none => c
      let q := (c.reqSeq + 1) % 2 ^ 32
      let done : Bool := match (s.clk sd).pend with | some p => p.1 == recFld r 384 32 | none => false
      let s : State := s.setClk sd { c with pend := some (q, stampFt t1s, now, now), reqSeq := q }
      let s : State := match sd with
        | .hel => if done && decide (1 < s.bd.syncLeft) then { s with bd := { s.bd with syncLeft := s.bd.syncLeft - 1 } } else s
        | .icd => s
      let (d, s) := s.form sd 0x24 2 0 0 [(128, 32, q)]
      s.timeSend l w d

/-- SYNC_TAG. -/
def execSyncTag (u : Side) (l : Link) (wave : Nat) (r : Rec) : State → Host.Outcome State Fault Refusal := run (State.syncTag u l wave r)

/-- DELAY_REQ: the master keeps the receive instant and REQ_SEQ for its next SyncTag on the wavelength, and owes an anchor for it (R162, R180, R251). -/
def State.delayReq (l : Link) (w : Nat) (r : Rec) (s : State) : State :=
  let (stm, s) := s.takeStamp .icd fnReq
  { s with tm := { s.tm with dreq := tset s.tm.dreq (waveNum l w) (stm, recFld r 128 32)
                             dreqNew := linkNum l :: s.tm.dreqNew.filter (· != linkNum l) } }

/-- DELAY_REQ. -/
def execDelayReq (l : Link) (wave : Nat) (r : Rec) : State → Host.Outcome State Fault Refusal := run (State.delayReq l wave r)

/-- SERVO_UPDATE: every 1 ms the exchanges kept are averaged and the rate corrected (R41, R44); with none kept nothing is corrected. The root is not steered (R39). -/
def State.servoUpdate (sd : Side) (s : State) : State :=
  let c := s.clk sd
  if c.ft < c.servoAt + ms 1 then s
  else if sd = .icd ∧ s.apexLead then s
  else
    let s : State := s.setClk sd { c with servoAt := c.ft, thetas := [] }
    let s : State := match sd with
      | .hel => { s with bd := { s.bd with syncLeft := if s.bd.syncLeft = 1 then 0 else s.bd.syncLeft } }
      | .icd => s
    if c.thetas.isEmpty then s else s.servo sd (meanI c.thetas)

/-- SERVO_UPDATE. -/
def execServoUpdate (u : Side) : State → Host.Outcome State Fault Refusal := run (State.servoUpdate u)

/-- HOLDOVER_TIMEOUT: LOCKED and RELOCK enter HOLDOVER at the rate last corrected in LOCKED, ACQUIRE enters FREE at the last rate (R44); a dozing Helad only after it has missed its sync wake-up, the time of which counts from the wake (R50). -/
def State.holdoverTimeout (sd : Side) (s : State) : State :=
  let c := s.clk sd
  let st := s.ob sd O.FtState
  let lim := us (s.ob sd O.HoldoverTimeout) + (if sd = .hel ∧ s.dozing then ms (s.h O.DozeSyncLimit) else 0)
  let since := if sd = .hel ∧ !s.dozing then max c.lastTag (tgetD s.bd.wakeAt 1 0) else c.lastTag
  if c.ft < since + lim ∨ (sd = .icd ∧ s.apexLead) then s
  else if st = 2 ∨ st = 4 then
    ((s.setRate sd c.lockRate).setClk sd { c with good := 0, thetas := [], pend := none }).ftChange sd 3 0 0 false
  else if st = 1 then (s.setClk sd { c with good := 0, thetas := [], pend := none }).ftChange sd 0 0 0 false
  else s

/-- HOLDOVER_TIMEOUT. -/
def execHoldoverTimeout (u : Side) : State → Host.Outcome State Fault Refusal := run (State.holdoverTimeout u)

/-- ROOT_FT_START (R40): FT starts at the largest of FtStartValue, persisted FT plus 1 s, collected FT plus 1 ms; with persisted FT, SEGMENT is one more; the root is LOCKED. -/
def State.rootFtStart (collected : List Nat) (s : State) : State :=
  if s.role = 3 ∧ !s.tm.rootOn then
    let a := ns (s.i O.FtStartValue)
    let b := match s.tm.savedFt with | some p => p.1 + ns 1000000000 | none => 0
    let c := collected.foldl (fun m x => max m (x + ms 1)) 0
    let start := max s.tm.ic.ft (max a (max b c))
    let seg := match s.tm.savedFt with | some p => (p.2 + 1) % 2 ^ 16 | none => s.i O.FtSegment
    let s : State := { s with tm := { s.tm with rootOn := true, ic := { s.tm.ic with ft := start, mHold := false } } }
    (s.iSet O.FtSegment seg).ftChange .icd 2 0 0 false
  else s

/-- ROOT_FT_PERSIST: once a second the root persists FT and SEGMENT to MRAM (R40, R195). -/
def State.rootFtPersist (s : State) : State :=
  if s.apexLead ∧ (s.tm.savedFt = none ∨ s.tm.savedAt + ns 1000000000 ≤ s.ft .icd) then
    { s with tm := { s.tm with savedFt := some (s.ft .icd, s.i O.FtSegment), savedAt := s.ft .icd } }
  else s

/-- ROOT_FT_PERSIST. -/
def execRootFtPersist : State → Host.Outcome State Fault Refusal := run State.rootFtPersist

/-- OH_SECOND_TICK: OH counts whole seconds in 40 bits; the Icdon IX40 persists its own (R60). -/
def State.ohSecondTick (sd : Side) (s : State) : State :=
  if sd = .hel ∧ s.bd.haoReset then s
  else
  let s : State := s.setOb sd O.OhSeconds ((s.ob sd O.OhSeconds + 1) % 2 ^ 40)
  match sd with
  | .hel => s
  | .icd => { s with tm := { s.tm with savedOh := (s.i O.OhSeconds, s.i O.PowerCycles) } }

/-- OH_SECOND_TICK. -/
def execOhSecondTick (u : Side) : State → Host.Outcome State Fault Refusal := run (State.ohSecondTick u)

/-- DOZE_SYNC_WAKE: after DozeSyncLimit without an exchange, or at once when the lane has not trained since a reset (R166), TIME and the receive side of LANE wake for ten one-way exchanges and a servo update (R50, R163). -/
def State.dozeSyncWake (s : State) : State :=
  if s.dozing ∧ !s.bd.hmainReset ∧ !s.bd.haoReset ∧ s.bd.syncLeft = 0 ∧ (s.h O.LaneState = 0 ∨ s.tm.hc.lastTag + ms (s.h O.DozeSyncLimit) ≤ s.ft .hel) then
    let s : State := (s.wake 1).wake 4
    { s with bd := { s.bd with syncLeft := 11 } }
  else s

/-- DOZE_SYNC_WAKE. -/
def execDozeSyncWake : State → Host.Outcome State Fault Refusal := run State.dozeSyncWake

/-! ### Radio time (R52–R58, R94) -/

/-- One radio frame of 10 ms in FT units. -/
abbrev frameFt : Nat := ms 10

/-- FT of slot `k` of a frame that starts at FT `f`, numerology μ (R53). -/
abbrev slotFt (f mu k : Nat) : Nat := f + k * (ms 1 / 2 ^ mu)

/-- The frame period by which frames follow the last named pulse: nominal, in RT_HOLDOVER the last measured one (R54, R55). -/
def State.framePer (s : State) : Nat := if s.h O.RtState = 2 ∧ s.tm.rt.period ≠ 0 then s.tm.rt.period else frameFt

/-- RtWord of an FT (R53): the frame and slot counted from the last pulse whose frame RT_TOD named. -/
def State.rtWord (t : Nat) (s : State) : Nat :=
  let rt := s.tm.rt
  let mu := s.h O.RtReportMu
  let st := s.h O.RtState
  match rt.named with
  | none => packFields [(47, 2, mu), (51, 1, 1)]
  | some p =>
    let per := s.framePer
    let n := (t - p) / per
    let inF := (t - p) - n * per
    let fr := rt.sfn + n
    let slotLen := ms 1 / 2 ^ mu
    let k := min (inF / slotLen) (10 * 2 ^ mu - 1)
    packFields [(0, 20, min ((inF - k * slotLen) / 65536) (1000000 / 2 ^ mu - 1)), (20, 3, k % 2 ^ mu), (23, 4, k / 2 ^ mu), (27, 10, fr % 1024),
      (37, 10, (rt.hfn + fr / 1024) % 1024), (47, 2, mu), (49, 1, b2n rt.traceable), (50, 1, b2n (st == 2)), (51, 1, b2n (st == 0 || st == 3))]

/-- Frames between the last named pulse and an FT, to the nearest. -/
def State.framesTo (t : Nat) (s : State) : Nat :=
  match s.tm.rt.named with | some p => (t - p + s.framePer / 2) / s.framePer | none => 0

/-- RT_PULSE: FT is captured; a pulse more than 1 µs from the instant that the last named frame predicts is a discontinuity (R54). -/
def State.rtPulse (s : State) : State :=
  if s.bd.haoReset then s
  else
  let (stm, s) := s.takeStamp .hel fnPulse
  let rt := s.tm.rt
  let now := s.ft .hel
  let jumped := match rt.named with
    | some p =>
      let due := p + s.framesTo now * s.framePer
      decide (now > due + us 1 ∨ now + us 1 < due) || s.framesTo now == 0
    | none => false
  let per := match rt.pulse with | some p => now - p | none => rt.period
  { s with tm := { s.tm with rt := { rt with prev := rt.pulse, pulse := some now, stamp := stm, fresh := true, jumped := jumped, period := if rt.pulse.isSome && decide (per ≤ frameFt + us 100) then per else rt.period, sinceMap := rt.sinceMap + 1 } } }

/-- RT_PULSE. -/
def execRtPulse : State → Host.Outcome State Fault Refusal := run State.rtPulse

/-- RT_TOD_SAMPLE: 100 ns after the edge, names the frame of the last pulse, moves RtState and emits an RtMapRecord every 100 frames and at a discontinuity, which is judged from the last named frame also after missing pulses (R54, R55, R94); VALID 0 counts as a missing pulse. DESIGN CHOICE (log 163): the deviation is that of the whole pulse-to-pulse interval also where pulses were missed, and every 100 frames is counted in pulses received. -/
def State.rtTodSample (tod : Nat) (s : State) : State :=
  let rt := s.tm.rt
  let at_ := rt.pulse.getD 0
  if !rt.fresh ∨ s.ft .hel < at_ + ns 100 then s
  else if !bit tod 21 then
    { s with tm := { s.tm with rt := { rt with fresh := false, pulse := rt.prev, run := 0 } } }
  else
    let sfn := bits tod 0 10
    let k := s.framesTo at_
    let disc := rt.named.isSome && (rt.jumped || sfn != (rt.sfn + k) % 1024)
    let runNow := if disc || k != 1 then 1 else rt.run + 1
    let st := s.h O.RtState
    let emit := disc || rt.sinceMap ≥ 100
    let dev : Int := match rt.prev, rt.pulse with
      | some a, some b => psOf (ftPs (((b : Int) - a) - (frameFt : Nat)))
      | _, _ => 0
    let s : State := { s with tm := { s.tm with rt := { rt with fresh := false, named := some at_, sfn := sfn, hfn := bits tod 10 10, traceable := bit tod 20, run := runNow, sinceMap := if emit then 0 else rt.sinceMap } } }
    let s : State := if st ≠ 1 ∧ runNow ≥ 2 then s.hSet O.RtState 1 else s
    if emit then
      let (r, s) := s.form .hel 0x21 3 (b2n disc) 0
        [(128, 128, rt.stamp), (256, 64, s.rtWord at_), (320, 32, ofS 32 dev)]
      s.hQueue stCounter r
    else s

/-- RT_TOD_SAMPLE. -/
def execRtTodSample (tod : Nat) : State → Host.Outcome State Fault Refusal := run (State.rtTodSample tod)

/-- RT_PULSE_TIMEOUT: TRACKING without a pulse within 10 ms + 1 µs becomes RT_HOLDOVER (R55). -/
def State.rtPulseTimeout (s : State) : State :=
  match s.tm.rt.pulse with
  | some p =>
    if s.h O.RtState = 1 ∧ p + frameFt + us 1 < s.ft .hel then
      { (s.hSet O.RtState 2) with tm := { s.tm with rt := { s.tm.rt with holdFrom := s.ft .hel, run := 0 } } }
    else s
  | none => s

/-- RT_PULSE_TIMEOUT. -/
def execRtPulseTimeout : State → Host.Outcome State Fault Refusal := run State.rtPulseTimeout

/-- RT_HOLDOVER_LIMIT: RT_HOLDOVER longer than RtHoldoverLimit frames becomes RT_LOST (R55). -/
def State.rtHoldoverLimit (s : State) : State :=
  if s.h O.RtState = 2 ∧ s.tm.rt.holdFrom + s.h O.RtHoldoverLimit * frameFt < s.ft .hel then s.hSet O.RtState 3 else s

/-- RT_HOLDOVER_LIMIT. -/
def execRtHoldoverLimit : State → Host.Outcome State Fault Refusal := run State.rtHoldoverLimit

/-- Whether any guard window is enabled (R56). -/
def State.guardAny (s : State) : Bool := (List.range 8).any fun n => s.h (inst O.GuardEnable n) == 1

/-- The intervals of the guard windows in the five frames around an FT, frames of a period after the last named pulse (R56): FT of start and end. A window that opens late in one frame may reach into the second after it. -/
def State.windowsAt (per t : Nat) (s : State) : List (Int × Int) :=
  match s.tm.rt.named with
  | none => []
  | some p =>
    let f0 : Int := (p : Int) + (((t : Int) - p) / per - 2) * per
    (List.range 8).flatMap fun n =>
      if s.h (inst O.GuardEnable n) = 1 then
        let mu := s.h (inst O.GuardMu n)
        let mask := s.h (inst O.GuardSlotMask n)
        let off : Int := toS 32 (s.h (inst O.GuardStartOffset n)) * 65536
        let len : Int := ((ns (s.h (inst O.GuardLength n)) : Nat) : Int)
        (List.range 5).flatMap fun (j : Nat) =>
          (setBitsOf (10 * 2 ^ mu) mask).map fun (k : Nat) =>
            let a := f0 + (j : Int) * per + ((k * (ms 1 / 2 ^ mu) : Nat) : Int) + off
            (a, a + len)
      else []

/-- The guard intervals around an FT, widened at both ends in RT_HOLDOVER (R56, R58). -/
def State.guardIntervals (t : Nat) (s : State) : List (Int × Int) :=
  let margin : Int := if s.h O.RtState = 2 then ((ns (s.h O.RtHoldoverMargin) : Nat) : Int) else 0
  (s.windowsAt s.framePer t).map fun w => (w.1 - margin, w.2 + margin)

/-- Whether an FT lies inside the guard region (R56, R58). -/
def State.inGuard (t : Nat) (s : State) : Bool :=
  s.guardAny &&
    (s.h O.RtState == 0 || s.h O.RtState == 3 ||
      (s.guardIntervals t).any fun w => decide (w.1 ≤ (t : Int) ∧ (t : Int) < w.2))

/-- Whether an FT lies between a window's start minus ReadDrain and its end (R57). -/
def State.inDrain (t : Nat) (s : State) : Bool :=
  s.guardAny &&
    (s.h O.RtState == 0 || s.h O.RtState == 3 ||
      (s.guardIntervals t).any fun w => decide (w.1 - ((ns (s.h O.ReadDrain) : Nat) : Int) ≤ (t : Int) ∧ (t : Int) < w.2))

/-- Whether work of a duration starting now ends before the next window start minus ReadDrain, outside the guard region (R31, R57). -/
def State.guardFits (dur : Nat) (s : State) : Bool :=
  let t := s.ft .hel
  !s.guardAny ||
    (!s.inGuard t && (s.guardIntervals t).all fun w =>
      decide (w.1 < (t : Int) ∨ (t : Int) + dur < w.1 - ((ns (s.h O.ReadDrain) : Nat) : Int)))

/-- GUARD_DRAIN_START: no new host read-port request from window start minus ReadDrain (R57). -/
def State.guardDrainStart (s : State) : State :=
  if s.inDrain (s.ft .hel) then { s with tm := { s.tm with guardHold := true } } else s

/-- GUARD_DRAIN_START. -/
def execGuardDrainStart : State → Host.Outcome State Fault Refusal := run State.guardDrainStart

/-! ### UT (R59) -/

/-- UT of an FT in ns (R59): TAI minus leap seconds. -/
def State.utcOf (ftNs : Nat) (s : State) : Int :=
  let tai : Int := (ftNs : Int) + s.iS 64 O.UtOffset +
    s.iS 32 O.UtRate * ((ftNs : Int) - ((s.tm.utRef / 65536 : Nat) : Int)) / 1000000000000
  tai - s.iS 16 O.LeapSeconds * 1000000000

/-! ### Timed actions -/

/-- The queue entry of a received action. -/
def actOfIn (a : ActionIn) (now : Nat) : Act := ⟨a.handle, a.kind, a.at_, a.a, a.b, a.c, a.key, a.val, true, false, now⟩

/-! ### Pulses and capture (R65–R67) -/

/-- Whether another armed generator of a part drives an output. -/
def State.outputTaken (sd : Side) (n out : Nat) (s : State) : Bool :=
  (List.range (match sd with | .hel => 4 | .icd => 8)).any fun m =>
    m != n && bit (s.ob sd (inst O.PulseControl m)) 3 && bits (s.ob sd (inst O.PulseControl m)) 8 3 == out

/-- A write of PulseControl (R65): RW fields stored, W1C fields cleared by 1; ENABLE arms at StartFt, or sets LATE or BAD_PARAM. The start is a timed action (R61). DESIGN CHOICE (log 104): Width counts nanoseconds; a write with ENABLE 1 to a generator that is armed or emitting leaves it so, unless its output would conflict. -/
def State.pulseArmOp (sd : Side) (n v : Nat) : Op := fun s =>
  let k := inst O.PulseControl n
  let old := s.ob sd k
  let per := s.ob sd (inst O.PulsePeriod n)
  let wid := ns (s.ob sd (inst O.PulseWidth n))
  let st := s.ob sd (inst O.PulseStartFt n)
  let outN := bits v 8 3
  let outs := match sd with | .hel => 4 | .icd => 8
  let gens := match sd with | .hel => 4 | .icd => 8
  let keep := packFields [(0, 3, v), (3, 1, b2n (bit old 3)), (4, 1, b2n (bit old 4 && !bit v 4)), (5, 1, b2n (bit old 5 && !bit v 5)),
    (6, 1, b2n (bit old 6 && !bit v 6)), (8, 3, outN), (16, 16, bits old 16 16)]
  if n ≥ gens then (s, no stNoObject)
  else if bit v 7 ∨ bits v 11 5 ≠ 0 then (s, no stRange)
  else if !bit v 0 then
    let s : State := s.setOb sd k (setBit keep 3 false)
    let s : State := s.setActs sd ((s.acts sd).filter fun a => !(a.kind == 5 && a.a == n))
    ({ s with tm := { s.tm with pulseOn := s.tm.pulseOn.filter (· != pulseNum sd n) } }, ok)
  else
    let badPer := decide (per < us 1) || decide (per < wid + ns 20)
    let badWid := decide (wid < ns 20)
    let conflict := decide (outN ≥ outs) || s.outputTaken sd n outN
    if bit old 3 then (s.setOb sd k (if conflict then setBit old 6 true else keep), ok)
    else if conflict ∨ badPer ∨ badWid then (s.setOb sd k (setBit (setBit keep 6 true) 3 false), ok)
    else if st < s.ft sd then (s.setOb sd k (setBit (setBit keep 5 true) 3 false), ok)
    else
      let (h, s) := match sd with | .hel => s.newHandleH | .icd => s.newHandle
      let p := s.queueAct sd ⟨h, 5, st, n, 0, 0, 0, 0, false, false, s.ft sd⟩
      let s : State := p.1
      if p.2 then
        let s : State := s.setOb sd k (setBit keep 3 true)
        ({ s with tm := { s.tm with pulseK := tset s.tm.pulseK (pulseNum sd n) 0, pulseOn := s.tm.pulseOn.filter (· != pulseNum sd n) } }, okH h)
      else (s.setOb sd k (setBit keep 3 false), no stQueueFull)

/-- PULSE_ARM. -/
def execPulseArm (q : Req) (u : Side) (n v : Nat) : State → Host.Outcome State Fault Refusal :=
  run (match u with
    | .hel => State.proxyWrite q (inst O.PulseControl n) v (State.pulseArmOp .hel n v)
    | .icd => State.reqWrite q (inst O.PulseControl n) v (State.pulseArmOp .icd n v))

/-- Pin numbers of the pulse outputs: TPULSE of the Helad, MOD_TPULSE of the module. -/
def pulsePin (sd : Side) (o : Nat) : Nat := match sd with | .hel => 0x100 + o | .icd => 0x110 + o

/-- Emits pulse `k` of a generator: the output's leading edge, its width and polarity; ARMED clears when Count is reached. -/
def State.emitPulse (sd : Side) (n k : Nat) (s : State) : State :=
  let c := s.ob sd (inst O.PulseControl n)
  let cnt := s.ob sd (inst O.PulseCount n)
  let s : State := s.put .pin (pulsePin sd (bits c 8 3)) [s.ft sd, s.ob sd (inst O.PulseWidth n), b2n (bit c 2)]
  let s : State := { s with tm := { s.tm with pulseK := tset s.tm.pulseK (pulseNum sd n) (k + 1) } }
  if !bit c 1 || (cnt != 0 && decide (cnt ≤ k + 1)) then
    let s : State := s.setOb sd (inst O.PulseControl n) (setBit c 3 false)
    { s with tm := { s.tm with pulseOn := s.tm.pulseOn.filter (· != pulseNum sd n) } }
  else s

/-- PULSE_EDGE: pulse k of a started periodic generator at StartFt + k × Period, k below Count (R66). -/
def State.pulseEdge (sd : Side) (n : Nat) (s : State) : State :=
  let k := tgetD s.tm.pulseK (pulseNum sd n) 0
  let cnt := s.ob sd (inst O.PulseCount n)
  if (cnt = 0 ∨ k < cnt) ∧ s.tm.pulseOn.contains (pulseNum sd n) ∧ s.ob sd (inst O.PulseStartFt n) + k * s.ob sd (inst O.PulsePeriod n) ≤ s.ft sd then
    s.emitPulse sd n k
  else s

/-- PULSE_EDGE. -/
def execPulseEdge (u : Side) (n : Nat) : State → Host.Outcome State Fault Refusal := run (State.pulseEdge u n)

/-- CAPTURE_EDGE: a selected edge of an enabled input makes a TimeCaptureRecord, at most one per microsecond; further edges count OVERRUN (R67). -/
def State.captureEdge (sd : Side) (n : Nat) (rising : Bool) (s : State) : State :=
  let en := s.ob sd (O.CaptureEnable + n)
  if !(en == 3 || (en == 1 && rising) || (en == 2 && !rising)) then s
  else
    let j := pulseNum sd n
    let c := tgetD s.tm.caps j ⟨none, 0⟩
    let now := s.ft sd
    let soon := match c.last with | some t => decide (now < t + us 1) | none => false
    if soon then { s with tm := { s.tm with caps := tset s.tm.caps j { c with overrun := sat 0xFFFF (c.overrun + 1) } } }
    else
      let (stm, s) := s.takeStamp sd fnCapture
      let (r, s) := s.form sd 0x22 3 0 0 [(128, 128, stm), (256, 8, n), (264, 8, b2n rising), (272, 16, c.overrun)]
      let s : State := { s with tm := { s.tm with caps := tset s.tm.caps j ⟨some now, 0⟩ } }
      match sd with
      | .hel => s.hQueue stCounter r
      | .icd => s.occur srcTime none r

end Sys2Proof.Machine
end

