-- ==== Sys2Proof/Machine/Counters.lean ====
section
/-! DEFINITION. Counters, command latching, samples and coarsening (R77–R81, R101–R119, R548). -/

namespace Sys2Proof.Machine

/-- Key of a counter's CounterConfig. -/
abbrev ccfg (n : Nat) : Nat := inst128 O.CounterConfig n
/-- Key of a counter's CounterValue. -/
abbrev cval (n : Nat) : Nat := inst128 O.CounterValue n

/-- The number of the counter whose CounterConfig has a key. -/
def counterOfKey (k : Nat) : Option Nat :=
  if 0x3000 ≤ keyIdx k ∧ keyIdx k ≤ 0x301F ∧ 1 ≤ keySub k ∧ keySub k ≤ 0x80 then some ((keyIdx k - 0x3000) * 128 + keySub k - 1) else none

/-- Counters whose configuration differs from reset, ascending; an enabled counter is one of them. -/
def State.counters (s : State) : List Nat := s.hd.filterMap fun p => counterOfKey p.1

/-- Fields of CounterConfig (R101). -/
abbrev ccPort (c : Nat) : Nat := bits c 0 8
/-- MODE. -/
abbrev ccMode (c : Nat) : Nat := bits c 16 2
/-- ENABLE. -/
abbrev ccEnable (c : Nat) : Bool := bit c 32
/-- SAMPLE. -/
abbrev ccSample (c : Nat) : Bool := bit c 33

/-- The value a clear gives a counter (R104). -/
def clearedOf (c : Nat) : Nat := if ccMode c = 2 ∧ bit c 19 then 0x8000000000000000 else 0

/-- The histogram bucket of an increment (R102). -/
def bucketOf (v : Nat) : Nat := if v = 0 then 0 else Nat.log2 v + 1

/-- The larger of two counter values: signed or unsigned (R102). -/
def maxVal (signed : Bool) (a b : Nat) : Nat :=
  if signed then (if toS 64 a < toS 64 b then b else a) else max a b

/-- A tap as a 64-bit operand of maximum mode. -/
def tapOperand (c inc : Nat) : Nat := if bit c 19 then ofS 64 (toS 32 inc) else inc

/-- Whether a tap matches a counter (R102). -/
def tapMatches (c port tag evt : Nat) : Bool :=
  ccEnable c && ccPort c == port && (bits c 8 8 == 0 || (evt &&& bits c 8 8) != 0) && (!bit c 18 || bits c 20 4 == tag)

/-- A counter's value after a matching tap, by mode (R102, R105). -/
def countTap (c v inc : Nat) : Nat :=
  if ccMode c = 0 then (v + 1) % 2 ^ 64
  else if ccMode c = 1 then (v + inc) % 2 ^ 64
  else if ccMode c = 2 then maxVal (bit c 19) v (tapOperand c inc)
  else if bucketOf inc = bits c 24 6 then (v + 1) % 2 ^ 64 else v

/-- Replaces the stored values of counter `n` in a command by a function of each. -/
def OpenCmd.mapStored (o : OpenCmd) (n : Nat) (f : Nat → Nat) : OpenCmd :=
  { o with stored := (o.members.zip o.stored).map fun p => if p.1 = n then f p.2 else p.2 }

/-- Running maxima of open commands take a tap of a maximum counter (R108). -/
def State.tapOpens (n c inc : Nat) (s : State) : State :=
  if ccMode c = 2 then
    { s with ct := { s.ct with opens := s.ct.opens.map fun o => o.mapStored n fun v => maxVal (bit c 19) v (tapOperand c inc) } }
  else s

/-- One counter takes a matching tap. -/
def State.tapCounter (n inc : Nat) (s : State) : State :=
  let c := s.h (ccfg n)
  (s.hSet (cval n) (countTap c (s.h (cval n)) inc)).tapOpens n c inc

/-- Whether a port is declared (R79). -/
def State.wired (s : State) (port : Nat) : Bool := bit (s.h O.TapWired) port

/-- Groups with a declared port. -/
def State.wiredGroups (s : State) : Nat :=
  ((List.range 16).map fun g => if bits (s.h O.TapWired) (16 * g) 16 = 0 then 0 else 2 ^ g).sum

/-- Marks open commands whose set holds a counter that satisfies a test. -/
def State.flagOpens (flag : Nat) (p : Nat → Bool) (s : State) : State :=
  { s with ct := { s.ct with opens := s.ct.opens.map fun o => if o.members.any p then { o with flags := setBit o.flags flag true } else o } }

/-- A tap at the boundary (R77–R79, R102): ignored on an undeclared port; not counted with TapEarly while COUNT does not accept; discarded with TapOverflow when the FIFO is full; else every matching counter takes it. Answers whether it was counted. -/
def State.tap (port inc tag evt : Nat) (s : State) : State × Bool :=
  if !s.wired port || s.bd.haoReset then (s, false)
  else if !s.awake 2 then
    let s : State := s.hSet O.TapEarly (setBit (s.h O.TapEarly) (port / 16) true)
    let s : State := { s with ct := { s.ct with early := tset s.ct.early (port / 16) [] } }
    (s.flagOpens 1 fun n => ccPort (s.h (ccfg n)) / 16 == port / 16, false)
  else if tgetD s.ct.fifo port 0 ≥ 32 then
    let s : State := s.hSet O.TapOverflow (setBit (s.h O.TapOverflow) port true)
    (s.flagOpens 0 fun n => ccPort (s.h (ccfg n)) == port, false)
  else
    let s : State := { s with ct := { s.ct with fifo := tset s.ct.fifo port (tgetD s.ct.fifo port 0 + 1) } }
    ((s.counters.filter fun n => tapMatches (s.h (ccfg n)) port tag evt).foldl (fun s n => s.tapCounter n inc) s, true)

/-! ### Sets and commands -/

/-- The staged list of a set (R106): four 12-bit numbers per SetMembers object. -/
def State.stagedSet (s : State) (k : Nat) : List Nat :=
  (List.range (s.h (inst O.SetSize k))).map fun i => bits (s.h (inst O.SetMembers k + i / 4)) (12 * (i % 4)) 12

/-- Latch-store slots in use (R109). -/
def State.slotsUsed (s : State) : Nat := (s.ct.opens.map fun o => o.stored.length).sum

/-- Keeps OpenCommands and LatchStoreFree in step with the open commands. -/
def State.openCounts (s : State) : State :=
  (s.hSet O.OpenCommands s.ct.opens.length).hSet O.LatchStoreFree (16384 - s.slotsUsed)

/-- The value a start stores for a counter: its value, or a cleared running maximum (R108). -/
def State.latchStart (s : State) (n : Nat) : Nat :=
  let c := s.h (ccfg n)
  if ccMode c = 2 then clearedOf c else s.h (cval n)

/-- The field a counter has at the end: delta modulo 2^64, or the running maximum (R108). -/
def State.latchEnd (s : State) (n stored : Nat) : Nat :=
  let c := s.h (ccfg n)
  if ccMode c = 2 then stored else (s.h (cval n) + 2 ^ 64 - stored) % 2 ^ 64

/-- Size of the outbound queue of COUNT (R113). -/
abbrev counterQueueBytes : Nat := 262144

/-- Bytes of COUNT's own records that wait: command records, samples and SAMPLE maps, fined ones with them (R113). -/
def State.countBytes (s : State) : Nat :=
  16 * lsum (((s.laneQ stCounter).filter fun p => [0x30, 0x31, 0x32, 0x34].contains (rType p.2)).map fun p => p.2.length)

/-- Emits a CommandCounterRecord (R111, R113): in full when it fits beside the reservations of the commands still open, else truncated. The reservation of its own start holds the truncated form; an end without its start has none. Samples and SAMPLE maps are queued whatever the fill (DESIGN CHOICE, log 114). -/
def State.emitCommand (o : OpenCmd) (part endStamp flags : Nat) (fields : List Nat) (s : State) : State :=
  let n := fields.length
  let len := 4 + n / 2
  let room := s.countBytes + 64 * s.ct.opens.length + 16 * len ≤ counterQueueBytes
  let cf := o.flags ||| flags
  let base := fun (count cf : Nat) =>
    [(128, 64, o.cmdid), (192, 128, o.start), (320, 128, endStamp), (448, 4, o.stream), (452, 3, o.set), (456, 10, count),
     (472, 16, o.version), (488, 24, cf)]
  if room then
    let (r, s) := s.form .hel 0x30 len 0 part (base n cf ++ (fields.zipIdx.map fun p => (512 + 64 * p.2, 64, p.1)))
    s.hQueueW stCounter r
  else
    let (r, s) := s.form .hel 0x30 4 0 part (base 0 (setBit cf 8 true))
    (s.hCount O.RecordsTruncated).hQueueW stCounter r

/-- Whether a counter of a list has an early tap that no record of it has told yet (R78). -/
def State.earlyOwed (s : State) (l : List Nat) : Bool :=
  l.any fun n => match tget s.ct.early (ccPort (s.h (ccfg n)) / 16) with | some told => !told.contains n | none => false

/-- A record of these counters carries what early taps they owe. -/
def State.earlyTold (l : List Nat) (s : State) : State :=
  let tell := fun (t : Tbl (List Nat)) (n : Nat) =>
    let g := ccPort (s.h (ccfg n)) / 16
    match tget t g with
    | some told => if told.contains n then t else tset t g (n :: told)
    | none => t
  { s with ct := { s.ct with early := l.foldl tell s.ct.early } }

/-- Closes an open command at a boundary: its fields, its flags, its record (R108, R110). -/
def State.closeCommand (o : OpenCmd) (endStamp flags : Nat) (withFields : Bool) (s : State) : State :=
  let s : State := { s with ct := { s.ct with opens := removeFirst (fun p => p.stream == o.stream && p.cmdid == o.cmdid) s.ct.opens } }
  let over_ := o.members.any fun n => bit (s.h O.TapOverflow) (ccPort (s.h (ccfg n)))
  let fl := flags ||| (if over_ then 1 else 0) ||| (if s.earlyOwed o.members then 2 else 0) ||| (if o.hasSet then 0 else 2 ^ 10)
  let s : State := s.earlyTold o.members
  let fields := if withFields then (o.members.zip o.stored).map fun p => s.latchEnd p.1 p.2 else []
  (s.emitCommand o o.part endStamp fl fields).openCounts

/-- A boundary of a stream falls inside the windows of its other open commands (R110). -/
def State.overlap (stream cmdid : Nat) (s : State) : State :=
  { s with ct := { s.ct with opens := s.ct.opens.map fun o =>
      if o.stream = stream ∧ o.cmdid ≠ cmdid then { o with flags := setBit o.flags 2 true } else o } }

/-- Whether a boundary can transfer now (R80, R100): COUNT awake and the queue of 16 not full; a boundary presented to a sleeping COUNT wakes it. -/
def State.cbReady (s : State) : Bool := s.awake 2 && decide (s.ct.cbFill < 1600)

/-- The boundary queue takes one boundary. -/
def State.cbTake (s : State) : State := { s with ct := { s.ct with cbFill := s.ct.cbFill + 100 } }

/-- COMMAND_START (R108–R110). -/
def State.commandStart (stream cmdid part : Nat) (s : State) : State :=
  if !s.cbReady then s.wake 2
  else
    let (stm, s) := s.cbTake.takeStamp .hel fnCommand
    let s : State := s.overlap stream cmdid
    let s : State := match s.ct.opens.find? fun o => o.stream == stream && o.cmdid == cmdid with
      | some o => s.closeCommand o stm (2 ^ 4) true
      | none => s
    let ss := s.h (O.StreamSet + stream)
    let has := ss != 0xFF
    let list := if has then tgetD s.ct.active ss [] else []
    if (s.ct.opens.filter fun o => o.stream == stream).length ≥ 8 ∨ s.slotsUsed + list.length > 16384 then s.hCount O.StartsDropped
    else
      let o : OpenCmd := ⟨stream, cmdid, part, stm, has, if has then ss else 0, if has then s.h (inst O.SetVersion ss) else 0,
        list, list.map s.latchStart, 0⟩
      { s with ct := { s.ct with opens := s.ct.opens ++ [o] } }.openCounts

/-- COMMAND_END (R108–R111): an end without its start gives a record with COUNT 0 and NO_START. With a latch-store slot that reads uncorrectable the command closes with COUNT 0 and RESET (R449). -/
def State.commandEnd (stream cmdid part : Nat) (bad : Bool) (s : State) : State :=
  if !s.cbReady then s.wake 2
  else
    let (stm, s) := s.cbTake.takeStamp .hel fnCommand
    let s : State := s.overlap stream cmdid
    match s.ct.opens.find? fun o => o.stream == stream && o.cmdid == cmdid with
    | some o => s.closeCommand o stm ((if o.part = part then 0 else 2 ^ 7) ||| (if bad then 2 ^ 5 else 0)) (!bad)
    | none => s.emitCommand ⟨stream, cmdid, part, 0, true, 0, 0, [], [], 0⟩ part stm (2 ^ 3) []

/-- KIND 3 comparators of a counter whose value falls below theirs re-arm (R134). -/
def State.rearm (n v : Nat) (s : State) : State :=
  let below := fun (k : Nat) => let c := s.h (inst O.CompConfig k)
    bits c 0 4 == 3 && bits c 16 12 == n && decide (v < s.h (inst O.CompValue k))
  { s with tr := { s.tr with above := ((setBitsOf 8 s.tr.above).map fun k => if below k then 0 else 2 ^ k).sum } }

/-- Clears a counter (R104): its value, and the baseline of every open command that holds it, which carries RECONFIGURED (R110). -/
def State.clearCounter (n : Nat) (s : State) : State :=
  let z := clearedOf (s.h (ccfg n))
  let s : State := (s.hSet (cval n) z).rearm n z
  { s with ct := { s.ct with opens := s.ct.opens.map fun o => if o.members.contains n then { o.mapStored n (fun _ => z) with flags := setBit o.flags 6 true } else o } }

/-- A CounterConfig write at the Helad (R101, R103, R104, R115). A value with a reserved bit or TIMING_QUANTUM 0 is refused before the three cases of R103 are tested, and leaves REFUSED as it was (DESIGN CHOICE, log 115). -/
def State.counterConfigOp (n v : Nat) : Op := fun s =>
  let k := ccfg n
  let old := s.h k
  if bits v 35 5 ≠ 0 ∨ bits v 56 8 ≠ 0 ∨ bits v 40 16 = 0 then (s, no stRange)
  else if ccEnable v ∧ (!s.wired (ccPort v) ∨ (bit v 19 ∧ ccMode v ≠ 2) ∨ (ccMode v = 3 ∧ bits v 24 6 > 32)) then
    (s.hSet k (setBit old 34 true), no stRange)
  else
    let w := setBit v 34 false
    let s : State := s.hSet k w
    let counting := bits old 0 30 != bits v 0 30
    let s : State := if counting then s.clearCounter n else s
    let s : State := if ccSample old ≠ ccSample v then
        { (s.hSet O.SampleVersion ((s.h O.SampleVersion + 1) % 2 ^ 16)) with ct := { s.ct with mapOwed := true } }
      else s
    (s, ok)

/-- COUNTER_CONFIG_WRITE. -/
def execCounterConfigWrite (q : Req) (n v : Nat) : State → Host.Outcome State Fault Refusal :=
  run (State.proxyWrite q (ccfg n) v (State.counterConfigOp n v))

/-- COUNTER_CLEAR: sub k clears the named counters of 32(k − 1) to 32k − 1 (R104, R120). -/
def State.counterClearOp (k mask : Nat) : Op := fun s =>
  ((setBitsOf 32 mask).foldl (fun s b => s.clearCounter (32 * (k - 1) + b)) s, ok)

/-- COUNTER_CLEAR. -/
def execCounterClear (q : Req) (k mask : Nat) : State → Host.Outcome State Fault Refusal :=
  run (State.proxyWrite q (O.CounterClear + (k - 1)) mask (State.counterClearOp k mask))

/-- Whether a version of a set before the active one is still used by an open command (R106). -/
def State.setBusy (s : State) (k : Nat) : Bool :=
  s.ct.opens.any fun o => o.hasSet && o.set == k && o.version != s.h (inst O.SetVersion k)

/-- Makes one staged list active (R106), and keeps the Tray's copy of the new list and the one before (R548). -/
def State.commitSet (k : Nat) (s : State) : State :=
  let l := s.stagedSet k
  let v := (s.h (inst O.SetVersion k) + 1) % 2 ^ 16
  let s : State := s.hSet (inst O.SetVersion k) v
  let c := s.h O.SlotNumber * 8 + k
  { s with ct := { s.ct with active := tset s.ct.active k l, copySets := tset s.ct.copySets c (((v, l) :: tgetD s.ct.copySets c []).take 2) } }

/-- SET_COMMIT: free sets commit; refused ones read 1 in SetBusy; the write is answered OK (R106). -/
def State.setCommitOp (mask : Nat) : Op := fun s =>
  ((setBitsOf 8 mask).foldl (fun s k =>
    if s.setBusy k then s.hSet O.SetBusy (setBit (s.h O.SetBusy) k true) else s.commitSet k) s, ok)

/-- SET_COMMIT. -/
def execSetCommit (q : Req) (mask : Nat) : State → Host.Outcome State Fault Refusal :=
  run (State.proxyWrite q O.SetCommit mask (State.setCommitOp mask))

/-! ### Samples (R114, R115) -/

/-- Enabled counters with SAMPLE set, ascending. -/
def State.sampled (s : State) : List Nat :=
  s.counters.filter fun n => ccEnable (s.h (ccfg n)) && ccSample (s.h (ccfg n))

/-- The SAMPLE map as 4,096 bits. -/
def State.sampleMap (s : State) : Nat := ((s.counters.filter fun n => ccSample (s.h (ccfg n))).map fun n => 2 ^ n).sum

/-- A SampleMapRecord when the map has changed (R115). -/
def State.sampleMapOut (s : State) : State :=
  if s.ct.mapOwed then
    let (r, s) := s.form .hel 0x32 34 0 0 [(128, 16, s.h O.SampleVersion), (256, 4096, s.sampleMap)]
    { s with ct := { s.ct with mapOwed := false } }.hQueueW stCounter r
  else s

/-- The newest instant that is a multiple of SampleInterval. -/
def State.sampleAt (s : State) : Nat := s.ft .hel / us (s.h O.SampleInterval) * us (s.h O.SampleInterval)

/-- COUNTER_SAMPLE: at a multiple of SampleInterval, while COUNT is awake, one record of every sampled counter, after every timed action at that instant (R114). An instant that COUNT slept through has no sample (R115). -/
def State.counterSample (s : State) : State :=
  let t := s.sampleAt
  if t ≤ s.ct.lastAt ∨ !s.awake 2 ∨ (s.acts .hel).any (fun a => decide (a.at_ ≤ t)) then s
  else
    let s : State := s.sampleMapOut
    let ns_ := s.sampled
    let c := s.clk .hel
    let stm := s.stampOf .hel t (bit c.owed fnSample)
    let s : State := s.setClk .hel { c with owed := setBit c.owed fnSample false }
    let over_ := ns_.any fun n => bit (s.h O.TapOverflow) (ccPort (s.h (ccfg n)))
    let (r, s) := s.form .hel 0x31 (3 + (ns_.length + 1) / 2) 0 0
      ([(128, 128, stm), (256, 16, s.h O.SampleVersion), (272, 16, ns_.length), (288, 1, b2n s.ct.slept.isSome), (289, 1, b2n over_),
        (320, 64, s.ct.slept.getD 0)] ++ (ns_.zipIdx.map fun p => (384 + 64 * p.2, 64, s.h (cval p.1))))
    { s with ct := { s.ct with lastAt := t, slept := none } }.hQueueW stCounter r

/-- COUNTER_SAMPLE. -/
def execCounterSample : State → Host.Outcome State Fault Refusal := run State.counterSample

/-- HMAIN_RST_N changes no SAMPLE bit, so it owes no SampleMapRecord (R115): open commands close with COUNT 0 and RESET at the AO FT; counter values, the latch store and COUNT's objects return to their defaults (R76, R110, R547). -/
def State.countersReset (s : State) : State :=
  let stm := setBit (s.stamp .hel) 81 true
  let s : State := s.ct.opens.foldl (fun s o => s.closeCommand o stm (2 ^ 5) false) s
  let s : State := { s with ct := { s.ct with opens := [], fifo := [], cbFill := 0, slept := if s.awake 2 then some (s.ft .hel / 65536) else s.ct.slept }, hd := s.hd.filter fun p => !((0x3020 ≤ keyIdx p.1 && keyIdx p.1 ≤ 0x303F) || keyIdx p.1 == 0x305B) }
  s

/-! ### The Tray's copy and coarsening (R117, R118, R548) -/

/-- The Tray's copy of an object of the Helad in a slot (R548). -/
def State.copyOf (s : State) (slot k : Nat) : Nat := (s.copied slot k).getD (objDefault .hel k)

/-- A set of another slot's Helad commits: the copy takes the staged list that it holds, under the next version, and keeps the one before (R106, R548). -/
def State.copyCommit (slot k : Nat) (s : State) : State :=
  let l := (List.range (s.copyOf slot (inst O.SetSize k))).map fun i => bits (s.copyOf slot (inst O.SetMembers k + i / 4)) (12 * (i % 4)) 12
  let old := tgetD s.ct.copySets (slot * 8 + k) []
  let v := ((old.head?.map (·.1)).getD 0 + 1) % 2 ^ 16
  { s with ct := { s.ct with copySets := tset s.ct.copySets (slot * 8 + k) (((v, l) :: old).take 2) } }

/-- The Tray's copy follows a proxied write that the Helad of another slot has accepted; an accepted SetCommit is taken to commit every set it names, since the answer does not tell a refused one (R106, R548; DEDUCED, log 116). -/
def State.copyWrite (slot k v : Nat) (s : State) : State :=
  if k = O.SetCommit then (setBitsOf 8 v).foldl (fun s b => s.copyCommit slot b) s
  else s.copySet slot k v

/-- CONFIG_COPY_READBACK: the Tray replaces its copy of a slot's Helad (R548). -/
def State.configCopyReadback (slot : Nat) (objs : List (Nat × Nat)) (sets : List (Nat × Nat × List Nat)) (s : State) : State :=
  let kept := s.ln.copies.filter fun p => p.1 / 2 ^ 24 != slot
  let cs := objs.foldl (fun t p => tset t (slot * 2 ^ 24 + p.1) p.2) kept
  let cl := sets.foldl (fun t e => tset t (slot * 8 + e.1) [(e.2.1, e.2.2)]) (s.ct.copySets.filter fun p => p.1 / 8 != slot)
  { s with ln := { s.ln with copies := cs, copyDue := s.ln.copyDue.filter fun e => !(e.2.2.1 == slot && decide (e.2.1 ≤ s.ft .icd)) }, ct := { s.ct with copySets := cl } }

/-- CONFIG_COPY_READBACK. -/
def execConfigCopyReadback (slot : Nat) (objs : List (Nat × Nat)) (sets : List (Nat × Nat × List Nat)) :
    State → Host.Outcome State Fault Refusal := run (State.configCopyReadback slot objs sets)

/-- The hidden value of R117. -/
abbrev hidden : Nat := 0xFFFFFFFFFFFFFFFF

/-- One field of a tenant's view (R117). -/
def coarsenField (cfg v : Nat) : Nat :=
  let cls := if bit cfg 18 then bits cfg 30 2 else 2
  let tq := bits cfg 40 16
  let keep := fun (x : Nat) => if x = hidden then hidden - 1 else x
  if cls = 0 then keep v
  else if cls = 1 then keep (v / max 1 tq * max 1 tq)
  else hidden

/-- An FtStamp with NS rounded down to a multiple of 1,000 and FRACTION 0 (R118). -/
def coarsenStamp (x : Nat) : Nat := setBits x 0 80 ((bits x 16 64 / 1000 * 1000) * 65536)

/-- The tenant's view of a CommandCounterRecord from a slot (R117, R118): a field whose counter the Tray cannot name is hidden. -/
def State.coarsen (s : State) (slot : Nat) (r : Rec) : Rec :=
  let set := recFld r 452 3
  let n := recFld r 456 10
  let list := (tget (tgetD s.ct.copySets (slot * 8 + set) []) (recFld r 472 16)).getD []
  let r := recSet r 192 128 (coarsenStamp (recFld r 192 128))
  let r := recSet r 320 128 (coarsenStamp (recFld r 320 128))
  let r := recSet r 488 24 (setBit (recFld r 488 24) 9 true)
  (List.range n).foldl (fun r i =>
    let v := recFld r (512 + 64 * i) 64
    recSet r (512 + 64 * i) 64 (match list[i]? with
      | some c => coarsenField (s.copyOf slot (ccfg c)) v
      | none => hidden)) r

end Sys2Proof.Machine
end

