-- ==== Sys2Proof/Machine/Epoch.lean ====
section
/-! DEFINITION. Epoch boundaries, sets of dies in the entry form of R265, membership and partition state as every unit reads them (R250, R265, R415, R418), and the spread of settings by the broadcast tree (R253, R423). -/

namespace Sys2Proof.Machine

/-! ### Boundaries -/

/-- EpochLength in force, in FT units. -/
def State.epochLen (s : State) : Nat := ns (max 1 s.rd.len)

/-- The changes of EpochLength that are scheduled: instant and new length, FT units, in the order of instants and handles. -/
def State.lengthChanges (s : State) : List (Nat × Nat) :=
  (sortBy (fun a => a.at_ * 2 ^ 32 + a.handle) (s.tm.iActs.filter fun a => a.kind == 6 && a.key == O.EpochLength)).map fun a => (a.at_, us (max 1 a.val))

/-- The stretch of equal epochs that holds an FT, under every change of EpochLength scheduled before it: its start, the number of its first epoch, and the length (R250, R253). -/
def State.schedAt (t : Nat) (s : State) : Nat × Nat × Nat :=
  (s.lengthChanges.filter fun c => decide (c.1 ≤ t)).foldl (fun a c => (max a.1 c.1, a.2.1 + (c.1 - a.1 + a.2.2 - 1) / a.2.2, c.2))
    (ns (s.i O.EpochStartNs), s.i O.EpochNow, s.epochLen)

/-- The first boundary at or after `t` of epochs of length `l` from `base`. -/
def firstFrom (base l t : Nat) : Nat := if t ≤ base then base else base + (t - base + l - 1) / l * l

/-- The first epoch boundary at or after an FT (R250); the FT itself while no epoch pair is held. -/
def State.boundaryAfter (t : Nat) (s : State) : Nat :=
  if !s.rd.has then t
  else let p := s.schedAt t; firstFrom p.1 p.2.2 t

/-- The number of the epoch that contains an FT: the epoch held here that covers it; else by the pair in force and the changes of EpochLength scheduled (R250, R252, R253). -/
def State.epochAt (t : Nat) (s : State) : Nat :=
  match s.rd.epochs.find? fun p => decide (ns p.2.start ≤ t ∧ t < ns (p.2.start + p.2.len)) with
  | some p => p.1
  | none =>
    let b := ns (s.i O.EpochStartNs)
    if t < b then s.i O.EpochNow - (b - t + s.epochLen - 1) / s.epochLen
    else let p := s.schedAt t; p.2.1 + (t - p.1) / p.2.2

/-- FT at which an epoch begins. -/
def State.epochStart (n : Nat) (s : State) : Nat :=
  match tget s.rd.epochs n with
  | some e => ns e.start
  | none =>
    let b := ns (s.i O.EpochStartNs)
    if n < s.i O.EpochNow then b - (s.i O.EpochNow - n) * s.epochLen else b + (n - s.i O.EpochNow) * s.epochLen

/-- The epoch that begins at a boundary. -/
abbrev State.epochFrom (b : Nat) (s : State) : Nat := s.epochAt b

/-! ### Sets of dies (R265) -/

/-- The words of a list of die GIDs. -/
def wordsOf (gids : List Nat) : Tbl Nat :=
  gids.foldl (fun w g => let n := g % 2 ^ 24; tset w (n / 64) (setBit (tgetD w (n / 64) 0) (n % 64) true)) []

/-- Union. -/
def wordsOr (a b : Tbl Nat) : Tbl Nat := b.foldl (fun w p => tset w p.1 (tgetD w p.1 0 ||| p.2)) a

/-- Intersection. -/
def wordsAnd (a b : Tbl Nat) : Tbl Nat := a.filterMap fun p => let m := p.2 &&& tgetD b p.1 0; if m = 0 then none else some (p.1, m)

/-- Difference. -/
def wordsSub (a b : Tbl Nat) : Tbl Nat :=
  a.filterMap fun p => let m := p.2 &&& (2 ^ 64 - 1 - tgetD b p.1 0 % 2 ^ 64); if m = 0 then none else some (p.1, m)

/-- Number of dies. -/
def wordsCount (w : Tbl Nat) : Nat := lsum (w.map fun p => popCount 64 p.2)

/-- Whether a set holds the die of a NUMBER. -/
def wordsNum (w : Tbl Nat) (n : Nat) : Bool := bit (tgetD w (n / 64) 0) (n % 64)

/-- Whether a GID is that of a die in a set: KIND 1 and its NUMBER (R11). -/
def wordsHas (w : Tbl Nat) (gid : Nat) : Bool := gid / 2 ^ 24 == 1 && wordsNum w (gid % 2 ^ 24)

/-- GIDs of a set, ascending (KIND 1, R11). -/
def wordsDies (w : Tbl Nat) : List Nat := w.flatMap fun p => (setBitsOf 64 p.2).map fun i => 2 ^ 24 + p.1 * 64 + i

/-- The entries of a set: WORD_INDEX and MASK, ascending, no zero MASK. -/
def wordsUnits (w : Tbl Nat) : Rec := (w.filter fun p => p.2 != 0).map fun p => p.1 % 2 ^ 18 + p.2 % 2 ^ 64 * 2 ^ 64

/-- The set of entries. -/
def unitsWords (l : Rec) : Tbl Nat :=
  l.foldl (fun w u => let m := u / 2 ^ 64 % 2 ^ 64; if m = 0 then w else tset w (u % 2 ^ 18) (tgetD w (u % 2 ^ 18) 0 ||| m)) []

/-! ### Members (R415) -/

/-- Whether a die is a member of the present epoch. -/
def State.isMember (s : State) (gid : Nat) : Bool := wordsHas s.tw.members gid

/-- Members below a downward port. -/
def State.membersBelow (s : State) (port : Nat) : List Nat := wordsDies (tgetD s.tw.below port [])

/-- Whether a die lies in this device's subtree. -/
def State.inSubtree (s : State) (gid : Nat) : Bool :=
  s.role == 3 || s.isMember gid || s.ln.dieGid.any fun p => p.2 == gid

/-- Enters a GID in the route table under the link that leads to it, and whether it stands at that link itself (R11): one known to stand there stays so. -/
def State.learn (gid link : Nat) (direct : Bool) (s : State) : State :=
  if gid = 0 then s
  else { s with tw := { s.tw with route := tset s.tw.route gid (link, direct || tget s.tw.route gid == some (link, true)) } }

/-- Whether a path to a GID is known: null, this device, or an entry of the route table. -/
def State.routeKnown (s : State) (gid : Nat) : Bool := gid == 0 || gid == s.iGid || (tget s.tw.route gid).isSome

/-- The slot, or above a Tray the downward link, that leads to a GID below. -/
def State.routeDown (gid : Nat) (s : State) : Option Nat :=
  match tget s.tw.route gid with | some p => if p.1 < 64 then some p.1 else none | none => none

/-- The slot, or above a Tray the downward link, of a die below (R211). -/
abbrev State.dieLink (gid : Nat) (s : State) : Option Nat := s.routeDown gid

/-- Whether a die lies in the scope of a cut (R383): all for the null GID, the die itself, the dies below an Icdon IX40's pair; a pair that does not lie below this one lies above it. -/
def State.inScope (s : State) (scope gid : Nat) : Bool :=
  scope == 0 || scope == gid ||
  (scope / 2 ^ 24 == 2 &&
    (if s.tw.homes.any fun p => p.2 == scope then tgetD s.tw.homes gid 0 == scope
     else match s.routeDown scope with
       | some l => wordsHas (tgetD s.tw.below l []) gid
       | none => true))

/-- Whether a downward link leads to a die in a scope. -/
def State.downInScope (s : State) (scope d : Nat) : Bool := (s.membersBelow d).any (s.inScope scope)

/-- Whether the transmitter of a link, by the link's number, lies in the scope of a cut that this unit holds: a die of a slot, a child pair, and whatever stands above or beside (R391). -/
def State.linkInScope (s : State) (scope l : Nat) : Bool :=
  if l < 72 then (match tget s.ln.dieGid l with | some g => s.inScope scope g | none => false)
  else if 128 ≤ l ∧ l < 192 then s.downInScope scope (l - 128)
  else true

/-- Sends a cut to what lies below in its scope: the dies of a Tray, the downward links of a Row or Apex (R384). -/
def State.cutDown (scope : Nat) (r : Rec) (s : State) : State :=
  if s.role = 1 then ((s.ln.dieGid.filter fun p => decide (p.1 < 64) && s.inScope scope p.2).map (·.1)).foldl (fun s k => s.downSend k stControl r) s
  else if s.isLead then (s.downLinks.filter (s.downInScope scope)).foldl (fun s d => s.linkSend d stControl r) s
  else s

/-- TIMED_ACTION_RECEIVE: queued under the issuing device's handle, or answered with a MissedAction record; an Icdon IX40 forwards it to the level below (R19, R30, R61, R64). -/
def State.timedActionReceive (sd : Side) (a : ActionIn) (s : State) : State :=
  let p := s.queueAct sd (actOfIn a (s.ft sd))
  match sd with
  | .hel => p.1
  | .icd =>
    let r := actRec (actOfIn a 0)
    if a.kind = 0 then p.1.cutDown a.key r else p.1.belowSend stControl r

/-- TIMED_ACTION_RECEIVE. -/
def execTimedActionReceive (u : Side) (a : ActionIn) : State → Host.Outcome State Fault Refusal := run (State.timedActionReceive u a)

/-! ### Partitions (R418) -/

/-- The state of a partition identifier. -/
def State.partState (s : State) (p : Nat) : Nat := match tget s.tw.parts p with | some x => x.state | none => 0

/-- TEST of R418. -/
abbrev partTest : Nat := 3
/-- ACTIVE of R418. -/
abbrev partActive : Nat := 2

/-- Whether a die is a member of a partition. -/
def State.partMember (s : State) (p gid : Nat) : Bool := match tget s.tw.parts p with | some x => wordsHas x.words gid | none => false

/-- Whether a die belongs to a partition that is ACTIVE. -/
def State.dieInActive (s : State) (gid : Nat) : Bool := s.tw.parts.any fun p => p.2.state == partActive && wordsHas p.2.words gid

/-- Partitions, ACTIVE or TEST, that a die belongs to. -/
def State.partsOf (s : State) (gid : Nat) : List Nat :=
  (s.tw.parts.filter fun p => (p.2.state == 2 || p.2.state == 3) && wordsHas p.2.words gid).map (·.1)

/-- The lowest level whose subtree holds every die of a set (R241): one Tray, one pair below this device, or the Apex. -/
def State.stepHomeOf (w : Tbl Nat) (s : State) : Nat :=
  if w.length ≤ 1 then 1
  else if s.tw.below.any fun p => (wordsSub w p.2).isEmpty then 2
  else if s.role = 2 ∧ (wordsSub w s.tw.members).isEmpty then 2
  else 3

/-- The level of a device (R264): 1 Tray, 2 Row, 3 Apex. -/
abbrev State.level (s : State) : Nat := s.role

/-! ### The epoch pair -/

/-- Reductions of COMMAND_FIELD whose counter would not reach a tenant exactly, with the die, from the Tray's copies (R269, R548). -/
def State.inexactNow (defs : Tbl (Nat × Nat × Nat)) (s : State) : List (Nat × Nat) :=
  if s.role = 1 then
    (defs.filter fun p => bits p.2.1 8 3 == 2).flatMap fun p =>
      let k := ccfg (bits p.2.2.1 0 16 % 4096)
      s.ln.dieGid.filterMap fun q =>
        let c := s.copyOf q.1 k
        if bits c 30 2 = 0 ∧ bit c 18 then none else some (p.1, q.2)
  else []

/-- Opens the record of the epoch that begins now: members, partitions, definitions and settings in force at its start (R252, R255, R274). -/
def State.beginEpoch (n start : Nat) (s : State) : State :=
  let defs := s.rd.active.filter fun p => bit p.2.1 0
  let parts := (s.tw.parts.filter fun p => p.2.state == 2 || p.2.state == 3).map fun p => (p.1, (p.2.words, p.2.home))
  let e : Epoch := ⟨n, start, s.rd.len, s.i O.GracePerLevel, s.i O.ResultBudget, s.i O.SupplementHold, s.tw.members, parts, defs,
    s.inexactNow defs, [], [], [], false, false, [], false, false, [], 0, 0, 0, false⟩
  let from_ := if (s.rd.defsFrom.getLast?.map (·.2)) = some defs then s.rd.defsFrom else tset s.rd.defsFrom n defs
  { ((s.iSet O.EpochNow n).iSet O.EpochStartNs start) with
    rd := { s.rd with has := true, epochs := tset s.rd.epochs n e, defsFrom := from_.drop (from_.length - 16) } }

/-- ROOT_FT_START: the root starts FT and, if it holds no epoch, the first epoch at ⌊FT / EpochLength⌋ (R40, R250). -/
def State.rootStart (collected : List Nat) (s : State) : State :=
  let was := s.tm.rootOn
  let s : State := s.rootFtStart collected
  if !was ∧ s.tm.rootOn ∧ !s.rd.has then
    let len := s.i O.EpochLength * 1000
    let n := s.ft .icd / 65536 / max 1 len
    { s with rd := { s.rd with len := len } }.beginEpoch (n % 2 ^ 48) (n * len)
  else s

/-- ROOT_FT_START. -/
def execRootFtStart (collected : List Nat) : State → Host.Outcome State Fault Refusal := run (State.rootStart collected)

/-! ### Spread by the broadcast tree -/

/-- Splits bytes into pieces of at most `n`. -/
def pieces (n : Nat) : Nat → List Nat → List (List Nat)
  | 0, _ => []
  | k + 1, bs => if bs.isEmpty then [] else bs.take n :: pieces n k (bs.drop n)

/-- Fields of a manifest. -/
abbrev mfKind (m : Nat) : Nat := bits m 0 8
/-- Whether a manifest targets a level: 0 Helad, 1 Tray, 2 Row, 3 Apex. -/
abbrev mfLevel (m l : Nat) : Bool := bit (bits m 8 4) l

/-- The downward links to which a transfer goes: all of them, or those that lead into its SCOPE_GID (R424). -/
def State.castLinks (m : Nat) (s : State) : List Nat :=
  let sc := bits m 256 32
  s.downLinks.filter fun d => sc == 0 || s.routeDown sc == some d || s.downInScope sc d

/-- Forwards a chunk as it arrives: to the child pairs in scope, and at a Tray to the Helads when TARGET_LEVELS bit 0 is set (R424). -/
def State.castDown (m : Nat) (r : Rec) (s : State) : State :=
  if s.role = 1 then (if mfLevel m 0 then s.belowSend stBulk r else s)
  else if s.isLead then (s.castLinks m).foldl (fun s d => s.linkSend d stBulk r) s else s

/-- Whether this Icdon IX40 is a target of a transfer: its level is targeted and it lies in SCOPE_GID, not above it (R423, R424). -/
def State.castOwn (m : Nat) (s : State) : Bool :=
  let sc := bits m 256 32
  mfLevel m s.role && (sc == 0 || sc == s.pairGid || sc == s.iGid || (s.routeDown sc).isNone)

/-- The BroadcastChunkRecords (TYPE 0xE4) of a signed image, sent to its scope in BULK (R424). -/
def State.sendChunks (id : Nat) (image : List Nat) (resent : Bool) (only : List Nat) (s : State) : State :=
  let ps := (pieces 4096 (image.length / 4096 + 1) image).zipIdx
  let n := ps.length
  ps.foldl (fun s p =>
    if !only.isEmpty ∧ !only.contains (p.2 * 4096) then s
    else
      let fl := (if p.2 = 0 then 1 else 0) + (if p.2 + 1 = n then 2 else 0) + (if resent then 4 else 0)
      let (r, s) := s.form .icd 0xE4 (3 + (p.1.length + 15) / 16) 0 0
        [(128, 32, id), (160, 16, p.1.length), (176, 8, fl), (192, 64, p.2 * 4096), (384, 8 * p.1.length, bytesNat p.1)]
      s.castDown (bytesNat (image.take 128)) r) s

/-- The bytes of an OBJECT_BLOCK image: manifest of R423 for writes at an instant, and its entries. -/
def objectBlock (ws : List (Nat × Nat)) (instant : Nat) : List Nat :=
  let body := ws.flatMap fun w => natBytes 2 (keyIdx w.1) ++ natBytes 1 (keySub w.1) ++ [0] ++ natBytes 4 8 ++ natBytes 8 w.2
  let digest := Config.blake3 body % 2 ^ 128
  natBytes 128 (packFields [(0, 8, 5), (8, 4, 0xE), (64, 64, body.length), (128, 128, digest), (320, 128, instant)]) ++ List.replicate 256 0 ++ body

/-- Queues timed object writes of this device at a boundary, and spreads writes by the broadcast tree (R253, R255, R274). -/
def State.spreadAs (own ws : List (Nat × Nat)) (at_ : Nat) (s : State) : State :=
  let s : State := own.foldl (fun s w =>
    let (h, s) := s.newHandle
    (s.queueAct .icd ⟨h, 6, at_, 0, 0, 0, w.1, w.2, true, false, s.ft .icd⟩).1) s
  let id := s.tw.nextTransfer
  { s with tw := { s.tw with nextTransfer := (id + 1) % 2 ^ 32 } }.sendChunks id (objectBlock ws at_) false []

/-- Queues timed object writes at a boundary and spreads them by the broadcast tree (R253, R274). -/
abbrev State.spread (ws : List (Nat × Nat)) (at_ : Nat) (s : State) : State := s.spreadAs ws ws at_

/-! ### UT (R59) -/

/-- Spreads the UT settings to every Icdon IX40 below by the broadcast tree, as an OBJECT_BLOCK. DESIGN CHOICE (log 126): its INSTANT is the reference FT, which no object holds; the block's writes apply where it arrives. -/
def State.spreadUt (s : State) : State :=
  if !s.apexLead then s
  else
    let id := s.tw.nextTransfer
    { s with tw := { s.tw with nextTransfer := (id + 1) % 2 ^ 32 } }.sendChunks id
      (objectBlock ([O.UtOffset, O.UtRate, O.LeapSeconds, O.UtSource].map fun k => (k, s.i k)) s.tm.utRef) false []

/-- UT_SAMPLE: the pair fixes UtOffset at the sample's FT, which becomes the reference; the rate the firmware derives from the pairs is not stated, so it is a free value. The change goes to the shadow in its write order, and to every Icdon IX40 by the broadcast tree. The shadow, which processes the same descriptor, takes the reference. -/
def State.utSampleOp (utc ft : Nat) : Op := fun s =>
  if s.role ≠ 3 then (s, no stDenied 8)
  else
    let s : State := { s with tm := { s.tm with utRef := ft } }
    if !s.isLead then (s, ok)
    else
      let tai : Int := (utc : Int) + s.iS 16 O.LeapSeconds * 1000000000
      let off := ofS 64 (tai - ((ft / 65536 : Nat) : Int))
      let (rate, s) := s.fresh 32
      let s : State := ((s.iSet O.UtOffset off).iSet O.UtRate rate).iSet O.UtSource 1
      ((((s.twinOrder O.UtOffset off).twinOrder O.UtRate rate).twinOrder O.UtSource 1).spreadUt, ok)

/-- UT_SAMPLE. -/
def execUtSample (q : Req) (utc ft : Nat) : State → Host.Outcome State Fault Refusal :=
  run (State.descriptor q (State.utSampleOp utc ft))

end Sys2Proof.Machine
end

