-- ==== Sys2Proof/Machine/Audit.lean ====
section
/-! DEFINITION. The audit cask's entries and chains, and what is delivered to a tenant (R369, R481–R486, R496, R500). -/

namespace Sys2Proof.Machine

/-! ### Delivery to a tenant (R482, R486) -/

/-- The key of a VF's object, VF numbered from 1. -/
abbrev vfKey (base v : Nat) : Nat := inst128 base (v - 1)

/-- The VF bound to a partition. -/
def State.vfOf (part : Nat) (s : State) : Option Nat :=
  if part = 0 then none else (List.range 256).findSome? fun n => if s.i (vfKey O.VfPartition (n + 1)) = part then some (n + 1) else none

/-- Delivers a record in tenant form: through the VF in RUN, else counted in VfWithheld; and to the partition's tenant-proxy sessions. -/
def State.vfPost (part : Nat) (r : Rec) (s : State) : State :=
  let s : State := match s.vfOf part with
    | some v =>
      if s.i (vfKey O.TdiState v) = 2 then (if s.isLead then s.put .host (1024 + v) r else s)
      else s.addOb .icd O.VfWithheld 64 1
    | none => s
  s.tenantPost part r

/-! ### The audit cask (R369, R496, R500) -/

/-- Bytes of the audit region. -/
abbrev auditBytes : Nat := 16 * 1073741824

/-- AUDIT_BACKLOG is true from 90 % of the region (R500, R546). -/
def State.auditCond (s : State) : State :=
  let high := decide (auditBytes * 9 ≤ s.i O.AuditFill * 10)
  let s : State := s.cond 0x149 high
  if high && !s.sc.backlog then
    let s : State := { s with sc := { s.sc with backlog := true } }
    if s.isLead then s.iAlarm 0x04D 2 0x0C00 (s.i O.AuditFill) else s
  else if !high then { s with sc := { s.sc with backlog := false } }
  else s

/-- Bytes of records. -/
def auditSize (l : List Rec) : Nat := lsum (l.map fun (r : Rec) => 16 * r.length)

/-- The unracked bytes grow by records (R500, R501). -/
def State.auditGrow (l : List Rec) (s : State) : State := (s.iSet O.AuditFill (s.i O.AuditFill + auditSize l)).auditCond

/-- SOURCE_GID, TYPE and SEQUENCE of an entry. -/
def entryId (r : Rec) : Nat × Nat × Nat := (rSrc r, rType r, rSeq r)

/-- Appends an entry; at 100 % of the region the lead refuses it and counts it in LOST. Another twin, which follows the lead's admission, holds what it cannot store in the management heap (R500). -/
def State.auditAppend (r : Rec) (s : State) : State :=
  let n := 16 * r.length
  if s.isLead ∧ auditBytes < s.i O.AuditFill + n then { s with sc := { s.sc with lost := s.sc.lost + 1, gapDue := true, refused := s.sc.refused ++ [entryId r] } }
  else { s with sc := { s.sc with entries := s.sc.entries ++ [(s.ft .icd, r)] } }.auditGrow [r]

/-- The lead's refusals as they reach the other twin: the entries that it holds of them leave, counted in LOST (R500). -/
def State.auditRefuse (l : List (Nat × Nat × Nat)) (s : State) : State :=
  let out := s.sc.entries.filter fun e => l.contains (entryId e.2)
  if out.isEmpty then s
  else
    ({ s with sc := { s.sc with lost := s.sc.lost + out.length, gapDue := true, entries := s.sc.entries.filter fun e => !l.contains (entryId e.2) } }.iSet O.AuditFill
      (s.i O.AuditFill - lsum (out.map fun (e : Nat × Rec) => 16 * e.2.length))).auditCond

/-- An AuditSealRecord from below: the first seal of an interval from each child pair is appended, the other twin's is discarded (R496, R502). -/
def State.childSealTake (link : Nat) (r : Rec) (s : State) : State :=
  let k := recFld r 128 64
  if (tget s.sc.childSeal link).any fun n => decide (k ≤ n) then s
  else { s with sc := { s.sc with childSeal := tset s.sc.childSeal link k } }.auditAppend r

/-- ProvenanceRecords that the audit cask holds. -/
def State.auditProvs (s : State) : List Rec :=
  ((s.sc.archive.flatMap (·.2)) ++ (s.sc.sealed.flatMap (·.2)) ++ s.sc.entries.map (·.2)).filter fun r => rType r == 0xC1

/-- The tenant form of an audit entry: its stamps coarsened (R118, R369, R375). -/
def tenantForm (r : Rec) : Rec :=
  if rType r = 0xC1 ∨ rType r = 0xC4 then recSet (recSet r 256 128 (coarsenStamp (recFld r 256 128))) 384 128 (coarsenStamp (recFld r 384 128))
  else r

/-- The chain head after an entry (R496). -/
def chainHead (head : Nat) (r : Rec) : Nat := Config.sha384 (natBytes 48 head ++ natBytes 48 (Config.sha384 (recBytes r)))

/-- A partition takes a table slot and opens its leaf (R481, R496). -/
def State.leafOpen (part slot epoch : Nat) (s : State) : State :=
  { s with sc := { s.sc with slots := tset s.sc.slots part slot, leaves := tset s.sc.leaves slot ⟨part, Config.sha384 (natBytes 2 part ++ natBytes 8 epoch), 0, 0, false⟩ } }

/-- A CREATE takes the lowest free table slot and opens its leaf (R481, R496). -/
def State.leafCreate (part epoch : Nat) (s : State) : State :=
  match (List.range 1024).find? fun n => !s.sc.slots.any fun p => p.2 == n with
  | some n => s.leafOpen part n epoch
  | none => s

/-- The slot is released when the identifier reaches FREE; its leaf empties at the next interval, its binding is removed (R481, R486, R500). -/
def State.leafFree (part : Nat) (s : State) : State :=
  let lv := s.sc.leaves.map fun p => if p.2.part = part ∧ p.1 < 1024 then (p.1, { p.2 with freed := true }) else p
  let s : State := { s with sc := { s.sc with slots := tdel s.sc.slots part, leaves := lv } }
  match s.vfOf part with
  | some v => s.iSet (vfKey O.VfPartition v) 0
  | none => s

/-- A partition enters SEALING: its PartitionClosedRecord is owed at a Tray, and its VF's TDI enters ERROR from CONFIG_LOCKED or RUN (R420, R486, R500). -/
def State.partitionSealing (part et : Nat) (s : State) : State :=
  let s : State := if s.role = 1 then { s with sc := { s.sc with closing := s.sc.closing ++ [(part, et)] } } else s
  match s.vfOf part with
  | some v => let t := s.i (vfKey O.TdiState v); if t = 1 ∨ t = 2 then s.iSet (vfKey O.TdiState v) 3 else s
  | none => s

end Sys2Proof.Machine
end

