-- ==== Sys2Proof/Machine/Rouse.lean ====
section
/-! DEFINITION. Rouse entries: counted events, injections and RouseRecords (R535–R538). -/

namespace Sys2Proof.Machine

/-- Writes a RouseRecord: to the event recorder, and to the operator's and the partition's audit leaves (R538). -/
def State.rouseRecord (n event cfg target count cred : Nat) (s : State) : State :=
  let part := bits cfg 16 16
  let (r, s) := s.form .icd 0xF8 4 0 part
    [(128, 8, n), (136, 8, event), (192, 64, cfg), (256, 32, target), (288, 32, count), (320, 16, cred), (384, 64, s.ft .icd / 65536)]
  (s.record 0 0 srcSecurity r).auditAppend r

/-- Disarms an entry with the event that names why (R537, R538). -/
def State.rouseDisarm (n event : Nat) (s : State) : State :=
  let k := inst O.RouseConfig n
  let v := s.i k
  if !bit v 4 then s
  else
    let s : State := { (s.iSet k (setBit v 4 false)) with pw := { s.pw with injectors := tdel s.pw.injectors n } }
    s.rouseRecord n event v (s.i (inst O.RouseTarget n)) (s.i (inst O.RouseCount n)) (tgetD s.pw.rouseCred n 0)

/-- An event of a kind that concerns a partition, a stream type and a target: entries count it, and the one on whose 2^RATE-th event it falls injects its MAGNITUDE once; at RouseLimit the entry disarms itself (R535–R537). -/
def State.rouseEvent (kind st part : Nat) (tgt : Nat → Bool) (s : State) : Option Nat × State :=
  (List.range 16).foldl (fun acc n =>
    let s : State := acc.2
    let v := s.i (inst O.RouseConfig n)
    let helad := kind == 1 || kind == 3 || (kind == 4 && decide (64 ≤ s.i (inst O.RouseTarget n)))
    if bit v 4 && bits v 0 4 == kind && bits v 16 16 == part && (kind == 3 || kind == 4 || bits v 8 4 == 0 || bits v 8 4 == st) && tgt (s.i (inst O.RouseTarget n)) &&
        (!helad || (tget s.pw.injectors n).isSome) then
      let seen := tgetD s.pw.rouseSeen n 0 + 1
      let s : State := { s with pw := { s.pw with rouseSeen := tset s.pw.rouseSeen n seen } }
      if seen % 2 ^ bits v 44 5 = 0 then
        let c := s.i (inst O.RouseCount n) + 1
        let s : State := s.iSet (inst O.RouseCount n) (c % 2 ^ 32)
        let lim := s.i (inst O.RouseLimit n)
        (some (bits v 32 12), if lim ≠ 0 ∧ lim ≤ c then s.rouseDisarm n 2 else s)
      else (acc.1, s)
    else (acc.1, s)) (none, s)

/-- The die that an entry's target names: a die GID, or the die of a slot (R535). -/
def State.rouseDie (n : Nat) (s : State) : Nat :=
  let t := s.i (inst O.RouseTarget n)
  if t < 64 then tgetD s.ln.dieGid t 0 else t

/-- A MemoryErrorRecord of the Helad's SRAM (R449, R450): KIND 0 corrected or 1 uncorrectable; address, instance and symbol are free values. -/
def State.heladMemRec (kind : Nat) (s : State) : Rec × State :=
  let a := s.fresh 64
  let i := a.2.fresh 16
  let y := i.2.fresh 32
  let (st, s) := y.2.takeStamp .hel fnRecord
  s.form .hel 0xF0 4 0 0
    [(128, 128, st), (256, 8, 3), (264, 8, kind), (304, 8, if kind = 0 then y.1 % 72 else 0xFF), (320, 64, a.1), (384, 32, i.1)]

/-- Writes a MemoryErrorRecord of the Helad's SRAM to its AO ring. -/
def State.heladMemError (kind : Nat) (s : State) : State :=
  let p := s.heladMemRec kind
  p.2.hRing (if kind = 0 then 1 else 2) p.1

/-- A read of Helad SRAM of a partition's traffic under ECC_SYNDROME (R536): one flipped bit is corrected and recorded, two are an uncorrectable read, which is answered. -/
def State.heladRead (part : Nat) (s : State) : Bool × State :=
  match s.rouseEvent 4 0 part (fun t => t == s.hGid) with
  | (some 1, s) => (false, s.heladMemError 0)
  | (some 0, s) => (false, s)
  | (some _, s) => (true, s)
  | (none, s) => (false, s)

/-- The delay that FT_JITTER gives the launch of a timed action at this Helad: v mod (MAGNITUDE + 1) ns, v a free value, as the spec names no feedback of its LFSR (R536). -/
def State.jitterDelay (s : State) : Nat × State :=
  match (List.range 16).find? fun n => bits (s.i (inst O.RouseConfig n)) 0 5 == 19 && s.i (inst O.RouseTarget n) == s.hGid with
  | none => (0, s)
  | some n =>
    match s.rouseEvent 3 0 (bits (s.i (inst O.RouseConfig n)) 16 16) (fun t => t == s.hGid) with
    | (none, s) => (0, s)
    | (some m, s) => let p := s.fresh 32; (ns (p.1 % (m + 1)), p.2)

/-- Whether a launch at this Helad is held by FT_JITTER; the delay is drawn once. -/
def State.jitterHold (key : Nat) (s : State) : Bool × State :=
  match tget s.pw.jitter key with
  | some t => if s.ft .hel < t then (true, s) else (false, { s with pw := { s.pw with jitter := tdel s.pw.jitter key } })
  | none =>
    let p := s.jitterDelay
    if p.1 = 0 then (false, p.2)
    else (true, { p.2 with pw := { p.2.pw with jitter := tset p.2.pw.jitter key (p.2.ft .hel + p.1) } })

/-- Entries whose partition has left TEST or whose die has left the partition disarm themselves (R537). -/
def State.rouseCheck (s : State) : State :=
  (List.range 16).foldl (fun s n =>
    let v := s.i (inst O.RouseConfig n)
    if bit v 4 && (s.partState (bits v 16 16) != partTest || !s.partMember (bits v 16 16) (s.rouseDie n)) then s.rouseDisarm n 3 else s) s

end Sys2Proof.Machine
end

