-- ==== Sys2Proof/Machine/Trace.lean ====
section
/-! DEFINITION. The trace funnel, its sequencer and the bench port (R121–R147). -/

namespace Sys2Proof.Machine

/-- A source at reset. -/
def trSrc0 : TrSrc := ⟨none, none, none, [], false, 0, false, false, false, false, [], false⟩

/-- A trace source's state. -/
def State.tsrc (s : State) (k : Nat) : TrSrc := tgetD s.tr.srcs k trSrc0

/-- Bytes that LOSS and FULL_SYNC entries take among packed entries (R127). -/
def reservedIn : Nat → List Nat → Nat
  | 0, _ => 0
  | n + 1, b =>
    match b with
    | x :: y :: _ =>
      let h := x + 256 * y
      let len := 2 + bits h 4 9
      (if bits h 0 4 = 2 ∨ bits h 0 4 = 3 then len else 0) + reservedIn n (b.drop len)
    | _ => 0

/-- Bytes that LOSS and FULL_SYNC entries take in a TraceBlockRecord. -/
def reservedRec (r : Rec) : Nat := reservedIn 256 (((recBytes r).drop 32).take (recFld r 168 12))

/-- The TraceBlockRecords of a source that are closed and not yet wholly sent. -/
def State.blocksOf (s : State) (k : Nat) : List Rec :=
  (s.tr.closed.filter fun c => c.2.1 == k).map (·.2.2.1) ++ ((s.laneQ stTrace).map (·.2)).filter fun r => recFld r 128 6 == k

/-- Bytes of a source's part of the reserve in use: LOSS and FULL_SYNC entries, up to 64 bytes (R124). -/
def State.reserveUsed (s : State) (k : Nat) : Nat :=
  min 64 ((match (s.tsrc k).block with | some b => reservedIn 2048 b.bytes | none => 0) + ((s.blocksOf k).map reservedRec).sum)

/-- Bytes in the trace buffer that count in its fill (R124): open blocks, closed blocks and the block being sent, without the reserve for LOSS and FULL_SYNC entries. -/
def State.traceFill (s : State) : Nat :=
  (s.tr.srcs.map fun p => match p.2.block with | some b => b.bytes.length | none => 0).sum +
    (s.tr.closed.map fun c => 16 * c.2.2.1.length).sum + s.laneBytes stTrace - (s.tr.srcs.map fun p => s.reserveUsed p.1).sum

/-- Keeps BufferFill. -/
def State.fillSync (s : State) : State := s.hSet O.BufferFill (s.traceFill % 2 ^ 32)

/-- Stores a source's state. -/
def State.setTsrc (k : Nat) (c : TrSrc) (s : State) : State := { s with tr := { s.tr with srcs := tset s.tr.srcs k c } }

/-- The sequencer's state: STATE of SeqControl. -/
def State.seqState (s : State) : Nat := bits (s.h O.SeqControl) 3 2

/-- The source mask in force (R136). -/
def State.traceMask (s : State) : Nat :=
  if bit (s.h O.SeqControl) 0 then s.h (inst O.SourceMask s.seqState) else s.h O.TraceEnable

/-- Whether a source is wired (R121). -/
def State.tWired (s : State) (k : Nat) : Bool := bit (s.h (O.TraceSource + k)) 3

/-- The cadence index now (R129). -/
def State.cadIdx (s : State) : Nat := s.ft .hel / us (max 1 s.tr.cad)

/-- The 16-bit entry header (R127). -/
def entryBytes (kind : Nat) (payload : List Nat) : List Nat :=
  natBytes 2 (kind + payload.length * 16) ++ payload

/-- Closes a source's open block: a TraceBlockRecord becomes eligible (R125, R126). -/
def State.closeBlock (k : Nat) (s : State) : State :=
  let c := s.tsrc k
  match c.block with
  | none => s
  | some b =>
    let n := b.bytes.length
    let (r, s) := s.form .hel 0x40 (2 + (n + 15) / 16) 0 b.part
      [(128, 6, k), (134, 2, b.cls), (136, 32, c.seq), (168, 12, n), (256, 8 * n, bytesNat b.bytes)]
    let s : State := s.setTsrc k { c with block := none, seq := (c.seq + 1) % 2 ^ 32 }
    ({ s with tr := { s.tr with closed := s.tr.closed ++ [(b.cls, k, r, s.h O.HeladCutNumber)] } }.wake 4).fillSync

/-- Adds an entry to a source's open block, closing one it does not fit (R125, R126). -/
def State.addEntry (k kind : Nat) (payload : List Nat) (s : State) : State :=
  let e := entryBytes kind payload
  let full := match (s.tsrc k).block with | some b => decide (b.bytes.length + e.length > 4064) | none => false
  let s : State := if full then s.closeBlock k else s
  let c := s.tsrc k
  let cfg := s.h (O.TraceSource + k)
  let b := c.block.getD ⟨[], s.ft .hel, bits cfg 16 16, bits cfg 0 2⟩
  s.setTsrc k { c with block := some { b with bytes := b.bytes ++ e } }

/-- The state flags of a FULL_SYNC (R128): HOLDOVER, DOZING, UNLOCKED. -/
def State.syncState (s : State) : Nat :=
  let st := s.h O.FtState
  b2n (s.holdoverFlag .hel) + 2 * b2n s.dozing + 8 * b2n (st == 0 || st == 1)

/-- The state flags as they were at the boundary with index `i` (R128): those kept for the last boundary. -/
def State.boundaryFlags (s : State) (i : Nat) : Nat := if i = s.tr.lastK then s.tr.lastF else s.syncState

/-- Whether a forward step reached the boundary with index `i` (R47, R128, R147). -/
def State.steppedAt (s : State) (i : Nat) : Bool :=
  let t := i * us (max 1 s.tr.cad)
  decide (s.tm.hStep.1 < t ∧ t ≤ s.tm.hStep.2)

/-- Writes a FULL_SYNC with index `i`: the flags of its boundary, and those that occur once, AFTER_LOSS when a LOSS entry stands before it (R128, R131, R132). -/
def State.fullSync (k i : Nat) (resume : Bool) (s : State) : State :=
  let c := s.tsrc k
  let stf := s.boundaryFlags i
  let p := packFields [(0, 64, i), (64, 16, s.tr.cad), (80, 16, s.h O.FtSegment), (96, 1, b2n resume), (97, 1, b2n c.restart),
    (98, 1, b2n c.lossMark), (99, 1, stf), (100, 1, stf / 2), (101, 1, b2n (s.steppedAt i)), (102, 1, stf / 8), (103, 1, b2n c.resetDue)]
  let s : State := s.addEntry k 2 (natBytes 16 p)
  s.setTsrc k { s.tsrc k with owed := none, full := some (i, stf), restart := false, resetDue := false, fullDue := false, lossMark := false }

/-- Whether a sync with index `i` is written as a FULL_SYNC (R131). DESIGN CHOICE (log 164): of the flags only HOLDOVER, DOZING and UNLOCKED are compared with the last FULL_SYNC; the fall of a flag that marks one sync is no difference. -/
def State.needsFull (s : State) (k i : Nat) : Bool :=
  let c := s.tsrc k
  c.restart || c.resetDue || c.fullDue || s.steppedAt i ||
    match c.full with
    | none => true
    | some f => decide (i ≥ f.1 + s.h O.FullSyncEvery) || decide (i + s.h O.FullSyncEvery ≤ f.1) || f.2 != s.boundaryFlags i

/-! ### The sequencer (R134–R137) -/

/-- CompConfig KIND of a comparator. -/
def State.compKind (s : State) (k : Nat) : Nat := bits (s.h (inst O.CompConfig k)) 0 4

/-- Comparators of a KIND that satisfy a test, as a mask. -/
def State.compMask (s : State) (kind : Nat) (p : Nat → Bool) : Nat :=
  ((List.range 8).map fun k => if s.compKind k = kind ∧ p k then 2 ^ k else 0).sum

/-- Sources that the mask in force enables and `before` did not owe a FULL_SYNC with RESTART; a sync owed from before is void (R136). -/
def State.maskMoved (before : Nat) (s : State) : State :=
  (setBitsOf 64 s.traceMask).foldl (fun s k => if bit before k then s else s.setTsrc k { s.tsrc k with restart := true, owed := none }) s

/-- Enters a sequencer state: the counters of CNT_RESET are set to 0, with no target event of theirs left; RESTART for sources it enables anew (R136). `before`: the mask that was in force. -/
def State.seqEnter (before st : Nat) (s : State) : State :=
  let s : State := s.hSet O.SeqControl (setBits (s.h O.SeqControl) 3 2 st)
  let rst := bits (s.h (inst O.StateControl st)) 28 4
  let s : State := (setBitsOf 4 rst).foldl (fun s j => s.hSet (inst O.SeqCounterValue j) 0) s
  { s with tr := { s.tr with cntPend := (setBitsOf 4 rst).foldl (fun m j => setBit m j false) s.tr.cntPend } }.maskMoved before

/-- A transition (R136, R137): its number, the TriggerRecord with what satisfied it, MARK entries owed. -/
def State.seqTransit (from_ to_ comps cnts : Nat) (s : State) : State :=
  let s : State := { s with tr := { s.tr with trans := (s.tr.trans + 1) % 2 ^ 32 } }
  let n := s.tr.trans
  let s : State := s.seqEnter s.traceMask to_
  let s : State := if bit (s.h (inst O.StateControl to_)) 32 then
      let (stm, s) := s.takeStamp .hel fnTrigger
      let (r, s) := s.form .hel 0x41 3 0 0
        [(128, 128, stm), (256, 8, from_), (264, 8, to_), (272, 8, comps), (280, 4, cnts), (288, 32, n)]
      (s.hQueue stControl r).wake 4
    else s
  (setBitsOf 64 s.traceMask).foldl (fun s k => s.setTsrc k { s.tsrc k with marks := (s.tsrc k).marks ++ [n] }) s

/-- The counters whose masks a firing comparator meets count, whether or not the sequencer is enabled; one that reaches its target has its event in the next cycle (R135). -/
def State.seqCount (comps : Nat) (s : State) : State :=
  (List.range 4).foldl (fun s j =>
    if (s.h (inst O.SeqCounterInc j) &&& comps) ≠ 0 then
      let v := (s.h (inst O.SeqCounterValue j) + 1) % 2 ^ 32
      let s : State := s.hSet (inst O.SeqCounterValue j) v
      if v = s.h (inst O.SeqCounterTarget j) then { s with tr := { s.tr with cntPend := setBit s.tr.cntPend j true } } else s
    else s) s

/-- One sequencer cycle in which the comparators `comps` fire and the counters `cnts` have their target event: counters count, and while ENABLE is 1 at most one transition, transition 0 first (R135–R137). -/
def State.seqCycle (comps cnts : Nat) (s : State) : State :=
  let s : State := s.seqCount comps
  if !bit (s.h O.SeqControl) 0 then s
  else
    let st := s.seqState
    let ctl := s.h (inst O.StateControl st)
    let a := bits ctl 0 8 &&& comps
    let b := bits ctl 8 4 &&& cnts
    let c := bits ctl 14 8 &&& comps
    let d := bits ctl 22 4 &&& cnts
    if a ≠ 0 ∨ b ≠ 0 then s.seqTransit st (bits ctl 12 2) a b
    else if c ≠ 0 ∨ d ≠ 0 then s.seqTransit st (bits ctl 26 2) c d
    else s

/-- A cycle without a firing comparator makes no difference; comparators that fire present one. -/
def State.fire (comps : Nat) (s : State) : State := if comps = 0 then s else s.seqCycle comps 0

/-- KIND 2: a boundary transfers. -/
def State.fireBoundary (stream edge : Nat) (s : State) : State :=
  s.fire (s.compMask 2 fun k => bits (s.h (inst O.CompConfig k)) 11 4 == stream && bits (s.h (inst O.CompConfig k)) 15 1 == edge)

/-- KIND 3: the comparators that the counters of one cycle fire: those whose value first reaches the comparator's; they re-arm below it. -/
def State.counterRise (l : List Nat) (s : State) : Nat × State :=
  l.foldl (fun p n =>
    let s := p.2
    let v := s.h (cval n)
    let mine := s.compMask 3 fun k => bits (s.h (inst O.CompConfig k)) 16 12 == n
    let now := ((setBitsOf 8 mine).map fun k => if s.h (inst O.CompValue k) ≤ v then 2 ^ k else 0).sum
    let rise := ((setBitsOf 8 now).map fun k => if bit s.tr.above k then 0 else 2 ^ k).sum
    let keep := ((setBitsOf 8 s.tr.above).map fun k => if bit mine k then 0 else 2 ^ k).sum
    (p.1 ||| rise, { s with tr := { s.tr with above := keep + now } })) (0, s)

/-- The counters that one tap has moved present their KIND 3 events together, in one cycle (R134–R136). -/
def State.fireCounters (l : List Nat) (s : State) : State := let p := s.counterRise l; p.2.fire p.1

/-- KIND 4: a capture input records a rising edge. -/
def State.fireCapture (n : Nat) (s : State) : State :=
  s.fire (s.compMask 4 fun k => bits (s.h (inst O.CompConfig k)) 28 3 == n)

/-- KIND 6: a LOSS entry is written for a source. -/
def State.fireLoss (src : Nat) (s : State) : State :=
  s.fire (s.compMask 6 fun k => bit (s.h (inst O.CompConfig k)) 10 || bits (s.h (inst O.CompConfig k)) 4 6 == src)

/-- KIND 1: the packet's first 8 bytes under the mask equal the value (R134). DESIGN CHOICE (log 165): the bytes that a shorter packet lacks compare as 0. -/
def State.matchPacket (s : State) (src : Nat) (data : List Nat) : Nat :=
  s.compMask 1 fun k => (bit (s.h (inst O.CompConfig k)) 10 || bits (s.h (inst O.CompConfig k)) 4 6 == src) &&
    (bytesNat (data.take 8) &&& s.h (inst O.CompMask k)) == s.h (inst O.CompValue k)

/-! ### Keeping and dropping (R122, R124, R132, R133) -/

/-- Adds lost packets to a source's losses: the same cause continues one loss. -/
def State.addLoss (k cause bytes : Nat) (unknown : Bool) (s : State) : State :=
  let c := s.tsrc k
  let cls := bits (s.h (O.TraceSource + k)) 0 2
  let s : State := if unknown then s else s.addOb .hel (O.LossBytes + k) 64 bytes
  let l := match c.losses.reverse with
    | l :: rest =>
      if l.cause = cause then rest.reverse ++ [{ l with packets := l.packets + 1, bytes := l.bytes + bytes, unknown := l.unknown || unknown }]
      else c.losses ++ [⟨cls, cause, 1, bytes, s.cadIdx, unknown⟩]
    | [] => [⟨cls, cause, 1, bytes, s.cadIdx, unknown⟩]
  s.setTsrc k { c with losses := l }

/-- The LOSS payload (R132). -/
def lossBytesOf (l : TrLoss) : List Nat :=
  natBytes 16 (packFields [(0, 8, l.cls), (8, 8, l.cause), (16, 16, if l.unknown then 0xFFFF else sat 0xFFFF l.packets),
    (32, 32, if l.unknown then 0xFFFFFFFF else sat 0xFFFFFFFE l.bytes), (64, 32, l.first)])

/-- Writes the LOSS entries a source owes, and marks that a FULL_SYNC with AFTER_LOSS is to follow (R132). -/
def State.writeLosses (k : Nat) (s : State) : State :=
  let l := (s.tsrc k).losses
  let s : State := s.setTsrc k { s.tsrc k with losses := [], lossMark := (s.tsrc k).lossMark || !l.isEmpty }
  l.foldl (fun s x => (s.addEntry k 3 (lossBytesOf x)).fireLoss k) s

/-- Writes what a source owes before its next kept packet: LOSS entries and the FULL_SYNC after them, else an owed sync, then MARKs (R129, R131, R132, R137). DESIGN CHOICE (log 109): losses of several causes are written one after another, and one FULL_SYNC follows them all. -/
def State.writeOwed (k : Nat) (s : State) : State :=
  let s : State := s.writeLosses k
  let c := s.tsrc k
  let i := s.cadIdx
  let s : State := if c.lossMark then s.fullSync k i false
    else match c.owed with
      | some j => if s.needsFull k j then s.fullSync k j false
                  else (s.addEntry k 1 (natBytes 2 j)).setTsrc k { (s.addEntry k 1 (natBytes 2 j)).tsrc k with owed := none }
      | none => if c.full.isNone ∨ c.restart ∨ c.resetDue then s.fullSync k i false else s
  let m := (s.tsrc k).marks
  let s : State := s.setTsrc k { s.tsrc k with marks := [] }
  m.foldl (fun s n => s.addEntry k 5 (natBytes 4 n)) s

/-- Beats of a packet. -/
abbrev beatsOf (n : Nat) : Nat := (n + 7) / 8

/-- TRACE_PACKET (R122, R124, R130, R132–R134): only a source of the mask in force has losses (R136); a dozing source's beats transfer, so that KIND 1 sees them; more than 256 bytes are OVERLENGTH. DESIGN CHOICE (log 109): a packet that meets both a short FIFO and its class threshold has cause INGRESS_FULL. -/
def State.tracePacket (k : Nat) (data : List Nat) (bad : Nat) (s : State) : State :=
  let c := s.tsrc k
  let cfg := s.h (O.TraceSource + k)
  let drop := bit cfg 2
  let n := data.length
  let bad := if 256 < n then 3 else bad
  let on := bit s.traceMask k
  if !s.tWired k then s
  else if c.dozing then
    let m := s.matchPacket k data
    (if on then s.addLoss k 5 n false else s).fire m
  else if !s.awake 3 then
    let s : State := s.wake 3
    if drop && on then s.addLoss k 2 n true else s
  else
    let short := decide (tgetD s.tr.fifo k 0 > 32)
    let high := decide (s.traceFill * 100 ≥ 524288 * s.h (O.ClassThreshold + bits cfg 0 2))
    if !drop && (short || high) then s
    else
      let m := s.matchPacket k data
      let s : State := if !on then s
        else if short then s.addLoss k 1 n false
        else if high then s.addLoss k 0 n false
        else if bad ≠ 0 then s.addLoss k bad n false
        else
          let s : State := { s with tr := { s.tr with fifo := tset s.tr.fifo k (tgetD s.tr.fifo k 0 + beatsOf n) } }
          let s : State := (s.writeOwed k).addEntry k 0 data
          s.setTsrc k { s.tsrc k with lastF0 := data.headD 0 == 0xF0 }
      (s.fire m).fillSync

/-- TRACE_PACKET. -/
def execTracePacket (src : Nat) (data : List Nat) (bad : Nat) : State → Host.Outcome State Fault Refusal :=
  run (State.tracePacket src data bad)

/-- TRACE_CADENCE_BOUNDARY: every enabled source that is not dozing owes a sync with the new index; a written cadence takes effect at its boundary, with a FULL_SYNC (R129, R131). -/
def State.traceCadenceBoundary (s : State) : State :=
  let s : State := match s.tr.cadNext with
    | some (v, t) =>
      if t ≤ s.ft .hel then
        let s : State := { s with tr := { s.tr with cad := v, cadNext := none, lastK := 0 } }
        (List.range 64).foldl (fun s k => if s.tWired k then s.setTsrc k { s.tsrc k with fullDue := true } else s) s
      else s
    | none => s
  let i := s.cadIdx
  if i ≤ s.tr.lastK then s
  else
    let s : State := { s with tr := { s.tr with lastK := i, lastF := s.syncState } }
    (setBitsOf 64 s.traceMask).foldl (fun s k =>
      if s.tWired k ∧ !(s.tsrc k).dozing then s.setTsrc k { s.tsrc k with owed := some i } else s) s

/-- TRACE_CADENCE_BOUNDARY. -/
def execTraceCadenceBoundary : State → Host.Outcome State Fault Refusal := run State.traceCadenceBoundary

/-- TRACE_CADENCE_WRITE: in effect at the first multiple of the new cadence after the write (R131). DESIGN CHOICE (log 164): a later write replaces one that still waits. -/
def State.traceCadenceOp (v : Nat) : Op := fun s =>
  let t := (s.ft .hel / us (max 1 v) + 1) * us (max 1 v)
  ({ (s.hSet O.TraceCadence v) with tr := { s.tr with cadNext := some (v, t) } }, ok)

/-- TRACE_CADENCE_WRITE. -/
def execTraceCadenceWrite (q : Req) (v : Nat) : State → Host.Outcome State Fault Refusal :=
  run (State.proxyWrite q O.TraceCadence v (State.traceCadenceOp v))

/-- TRACE_BLOCK_FLUSH: a block closes FlushLatency after its first entry (R125). -/
def State.traceBlockFlush (k : Nat) (s : State) : State :=
  match (s.tsrc k).block with
  | some b => if b.first + us (s.h O.FlushLatency) ≤ s.ft .hel then s.closeBlock k else s
  | none => s

/-- TRACE_BLOCK_FLUSH. -/
def execTraceBlockFlush (src : Nat) : State → Host.Outcome State Fault Refusal := run (State.traceBlockFlush src)

/-- A SourceDozeRecord (R140). -/
def State.sourceDoze (k edge synth : Nat) (s : State) : State :=
  let s : State := s.hCount (O.DozeCount + k)
  let (stm, s) := s.takeStamp .hel fnRecord
  let (r, s) := s.form .hel 0x42 3 0 (bits (s.h (O.TraceSource + k)) 16 16)
    [(128, 128, stm), (256, 8, k), (264, 8, edge), (272, 8, synth)]
  s.hQueue stCounter r

/-- TF_DOZE_RISE (R138, R140, R147): a packet in transfer, of which `cut` has transferred, is discarded. DESIGN CHOICE (log 110): a source outside the mask in force has no stream, so it gets neither DOZE nor the FULL_SYNC at resume. While a reset is held TRACE only follows the line (R76). -/
def State.tfDozeRise (k : Nat) (cut : List Nat) (s : State) : State :=
  let c := s.tsrc k
  if !s.tWired k || c.dozing then s
  else if s.heladReset then s.setTsrc k { c with dozing := true, owed := none }
  else
    let synth := !c.lastF0
    let on := bit s.traceMask k
    let m := if cut.isEmpty then 0 else s.matchPacket k cut
    let s : State := if cut.isEmpty ∨ !on then s else s.addLoss k 5 cut.length false
    let s : State := s.fire m
    let s : State := if on then
        let s : State := s.writeLosses k
        (s.addEntry k 4 (natBytes 2 (b2n synth))).closeBlock k
      else s
    let s : State := s.setTsrc k { s.tsrc k with dozing := true, owed := none }
    s.sourceDoze k 1 (b2n synth)

/-- TF_DOZE_RISE. -/
def execTfDozeRise (src : Nat) (cut : List Nat) : State → Host.Outcome State Fault Refusal := run (State.tfDozeRise src cut)

/-- TF_DOZE_FALL: at once a FULL_SYNC with RESUME carrying the latest index (R139, R140). -/
def State.tfDozeFall (k : Nat) (s : State) : State :=
  let c := s.tsrc k
  if !s.tWired k || !c.dozing then s
  else if s.heladReset then s.setTsrc k { c with dozing := false }
  else
    let s : State := s.setTsrc k { c with dozing := false }
    let s : State := if bit s.traceMask k then
        let s : State := s.writeLosses k
        (s.fullSync k s.cadIdx true).fillSync
      else s
    s.sourceDoze k 0 0

/-- TF_DOZE_FALL. -/
def execTfDozeFall (src : Nat) : State → Host.Outcome State Fault Refusal := run (State.tfDozeFall src)

/-- SEQ_ENABLE: a SeqControl write; setting ENABLE enters START_STATE and applies its CNT_RESET; clearing it puts TraceEnable in force (R136). DESIGN CHOICE (log 165): bits [7:5], which R136 gives no field, are refused with RANGE when set. -/
def State.seqEnableOp (v : Nat) : Op := fun s =>
  if bits v 5 3 ≠ 0 then (s, no stRange)
  else
    let before := s.traceMask
    let w := packFields [(0, 3, v), (3, 2, bits (s.h O.SeqControl) 3 2)]
    let s : State := s.hSet O.SeqControl w
    if bit v 0 then ((s.seqEnter before (bits v 1 2)).wake 3, ok) else (s.maskMoved before, ok)

/-- SEQ_ENABLE. -/
def execSeqEnable (q : Req) (v : Nat) : State → Host.Outcome State Fault Refusal :=
  run (State.proxyWrite q O.SeqControl v (State.seqEnableOp v))

/-- SEQ_COUNTER_TARGET: the target events of the last cycle are presented (R135). -/
def State.seqCounterTarget (s : State) : State :=
  let c := s.tr.cntPend
  if c = 0 then s else { s with tr := { s.tr with cntPend := 0 } }.seqCycle 0 c

/-- SEQ_COUNTER_TARGET. -/
def execSeqCounterTarget : State → Host.Outcome State Fault Refusal := run State.seqCounterTarget

/-- COMP_FT_INSTANT: a KIND 5 comparator fires once per write when FT NS reaches its value (R134). -/
def State.compFtInstant (k : Nat) (s : State) : State :=
  if s.compKind k = 5 ∧ !bit s.tr.fired5 k ∧ s.h (inst O.CompValue k) ≤ s.ft .hel / 65536 then
    { s with tr := { s.tr with fired5 := setBit s.tr.fired5 k true } }.fire (2 ^ k)
  else s

/-- COMP_FT_INSTANT. -/
def execCompFtInstant (k : Nat) : State → Host.Outcome State Fault Refusal := run (State.compFtInstant k)

/-- TRIGGER_CODE: KIND 7 comparators whose code matches fire (R134). -/
def State.triggerCode (code : Nat) (s : State) : State :=
  s.fire (s.compMask 7 fun k => bits (s.h (inst O.CompValue k)) 0 16 == code)

/-- TRIGGER_CODE. -/
def execTriggerCode (code : Nat) : State → Host.Outcome State Fault Refusal := run (State.triggerCode code)

/-- HMAIN_RST_N at the trace funnel (R141): the buffer, open blocks and owed syncs are lost, sequencer state and counters return to reset, each enabled source owes a LOSS of cause RESET and a FULL_SYNC with RESET; SOURCE_SEQ stays. DESIGN CHOICE (log 111): the transition number is state of the sequencer and returns to 0 with it. -/
def State.traceReset (s : State) : State :=
  let s : State := (s.hSet O.SeqControl (setBits (s.h O.SeqControl) 3 2 0)).hSet O.BufferFill 0
  let s : State := (List.range 4).foldl (fun s j => s.hSet (inst O.SeqCounterValue j) 0) s
  let srcs := (List.range 64).filterMap fun k =>
    let c := s.tsrc k
    if s.tWired k ∧ bit s.traceMask k then
      some (k, { trSrc0 with seq := c.seq, dozing := c.dozing, resetDue := true, losses := [⟨bits (s.h (O.TraceSource + k)) 0 2, 6, 0, 0, s.cadIdx, true⟩] })
    else if c = trSrc0 then none else some (k, { trSrc0 with seq := c.seq, dozing := c.dozing })
  { s with tr := { s.tr with srcs := srcs, closed := [], fifo := [], cntPend := 0, above := 0, trans := 0 },
           hd := s.hd.filter fun p => keyIdx p.1 != 0x3404 }

/-! ### The bench port (R143–R145) -/

/-- A record as the bench port sends it (R144): each unit as four words, the least significant first, BTP_FS as bit 32 of the first word; the words of 0 between records, two so that a record begins on a rising edge. -/
def benchWords (r : Rec) : List Nat :=
  (r.flatMap fun u => [bits u 0 32, bits u 32 32, bits u 64 32, bits u 96 32]).zipIdx.map (fun p => if p.2 = 0 then p.1 + 2 ^ 32 else p.1) ++ [0, 0]

/-- Copies a restored record to the bench port: only matching records, never a tenant's outside TEST, within the port's rate; a gap record tells what was dropped. -/
def State.benchCopy (r : Rec) (s : State) : State :=
  let ty := rType r
  let die := s.i O.BenchDie
  let srcOk := !(ty == 0x40 || ty == 0x42) || bit (s.i O.BenchSources) (recFld r (if ty = 0x40 then 128 else 256) (if ty = 0x40 then 6 else 8))
  if s.i O.BenchEnable ≠ 1 ∨ !(die == 0 || die == rSrc r) ∨ !bit (s.i O.BenchTypes) ty ∨ !srcOk then s
  else if rPart r ≠ 0 ∧ s.partState (rPart r) ≠ partTest then s.iCount O.BenchWithheld
  else
    let n := 16 * r.length
    if Config.benchBurst < s.tr.bench then { s with tr := { s.tr with gapRecs := s.tr.gapRecs + 1, gapBytes := s.tr.gapBytes + n } }
    else
      let s : State := if s.tr.gapRecs = 0 then s else
        let (g, s) := s.form .icd 0x43 2 0 0 [(128, 32, s.tr.gapRecs), (160, 64, s.tr.gapBytes)]
        ({ s with tr := { s.tr with gapRecs := 0, gapBytes := 0 } }.iCount O.BenchGaps).put .bench 0 (benchWords g)
      { s with tr := { s.tr with bench := s.tr.bench + n + 8 } }.put .bench 0 (benchWords r)

end Sys2Proof.Machine
end

