-- ==== Sys2Proof/Machine/Grist.lean ====
section
/-! DEFINITION. Grist ingress's stores: staging, the look-back ring, the ingress index, casks, racking and fining jobs (R206–R217, R222, R223). -/

namespace Sys2Proof.Machine

/-! ### The ingress index (R209, R210) -/

/-- Entries of 16 bytes that the ingress index region holds (R22, R209). -/
abbrev indexRoom : Nat := 2 ^ 26

/-- Appends to the index, a circular log in the ingress index region: the oldest entry goes when it is full (R22, R209). -/
def State.indexPut (w : Nat) (s : State) : State :=
  let n := s.gr.idxCount
  ({ s with gr := { s.gr with index := (s.gr.index ++ [w]).drop (s.gr.index.length + 1 - indexRoom), idxCount := n + 1 } } : State).t1Write
    (sourceUnit srcCask) (s.regionBase 3 + n % indexRoom * 16) (natBytes 16 w)

/-- The word of an index entry (R209), stamped with the FT in µs. -/
def State.idxWord (kind st src seq cutNum pri : Nat) (fined : Bool) (region count : Nat) (s : State) : Nat :=
  packFields [(0, 4, kind), (4, 4, st), (8, 8, src), (16, 28, seq), (44, 8, cutNum), (52, 1, cutNum), (53, 2, pri), (55, 1, b2n fined),
    (56, 1, region), (57, 39, sat (2 ^ 39 - 1) count), (96, 32, s.ft .icd / us 1)]

/-- Writes an index entry (R209). -/
def State.idx (kind st src seq cutNum pri : Nat) (fined : Bool) (region count : Nat) (s : State) : State :=
  s.indexPut (s.idxWord kind st src seq cutNum pri fined region count)

/-- INDEX_ANCHOR: at every whole second an ANCHOR entry (R210). -/
def State.indexAnchor (s : State) : State :=
  let sec := s.ft .icd / ns 1000000000
  if sec ≤ s.gr.anchor then s
  else
    let w := packFields [(0, 4, 8), (8, 64, s.ft .icd / 65536), (72, 40, s.gr.ringHead), (112, 16, s.i O.FtSegment)]
    { s with gr := { s.gr with anchor := sec } }.indexPut w

/-- INDEX_ANCHOR. -/
def execIndexAnchor : State → Host.Outcome State Fault Refusal := run State.indexAnchor

/-! ### Chunks (R207, R208, R213) -/

/-- Length of a list of records in bytes. -/
def recsBytes (l : List RingRec) : Nat := lsum (l.map fun r => 16 * r.rec_.length)

/-- Casks that occupy one of the eight (R214). -/
def Cask.live (c : Cask) : Bool := c.status == 0 || c.status == 1 || c.status == 6

/-- Casks whose scope holds a slot and whose post-window, between T and T + PostWindow, holds the present FT (R213). -/
def State.openCasks (s : State) (slot : Nat) : List Cask :=
  s.gr.casks.filter fun c => c.status == 0 && bit c.scope slot && decide (bits c.trig 0 80 ≤ s.ft .icd ∧ s.ft .icd < bits c.trig 0 80 + ns c.post)

/-- Chunk numbers pinned by casks, jobs and the cask being racked. -/
def State.pinned (s : State) : List Nat :=
  (s.gr.casks.filter Cask.live).flatMap (·.pins) ++ s.gr.jobs.flatMap fun p => p.2.flatMap (·.pins)

/-- Keeps ReserveFill and CasksOpen in step. -/
def State.gristCounts (s : State) : State :=
  let fill := lsum (((s.gr.chunks ++ s.gr.open_.map (·.2)).filter fun c => c.region == 1).map fun c => if c.len = 0 then recsBytes c.recs else c.len)
  (s.iSet O.ReserveFill fill).iSet O.CasksOpen ((s.gr.casks.filter Cask.live).length)

/-- The next free run of `need` units in a circular log of `size` units from `head` on: at `head` itself, else behind an extent taken further on, else from the start. -/
def placeRun (taken : List (Nat × Nat)) (size need head : Nat) : Option Nat :=
  let ends := sortBy id (taken.map fun e => e.1 + e.2)
  ((head :: ends.filter (decide <| head ≤ ·)) ++ (0 :: ends)).find? fun o =>
    decide (o + need ≤ size) && taken.all fun e => decide (e.1 + e.2 ≤ o ∨ o + need ≤ e.1)

/-- A chunk's extent in 256-byte units. -/
def Chunk.extent (c : Chunk) : Nat × Nat := (c.off, (c.len + 255) / 256)

/-- Adds bytes to a drop run. -/
def State.addRun (ring : Bool) (key n : Nat) (s : State) : State :=
  let t := if ring then s.gr.dropRun else s.gr.resvRun
  let v := match tget t key with | some (b, f) => (b + n, f) | none => (n, s.ft .icd)
  if ring then { s with gr := { s.gr with dropRun := tset s.gr.dropRun key v } } else { s with gr := { s.gr with resvRun := tset s.gr.resvRun key v } }

/-- Writes a chunk's stored form to Tier 1 at its place, and its CHUNK entry to the index (R208, R209). -/
def State.chunkWrite (c : Chunk) (form : List Rec) (fined : Bool) (s : State) : State :=
  let base := if c.region = 1 then s.pw.layout.1 * 1073741824 else 0
  let s : State := s.t1Write (sourceUnit srcCask) (base + c.off * 256) (form.flatMap recBytes)
  (s.idx 0 ((c.recs.head?.map (·.st)).getD 0) c.slot ((c.recs.head?.map (·.seq)).getD 0) ((c.recs.head?.map (·.cut)).getD 0) c.pri fined c.region c.off).gristCounts

/-- A closed chunk enters the ring at the next free position: it overwrites the oldest chunks that are not pinned (R208). One that pins leave no room for is dropped as a ring-drop run. -/
def State.ringStore (c : Chunk) (form : List Rec) (fined : Bool) (s : State) : State :=
  let len := 16 * lsum (form.map List.length)
  let need := (len + 255) / 256
  let pins := s.pinned
  let held := (s.gr.chunks.filter fun d => d.region == 0 && pins.contains d.num).map Chunk.extent
  match placeRun held (s.pw.layout.1 * 4194304) need s.gr.ringHead with
  | some o =>
    let keep := s.gr.chunks.filter fun d => d.region == 1 || pins.contains d.num || decide (d.off + (d.len + 255) / 256 ≤ o ∨ o + need ≤ d.off)
    let c := { c with region := 0, off := o, len := len }
    { s with gr := { s.gr with ringHead := o + need, chunks := keep ++ [c] } }.chunkWrite c form fined
  | none => s.addRun true (c.slot * 4 + c.pri) (recsBytes c.recs)

/-- Writes a closed chunk to its region in the form given (R208, R213): a post-reserve chunk at the next free position of the reserve, which released chunks leave free again; data that finds no room there is written to the ring as if no cask were open, and no cask holds it. -/
def State.storeChunk (c : Chunk) (form : List Rec) (fined : Bool) (s : State) : State :=
  let len := 16 * lsum (form.map List.length)
  let need := (len + 255) / 256
  if c.region = 1 then
    match placeRun ((s.gr.chunks.filter fun d => d.region == 1).map Chunk.extent) (s.pw.layout.2.1 * 4194304) need s.gr.postHead with
    | some o =>
      let c := { c with off := o, len := len }
      { s with gr := { s.gr with postHead := o + need, chunks := s.gr.chunks ++ [c] } }.chunkWrite c form fined
    | none =>
      let s : State := s.addRun false (c.slot * 4 + c.pri) (recsBytes c.recs)
      ({ s with gr := { s.gr with casks := s.gr.casks.map fun k => { k with pins := k.pins.filter (· != c.num) } } } : State).ringStore c form fined
  else s.ringStore c form fined

/-- The records of a chunk as they came. -/
def Chunk.raw (c : Chunk) : List Rec := c.recs.map (·.rec_)

/-- Closes an open chunk (R208): raw, or to the fining engine while RingFining is 1, at most 64 MiB await it and class 4 is not stopped. -/
def State.closeChunk (key : Nat) (s : State) : State :=
  match tget s.gr.open_ key with
  | none => s
  | some c =>
    let s : State := { s with gr := { s.gr with open_ := tdel s.gr.open_ key } }
    let waiting := lsum (s.gr.await.map fun d => recsBytes d.recs)
    if s.i O.RingFining = 1 ∧ waiting ≤ 67108864 ∧ s.i O.ThrottleStep < 3 then
      { s with gr := { s.gr with await := s.gr.await ++ [c] } }
    else s.storeChunk c c.raw false

/-- CHUNK_MAX_AGE. -/
def State.chunkMaxAge (slot pri : Nat) (s : State) : State :=
  match tget s.gr.open_ (slot * 4 + pri) with
  | some c => if c.first + ms (s.i O.ChunkMaxAge) ≤ s.ft .icd then s.closeChunk (slot * 4 + pri) else s
  | none => s

/-- CHUNK_MAX_AGE: a chunk closes ChunkMaxAge after its first record (R208). -/
def execChunkMaxAge (slot pri : Nat) : State → Host.Outcome State Fault Refusal := run (State.chunkMaxAge slot pri)

/-- Codes a list of records with one history, all predictors allowed for their types. -/
def finSeq (modes : Nat) : List FinHist → List Rec → List Rec
  | _, [] => []
  | h, r :: t => let e := finEncode modes 0 h r; e.1 :: finSeq modes e.2 t

/-- CHUNK_FINED: the chunk is stored fined when that form is shorter, else raw; raw too while throttling stops class 4 (R208, R199). -/
def State.chunkFined (num : Nat) (s : State) : State :=
  match s.gr.await.find? fun c => c.num == num with
  | some c =>
    let s : State := { s with gr := { s.gr with await := s.gr.await.filter fun d => d.num != num } }
    let fin := finSeq 15 [] c.raw
    if s.i O.ThrottleStep < 3 ∧ 16 * lsum (fin.map List.length) < recsBytes c.recs then s.storeChunk c fin true else s.storeChunk c c.raw false
  | none => s

/-- CHUNK_FINED. -/
def execChunkFined (num : Nat) : State → Host.Outcome State Fault Refusal := run (State.chunkFined num)

/-- The index entry of a drop run (R209). -/
def State.runWord (ring : Bool) (key n : Nat) (s : State) : Nat :=
  s.idxWord (if ring then 5 else 6) 0 (key / 4) 0 0 (key % 4) false 0 n

/-- A cask and its drop entries with the entry of one more drop run (R213, R215). -/
def State.caskDrop (ring : Bool) (key n : Nat) (c : Cask) (s : State) : State :=
  { s with gr := { s.gr with
    casks := s.gr.casks.map fun d => if d.id = c.id then { d with dropped := d.dropped + n, flags := setBit d.flags (if ring then 2 else 1) true } else d
    caskDrops := tset s.gr.caskDrops c.id (tgetD s.gr.caskDrops c.id [] ++ [s.runWord ring key n]) } }

/-- The casks that are open for a drop run: in scope, and it began before their post-window ended (R213). -/
def State.runCasks (key from_ : Nat) (s : State) : List Cask :=
  s.gr.casks.filter fun c => c.status == 0 && bit c.scope (key / 4) && decide (from_ < bits c.trig 0 80 + ns c.post)

/-- Ends a drop run: one index entry with its bytes; ring drops also count in RingDroppedBytes, and every open cask in scope notes the run (R207, R213). -/
def State.endRun (ring : Bool) (key : Nat) (s : State) : State :=
  let t := if ring then s.gr.dropRun else s.gr.resvRun
  match tget t key with
  | none => s
  | some (b, f) =>
    let s : State := if ring then { s with gr := { s.gr with dropRun := tdel s.gr.dropRun key } } else { s with gr := { s.gr with resvRun := tdel s.gr.resvRun key } }
    let s : State := if ring then s.addOb .icd O.RingDroppedBytes 64 b else s
    let s : State := (s.runCasks key f).foldl (fun s c => s.caskDrop ring key b c) s
    s.indexPut (s.runWord ring key b)

/-- At sealing, the drop runs in a cask's scope that began inside its window and have not ended: their bytes and entries belong to the cask too (R212, R215). -/
def State.sealRuns (c : Cask) (s : State) : State :=
  let mine := fun (t : Tbl (Nat × Nat)) => t.filter fun p => bit c.scope (p.1 / 4) && decide (p.2.2 < bits c.trig 0 80 + ns c.post)
  let s : State := (mine s.gr.dropRun).foldl (fun s p => s.caskDrop true p.1 p.2.1 c) s
  (mine s.gr.resvRun).foldl (fun s p => s.caskDrop false p.1 p.2.1 c) s

/-- RING_DROP_RUN_END: runs end at the next FT multiple of 1 ms (R207). -/
def State.ringDropRunEnd (slot pri : Nat) (s : State) : State :=
  let key := slot * 4 + pri
  let over_ := fun (t : Tbl (Nat × Nat)) => match tget t key with | some (_, f) => decide (f / ms 1 < s.ft .icd / ms 1) | none => false
  let s : State := if over_ s.gr.dropRun then s.endRun true key else s
  if over_ s.gr.resvRun then s.endRun false key else s

/-- RING_DROP_RUN_END. -/
def execRingDropRunEnd (slot pri : Nat) : State → Host.Outcome State Fault Refusal := run (State.ringDropRunEnd slot pri)

/-- Depth of the admission shaper in bytes (R207). -/
def State.admitDepth (s : State) : Int := ((s.i O.RingAdmissionBurst * 1048576 : Nat) : Int)

/-- Whether the post-reserve still takes a priority (R213). -/
def State.reserveTakes (s : State) (pri : Nat) : Bool :=
  decide (s.i O.ReserveFill * 100 < s.i (O.ReserveThreshold + pri) * (s.pw.layout.2.1 * 1073741824))

/-- Ring admission of one record (R207, R208, R213): the token bucket, the post-reserve while a cask in scope is open, the open chunk. What the reserve refuses goes to the ring and is no part of a cask. -/
def State.takeIn (slot pri st seq cutNum : Nat) (r : Rec) (s : State) : State :=
  let l := 16 * r.length
  let b := s.admitDepth
  let keep : Int := if pri = 1 then b / 8 else if pri = 2 then b / 4 else b / 2
  let ok := if pri = 0 then decide (-b ≤ s.gr.tokens - l) else decide ((l : Int) + keep ≤ s.gr.tokens)
  let key := slot * 4 + pri
  if !ok then s.addRun true key l
  else
    let s : State := s.endRun true key
    let s : State := { s with gr := { s.gr with tokens := s.gr.tokens - l } }
    let mine := (s.openCasks slot).map (·.id)
    let inCask := !mine.isEmpty
    let region := if inCask && s.reserveTakes pri then 1 else 0
    let s : State := if inCask && region == 0 then s.addRun false key l else s.endRun false key
    let s : State := match tget s.gr.open_ key with
      | some c => if recsBytes c.recs + l > 65536 ∨ c.region ≠ region then s.closeChunk key else s
      | none => s
    let c := (tget s.gr.open_ key).getD ⟨s.gr.nextChunk, slot, pri, region, 0, 0, s.ft .icd, []⟩
    let fresh := (tget s.gr.open_ key).isNone
    let rr : RingRec := ⟨s.gr.nextPos, slot, pri, st, seq, cutNum, r, s.ft .icd⟩
    let s : State := { s with gr := { s.gr with open_ := tset s.gr.open_ key { c with recs := c.recs ++ [rr] }, nextPos := s.gr.nextPos + 1, nextChunk := if fresh then s.gr.nextChunk + 1 else s.gr.nextChunk, casks := s.gr.casks.map fun k => if region = 1 ∧ mine.contains k.id ∧ !k.pins.contains c.num then { k with pins := k.pins ++ [c.num] } else k } }
    s.gristCounts

/-- Every chunk the device holds. -/
def State.allChunks (s : State) : List Chunk := s.gr.chunks ++ s.gr.await ++ s.gr.open_.map (·.2)

/-- Records held of one slot, in admission order. -/
def State.slotRecs (s : State) (slot : Nat) : List RingRec :=
  sortBy (·.pos) ((s.allChunks.filter fun c => c.slot == slot).flatMap (·.recs))

/-- Whether the index holds a gap of a slot's COUNTER stream within FT bounds in ns (R373). -/
def State.counterGap (s : State) (slot lo hi : Nat) : Bool :=
  s.gr.index.any fun w =>
    let k := bits w 0 4
    let t := bits w 96 32
    bits w 8 8 == slot && decide (lo / 1000 % 2 ^ 32 ≤ t ∧ t ≤ hi / 1000 % 2 ^ 32) &&
      ((k == 5 && bits w 53 2 == 1) || ((k == 3 || k == 2 || k == 7) && bits w 4 4 == stCounter))

/-! ### Staging (R206) -/

/-- Bytes of the analysis buffer. -/
abbrev analysisBytes : Nat := 4 * 1073741824 - 16777216

/-- The buffer's limit: while an engine is stopped for a resync, ResyncSpill more (R414). -/
def State.stageLimit (s : State) : Nat := analysisBytes + if s.tw.stopped then s.i O.ResyncSpill * 1073741824 else 0

/-- Releases the unread records that the write position has reached (R206): each engine that had not read them receives one StagingOverrun event for each source and type, with the first and last SEQUENCE, and skips them. -/
def State.stageTrim (s : State) : State :=
  let gone := s.gr.staging.filter fun e => decide (e.wpos + s.stageLimit < s.gr.stagePos)
  let s : State := ({ s with gr := { s.gr with
    staging := s.gr.staging.filter fun e => !decide (e.wpos + s.stageLimit < s.gr.stagePos) } } : State).overMarks (setBitsOf 32 (gone.foldl (fun m e => m ||| e.need) 0))
  (List.range 32).foldl (fun s u =>
    let mine := (gone.filter fun e => bit e.need u).map (·.rec_)
    (mine.map fun r => (rType r, rSrc r)).eraseDups.foldl (fun s k =>
      let qs := (mine.filter fun r => rType r == k.1 && rSrc r == k.2).map rSeq
      ((s.iCount O.StagingOverruns).localMark 0).occur srcCask none
        [packFields [(0, 8, u), (8, 8, k.1), (16, 32, k.2), (64, 32, qs.headD 0), (96, 32, qs.getLastD 0)]]) s) s

/-- Stages a record for the engines that read its type. A record that no engine reads takes its space in the buffer all the same (R206). -/
def State.stage (slot st fseq need : Nat) (r : Rec) (s : State) : State :=
  let e : Staged := ⟨s.gr.nextStage, slot, st, fseq, r, need, s.ft .icd, s.gr.stagePos⟩
  ({ s with gr := { s.gr with staging := if need = 0 then s.gr.staging else s.gr.staging ++ [e]
                              nextStage := s.gr.nextStage + 1, stagePos := s.gr.stagePos + 16 * r.length } } : State).stageTrim

/-- The oldest staged record that an engine has not read, taken by it. -/
def State.unstage (eng : Nat) (s : State) : Option (Staged × State) :=
  match s.gr.staging.find? fun e => bit e.need eng with
  | none => none
  | some e =>
    let l := s.gr.staging.filterMap fun x =>
      if x.num = e.num then (let m := setBit x.need eng false; if m = 0 then none else some { x with need := m }) else some x
    some (e, { s with gr := { s.gr with staging := l } })

/-- An engine's read of a staged record under ECC_SYNDROME at the Tray (R446, R447, R536): one flipped symbol is corrected and recorded; with two the read is uncorrectable, the record reads as all ones, and the engine has no record. Block and symbol are free values. -/
def State.stagedRead (unit slot : Nat) (r : Rec) (s : State) : Option Rec × State :=
  if s.role ≠ 1 then (some r, s)
  else
    match s.rouseEvent 4 0 (rPart r) (fun t => t == slot) with
    | (none, s) => (some r, s)
    | (some 0, s) => (some r, s)
    | (some m, s) =>
      let p := s.fresh 26
      let y := p.2.fresh 32
      let base := ((s.regions.find? fun g => g.1 == 2).map fun g => g.2.1 * 16384).getD 0
      let u := Config.memUnit unit % 256
      if m = 1 then (some r, y.2.t1Corrected (base + p.1) 0 u (y.1 % 36)) else (none, y.2.t1Error (base + p.1) 1 0 u 0 0xFF)

/-! ### Triggers and casks (R211–R215) -/

/-- Whether trigger `a` is taken before `b`: earlier FT, then lower rule, then lower source GID (R211). -/
def trigBefore (a b : Trig) : Bool :=
  bits a.stamp 0 80 < bits b.stamp 0 80 ||
    (bits a.stamp 0 80 == bits b.stamp 0 80 && (a.rule < b.rule || (a.rule == b.rule && a.gid ≤ b.gid)))

/-- Whether a slot's stream at a SEQUENCE, taken in at an FT, lies inside a cask's bounds: the agreed first and last SEQUENCE where they stand, else the window; a sealed cask holds nothing of a stream without a last SEQUENCE (R212, R217). -/
def Cask.holds (c : Cask) (slot st q at_ : Nat) : Bool :=
  let t := bits c.trig 0 80
  bit c.scope slot &&
    (match tget c.lo (slot * 16 + st) with | some l => seqFrom l q | none => decide (t - ns c.pre ≤ at_)) &&
    (if c.status = 0 then decide (at_ < t + ns c.post) else match tget c.hi (slot * 16 + st) with | some h => seqFrom q h | none => false)

/-- The records of a cask: those of its pinned chunks inside its bounds. -/
def State.caskRecs (s : State) (c : Cask) : List RingRec :=
  (s.allChunks.filter fun d => c.pins.contains d.num).flatMap fun d => d.recs.filter fun r => c.holds r.slot r.st r.seq r.at_

/-- The index entries of a cask: in scope and inside the bounds, the drop entries as the lead has them, ordered by die, stream type and SEQUENCE as the records are (R212, R217). -/
def State.caskIndex (c : Cask) (s : State) : List Nat :=
  let t := bits c.trig 0 80
  let own := s.gr.index.filter fun w => !([5, 6, 8].contains (bits w 0 4)) &&
    c.holds (bits w 8 8) (bits w 4 4) (bits w 16 28) (t - ns c.pre + us ((bits w 96 32 + 2 ^ 32 - (t - ns c.pre) / us 1 % 2 ^ 32) % 2 ^ 32))
  let l := own ++ tgetD s.gr.caskDrops c.id []
  let key := fun w => ((if s.role = 1 then (tget s.ln.dieGid (bits w 8 8)).getD 0 else bits w 8 8) * 16 + bits w 4 4)
  let first := l.foldl (fun m w => if (tget m (key w)).isSome then m else tset m (key w) (bits w 16 28)) ([] : Tbl Nat)
  sortBy (fun w => key w * 2 ^ 28 + (bits w 16 28 + 2 ^ 28 + 2 ^ 27 - tgetD first (key w) 0) % 2 ^ 28) l

/-- Writes a CaskRecord to the event queue (R215). -/
def State.caskRecord (c : Cask) (s : State) : State :=
  let (r, s) := s.form .icd 0x70 6 0 0
    [(128, 32, c.id), (160, 8, c.rule), (168, 8, c.status), (176, 8, c.flags), (184, 8, c.kind), (192, 64, c.ref), (256, 128, c.trig),
     (384, 64, c.pre), (448, 64, c.post), (512, 64, recsBytes (s.caskRecs c)), (576, 64, c.dropped), (640, 64, c.loc)]
  if s.isLead then s.occur srcCask none r else s

/-- Replaces a cask and reports its new STATUS. -/
def State.setCask (c : Cask) (s : State) : State :=
  let s : State := { s with gr := { s.gr with casks := s.gr.casks.map fun d => if d.id = c.id then c else d } }
  (s.caskRecord c).gristCounts

/-- Bytes of ring chunks pinned by a list of chunk numbers. -/
def State.pinBytes (s : State) (l : List Nat) : Nat :=
  lsum ((s.allChunks.filter fun c => c.region == 0 && l.contains c.num).map fun c => if c.len = 0 then recsBytes c.recs else c.len)

/-- Bytes that count against PinLimit: the pinned ring chunks, and the deferral range (R214, R222, R438). -/
def State.limitBytes (s : State) : Nat := s.pinBytes s.pinned + 16 * lsum (s.up.range.map List.length)

/-- The first SEQUENCE of each slot and stream type inside a window. -/
def firstSeqs (l : List RingRec) : Tbl Nat :=
  l.foldl (fun t r => if (tget t (r.slot * 16 + r.st)).isSome then t else tset t (r.slot * 16 + r.st) r.seq) []

/-- The last SEQUENCE of each slot and stream type. -/
def lastSeqs (l : List RingRec) : Tbl Nat := l.foldl (fun t r => tset t (r.slot * 16 + r.st) r.seq) []

/-- Opens a cask: the chunks of its pre-window are pinned, open chunks in scope end so that the post-window has chunks of its own, and what the index marks as dropped or undecodable inside the pre-window is the cask's from the start (R212, R213, R215). -/
def State.openCask (id : Nat) (t : Trig) (s : State) : State :=
  let s : State := (s.gr.open_.filter fun p => bit t.scope (p.1 / 4)).foldl (fun s p => s.closeChunk p.1) s
  let now := bits t.stamp 0 80
  let pre := ms (s.i O.PreWindow)
  let inScope := (s.gr.chunks ++ s.gr.await).filter fun c => bit t.scope c.slot
  let oldest := ((s.allChunks.filter fun c => c.region == 0).map (·.first)).foldl min now
  let short := decide (now < oldest + pre)
  let preNs := if short then (now - oldest) / 65536 else s.i O.PreWindow * 1000000
  let pinsOf := inScope.filter fun c => c.recs.any fun r => decide (now - ns preNs ≤ r.at_)
  let l := sortBy (·.pos) ((pinsOf.flatMap (·.recs)).filter fun r => decide (now - ns preNs ≤ r.at_))
  let marks := s.gr.index.filter fun w => bit t.scope (bits w 8 8) &&
    decide ((bits w 96 32 + 2 ^ 32 - (now - ns preNs) / us 1 % 2 ^ 32) % 2 ^ 32 ≤ preNs / 1000)
  let drops := marks.filter fun w => bits w 0 4 == 5 || bits w 0 4 == 6
  let undec := (marks.any fun w => bits w 0 4 == 7) || s.gr.undec.any fun u => bit t.scope (u.1 / 16)
  let fl := b2n short + 2 * b2n (drops.any fun w => bits w 0 4 == 6) + 4 * b2n (drops.any fun w => bits w 0 4 == 5) + 8 * b2n (bit t.stamp 80) + 16 * b2n undec
  let c : Cask := ⟨id, t.rule, t.kind, 0, fl, t.gid % 2 ^ 32 + (t.ref % 2 ^ 32) * 2 ^ 32, t.stamp, t.scope, preNs, s.i O.PostWindow * 1000000, lsum (drops.map fun w => bits w 57 39), 0,
    pinsOf.map (·.num), firstSeqs l, []⟩
  ({ s with gr := { s.gr with casks := s.gr.casks ++ [c], caskDrops := tset s.gr.caskDrops id drops } }.caskRecord c).gristCounts

/-- CASK_TRIGGER: the lead takes the next fired trigger, assigns the pair's next CASK_ID, and opens the cask or refuses it; CaskOpen goes to the shadow (R212, R214). -/
def State.caskTrigger (s : State) : State :=
  let due := s.gr.fired.filter fun t => t.due ≤ s.ft .icd
  match due.find? fun t => due.all fun u => trigBefore t u with
  | none => s
  | some t =>
    let s : State := { s with gr := { s.gr with fired := removeFirst (fun u => u == t) s.gr.fired } }
    if !s.isLead then s
    else
      let id := s.gr.nextCask
      let s : State := { s with gr := { s.gr with nextCask := (id + 1) % 2 ^ 32 } }
      let live := s.gr.casks.filter Cask.live
      let opened := s.openCask id t
      let limit := s.i O.PinLimit * 1073741824
      let why := if live.length ≥ 8 then 3 else if opened.limitBytes > limit then 4 else if s.pk.inputLow then 5 else 0
      if why ≠ 0 then
        (s.iCount O.TriggersRefused).caskRecord
          ⟨id, t.rule, t.kind, why, if bit t.stamp 80 then 8 else 0, t.gid % 2 ^ 32 + (t.ref % 2 ^ 32) * 2 ^ 32, t.stamp, t.scope, 0, 0, 0, 0, [], [], []⟩
      else
        let c := opened.gr.casks.getLastD ⟨id, t.rule, t.kind, 0, 0, 0, 0, 0, 0, 0, 0, 0, [], [], []⟩
        opened.xMsg 0x212 ([id, t.rule, t.kind, c.ref, c.trig, c.scope, c.pre, c.post] ++ c.lo.flatMap fun p => [p.1, p.2])

/-- CASK_TRIGGER. -/
def execCaskTrigger : State → Host.Outcome State Fault Refusal := run State.caskTrigger

/-- The order of records by ascending SOURCE_GID, TYPE, SEQUENCE. -/
def canonKey (r : Rec) : Nat := rSrc r * 2 ^ 40 + rType r * 2 ^ 32 + rSeq r

/-- A cask's records in canonical order (R217): ascending SOURCE_GID, TYPE, and SEQUENCE unwrapped from the first record of the window. -/
def canonOrder (l : List RingRec) : List Rec :=
  let l := (sortBy (·.pos) l).map (·.rec_)
  let key := fun (r : Rec) => rSrc r * 256 + rType r
  let first := l.foldl (fun m r => if (tget m (key r)).isSome then m else tset m (key r) (rSeq r)) ([] : Tbl Nat)
  sortBy (fun r => key r * 2 ^ 32 + (rSeq r + 2 ^ 32 + 2 ^ 31 - tgetD first (key r) 0) % 2 ^ 32) l

/-- A sealed cask's contents enter the digest of the epoch in which its window ends: its records, and its index entries without FT_US (R27, R32, R210). -/
def State.caskKeep (c : Cask) (s : State) : State :=
  if !s.rd.has then s
  else
    let k := s.epochAt (bits c.trig 0 80 + ns c.post) * 2
    let pay := canonOrder (s.caskRecs c)
    let ix := (s.caskIndex c).map fun w => [bits w 0 96]
    { s with rd := { s.rd with outs := (pay ++ ix).map (fun r => (k, r)) ++ s.rd.outs } }

/-- CASK_OPEN_RECEIVE: the shadow takes the lead's bounds and drop set; records inside them that its own shaper refused come from the lead (R212). -/
def State.caskOpenReceive (c : CaskIn) (last : Bool) (fetched : List (Nat × Nat × Nat × Rec)) (s : State) : State :=
  if s.isLead then s
  else
    let s : State := { s with gr := { s.gr with nextCask := (c.id + 1) % 2 ^ 32 } }
    let s : State := if s.gr.casks.any fun k => k.id == c.id then s
      else
        let o := s.openCask c.id ⟨c.rule, c.kind, c.scope, c.ref % 2 ^ 32, c.ref / 2 ^ 32, c.trig, 0⟩
        { o with gr := { o.gr with casks := o.gr.casks.map fun k => if k.id = c.id then { k with pre := c.pre, post := c.post, lo := c.bounds } else k } }
    let s : State := if fetched.isEmpty then s
      else
        let num := s.gr.nextChunk
        let now := s.ft .icd
        let rs := fetched.zipIdx.map fun p => (⟨s.gr.nextPos + p.2, p.1.1, 0, p.1.2.1, p.1.2.2.1, 0, p.1.2.2.2, min now (bits c.trig 0 80 + ns c.post - 1)⟩ : RingRec)
        let ch : Chunk := ⟨num, (rs.head?.map (·.slot)).getD 0, 0, 1, 0, 0, now, rs⟩
        let s : State := { s with gr := { s.gr with nextChunk := num + 1, nextPos := s.gr.nextPos + fetched.length, casks := s.gr.casks.map fun k => if k.id = c.id then { k with pins := k.pins ++ [num] } else k } }
        s.storeChunk ch ch.raw false
    if last then
      match s.gr.casks.find? fun k => k.id == c.id with
      | some k =>
        let k := { k with status := 1, dropped := c.dropped, hi := c.bounds }
        let s : State := { s with gr := { s.gr with caskDrops := tset s.gr.caskDrops k.id c.drops } }
        (s.setCask k).caskKeep k
      | none => s
    else s

/-- CASK_OPEN_RECEIVE. -/
def execCaskOpenReceive (c : CaskIn) (last : Bool) (fetched : List (Nat × Nat × Nat × Rec)) : State → Host.Outcome State Fault Refusal :=
  run (State.caskOpenReceive c last fetched)

/-- POST_WINDOW_END: the lead sends the last bounds and its drop entries, those of the runs not yet ended among them, and the cask is SEALED (R212). -/
def State.postWindowEnd (id : Nat) (s : State) : State :=
  match s.gr.casks.find? fun c => c.id == id && c.status == 0 with
  | some c =>
    if s.ft .icd < bits c.trig 0 80 + ns c.post ∨ !s.isLead then s
    else
      let hi := lastSeqs (sortBy (·.pos) (s.caskRecs c))
      let s : State := s.sealRuns c
      let drops := tgetD s.gr.caskDrops id []
      let c := { (s.gr.casks.find? fun d => d.id == id).getD c with status := 1, hi := hi }
      let s : State := (s.setCask c).caskKeep c
      s.xMsg 0x213 ([id, c.dropped, hi.length] ++ (hi.flatMap fun p => [p.1, p.2]) ++ drops)
  | none => s

/-- POST_WINDOW_END. -/
def execPostWindowEnd (id : Nat) : State → Host.Outcome State Fault Refusal := run (State.postWindowEnd id)

/-! ### Racking (R216, R217) -/

/-- Bytes padded with zeros to whole 4 KiB pages. -/
def padPages (bs : List Nat) : List Nat := bs ++ List.replicate ((4096 - bs.length % 4096) % 4096) 0

/-- The 4 KiB pages of a list of bytes. -/
def pagesOf (bs : List Nat) : List (List Nat) := (List.range (bs.length / 4096)).map fun k => (bs.drop (4096 * k)).take 4096

/-- A racked cask's bytes (R217): descriptor page, data pages, index pages, CRC pages. -/
def State.caskImage (c : Cask) (head : Rec) (s : State) : List Nat :=
  let data := padPages ((canonOrder (s.caskRecs c)).flatMap recBytes)
  let ix := padPages ((s.caskIndex c).flatMap fun w => natBytes 16 w)
  let crcs := padPages ((pagesOf (data ++ ix)).flatMap fun p => natBytes 8 (crc64 p))
  let d0 := recBytes head ++ natBytes 8 (data.length / 4096) ++ natBytes 8 (ix.length / 4096) ++ natBytes 8 (crc64 crcs)
  let d := d0 ++ List.replicate (4088 - d0.length) 0
  d ++ natBytes 8 (crc64 d) ++ data ++ ix ++ crcs

/-- Pages a cask takes in Tier 2. -/
def State.caskPages (c : Cask) (s : State) : Nat := (s.caskImage c []).length / 4096

/-- The first page of a port with `n` free pages in a row. -/
def freePages (taken : List (Nat × Nat)) (cap n : Nat) : Option Nat :=
  let o := (sortBy (·.1) taken).foldl (fun o e => if o + n ≤ e.1 then o else max o (e.1 + e.2)) 0
  if o + n ≤ cap then some o else none

/-- A Tier 2 port that is present, usable and has room, taken in turn (R216, R184). -/
def State.rackPort (n : Nat) (s : State) : Option (Nat × Nat) :=
  ((List.range 4).map fun k => (s.gr.lastPort + 1 + k) % 4).findSome? fun p =>
    if bit (s.i O.Tier2Present) p then
      (freePages ((s.gr.tier2.filter fun e => e.2.1 == p).map fun e => (e.2.2.1, e.2.2.2)) (s.i (O.Tier2Capacity + p) * 262144) n).map fun o => (p, o)
    else none

/-- TIER2_FULL is true while a cask is in RACK_WAIT (R546). -/
def State.tier2Cond (s : State) : State := s.cond 0x148 (s.gr.casks.any fun c => c.status == 6)

/-- RACK_CASK: sealed casks oldest first, each to the next port with room, or to RACK_WAIT with TIER2_FULL; one that waits without room lets the next go (R216); racking pauses at throttle step 3 (R199). -/
def State.rackCask (s : State) : State :=
  if s.gr.racking.isSome ∨ s.i O.ThrottleStep ≥ 3 ∨ s.pk.inputLow then s
  else
    match s.gr.casks.find? fun c => c.status == 1 || (c.status == 6 && (s.rackPort (s.caskPages c)).isSome) with
    | none => s
    | some c =>
      match s.rackPort (s.caskPages c) with
      | some (p, o) => { s with gr := { s.gr with racking := some (c.id, p, o), lastPort := p } }
      | none => ((s.setCask { c with status := 6 }).iAlarm 0x04C 2 0x0C00 c.id).tier2Cond

/-- RACK_CASK. -/
def execRackCask : State → Host.Outcome State Fault Refusal := run State.rackCask

/-- RACK_COMPLETE: the cask becomes RACKED at its place in Tier 2 and releases its pins (R217); racking pauses at throttle step 3 (R199). -/
def State.rackComplete (s : State) : State :=
  match (if s.i O.ThrottleStep ≥ 3 then none else s.gr.racking) with
  | none => s
  | some (id, p, o) =>
    let s : State := { s with gr := { s.gr with racking := none } }
    match s.gr.casks.find? fun c => c.id == id with
    | none => s
    | some c =>
      let racked := { c with status := 2, loc := p + o * 4096 }
      let (head, s) := s.form .icd 0x70 6 0 0
        [(128, 32, c.id), (160, 8, c.rule), (168, 8, 2), (176, 8, c.flags), (184, 8, c.kind), (192, 64, c.ref), (256, 128, c.trig),
         (384, 64, c.pre), (448, 64, c.post), (512, 64, recsBytes (s.caskRecs c)), (576, 64, c.dropped), (640, 64, racked.loc)]
      let image := s.caskImage c head
      let s : State := if s.isLead then s.occur srcCask none head else s
      let s : State := s.t2Write (p * 2 ^ 44 + o * 4096) image
      let s : State := { s with gr := { s.gr with tier2 := s.gr.tier2 ++ [(id, p, o, image.length / 4096)], casks := s.gr.casks.map fun d => if d.id = id then racked else d } }
      let pins := s.pinned
      let s : State := { s with gr := { s.gr with chunks := s.gr.chunks.filter fun d => d.region == 0 || pins.contains d.num } }
      s.gristCounts.tier2Cond

/-- RACK_COMPLETE. -/
def execRackComplete : State → Host.Outcome State Fault Refusal := run State.rackComplete

/-- CASK_RELEASE: an unracked cask and its pins are released (R216). -/
def State.caskReleaseOp (id : Nat) : Op := fun s =>
  match s.gr.casks.find? fun c => c.id == id && c.live with
  | none => (s, no stRange)
  | some c =>
    let s : State := { s with gr := { s.gr with racking := if (s.gr.racking.map (·.1)) = some id then none else s.gr.racking } }
    let s : State := s.setCask { c with status := 7 }
    let pins := s.pinned
    (({ s with gr := { s.gr with chunks := s.gr.chunks.filter fun d => d.region == 0 || pins.contains d.num } }).gristCounts.tier2Cond, ok)

/-- CASK_RELEASE. -/
def execCaskRelease (q : Req) (id : Nat) : State → Host.Outcome State Fault Refusal :=
  run (State.reqWrite q O.CaskRelease id (State.caskReleaseOp id))

/-- TIER2_FREE: the space of a racked cask is free again (R216). -/
def State.tier2FreeOp (id : Nat) : Op := fun s =>
  if s.gr.tier2.any fun e => e.1 == id then ({ s with gr := { s.gr with tier2 := s.gr.tier2.filter fun e => e.1 != id } }, ok)
  else (s, no stRange)

/-- TIER2_FREE. -/
def execTier2Free (q : Req) (id : Nat) : State → Host.Outcome State Fault Refusal :=
  run (State.reqWrite q O.Tier2Free id (State.tier2FreeOp id))

/-- CASK_SEAL fires the trigger rules of kind 1 at the issue FT, or at INSTANT when TIMED (R211); the write asks that rule 0 has kind 1. -/
def State.caskSealOp (tag : Nat) (reg timed : Bool) (at_ : Nat) : Op := fun s =>
  if reg ∧ s.i (inst O.RuleKind 0) ≠ 1 then (s, no stRange)
  else if timed ∧ !s.leadOk at_ then (s, no stLead)
  else
    let t := if timed then at_ else s.ft .icd
    let stm := s.stampAt .icd t
    (s.fireRules 1 (fun _ => true) none s.iGid tag stm t, ok)

/-- CASK_SEAL. -/
def execCaskSeal (q : Req) (reg timed : Bool) (at_ : Nat) : State → Host.Outcome State Fault Refusal :=
  run (if reg then State.reqWrite q O.CaskSeal q.tag (State.caskSealOp q.tag true false 0)
       else State.descriptor q (State.caskSealOp q.tag false timed at_))

/-! ### Export (R428, R438, R443) -/

/-- Whether an export entry names a record's source and TYPE (R428, R443): a die GID, or a partition with KIND 0x00. -/
def State.exportNames (e : Nat) (r : Rec) (s : State) : Bool :=
  let src := s.i (inst O.ExportSource e)
  src != 0 && (if src / 2 ^ 24 = 0 then rPart r != 0 && src % 65536 == rPart r else src == rSrc r) && bit (s.i (inst O.ExportTypes e)) (rType r)

/-- Whether a Tray's export entries match a record. -/
def State.exporting (r : Rec) (s : State) : Bool := s.role == 1 && (List.range 64).any fun e => s.exportNames e r

/-- A record that an export subscription matches (R428): upward in BULK; under a deferral held in the range, within PinLimit, else counted in BulkDeferLost (R438). -/
def State.exportBulk (r : Rec) (s : State) : State :=
  if s.role = 1 ∧ !s.up.origins.isEmpty then
    if s.i O.PinLimit * 1073741824 < s.limitBytes + 16 * r.length then s.addOb .icd O.BulkDeferLost 64 1
    else { s with up := { s.up with range := s.up.range ++ [r] } }
  else s.upSend stBulk r

/-- Admits a record to the ring, with its export copy: during a deferral only what the ring holds can be held (R207, R428, R438). -/
def State.admitExport (slot pri st fseq cutNum : Nat) (r : Rec) (s : State) : State :=
  let n := s.gr.nextPos
  let s : State := s.takeIn slot pri st fseq cutNum r
  if s.exporting r && (s.up.origins.isEmpty || s.gr.nextPos != n) then s.exportBulk r else s

/-! ### Fining jobs (R222, R223) -/

/-- Chunks of the ring that a source range covers: they are pinned for the job (R222). -/
def State.jobPins (d : Rec) (s : State) : List Nat :=
  let a := recFld d 192 64
  let n := recFld d 256 64
  if recFld d 136 1 = 0 then
    (s.gr.chunks.filter fun c => c.region == 0 && decide (c.off * 256 < a + n ∧ a < c.off * 256 + c.len)).map (·.num)
  else []

/-- Keeps FiningQueueFree. -/
def State.finFree (k : Nat) (s : State) : State := s.iSet (O.FiningQueueFree + k) (256 - (tgetD s.gr.jobs k []).length)

/-- FINING_JOB queues a FiningDescriptor on an instance and pins its source; a descriptor's argument goes to the instance with the most room. One of a higher VERSION is read as far as its fields are known (R14). -/
def State.finingJobOp (k : Nat) (ring : Option Nat) (d : Rec) : Op := fun s =>
  let q := tgetD s.gr.jobs k []
  if rType d ≠ 0x71 ∨ (if rVersion d = 0 then rLen d != 4 else decide (rLen d < 4)) = true ∨ recFld d 128 8 > 1 ∨ recFld d 138 6 ≠ 0 ∨ recFld d 148 12 ≠ 0 ∨ recFld d 192 4 ≠ 0 ∨ recFld d 256 4 ≠ 0 ∨ recFld d 320 4 ≠ 0 then (s, no stMalformed)
  else if q.length ≥ 256 then (s, no stQueueFull)
  else (({ s with gr := { s.gr with jobs := tset s.gr.jobs k (q ++ [⟨d, ring, s.jobPins d⟩]) } } : State).finFree k |>.domainUse (80 + k), ok)

/-- A FiningSubmit write: the descriptor is read in Tier 1 with its errors (R222, R447). An address outside the management cores' regions is not read: an access event and ARG_FAULT (R23). -/
def State.finingSubmitOp (v : Nat) : Op := fun s =>
  let a := v / 16 * 16
  if !s.inRegion mgmtReads a 64 then (s.accessEvent srcCask 0x0C00 a, no stArg)
  else (s.t1ReadErrors 0x0C00 a 64).finingJobOp (v % 4) none (bytesRec (s.t1Read a 64))

/-- The instance with the shortest queue. -/
def State.freestInst (s : State) : Nat :=
  (List.range 4).foldl (fun b k => if (tgetD s.gr.jobs k []).length < (tgetD s.gr.jobs b []).length then k else b) 0

/-- FINING_JOB. -/
def State.finingJob (q : Req) (reg : Bool) (v : Nat) (arg : Rec) (s : State) : State :=
  if reg then
    s.reqWrite q O.FiningSubmit v (State.finingSubmitOp v)
  else s.descriptor q (fun s => s.finingJobOp s.freestInst (match q.who with | .ring n => some n | .session _ => some 0 | _ => none) arg)

/-- FINING_JOB. -/
def execFiningJob (q : Req) (reg : Bool) (v : Nat) (arg : Rec) : State → Host.Outcome State Fault Refusal := run (State.finingJob q reg v arg)

/-- One job's run over its input records: bytes consumed, output records, count, STATUS (R223). -/
def finLoop (decode : Bool) (modes space : Nat) (bad : Nat → Nat → Bool) : List FinHist → Nat → List Rec → List Rec → Nat × List Rec × Nat
  | _, used, out, [] => (used, out, 0)
  | h, used, out, r :: t =>
    if bad used (16 * r.length) then (used, out, 2)
    else
      let res : Option (Rec × List FinHist) :=
        if decode then (if rType r = 0x34 then finDecode h r else some (r, histPut h (finKey r) (finWords r) false)) else some (finEncode modes 0 h r)
      match res with
      | none => (used, out, 3)
      | some (o, h') =>
        if 16 * lsum (out.map List.length) + 16 * o.length > space then (used, out, 1)
        else finLoop decode modes space bad h' (used + 16 * r.length) (out ++ [o]) t

/-- The address of a job's access that R23 refuses: its source, else its destination. A destination in Tier 1 lies in no region that R22 lets the fining engine write (DEDUCED, log 122). -/
def State.finDenied (d : Rec) (s : State) : Option Nat :=
  let sa := recFld d 192 64
  let da := recFld d 320 64
  if !(if recFld d 136 1 = 0 then s.inRegion finingReads sa (recFld d 256 64) else s.inTier2 sa (recFld d 256 64)) then some sa
  else if !(recFld d 137 1 == 1 && s.inTier2 da (recFld d 384 64)) then some da else none

/-- Runs a job over its first `limit` records; answers STATUS, bytes consumed, output records. -/
def State.finRun (d : Rec) (limit : Option Nat) (s : State) : Nat × Nat × List Rec :=
  let sa := recFld d 192 64
  let sl := recFld d 256 64
  let dl := recFld d 384 64
  let st := recFld d 136 1
  if (s.finDenied d).isSome then (5, 0, [])
  else
    let bs := memRead (if st = 0 then s.me.t1 else s.gr.t2) sa sl
    let (rs, rest) := recordsOf (sl / 16 + 1) bs
    let modes := if recFld d 144 4 = 0 then 3 else recFld d 144 4
    let rs' := match limit with | some n => rs.take n | none => rs
    let bad := fun (o n : Nat) => (if st = 0 then s.me.poison else s.me.t2poison).any fun b => decide (b * 64 < sa + o + n ∧ sa + o < b * 64 + 64)
    let (used, out, code) := finLoop (recFld d 128 8 == 1) modes dl bad [] 0 [] rs'
    let code := if code = 0 then (match limit with | some _ => 6 | none => if rest.isEmpty then 0 else 4) else code
    (code, used, out)

/-- Ends the job at the head of an instance: its output, its FiningCompletionRecord (R223). Posted to a completion ring, its 48 bytes take two entries of 32 (DESIGN CHOICE, log 159). -/
def State.finEnd (k : Nat) (j : FinJob) (limit : Option Nat) (s : State) : State :=
  let (code, used, out) := s.finRun j.desc limit
  let sa := recFld j.desc 192 64
  let n := if code = 2 then used + 1 else used
  let s : State := if recFld j.desc 136 1 = 0 then s.t1ReadErrors (0x0700 + k) sa n
    else (s.me.t2poison.filter fun b => decide (b * 64 < sa + n ∧ sa < b * 64 + 64)).foldl (fun s b => s.t2Error (0x0700 + k) b) s
  let bs := out.flatMap recBytes
  let s : State := if code = 5 then (match s.finDenied j.desc with | some a => s.accessEvent srcCask (0x0700 + k) a | none => s)
    else s.t2Write (recFld j.desc 320 64) bs
  let s : State := { s with gr := { s.gr with jobs := tset s.gr.jobs k (removeFirst (fun x => x == j) (tgetD s.gr.jobs k [])) } }.finFree k |>.domainUse (80 + k)
  let (r, s) := s.form .icd 0x72 3 0 0
    [(128, 32, recFld j.desc 160 32), (160, 8, code), (192, 64, used), (256, 64, bs.length), (320, 32, out.length)]
  let s : State := s.occur (0x0A0 + k) none r
  match j.ring with
  | some n => if s.isLead then (({ s with pk := { s.pk with complUsed := tset s.pk.complUsed n (tgetD s.pk.complUsed n 0 + 2) } } : State).put .host n r).ringPost n else s
  | none => s

/-- FINING_JOB_DONE; class 4 work does not run at throttle step 3 (R199). `bad`: blocks of Tier 2 that the expander answered as poisoned (R183), which stay so until they are written whole. -/
def State.finingJobDone (k : Nat) (bad : List Nat) (s : State) : State :=
  let s : State := { s with me := { s.me with t2poison := (bad ++ s.me.t2poison).eraseDups } }
  match tgetD s.gr.jobs k [] with
  | [] => s
  | j :: _ => if s.i O.ThrottleStep ≥ 3 then s else s.finEnd k j none

/-- FINING_JOB_DONE. -/
def execFiningJobDone (inst : FiningEnd) : State → Host.Outcome State Fault Refusal := run (State.finingJobDone inst.inst inst.bad)

/-- FINING_ABORT: the named job ends as ABORTED with the records it has completed (R223). -/
def State.finingAbortOp (tag n : Nat) : Op := fun s =>
  match (List.range 4).findSome? fun k => ((tgetD s.gr.jobs k []).find? fun j => recFld j.desc 160 32 == tag).map fun j => (k, j) with
  | some (k, j) => (s.finEnd k j (some n), ok)
  | none => (s, no stRange)

/-- FINING_ABORT. -/
def execFiningAbort (q : Req) (tag records : Nat) : State → Host.Outcome State Fault Refusal :=
  run (State.reqWrite q O.FiningAbort tag (State.finingAbortOp tag records))

/-- A domain reset of a fining instance ends its jobs (R530). -/
def State.finingDomainReset (k : Nat) (s : State) : State :=
  (tgetD s.gr.jobs k []).foldl (fun s j => s.finEnd k j (some 0)) s

end Sys2Proof.Machine
end

