-- ==== Sys2Proof/Machine/Float.lean ====
section
/-! DEFINITION. IEEE 754-2019 binary formats as exact integers: decoding, rounding to nearest with ties to even, and the operations the engines use (R234, R235, R260–R262). -/

namespace Sys2Proof.Machine

/-- A binary format: exponent bits and fraction bits. -/
structure Fmt where
  eb : Nat
  mb : Nat
deriving DecidableEq, Repr

/-- binary32. -/
abbrev f32 : Fmt := ⟨8, 23⟩
/-- binary64. -/
abbrev f64 : Fmt := ⟨11, 52⟩
/-- BF16. -/
abbrev bf16 : Fmt := ⟨8, 7⟩
/-- binary16. -/
abbrev f16 : Fmt := ⟨5, 10⟩

/-- The value of a floating datum: NaN, an infinity, or a sign, a magnitude and a power of two. -/
inductive FV where
  | nan
  | inf (neg : Bool)
  | fin (neg : Bool) (m : Nat) (e : Int)
deriving DecidableEq, Repr

/-- Bits of an infinity without its sign. -/
def Fmt.infBits (f : Fmt) : Nat := (2 ^ f.eb - 1) * 2 ^ f.mb

/-- The quiet NaN. -/
def Fmt.qnan (f : Fmt) : Nat := f.infBits + 2 ^ (f.mb - 1)

/-- The sign bit of a format. -/
def Fmt.signBit (f : Fmt) : Nat := 2 ^ (f.eb + f.mb)

/-- Exponent of the least subnormal. -/
def Fmt.emin (f : Fmt) : Int := 2 - 2 ^ (f.eb - 1) - f.mb

/-- Whether a datum is a NaN. -/
def Fmt.isNan (f : Fmt) (x : Nat) : Bool := decide (f.infBits < x % f.signBit)

/-- Decodes a datum. -/
def fdec (f : Fmt) (x : Nat) : FV :=
  let neg := bit x (f.eb + f.mb)
  let e := bits x f.mb f.eb
  let m := bits x 0 f.mb
  if e = 2 ^ f.eb - 1 then (if m = 0 then .inf neg else .nan)
  else if e = 0 then .fin neg m f.emin
  else .fin neg (m + 2 ^ f.mb) (f.emin + (e : Int) - 1)

/-- A sign put on a magnitude. -/
def Fmt.sgn (f : Fmt) (neg : Bool) (x : Nat) : Nat := if neg then x + f.signBit else x

/-- Rounds `m × 2^e`, plus a positive amount below one unit of `m` when `sticky`, to nearest, ties to even; beyond the largest finite value the result is the infinity and the second part is true. -/
def froundMag (f : Fmt) (m : Nat) (e : Int) (sticky : Bool) : Nat × Bool :=
  if m = 0 then (0, false)
  else
    let m := if sticky then 4 * m + 1 else 4 * m
    let e := e - 2
    let l := m.log2 + 1
    let q : Int := max (e + (l : Int) - ((f.mb : Int) + 1)) f.emin
    let r :=
      if q ≤ e then m * 2 ^ (e - q).toNat
      else
        let k := (q - e).toNat
        let a := m / 2 ^ k
        let b := m % 2 ^ k
        let half := 2 ^ (k - 1)
        if half < b ∨ (b = half ∧ a % 2 = 1) then a + 1 else a
    let x := (q - f.emin).toNat * 2 ^ f.mb + r
    if f.infBits ≤ x then (f.infBits, true) else (x, false)

/-- Rounds a signed value. -/
def fround (f : Fmt) (neg : Bool) (m : Nat) (e : Int) (sticky : Bool) : Nat := f.sgn neg (froundMag f m e sticky).1

/-- Rounds an integer times a power of two; zero is +0. -/
def froundI (f : Fmt) (v e : Int) : Nat := fround f (decide (v < 0)) v.natAbs e false

/-- Sum of two values. -/
def fvAdd (f : Fmt) (a b : FV) : Nat :=
  match a, b with
  | .nan, _ | _, .nan => f.qnan
  | .inf s, .inf t => if s = t then f.sgn s f.infBits else f.qnan
  | .inf s, _ | _, .inf s => f.sgn s f.infBits
  | .fin s m e, .fin t n d =>
    let q := min e d
    let x : Int := (m * 2 ^ (e - q).toNat : Nat)
    let y : Int := (n * 2 ^ (d - q).toNat : Nat)
    let v := (if s then -x else x) + (if t then -y else y)
    if v = 0 then f.sgn (s && t) 0 else froundI f v q

/-- The value with its sign changed. -/
def FV.neg : FV → FV
  | .nan => .nan
  | .inf s => .inf (!s)
  | .fin s m e => .fin (!s) m e

/-- Exact product of two values. -/
def fvMul (a b : FV) : FV :=
  match a, b with
  | .nan, _ | _, .nan => .nan
  | .inf s, .inf t => .inf (s != t)
  | .inf s, .fin t n _ => if n = 0 then .nan else .inf (s != t)
  | .fin s m _, .inf t => if m = 0 then .nan else .inf (s != t)
  | .fin s m e, .fin t n d => .fin (s != t) (m * n) (e + d)

/-- A value as a datum. -/
def fvBits (f : Fmt) : FV → Nat
  | .nan => f.qnan
  | .inf s => f.sgn s f.infBits
  | .fin s m e => fround f s m e false

/-- Addition. -/
def fadd (f : Fmt) (x y : Nat) : Nat := fvAdd f (fdec f x) (fdec f y)
/-- Subtraction. -/
def fsub (f : Fmt) (x y : Nat) : Nat := fvAdd f (fdec f x) (fdec f y).neg
/-- Multiplication. -/
def fmul (f : Fmt) (x y : Nat) : Nat := fvBits f (fvMul (fdec f x) (fdec f y))
/-- Division. -/
def fdiv (f : Fmt) (x y : Nat) : Nat :=
  match fdec f x, fdec f y with
  | .nan, _ | _, .nan => f.qnan
  | .inf s, .inf _ => if s then f.qnan else f.qnan
  | .inf s, .fin t _ _ => f.sgn (s != t) f.infBits
  | .fin s _ _, .inf t => f.sgn (s != t) 0
  | .fin s m e, .fin t n d =>
    if n = 0 then (if m = 0 then f.qnan else f.sgn (s != t) f.infBits)
    else
      let k := n.log2 + f.mb + 4
      fround f (s != t) (m * 2 ^ k / n) (e - d - k) (m * 2 ^ k % n != 0)

/-- The integer square root by binary digits: `n` digit pairs left, root so far. -/
def isqrtAux : Nat → Nat → Nat → Nat
  | 0, _, r => r
  | n + 1, x, r => if (r + 2 ^ n) * (r + 2 ^ n) ≤ x then isqrtAux n x (r + 2 ^ n) else isqrtAux n x r

/-- The integer square root. -/
def isqrt (x : Nat) : Nat := isqrtAux (x.log2 / 2 + 1) x 0

/-- Square root. -/
def fsqrt (f : Fmt) (x : Nat) : Nat :=
  match fdec f x with
  | .nan => f.qnan
  | .inf s => if s then f.qnan else f.infBits
  | .fin s m e =>
    if m = 0 then f.sgn s 0
    else if s then f.qnan
    else
      let odd := e % 2 != 0
      let k := 2 * (f.mb + 4)
      let m' := (if odd then 2 * m else m) * 2 ^ k
      let e' := (if odd then e - 1 else e) - (k : Int)
      let r := isqrt m'
      fround f false r (e' / 2) (r * r != m')

/-- The order of two non-NaN values: −1, 0 or 1; zeros are equal. -/
def fcmp (f : Fmt) (x y : Nat) : Int :=
  match fdec f x, fdec f y with
  | .fin s m e, .fin t n d =>
    let q := min e d
    let a : Int := (m * 2 ^ (e - q).toNat : Nat)
    let b : Int := (n * 2 ^ (d - q).toNat : Nat)
    let a := if s then -a else a
    let b := if t then -b else b
    if a < b then -1 else if b < a then 1 else 0
  | .inf s, .inf t => if s = t then 0 else if s then -1 else 1
  | .inf s, _ => if s then -1 else 1
  | _, .inf t => if t then 1 else -1
  | _, _ => 0

/-- Whether `x < y`; false with a NaN. -/
def flt (f : Fmt) (x y : Nat) : Bool := !f.isNan x && !f.isNan y && fcmp f x y == -1

/-- The greater of two non-NaN values. -/
def fmax (f : Fmt) (x y : Nat) : Nat := if flt f x y then y else x
/-- The lesser of two non-NaN values. -/
def fmin (f : Fmt) (x y : Nat) : Nat := if flt f y x then y else x

/-- Converts between formats. -/
def fcvt (f g : Fmt) (x : Nat) : Nat :=
  match fdec f x with
  | .nan => g.qnan
  | .inf s => g.sgn s g.infBits
  | .fin s m e => fround g s m e false

/-- A signed integer in a format. -/
abbrev fofInt (f : Fmt) (v : Int) : Nat := froundI f v 0

/-- The totalOrder of non-NaN values as an integer (R258): −0 below +0. -/
def ftotal (f : Fmt) (x : Nat) : Int := if bit x (f.eb + f.mb) then -((x % f.signBit : Nat) : Int) - 1 else ((x % f.signBit : Nat) : Int)

end Sys2Proof.Machine
end

