-- ==== Sys2Proof/Machine/Reduction.lean ====
section
/-! DEFINITION. The reduction engine: inputs, operator states, closes, contributions, results, supplements, and the twin compare (R25–R27, R250–R275, R408, R409). -/

namespace Sys2Proof.Machine

/-! ### Definitions (R254, R256) -/

/-- OPERATOR of a ReductionDef. -/
abbrev rdOp (d : Nat) : Nat := bits d 1 3
/-- INPUT_TYPE. -/
abbrev rdType (d : Nat) : Nat := bits d 4 3
/-- SCOPE: one instance per partition. -/
abbrev rdScope (d : Nat) : Bool := bit d 7
/-- INPUT_KIND. -/
abbrev rdKind (d : Nat) : Nat := bits d 8 3
/-- k of TOPK. -/
abbrev rdK (d : Nat) : Nat := bits d 14 6 + 1
/-- INDEX of a ReductionSelect. -/
abbrev selIndex (x : Nat) : Nat := bits x 0 16
/-- SOURCE of a ReductionSelect. -/
abbrev selSource (x : Nat) : Nat := bits x 16 8

/-- The object with a sub-index of a Mash region (0–15) or a Steep group (16–23): both object tables number them alike (R321, R351). -/
def unitKey (u sub : Nat) : Nat := (if u < 16 then 0x4B0000 + 256 * u else 0x4C0000 + 256 * (u - 16)) + sub

/-- Whether the results of a definition carry STAGING_OVERRUN: all of them after an overrun of the reduction or the series engine; those of a FEATURE SOURCE that skipped records or is FAULTED; those of a model slot whose vectors were skipped or come from such a SOURCE (R206, R271, R309, R320). -/
def State.overFor (s : State) (d : Nat × Nat × Nat) : Bool :=
  let m := s.gr.over_
  let unit := fun u => bit m (8 + u) || (decide (u < 24) && s.i (unitKey u 1) == 3)
  let src := selSource d.2.1
  bit m 0 || bit m 1 ||
    (s.role == 1 && ((rdKind d.1 == 3 && decide (src < 24) && unit src) ||
      (rdKind d.1 == 4 && (bit m (32 + src) || (List.range 16).any fun b =>
        let v := (tgetD s.la.act b (0, 0, 0)).2.1
        bit v 11 && bits v 8 3 == src && unit (bits v 0 8)))))

/-- DefDigest of a definition (R255). -/
def defDigest (d x : Nat) : Nat := Config.blake3 (natBytes 8 d ++ natBytes 8 x) % 2 ^ 128

/-- The combinations that the table of R256 allows. -/
def comboOk (d : Nat) : Bool :=
  let t := rdType d
  match rdOp d with
  | 0 => true
  | 3 => true
  | 4 => decide (t ≤ 2) && rdKind d != 0
  | 5 | 6 => t == 0 && rdKind d != 0
  | _ => rdKind d != 0

/-- Worst-case state size in bytes (R259). -/
def worstSize (d : Nat) : Nat :=
  match rdOp d with
  | 0 => if 3 ≤ rdType d then 64 else 16
  | 1 | 2 => 32
  | 3 | 4 => 16
  | 5 => 272
  | 6 => 30224
  | _ => 16 + 16 * rdK d

/-! ### Operator states (R258–R261) -/

/-- The state of no value. -/
def rzero (op ity : Nat) : RState := ⟨op, ity, 0, 0, 0, 0, 0, [], 0⟩

/-- The order key of a value (R258). -/
def valueKey (ity v : Nat) : Int :=
  if ity = 0 then (v : Int) else if ity ≤ 2 then toS 64 v else ftotal f32 v

/-- Whether an entry ranks before another: by value in the direction asked, then ascending GID and SEQ. -/
def rankBefore (ity : Nat) (small : Bool) (a b : Nat × Nat × Nat) : Bool :=
  let x := valueKey ity a.1
  let y := valueKey ity b.1
  if x = y then a.2.1 < b.2.1 || (a.2.1 == b.2.1 && a.2.2 ≤ b.2.2)
  else if small then x < y else y < x

/-- Places an entry in rank order and keeps the first `k`. -/
def rankPut (ity : Nat) (small : Bool) (k : Nat) (e : Nat × Nat × Nat) (l : List (Nat × Nat × Nat)) : List (Nat × Nat × Nat) :=
  ((l.takeWhile fun x => !rankBefore ity small e x) ++ e :: (l.dropWhile fun x => !rankBefore ity small e x)).take k

/-- Rank direction and depth of MIN, MAX and TOPK. -/
def rankOf (d : Nat) : Bool × Nat := if rdOp d = 1 then (true, 1) else if rdOp d = 2 then (false, 1) else (bit d 13, rdK d)

/-- The bucket of R242. -/
def sketchBucket (t : Nat) : Nat :=
  if t < 128 then t else let e := t.log2; 128 + (e - 7) * 64 + (t >>> (e - 6)) % 64

/-- The representative value of a bucket (R242). -/
def sketchRep (b : Nat) : Nat :=
  if b < 128 then b else let e := (b - 128) / 64 + 7; let m := (b - 128) % 64; 2 ^ e + m * 2 ^ (e - 6) + 2 ^ (e - 7)

/-- Adds to a bucket of a list in ascending bucket order. -/
def bucketAdd (b n : Nat) : List (Nat × Nat × Nat) → List (Nat × Nat × Nat)
  | [] => [(b, n, 0)]
  | p :: t => if b < p.1 then (b, n, 0) :: p :: t else if b = p.1 then (b, p.2.1 + n, 0) :: t else p :: bucketAdd b n t

/-- The quantile rule of R242 over counts per bucket, of `m` members with the overdue ones above all buckets. DESIGN CHOICE (log 166): with no member left it is all ones. -/
def quantile (m q : Nat) (bs : List (Nat × Nat × Nat)) : Nat :=
  let need := (m * q + 99) / 100
  let r := bs.foldl (fun (acc : Nat × Option Nat) p =>
    let c := acc.1 + p.2.1
    (c, match acc.2 with | some x => some x | none => if need ≤ c then some (sketchRep p.1) else none)) (0, none)
  if m = 0 then 2 ^ 64 - 1 else r.2.getD (2 ^ 64 - 1)

/-- Folds one value of a definition (R259, R260). -/
def rfold (d v gid seq : Nat) (hold : Bool) (s : RState) : RState :=
  let s : RState := { s with values := s.values + 1, flags := setBit s.flags 1 (bit s.flags 1 || hold) }
  let fl := decide (3 ≤ s.ity)
  if fl && f32.isNan v && s.op != 3 then { s with nan := s.nan + 1, flags := setBit s.flags 3 true }
  else match s.op with
    | 0 =>
      if fl then match fdec f32 v with
        | .inf neg => if neg then { s with ninf := s.ninf + 1 } else { s with pinf := s.pinf + 1 }
        | .fin neg m e => let x : Int := (m * 2 ^ (e + 149).toNat : Nat); { s with acc := s.acc + (if neg then -x else x) }
        | .nan => s
      else { s with acc := s.acc + (if s.ity = 0 then (v : Int) else toS 64 v) }
    | 3 => { s with acc := s.acc + 1 }
    | 4 => { s with acc := ((s.acc.toNat ||| v : Nat) : Int) }
    | 5 => { s with ents := bucketAdd (min (bucketOf v) 32) 1 s.ents }
    | 6 => { s with ents := bucketAdd (sketchBucket v) 1 s.ents }
    | _ => { s with ents := rankPut s.ity (rankOf d).1 (rankOf d).2 (v, gid, seq) s.ents }

/-- Merges two states of one definition (R259). -/
def rmerge (d : Nat) (a b : RState) : RState :=
  let c := { a with values := a.values + b.values, pinf := a.pinf + b.pinf, ninf := a.ninf + b.ninf, nan := a.nan + b.nan, flags := a.flags ||| b.flags }
  match a.op with
  | 0 | 3 => { c with acc := a.acc + b.acc }
  | 4 => { c with acc := ((a.acc.toNat ||| b.acc.toNat : Nat) : Int) }
  | 5 | 6 => { c with ents := b.ents.foldl (fun l p => bucketAdd p.1 p.2.1 l) a.ents }
  | _ => { c with ents := b.ents.foldl (fun l p => rankPut a.ity (rankOf d).1 (rankOf d).2 p l) a.ents }

/-- The state in the layout of R259, in units. -/
def rencode (s : RState) : Rec :=
  match s.op with
  | 0 => if 3 ≤ s.ity then splitUnits 4 (packFields [(0, 320, ofS 320 s.acc), (320, 32, s.pinf), (352, 32, s.ninf), (384, 32, s.nan)]) else [ofS 128 s.acc]
  | 1 | 2 =>
    let e := s.ents.headD (0, 0, 0)
    splitUnits 2 (packFields [(0, 64, e.1), (64, 32, e.2.1), (96, 32, e.2.2), (128, 32, s.nan)])
  | 3 | 4 => [s.acc.toNat % 2 ^ 64]
  | 5 => splitUnits 17 (packFields (s.ents.map fun p => (64 * p.1, 64, p.2.1)))
  | 6 => (s.ents.length % 2 ^ 32) :: splitUnits ((s.ents.length + 1) / 2) (packFields (s.ents.zipIdx.map fun p => (64 * p.2, 64, p.1.1 + p.1.2.1 * 4096)))
  | _ => packFields [(0, 8, s.ents.length), (32, 32, s.nan)] :: s.ents.map fun p => packFields [(0, 64, p.1), (64, 32, p.2.1), (96, 32, p.2.2)]

/-- The state that a contribution's units hold. -/
def rdecode (op ity values flags : Nat) (u : Rec) : RState :=
  let x := joinUnits u
  let z := { rzero op ity with values := values, flags := flags }
  match op with
  | 0 => if 3 ≤ ity then { z with acc := toS 320 x, pinf := bits x 320 32, ninf := bits x 352 32, nan := bits x 384 32 } else { z with acc := toS 128 x }
  | 1 | 2 =>
    let nan := bits x 128 32
    { z with nan := nan, ents := if values ≤ nan then [] else [(bits x 0 64, bits x 64 32, bits x 96 32)] }
  | 3 | 4 => { z with acc := (bits x 0 64 : Nat) }
  | 5 => { z with ents := (List.range 33).filterMap fun b => let c := bits x (64 * b) 64; if c = 0 then none else some (b, c, 0) }
  | 6 => { z with ents := (List.range (bits x 0 32)).map fun i => (bits x (128 + 64 * i) 12, bits x (140 + 64 * i) 52, 0) }
  | _ => { z with nan := bits x 32 32, ents := (List.range (bits x 0 8)).map fun i => (bits x (128 + 128 * i) 64, bits x (192 + 128 * i) 32, bits x (224 + 128 * i) 32) }

/-- Rounding at the home (R262): the ROUNDED value, OVERFLOW. -/
def rround (out64 : Bool) (s : RState) : Nat × Bool :=
  if 3 ≤ s.ity then
    let f := if out64 then f64 else f32
    if 0 < s.nan ∨ (0 < s.pinf ∧ 0 < s.ninf) then (f.qnan, false)
    else if 0 < s.pinf then (f.infBits, false)
    else if 0 < s.ninf then (f.sgn true f.infBits, false)
    else
      let r := froundMag f s.acc.natAbs (-149) false
      (f.sgn (decide (s.acc < 0)) r.1, r.2)
  else if out64 then (froundI f64 s.acc 0, false)
  else
    let lo : Int := if s.ity = 0 then 0 else -(2 ^ 63)
    let hi : Int := if s.ity = 0 then 2 ^ 64 - 1 else 2 ^ 63 - 1
    let c := clampI lo hi s.acc
    (ofS 64 c, c != s.acc)

/-- PAYLOAD of a result (R268), and RFLAGS that it sets. -/
def rpayload (d : Nat) (s : RState) : Rec × Nat :=
  let nanSeen := if 0 < s.nan ∨ (s.op = 0 ∧ 3 ≤ s.ity ∧ 0 < s.pinf ∧ 0 < s.ninf) then 64 else 0
  match s.op with
  | 0 =>
    let r := rround (bit d 11) s
    let range := if (if 3 ≤ s.ity then 2 ^ 41 else 2 ^ 63) ≤ s.values then 32 else 0
    (r.1 :: (if bit d 12 then rencode s else []), (if r.2 then 16 else 0) + range + nanSeen + (if bit d 12 then 256 else 0))
  | 6 =>
    let q := fun p => quantile s.values p s.ents
    (splitUnits 2 (packFields [(0, 64, q 50), (64, 64, q 90), (128, 64, q 99)]) ++ rencode s, nanSeen)
  | _ => (rencode s, nanSeen)

/-! ### Values at a Tray (R252, R257) -/

/-- The bits of a 64-bit raw value that INPUT_TYPE takes. -/
def takeRaw (ity v : Nat) : Nat :=
  match ity with
  | 0 | 1 => v % 2 ^ 64
  | 2 => ofS 64 (toS 32 v)
  | 3 => v % 2 ^ 32
  | _ => v % 2 ^ 16 * 2 ^ 16

/-- A 32-bit element of a vector in an input type: zero-extended, sign-extended, binary32, or widened BF16 (R257). DESIGN CHOICE (log 167): the rule selects bits for counter values only. -/
def takeWord (ity v : Nat) : Nat :=
  match ity with
  | 0 => v % 2 ^ 32
  | 1 | 2 => ofS 64 (toS 32 v)
  | 3 => v % 2 ^ 32
  | _ => v % 2 ^ 16 * 2 ^ 16

/-- The value 1 of ONE. -/
def oneOf (ity : Nat) : Nat := if 3 ≤ ity then 0x3F800000 else 1

/-- Whether the last forward step of FT passed the end of an epoch (R275). -/
def State.steppedOver (s : State) (e : Epoch) : Bool := decide (s.rd.stepTo.1 < ns (e.start + e.len) ∧ ns (e.start + e.len) ≤ s.rd.stepTo.2)

/-- The close of an epoch at this level (R264); an epoch that a forward step passed over closes at the step (R275). -/
def State.closeAt (s : State) (e : Epoch) : Nat := ns (e.start + e.len) + (if s.steppedOver e then 0 else s.level * us e.grace)

/-- The close of its supplement (R270). -/
def State.suppAt (s : State) (e : Epoch) : Nat := ns (e.start + e.len) + ms e.hold + s.level * us e.grace

/-- Whether data is late for an epoch: it comes at or after the close, and is not of the lead's set (R26, R264, R270). -/
def State.lateFor (s : State) (e : Epoch) (fetched : Bool) : Bool := e.closed || (!fetched && decide (s.closeAt e ≤ s.ft .icd))

/-- The definitions that governed an epoch whose record is gone; those given where none is known (R255, R270). -/
def State.defsOfEpoch (n : Nat) (d : Tbl (Nat × Nat × Nat)) (s : State) : Tbl (Nat × Nat × Nat) :=
  (((s.rd.defsFrom.filter fun p => decide (p.1 ≤ n)).getLast?).map (·.2)).getD d

/-- Files values of one die under the epoch of their stamp: main before the Tray's close, late before the supplement's, discarded and counted after it. `fetched`: of the lead's set. -/
def State.fileValues (fetched : Bool) (n : Nat) (gid : Nat) (f : Epoch → List RVal) (s : State) : State :=
  match tget s.rd.epochs n with
  | none =>
    if n ≤ s.i O.EpochNow then
      s.addOb .icd O.LateDiscarded 64 (match tget s.rd.epochs (s.i O.EpochNow) with | some e => (f { e with defs := s.defsOfEpoch n e.defs }).length | none => 0)
    else s
  | some e =>
    if !wordsHas e.members gid then s
    else
      let vs := f e
      if vs.isEmpty then s
      else if e.suppDone ∨ (!fetched ∧ s.suppAt e ≤ s.ft .icd) then s.addOb .icd O.LateDiscarded 64 vs.length
      else
        let e := if !s.lateFor e fetched then { e with vals := e.vals ++ vs } else { e with lateVals := e.lateVals ++ vs }
        { s with rd := { s.rd with epochs := tset s.rd.epochs n e } }

/-- Counters of a CounterSampleRecord's values, ascending: those of the SampleMapRecord of its version that the Tray's copy has enabled (R114, R115). -/
def State.sampleList (slot ver count : Nat) (s : State) : List Nat :=
  let all := match tget s.se.maps (slot * 2 ^ 16 + ver) with
    | some m => setBitsOf 4096 m
    | none => (List.range 4096).filter fun n => ccSample (s.copyOf slot (ccfg n))
  let on := all.filter fun n => ccEnable (s.copyOf slot (ccfg n))
  if on.length = count then on else all

/-- Whether a stamp carries HOLDOVER, DOZING or STEPPED (R252). -/
def holdStamp (x : Nat) : Bool := bit x 80 || bit x 81 || bit x 83

/-- Values of a record read from staging (R257). -/
def State.valuesOf (e : Epoch) (slot st fseq : Nat) (r : Rec) (s : State) : List RVal :=
  let gid := rSrc r
  if rType r = 0x31 then
    let stm := recFld r 128 128
    let l := (s.sampleList slot (recFld r 256 16) (recFld r 272 16)).take (recFld r 272 16)
    e.defs.filterMap fun d =>
      if rdKind d.2.1 = 1 then (l.idxOf? (selIndex d.2.2.1)).map fun i =>
        ⟨d.1, 0, takeRaw (rdType d.2.1) (recFld r (384 + 64 * i) 64), gid, rSeq r, slot, st, fseq, holdStamp stm⟩
      else none
  else
    let cf := recFld r 488 24
    let n := recFld r 456 10
    if n = 0 ∨ bit cf 8 ∨ bit cf 3 ∨ bit cf 5 then []
    else
      let l := (tget (tgetD s.ct.copySets (slot * 8 + recFld r 452 3) []) (recFld r 472 16)).getD []
      e.defs.filterMap fun d =>
        if rdKind d.2.1 = 2 then
          match l.idxOf? (selIndex d.2.2.1) with
          | some i =>
            if i < n then
              some ⟨d.1, if rdScope d.2.1 then rPart r else 0, takeRaw (rdType d.2.1) (recFld r (512 + 64 * i) 64), gid, rSeq r, slot, st, fseq, holdStamp (recFld r 320 128)⟩
            else none
          | none => none
        else none

/-- The reduction engine reads a CommandCounterRecord or a CounterSampleRecord (R257); a record of an epoch that has not begun here waits for it. `fetched`: of the lead's set (R26). -/
def State.reduceFrom (fetched : Bool) (slot st fseq : Nat) (r : Rec) (s : State) : State :=
  if s.role ≠ 1 ∨ !s.rd.has ∨ !(rType r == 0x30 || rType r == 0x31) then s
  else
    let stm := if rType r = 0x30 then recFld r 320 128 else recFld r 128 128
    let n := s.epochAt (stampFt stm)
    if s.i O.EpochNow < n then { s with rd := { s.rd with early := s.rd.early ++ [(slot, st, fseq, r)] } }
    else s.fileValues fetched n (rSrc r) (fun e => s.valuesOf e slot st fseq r)

/-- Of the COUNTER_SAMPLE values, those of each die's last record (R257): by SEQUENCE, which wraps. The others are kept as they are. -/
def Epoch.lastSamples (e : Epoch) (vs : List RVal) : List RVal :=
  vs.filter fun v => !((match tget e.defs v.r with | some d => rdKind d.1 == 1 | none => false) &&
    vs.any fun w => w.r == v.r && w.gid == v.gid && w.seq != v.seq && decide ((w.seq + 2 ^ 32 - v.seq) % 2 ^ 32 < 2 ^ 31))

/-- The reduction engine reads a record of its own ingress. -/
def State.reduceRecord (slot st fseq : Nat) (r : Rec) (s : State) : State := s.reduceFrom false slot st fseq r

/-- The next vector number of a die from a unit in an epoch (R257, R308), and its advance. -/
def State.vectorNum (epoch unit gid : Nat) (s : State) : Nat × State :=
  let k := (epoch * 256 + unit) * 2 ^ 32 + gid
  let n := tgetD s.rd.vnum k 0
  (n, { s with rd := { s.rd with vnum := tset s.rd.vnum k (n + 1) } })

/-- VALUE of a feature in a FeatureVectorRecord (R288). -/
def vecValue (r : Rec) (f : Nat) : Nat := recFld r (384 + 32 * f) 32
/-- FEATURES of a FeatureVectorRecord. -/
abbrev vecFeatures (r : Rec) : Nat := recFld r 352 32
/-- The missing bit of a feature. -/
def vecMissing (r : Rec) (f : Nat) : Bool := recFld r (384 + 32 * vecFeatures r + f) 1 == 1

/-- An element of a FeatureVectorRecord, none where it is missing, or an output of a ScoreResultRecord (R257). -/
def vecElem (r : Rec) (i : Nat) : Option Nat :=
  if rType r = 0xA1 then (if i < recFld r 344 5 then some (recFld r (512 + 32 * i) 32) else none)
  else if vecFeatures r ≤ i ∨ vecMissing r i then none else some (vecValue r i)

/-- The record that a vector of a unit comes from: slot, stream type, flit SEQUENCE; type 0 where it comes from an agreed set (R263, R307). -/
def State.origOf (u : Nat) (r : Rec) (s : State) : Nat × Nat × Nat :=
  match s.ma.orig.find? fun o => o.1 == u && o.2.1 == rSrc r && o.2.2.1 == recFld r 128 128 with
  | some o => o.2.2.2
  | none => (0, 0, 0)

/-- The reduction engine reads a feature vector (FEATURE of a region or group) or a score (LAUTER_OUTPUT of a model slot), which stands in the agreed set as the record it comes from does; one of an epoch that has not begun here waits for it (R252, R257, R263). -/
def State.reduceVector (slot st fseq : Nat) (r : Rec) (s : State) : State :=
  if s.role ≠ 1 ∨ !s.rd.has then s
  else
    let score := rType r == 0xA1
    let stm := recFld r 128 128
    let source := if score then recFld r 340 3 else recFld r 336 8
    let n := s.epochAt (stampFt stm)
    if s.i O.EpochNow < n then { s with rd := { s.rd with early := s.rd.early ++ [(slot, st, fseq, r)] } }
    else s.fileValues false n (rSrc r) fun e => e.defs.filterMap fun d =>
      if rdKind d.2.1 = (if score then 4 else 3) ∧ selSource d.2.2.1 = source then
        (vecElem r (selIndex d.2.2.1)).map fun v =>
          ⟨d.1, if rdScope d.2.1 then rPart r else 0, takeWord (rdType d.2.1) v, rSrc r, recFld r 304 32, slot, st, fseq, holdStamp stm⟩
      else none

/-! ### Scopes -/

/-- The scopes of an epoch: 0 for fleet reductions, each partition with members below for the others (R254). -/
def Epoch.scopes (e : Epoch) : List Nat :=
  (if e.defs.any fun d => !rdScope d.2.1 then [0] else []) ++
  (if e.defs.any fun d => rdScope d.2.1 then (e.parts.filter fun p => !(wordsAnd p.2.1 e.members).isEmpty).map (·.1) else [])

/-- Reductions of a scope. -/
def Epoch.defsOf (e : Epoch) (part : Nat) : Tbl (Nat × Nat × Nat) := e.defs.filter fun d => rdScope d.2.1 == (part != 0)

/-- Members in a scope. -/
def Epoch.memberCount (e : Epoch) (part : Nat) : Nat :=
  if part = 0 then wordsCount e.members else match tget e.parts part with | some p => wordsCount (wordsAnd p.1 e.members) | none => 0

/-- The level of a scope's home (R267). -/
def Epoch.homeOf (e : Epoch) (part : Nat) : Nat := if part = 0 then 3 else match tget e.parts part with | some p => p.2 | none => 3

/-- A scope built from values at a Tray: ONE for the dies named, the other kinds from the values (R257). -/
def Epoch.trayScope (e : Epoch) (part : Nat) (dies : List Nat) (ones : List Nat) (vals : List RVal) (over_ : Nat × Nat × Nat → Bool) : Scope :=
  let inPart := fun g => part == 0 || (match tget e.parts part with | some p => wordsHas p.1 g | none => false)
  let ds := dies.filter inPart
  let states := (e.defsOf part).map fun d =>
    let z := rzero (rdOp d.2.1) (rdType d.2.1)
    let st := if rdKind d.2.1 = 0 then (ones.filter inPart).foldl (fun a g => rfold d.2.1 (oneOf (rdType d.2.1)) g 0 false a) z
      else (vals.filter fun v => v.r == d.1 && v.part == part && inPart v.gid).foldl (fun a v => rfold d.2.1 v.val v.gid v.seq v.hold a) z
    let bad := ds.any fun g => e.inexact.contains (d.1, g)
    (d.1, { st with flags := setBit (setBit (setBit st.flags 5 bad) 2 (over_ d.2)) 1 (bit st.flags 1 || e.held) })
  ⟨states, wordsOf ds, e.memberCount part⟩

/-- Whether a child's contribution is complete: its set, and a record for every reduction of the scope (R264). -/
def Epoch.complete (e : Epoch) (c : Contrib) : Bool :=
  c.set_.isSome && (e.defsOf c.part).all fun d => (tget c.recs d.1).isSome

/-- Whether every DEF_DIGEST agrees with this device's (R266). -/
def Epoch.agrees (e : Epoch) (c : Contrib) : Bool := (e.defsOf c.part).all fun d => match tget c.recs d.1 with | some r => recFld r 320 128 == d.2.2.2 | none => true

/-- Contributor words of a contribution. -/
def Contrib.words (c : Contrib) : Tbl Nat := match c.set_ with | some r => unitsWords (r.drop 3) | none => []

/-- A scope merged from contributions; a die in the sets of two children is counted once and sets DUPLICATE (R265). -/
def Epoch.mergeScope (e : Epoch) (part : Nat) (cs : List Contrib) (over_ : Nat × Nat × Nat → Bool) : Scope × Nat :=
  let sets := ((cs.map Contrib.port).eraseDups).map fun q => (cs.filter fun c => c.port == q).foldl (fun w c => wordsOr w c.words) []
  let w := sets.foldl (fun (acc : Tbl Nat × Nat) x => (wordsOr acc.1 x, acc.2 + wordsCount (wordsAnd acc.1 x))) ([], 0)
  let states := (e.defsOf part).map fun d =>
    let z := rzero (rdOp d.2.1) (rdType d.2.1)
    let st := cs.foldl (fun a c => match tget c.recs d.1 with
      | some r => rmerge d.2.1 a (rdecode (rdOp d.2.1) (rdType d.2.1) (recFld r 256 64) (recFld r 200 8 % 64 / 2 * 2) (r.drop 4))
      | none => a) z
    (d.1, { st with flags := setBit (setBit (setBit st.flags 4 (bit st.flags 4 || decide (0 < w.2))) 2 (bit st.flags 2 || over_ d.2)) 1 (bit st.flags 1 || e.held) })
  (⟨states, w.1, e.memberCount part⟩, w.2)

/-! ### Records (R265–R267) -/

/-- The contributor digest (R265). -/
def contribDigest (n part : Nat) (w : Tbl Nat) : Nat :=
  Config.blake3 (natBytes 6 n ++ [0, 0] ++ natBytes 2 part ++ (w.filter fun p => p.2 != 0).flatMap fun p => natBytes 8 p.1 ++ natBytes 8 p.2) % 2 ^ 128

/-- Sends one scope's ContributionRecords and its ContributorSetRecord upward (R265, R266). -/
def State.sendScope (e : Epoch) (part : Nat) (sc : Scope) (supp : Bool) (s : State) : State :=
  let n := wordsCount sc.words
  let s : State := sc.states.foldl (fun s p =>
    let d := (tget e.defs p.1).getD (0, 0, 0)
    let u := rencode p.2
    let (r, s) := s.form .icd 0x90 (4 + u.length) 0 part
      [(128, 16, p.1), (144, 48, e.num), (192, 8, rdOp d.1), (200, 8, p.2.flags / 2 * 2 + b2n supp), (224, 32, n), (256, 64, p.2.values), (320, 128, d.2.2),
       (512, 128 * u.length, joinUnits u)]
    s.upSend stContrib r) s
  let u := wordsUnits sc.words
  let (r, s) := s.form .icd 0x92 (3 + u.length) 0 part
    [(128, 48, e.num), (176, 1, b2n supp), (192, 32, u.length), (224, 32, sc.members), (384, 128 * u.length, joinUnits u)]
  s.upSend stContrib r

/-- Forms and posts one ReductionResultRecord or LateSupplementRecord (R267–R270). -/
def State.postResult (e : Epoch) (part r : Nat) (sc : Scope) (st : RState) (supp : Bool) (s : State) : State :=
  let d := (tget e.defs r).getD (0, 0, 0)
  let pl := rpayload d.1 st
  let n := wordsCount sc.words
  let inc := if n < sc.members then 1 else 0
  let mm := if bit e.mismatch (b2n supp) ∨ bit e.mismatch 0 then 2 else 0
  let k := st.flags
  let fl := inc + mm + b2n (bit k 1) * 4 + b2n (bit k 2) * 8 + b2n (bit k 4) * 128 + b2n supp * 512 + b2n (bit k 5) * 1024
  let (rec_, s) := s.form .icd (if supp then 0x93 else 0x91) (6 + pl.1.length) 0 part
    [(128, 16, r), (144, 48, e.num), (192, 8, rdOp d.1), (200, 8, bits d.1 11 1), (208, 16, fl ||| pl.2), (224, 32, n), (256, 32, sc.members), (320, 64, st.values),
     (384, 128, contribDigest e.num part sc.words), (512, 128, d.2.2), (640, 64, e.start), (704, 32, e.len), (768, 128 * pl.1.length, joinUnits pl.1)]
  let s : State := (s.hostPost rec_).leadPost rec_
  if part ≠ 0 ∧ rdKind d.1 ≠ 1 ∧ !bit k 5 then s.vfPost part rec_ else s

/-! ### Closing an epoch (R263, R264, R26) -/

/-- Replaces an epoch's record. -/
def State.setEpoch (e : Epoch) (s : State) : State := { s with rd := { s.rd with epochs := tset s.rd.epochs e.num e } }

/-- Contributor dies of an epoch at its Tray (R263). -/
def State.contributors (e : Epoch) (s : State) : List Nat :=
  (s.ln.dieGid.filter fun p => decide (p.1 < 64) && wordsHas e.members p.2 && s.liveSlots.contains p.1).map (·.2)

/-- Sends a closed epoch's scopes upward, or keeps them for the home's post. -/
def State.epochOut (e : Epoch) (main : Tbl Scope) (supp : Bool) (s : State) : State :=
  main.foldl (fun s p => if e.homeOf p.1 ≤ s.level then s else s.sendScope e p.1 p.2 supp) s

/-- A part of a child's contribution is filed under its epoch; at or after the close the whole contribution is late; a second of the same child, scope and reduction is discarded; after the supplement's close it is discarded (R264, R270, R412). `fetched`: of the lead's set (R26). -/
def State.fileContribution (fetched : Bool) (port : Nat) (r : Rec) (s : State) : State :=
  let isSet := rType r == 0x92
  let n := if isSet then recFld r 128 48 else recFld r 144 48
  let supp := if isSet then recFld r 176 1 == 1 else recFld r 200 1 == 1
  match tget s.rd.epochs n with
  | none => if isSet then s else s.addOb .icd O.LateDiscarded 64 (recFld r 256 64)
  | some e =>
    if e.suppDone ∨ (!fetched ∧ s.suppAt e ≤ s.ft .icd) then (if isSet then s else s.addOb .icd O.LateDiscarded 64 (recFld r 256 64))
    else
      let same := fun (c : Contrib) => c.port == port && c.part == rPart r && c.supp == supp
      let c := (e.childs.find? same).getD ⟨port, rPart r, supp, false, [], none⟩
      let dup := if isSet then c.set_.isSome else (tget c.recs (recFld r 128 16)).isSome
      if dup then (if isSet then s else s.iCount O.DuplicateContributions)
      else
        let lateNow := s.lateFor e fetched && !supp && !c.late
        let c' := if isSet then { c with set_ := some r } else { c with recs := tset c.recs (recFld r 128 16) r }
        let c' := { c' with late := c.late || lateNow }
        let s : State := if lateNow then s.iCount O.LateContributions else s
        s.setEpoch { e with childs := (e.childs.filter fun x => !same x) ++ [c'] }

/-- CONTRIBUTION_RECEIVE: one record of a child's contribution. -/
def State.contributionReceive (port : Nat) (r : Rec) (s : State) : State := (s.learn (rSrc r) port true).fileContribution false port r

/-- CONTRIBUTION_RECEIVE. -/
def execContributionReceive (port : Nat) (r : Rec) : State → Host.Outcome State Fault Refusal := run (State.contributionReceive port r)

/-- Whether a flit of a stream lies in a loss set (R25). -/
def lostAt (lost : List (Nat × Nat × Nat)) (key seq : Nat) : Bool := lost.any fun x => x.1 == key && decide ((seq + 2 ^ 28 - x.2.1 % 2 ^ 28) % 2 ^ 28 < x.2.2)

/-- What a shadow lacks of the lead's set at a close, and asks for by repair requests, which the lead answers with the flits (R25, R26): of each stream the flits after its own last one up to the agreed SEQUENCE, and of a child's contribution that it does not hold whole the CONTRIB flits it has lost. -/
def State.fetchAsk (e : Epoch) (a : Tbl Nat × List Nat) (s : State) : State :=
  let link := fun k => if s.role = 1 then linkNum (.slot k) else linkNum (.down k)
  let ask := fun (s : State) (k first n : Nat) => s.xMsg 0x25 [link (k / 16), k % 16, first, n]
  let s : State := a.1.foldl (fun s p => match tget s.gr.taken p.1 with
    | some q => if seqFrom p.2 q then s else ask s p.1 ((q + 1) % 2 ^ 28) ((p.2 + 2 ^ 28 - q) % 2 ^ 28)
    | none => ask s p.1 ((p.2 + 2 ^ 28 - 1023) % 2 ^ 28) 1024) s
  if s.role = 1 then s
  else
    let lack := a.2.filter fun k => !e.childs.any fun c => !c.supp && c.port * 65536 + c.part == k && e.complete c
    (s.rd.lost.filter fun x => x.1 % 16 == stContrib && lack.any fun k => k / 65536 == x.1 / 16).foldl (fun s x => ask s x.1 x.2.1 x.2.2) s

/-- Files what the lead sent of its set: records of a Tray's streams, contributions above (R26). -/
def State.fetchTake (l : List (Nat × Nat × Nat × Rec)) (s : State) : State :=
  l.foldl (fun s f => if rType f.2.2.2 = 0x90 ∨ rType f.2.2.2 = 0x92 then s.fileContribution true f.1 f.2.2.2 else s.reduceFrom true f.1 f.2.1 f.2.2.1 f.2.2.2) s

/-- A contribution whose DEF_DIGEST differs is counted, with an alarm for each of its reductions (R266). -/
def State.mismatches (e : Epoch) (bad : List Contrib) (s : State) : State :=
  bad.foldl (fun s c => (e.defsOf c.part).foldl (fun s d => match tget c.recs d.1 with
    | some r => if recFld r 320 128 == d.2.2.2 then s else (s.iCount O.DefMismatches).iAlarm 0x063 2 0x0C00 (rSrc r + d.1 * 2 ^ 32)
    | none => s) s) s

/-- EPOCH_CLOSE: at EpochEnd + L × GracePerLevel the level builds its scopes, from the lead's set at a shadow; the lead sends its set to the shadow; what a shadow holds outside the set goes to the late supplement; the twins exchange their loss sets, and what either has lost is lost at both (`lost`: the twin's), for every engine that has not read it; epochs that a forward step passed over close at the step, the earliest first (R275); a close launched in HOLDOVER marks its results; scopes not at home go upward (R25, R26, R28, R263–R266). -/
def State.epochClose (n : Nat) (agreed : Option (Tbl Nat × List Nat)) (fetched : List (Nat × Nat × Nat × Rec)) (lost : List (Nat × Nat × Nat)) (s : State) : State :=
  match tget s.rd.epochs n with
  | none => s
  | some e0 =>
    let before := s.rd.epochs.any fun p => decide (p.2.start < e0.start) && !p.2.closed && s.steppedOver p.2
    if e0.closed ∨ s.ft .icd < s.closeAt e0 ∨ (s.steppedOver e0 && before) then s
    else
      let set_ := if s.isLead then none else agreed
      let s : State := match set_ with | some a => s.fetchAsk e0 a | none => s
      let s : State := s.fetchTake fetched
      let s : State := { s.xMsg 0x225 (n :: s.rd.lost.flatMap fun x => [x.1, x.2.1, x.2.2]) with
        rd := { s.rd with lost := [] }, gr := { s.gr with staging := s.gr.staging.filter fun x => !lostAt lost (x.slot * 16 + x.st) x.fseq } }
      let e := (tget s.rd.epochs n).getD e0
      let e := { e with held := e.held || s.holdoverFlag .icd, vals := e.vals.filter fun v => !lostAt lost (v.slot * 16 + v.st) v.fseq }
      let over_ := s.overFor
      let any_ := s.gr.over_ != 0
      let stay := (setBitsOf 40 s.gr.over_).filter fun b => decide (ns (e.start + e.len) ≤ tgetD s.gr.overAt b 0)
      let s : State := { s with gr := { s.gr with over_ := stay.foldl (fun m b => setBit m b true) 0 } }
      let res : Epoch × Tbl Scope × Nat × List Nat :=
        if s.role = 1 then
          let own := s.contributors e
          let dies := match set_ with | some a => a.2 | none => own
          let mine := e.vals.filter fun v => dies.contains v.gid
          let inSet := fun (v : RVal) => match set_ with
            | some a => v.st == 0 || (match tget a.1 (v.slot * 16 + v.st) with | some q => seqFrom v.fseq q | none => false)
            | none => true
          let main := e.lastSamples (mine.filter inSet)
          let late := match set_ with
            | some _ => e.vals.filter fun v => wordsHas e.members v.gid && !(dies.contains v.gid && inSet v)
            | none => []
          let scs := e.scopes.map fun p => (p, e.trayScope p dies dies main over_)
          ({ e with vals := [], lateVals := late ++ e.lateVals, closed := true, over_ := any_, main := scs }, scs, 0,
            dies)
        else
          let ok := fun (c : Contrib) => !c.supp && !c.late && e.complete c && e.agrees c &&
            (match set_ with | some a => a.2.contains (c.port * 65536 + c.part) | none => true)
          let used := e.childs.filter ok
          let r := e.scopes.map fun p => (p, e.mergeScope p (used.filter fun c => c.part == p) over_)
          let scs := r.map fun p => (p.1, p.2.1)
          let cs := e.childs.filter fun c => c.supp || !ok c
          let cs := cs.map fun c => if !c.supp && e.complete c && e.agrees c then { c with late := true } else c
          ({ e with childs := cs, closed := true, over_ := any_, main := scs }, scs, lsum (r.map fun p => p.2.2),
            used.map fun c => c.port * 65536 + c.part)
      let slots := (s.ln.dieGid.filter fun p => res.2.2.2.contains p.2).map (·.1)
      let ag := match set_ with | some a => a.1 | none => s.gr.taken.filter fun p => s.role != 1 || slots.contains (p.1 / 16)
      let s : State := { s.setEpoch res.1 with ma := { s.ma with agreed := (tset s.ma.agreed n ag).drop ((tset s.ma.agreed n ag).length - 8) } }
      let bad := e.childs.filter fun c => !c.supp && !c.late && e.complete c && !e.agrees c
      let s : State := s.addOb .icd O.Duplicates 32 res.2.2.1
      let s : State := s.mismatches e bad
      let s : State := if s.isLead then s.xMsg 0x226 ([n, res.2.2.2.length] ++ res.2.2.2 ++ ag.flatMap fun p => [p.1, p.2]) else s
      let s : State := s.epochOut res.1 res.2.1 false
      if s.isLead ∧ res.2.1.all (fun p => s.level < res.1.homeOf p.1) then { s with tw := { s.tw with posted := max s.tw.posted n } } else s

/-- Posts a closed epoch's home results. -/
def State.postHome (e : Epoch) (s : State) : State :=
  e.main.foldl (fun s p => if e.homeOf p.1 = s.level then p.2.states.foldl (fun s q => s.postResult e p.1 q.1 p.2 q.2 false) s else s) s

/-- RESULT_POST: the home rounds once; both twins form the records and the lead posts them (R262, R267). -/
def State.resultPost (n : Nat) (s : State) : State :=
  match tget s.rd.epochs n with
  | some e =>
    if !e.closed ∨ e.posted then s
    else
      let s : State := (s.postHome e).setEpoch { e with posted := true }
      if s.isLead then { s with tw := { s.tw with posted := max s.tw.posted n } } else s
  | none => s

/-- RESULT_POST. -/
def execResultPost (n : Nat) : State → Host.Outcome State Fault Refusal := run (State.resultPost n)

/-- The number of a late contribution in the set that the twins agree at a supplement's close: child port, scope, and whether it is a supplement. -/
def Contrib.lateNum (c : Contrib) : Nat := (c.port * 65536 + c.part) * 2 + b2n c.supp

/-- The number of a late value in that set at a Tray: its die, its SEQUENCE, and its reduction, since SEQUENCE counts by record TYPE. -/
def RVal.lateNum (v : RVal) : Nat := (v.gid * 2 ^ 32 + v.seq) * 256 + v.r

/-- The late contributions that a Row or Apex takes into the supplement: whole ones whose DefDigests agree (R266, R270). -/
def Epoch.lateChilds (e : Epoch) : List Contrib := e.childs.filter fun c => (c.supp || c.late) && e.complete c && e.agrees c

/-- The set of late data that the lead sends its shadow (R26, R270): die and record SEQUENCE at a Tray, contributions above. -/
def State.lateSet (s : State) (e : Epoch) : List Nat :=
  if s.role = 1 then e.lateVals.map RVal.lateNum else e.lateChilds.map Contrib.lateNum

/-- SUPPLEMENT_CLOSE: at EpochEnd + SupplementHold + L × GracePerLevel the supplement is built from what came late, agreed with the twin, and sent upward; what a shadow lacks of the lead's set is fetched, and what it holds outside the set is left out; the home posts it when it holds a value or a contributor (R26, R270). -/
def State.supplementClose (n : Nat) (agreed : Option LateSet) (s : State) : State :=
  match tget s.rd.epochs n with
  | none => s
  | some e0 =>
    if e0.suppDone ∨ !e0.closed ∨ s.ft .icd < s.suppAt e0 then s
    else
      let set_ := if s.isLead then none else agreed.map (·.set_)
      let s : State := if s.isLead then s else s.fetchTake ((agreed.map (·.fetched)).getD [])
      let e := (tget s.rd.epochs n).getD e0
      let e := { e with held := e.held || s.holdoverFlag .icd }
      let res : Tbl Scope × Nat :=
        if s.role = 1 then
          let vs := match set_ with
            | some a => e.lateVals.filter fun v => a.contains v.lateNum
            | none => e.lateVals
          let vs := e.lastSamples vs
          let dies := (vs.map (·.gid)).eraseDups
          (e.scopes.map fun p =>
            let mainW := match tget e.main p with | some sc => sc.words | none => []
            (p, e.trayScope p dies (dies.filter fun g => !wordsHas mainW g) vs fun _ => false), 0)
        else
          let cs := e.lateChilds.filter fun c => match set_ with | some a => a.contains c.lateNum | none => true
          let r := e.scopes.map fun p => (p, e.mergeScope p (cs.filter fun c => c.part == p) fun _ => false)
          (r.map fun p => (p.1, p.2.1), lsum (r.map fun p => p.2.2))
      let scs := res.1
      let s : State := (s.addOb .icd O.Duplicates 32 res.2).mismatches e (e.childs.filter fun c => (c.supp || c.late) && e.complete c && !e.agrees c)
      let s : State := if s.isLead then s.xMsg 0x270 (n :: s.lateSet e) else s
      let s : State := s.epochOut e scs true
      let s : State := scs.foldl (fun s p =>
        if e.homeOf p.1 = s.level then
          p.2.states.foldl (fun s q => if q.2.values = 0 ∧ p.2.words.isEmpty then s else s.postResult e p.1 q.1 p.2 q.2 true) s
        else s) s
      s.setEpoch { e with suppDone := true, supp := scs, lateVals := [], childs := [] }

/-- SUPPLEMENT_CLOSE. -/
def execSupplementClose (n : Nat) (agreed : Option LateSet) : State → Host.Outcome State Fault Refusal := run (State.supplementClose n agreed)

/-! ### Settings (R253, R255, R256) -/

/-- Whether 8 epochs of a length hold the close of one (R253). -/
def epochFits (len grace budget : Nat) : Bool := decide (3 * grace + budget ≤ 8 * len)

/-- EPOCH_LENGTH_WRITE: the Apex lead schedules the change at the first boundary at least 1 ms ahead and spreads it (R253). -/
def State.epochLengthOp (v : Nat) : Op := fun s =>
  if !epochFits v (s.i O.GracePerLevel) (s.i O.ResultBudget) then (s, no stRange)
  else (s.spread [(O.EpochLength, v)] (s.boundaryAfter (s.ft .icd + ms 1)), ok)

/-- EPOCH_LENGTH_WRITE. -/
def execEpochLengthWrite (q : Req) (v : Nat) : State → Host.Outcome State Fault Refusal :=
  run (State.reqWrite q O.EpochLength v (State.epochLengthOp v))

/-- The definition that stands in the staging copy of a reduction, as ReductionDef and ReductionSelect. -/
abbrev State.stagedDef (r : Nat) (s : State) : Nat × Nat := (s.i (inst O.ReductionDef r), s.i (inst O.ReductionSelect r))

/-- The staged definitions that are not 0. -/
def State.stagedDefs (s : State) : Tbl (Nat × Nat) :=
  (List.range 256).filterMap fun r => if s.stagedDef r = (0, 0) then none else some (r, s.stagedDef r)

/-- The reductions whose definitions a commit spreads: those staged, and those staged 0 that an earlier commit has defined (R255). -/
def State.spreadDefs (s : State) : List (Nat × Nat) :=
  ((List.range 256).filter fun r => s.stagedDef r != (0, 0) || (tget s.rd.active r).isSome || s.rd.staged.any fun c => (tget c.2 r).isSome).flatMap fun r =>
    [(inst O.ReductionDef r, (s.stagedDef r).1), (inst O.ReductionSelect r, (s.stagedDef r).2)]

/-- The reductions that offend against a commit (R256). -/
def offenders (l : Tbl (Nat × Nat)) : List Nat :=
  let en := l.filter fun p => bit p.2.1 0
  let a := (en.filter fun p => !comboOk p.2.1 || (rdScope p.2.1 && rdKind p.2.1 == 1)).map (·.1)
  let fleet := en.filter fun p => !rdScope p.2.1
  let b := if 65536 < lsum (fleet.map fun p => worstSize p.2.1) then fleet.map (·.1) else []
  let tot := lsum (en.map fun p => worstSize p.2.1 * (if rdScope p.2.1 then 1024 else 1) * 8)
  let c := if 3 * 1073741824 < tot then en.map (·.1) else []
  (a ++ b ++ c).eraseDups

/-- REDUCTION_COMMIT: the staged definitions are checked and the commit scheduled fleet-wide, or refused as a whole with RANGE; the Apex's own staging copy is left as it is, for the next commit (R255, R256). -/
def State.reductionCommitOp : Op := fun s =>
  let l := s.stagedDefs
  let bad := offenders l
  if !bad.isEmpty then (bad.foldl (fun s r => s.iSet (inst O.ReductionStatus r) 2) s, no stRange)
  else
    let s : State := (List.range 256).foldl (fun s r => if s.i (inst O.ReductionStatus r) = 2 then s.iSet (inst O.ReductionStatus r) (b2n ((tget s.rd.active r).any fun d => bit d.1 0)) else s) s
    let b := s.boundaryAfter (s.ft .icd + ms 1)
    let own := if (tget s.rd.staged b).isSome then [] else [(O.ReductionCommit, 1)]
    let all := s.spreadDefs ++ [(O.ReductionCommit, 1)]
    let s : State := { s with rd := { s.rd with staged := tset s.rd.staged b l } }
    ((s.spreadAs own all b).iSet O.CommitEpoch (s.epochFrom b), ok)

/-- REDUCTION_COMMIT. -/
def execReductionCommit (q : Req) : State → Host.Outcome State Fault Refusal := run (State.reqWrite q O.ReductionCommit 1 State.reductionCommitOp)

/-- A commit takes effect: the definitions of the earliest accepted commit, or at a device below those spread to it, become active and their digests are fixed (R255). -/
def State.commitDefs (s : State) : State :=
  let l := match s.rd.staged with | c :: _ => c.2 | [] => s.stagedDefs
  let act := l.map fun p => (p.1, (p.2.1, p.2.2, defDigest p.2.1 p.2.2))
  let s : State := { s with rd := { s.rd with staged := s.rd.staged.drop 1, active := act } }
  (List.range 256).foldl (fun s r =>
    match tget act r with
    | some d => (s.iSet (inst O.ReductionStatus r) (b2n (bit d.1 0))).iSet (inst O.DefDigest r) d.2.2
    | none => s.iSet (inst O.ReductionStatus r) 0) s

/-! ### Anchors (R251) -/

/-- EPOCH_ANCHOR_SEND: after each of the first 16 DelayReqs of a node, at a change of EpochLength, and at every whole second, a master that holds the pair sends an anchor; over the crosslink while the shadow takes FT from it, as the Apex shadow and one without its uplink pair do (R39). -/
def State.epochAnchorSend (l : Link) (s : State) : State :=
  let k := linkNum l
  let n := tgetD s.rd.served k 0
  let sec := s.ft .icd / ns 1000000000
  let first := decide (n < 16) && s.tm.dreqNew.contains k
  let served := match l with | .xlink => s.role == 3 || s.tw.twinNoUp | _ => true
  let due := first || decide (tgetD s.rd.told k 0 < s.rd.changes) || decide (tgetD s.rd.anchorSec k 0 < sec)
  if !s.rd.has ∨ !s.isLead ∨ !due ∨ !served then s
  else
    let ch := s.tm.iActs.find? fun a => a.kind == 6 && a.key == O.EpochLength
    let (r, s) := s.form .icd 0x25 3 0 0
      [(128, 48, s.i O.EpochNow), (192, 64, s.i O.EpochStartNs), (256, 32, s.rd.len), (288, 64, (ch.map fun a => a.at_ / 65536).getD 0),
       (352, 32, (ch.map fun a => a.val * 1000).getD 0)]
    let s : State := { s with rd := { s.rd with served := if first then tset s.rd.served k (n + 1) else s.rd.served, anchorSec := tset s.rd.anchorSec k sec, told := tset s.rd.told k s.rd.changes }, tm := { s.tm with dreqNew := s.tm.dreqNew.filter (· != k) } }
    match l with
    | .down d => s.linkSend d stControl r
    | .xlink => s.xSend stControl r
    | _ => s

/-- EPOCH_ANCHOR_SEND. -/
def execEpochAnchorSend (l : Link) : State → Host.Outcome State Fault Refusal := run (State.epochAnchorSend l)

/-- EPOCH_ANCHOR: a node in FREE ignores it; one without the pair takes it; one that holds another pair takes the master's at its next boundary and raises EPOCH_SLIP. -/
def State.epochAnchor (r : Rec) (s : State) : State :=
  let n := recFld r 128 48
  let st := recFld r 192 64
  let len := recFld r 256 32
  if s.i O.FtState = 0 ∨ len = 0 then s
  else if !s.rd.has then ({ s with rd := { s.rd with len := len } }.iSet O.EpochLength (len / 1000)).beginEpoch n st
  else
    let now := s.i O.EpochNow
    let st0 := s.i O.EpochStartNs
    let same := s.rd.len == len && (if n ≤ now then st + (now - n) * len == st0 else st0 + (n - now) * len == st)
    if same then s else { s with rd := { s.rd with slip := some (n, st, len) } }.iAlarm 0x04E 2 0x0C00 n

/-- EPOCH_ANCHOR. -/
def execEpochAnchor (r : Rec) : State → Host.Outcome State Fault Refusal := run (State.epochAnchor r)

/-! ### Twin compare (R27, R408, R409) -/

/-- A covered record as it is digested (R542): the excluded fields zero, among them the DETECT_FT of a replica's taint notice, which is the Tray's own FT (R33). -/
def digested (r : Rec) : Rec :=
  if rType r = 0xD4 then recSet r 384 128 0
  else if rType r = 0xC4 ∧ (recFld r 168 8 = 1 ∨ recFld r 168 8 = 2) then recSet r 384 128 0
  else if rType r = 0xF6 then recSet (recSet r 32 32 0) 1216 896 0
  else r

/-- The output digest of an epoch and kind (R27). -/
def State.outputDigest (n kind : Nat) (s : State) : Nat :=
  let l := (s.rd.outs.filter fun p => p.1 == n * 2 + kind).map (·.2)
  let l := sortBy (fun r => rType r * 2 ^ 64 + rSrc r * 2 ^ 32 + rSeq r) l
  Config.blake3 (l.flatMap fun r => recBytes (digested r)) % 2 ^ 128

/-- A twin becomes DIVERGED: not eligible, resync pending (R404, R414). A diverged lead hands over first (R409). -/
def State.becomeDiverged (s : State) : State :=
  if s.isLead then { s with tw := { s.tw with resync := true, diverged := true } }
  else if s.i O.TwinState = 7 then s
  else { (s.setTwinState 5) with tw := { s.tw with resync := true } }

/-- The end of an epoch's record, with the origins of the vectors stamped in it. -/
def State.dropEpoch (n : Nat) (s : State) : State :=
  match tget s.rd.epochs n with
  | some e => { s with rd := { s.rd with epochs := tdel s.rd.epochs n }
                       ma := { s.ma with orig := s.ma.orig.filter fun o => decide (ns (e.start + e.len) ≤ stampFt o.2.2.1) } }
  | none => s

/-- The outcome of a compare: agreement, a DIVERGED twin, or TWIN_MISMATCH (R409). `own` and `theirs` are digest and LOCAL. -/
def State.compareOutcome (n kind : Nat) (own theirs : Nat × Nat) (s : State) : State :=
  let lead := s.isLead
  let finish := fun (s : State) =>
    let s : State := { s with rd := { s.rd with own := tdel s.rd.own (n * 2 + kind), theirs := tdel s.rd.theirs (n * 2 + kind) } }
    if kind = 1 then s.dropEpoch n else s
  if own.1 = theirs.1 then finish { s with tw := { s.tw with mismatchRun := 0 } }
  else if own.2 ≠ 0 ∧ theirs.2 = 0 then finish s.becomeDiverged
  else if own.2 = 0 ∧ theirs.2 ≠ 0 then finish { s with tw := { s.tw with twinState := if lead then 5 else s.tw.twinState } }
  else
    let run_ := s.tw.mismatchRun + 1
    let s : State := { s with tw := { s.tw with mismatchRun := run_ } }
    let s : State := (s.iCount O.MismatchEpochs).iAlarm 0x062 2 0x0C00 (n + kind * 2 ^ 48)
    let s : State := match tget s.rd.epochs n with
      | some e => s.setEpoch { e with mismatch := setBit e.mismatch kind true }
      | none => s
    let s : State := if run_ < s.i O.MismatchLimit then s
      else if lead then { s with tw := { s.tw with twinState := 5, mismatchRun := 0 } }
      else { s with tw := { s.tw with mismatchRun := 0 } }.becomeDiverged
    finish s

/-- TWIN_DIGEST_SEND: at EpochEnd + 3 × GracePerLevel + ResultBudget, for a supplement SupplementHold later, each twin sends its TwinDigestRecord (R408). -/
def State.twinDigestSend (n kind : Nat) (s : State) : State :=
  match tget s.rd.epochs n with
  | none => s
  | some e =>
    let t := ns (e.start + e.len) + 3 * us e.grace + us e.budget + (if kind = 1 then ms e.hold else 0)
    if s.ft .icd < t ∨ bit e.digSent kind ∨ !s.serving then s
    else
      let d := s.outputDigest n kind
      let loc := e.localMain
      let (r, s) := s.form .icd 0xE1 3 0 0 [(128, 48, n), (176, 8, kind), (184, 16, loc), (200, 128, d)]
      let s : State := { s with rd := { s.rd with own := tset s.rd.own (n * 2 + kind) (d, loc), outs := s.rd.outs.filter fun p => p.1 != n * 2 + kind } }
      let s : State := (s.setEpoch { e with digSent := setBit e.digSent kind true }).xSend stControl r
      match tget s.rd.theirs (n * 2 + kind) with
      | some th => s.compareOutcome n kind (d, loc) th
      | none => s

/-- TWIN_DIGEST_SEND. -/
def execTwinDigestSend (n kind : Nat) : State → Host.Outcome State Fault Refusal := run (State.twinDigestSend n kind)

/-- TWIN_DIGEST_COMPARE: the shadow compares the two records and sends the outcome to the lead, which acts on it the same way (R409). -/
def State.twinDigestCompare (r : Rec) (s : State) : State :=
  let n := recFld r 128 48
  let kind := recFld r 176 8
  let th := (recFld r 200 128, recFld r 184 16)
  match tget s.rd.own (n * 2 + kind) with
  | some own => (if s.isLead then s else s.xMsg 0x409 [n, kind, b2n (own.1 == th.1)]).compareOutcome n kind own th
  | none => { s with rd := { s.rd with theirs := tset s.rd.theirs (n * 2 + kind) th } }

/-- TWIN_DIGEST_COMPARE. -/
def execTwinDigestCompare (r : Rec) : State → Host.Outcome State Fault Refusal := run (State.twinDigestCompare r)

/-- TWIN_DIGEST_ABSENT: 100 µs after its instant a record is missing and the epoch is UNCOMPARED; both present, the held record is compared (R409). -/
def State.twinDigestAbsent (n kind : Nat) (s : State) : State :=
  match tget s.rd.epochs n with
  | none => s
  | some e =>
    let t := ns (e.start + e.len) + 3 * us e.grace + us e.budget + (if kind = 1 then ms e.hold else 0) + us 100
    if s.ft .icd < t then s
    else match tget s.rd.own (n * 2 + kind), tget s.rd.theirs (n * 2 + kind) with
      | some own, some th => s.compareOutcome n kind own th
      | _, _ =>
        let s : State := s.iCount O.UncomparedEpochs
        let s : State := { s with rd := { s.rd with own := tdel s.rd.own (n * 2 + kind), theirs := tdel s.rd.theirs (n * 2 + kind) } }
        if kind = 1 then s.dropEpoch n else s

/-- TWIN_DIGEST_ABSENT. -/
def execTwinDigestAbsent (n kind : Nat) : State → Host.Outcome State Fault Refusal := run (State.twinDigestAbsent n kind)

end Sys2Proof.Machine
end

