-- ==== Sys2Proof/Machine/Lauter.lean ====
section
/-! DEFINITION. The Lauter engine: model images, validation, walks and scores, bindings, batches, switches (R276–R300). -/

namespace Sys2Proof.Machine

/-! ### Images in Tier 1 (R276–R280) -/

/-- Address of a slot's node array. -/
def State.nodeBase (s : State) (slot : Nat) : Nat := s.regionBase 5 + slot * 268435456
/-- Address of a slot's set area. -/
def State.setBase (s : State) (slot : Nat) : Nat := s.regionBase 5 + 8 * 268435456 + slot * 67108864

/-- `n` bytes of Tier 1 as a little-endian number. -/
def State.t1Nat (s : State) (a n : Nat) : Nat := bytesNat (memRead s.me.t1 a n)

/-- A field of the ModelHeader (R277). -/
def State.modelFld (s : State) (slot lo w : Nat) : Nat := bits (s.t1Nat (s.setBase slot) 128) lo w
/-- OUTPUTS. -/
abbrev State.mOutputs (s : State) (slot : Nat) : Nat := s.modelFld slot 136 8
/-- TREES. -/
abbrev State.mTrees (s : State) (slot : Nat) : Nat := s.modelFld slot 160 32
/-- NODES. -/
abbrev State.mNodes (s : State) (slot : Nat) : Nat := s.modelFld slot 192 32
/-- FEATURES. -/
abbrev State.mFeatures (s : State) (slot : Nat) : Nat := s.modelFld slot 224 32
/-- CSETS. -/
abbrev State.mCsets (s : State) (slot : Nat) : Nat := s.modelFld slot 256 32

/-- Tree table entry (R278). -/
def State.treeEntry (s : State) (slot t : Nat) : Nat := s.t1Nat (s.setBase slot + 4096 + 8 * t) 8
/-- A node (R279). -/
def State.node (s : State) (slot i : Nat) : Nat := s.t1Nat (s.nodeBase slot + 16 * i) 16
/-- Whether a category set holds a category (R280). -/
def State.inCset (s : State) (slot k c : Nat) : Bool := bit (memByte s.me.t1 (s.setBase slot + 528384 + 32 * k + c / 8)).toNat (c % 8)

/-- The areas of an image written to a slot: header, tree entries, nodes and category sets in the order of R282. DEDUCED: R423 gives the order of a model image's bytes no other. -/
def State.modelWrite (slot : Nat) (body : List Nat) (s : State) : State :=
  let h := bytesNat (body.take 128)
  let trees := 8 * bits h 160 32
  let nodes := 16 * bits h 192 32
  let r1 := body.drop 128
  let r2 := r1.drop trees
  let u := 0x0600 + slot
  let s : State := (s.t1Write u (s.setBase slot) (body.take 128)).t1Write u (s.setBase slot + 4096) (r1.take trees)
  (s.t1Write u (s.nodeBase slot) (r2.take nodes)).t1Write u (s.setBase slot + 528384) (r2.drop nodes)

/-- The bytes that the model digest covers (R282). -/
def State.modelBytes (s : State) (slot : Nat) : List Nat :=
  memRead s.me.t1 (s.setBase slot) 128 ++ memRead s.me.t1 (s.setBase slot + 4096) (8 * s.mTrees slot) ++
  memRead s.me.t1 (s.nodeBase slot) (16 * s.mNodes slot) ++ memRead s.me.t1 (s.setBase slot + 528384) (32 * s.mCsets slot)

/-! ### Slot states (R283, R284) -/

/-- Whether an enabled binding names a slot, as written or as in force. -/
def State.slotNamed (slot : Nat) (s : State) : Bool :=
  (List.range 16).any fun b =>
    let v := s.i (inst O.LauterBinding b)
    let w := (tgetD s.la.act b (0, 0, 0)).2.1
    (bit v 11 && bits v 8 3 == slot) || (bit w 11 && bits w 8 3 == slot)

/-- The state of a slot that holds a valid image, first in the order ACTIVE, RETIRING, PENDING, READY. -/
def State.slotUse (slot : Nat) (s : State) : Nat :=
  if s.slotNamed slot then 4
  else if (tget s.la.retire slot).isSome then 5
  else if s.la.waits.any fun p => p.2.2 == slot then 3
  else 2

/-- Changes a slot's state and writes the ModelEventRecord. -/
def State.setSlot (slot new cause detail stop : Nat) (s : State) : State :=
  let old := s.i (inst O.LauterSlotState slot)
  if old = new then s
  else
    let s : State := s.iSet (inst O.LauterSlotState slot) new
    let (stm, s) := s.takeStamp .icd fnRecord
    let (r, s) := s.form .icd 0xA3 4 0 0 [(128, 128, stm), (256, 3, slot), (264, 8, old), (272, 8, new), (280, 8, cause),
      (288, 32, detail), (320, 48, stop), (384, 128, s.i (inst O.ModelDigest slot))]
    s.occur (0x098 + slot) none r

/-- Brings the states of the slots in use up to date. -/
def State.lauterSlots (s : State) : State :=
  let s : State := s.iSet O.SwitchesPending s.la.waits.length
  (List.range 8).foldl (fun s k =>
    let st := s.i (inst O.LauterSlotState k)
    if 2 ≤ st ∧ st ≤ 5 then s.setSlot k (s.slotUse k) 0 0 0 else s) s

/-- Whether a slot's state lets an image be written or the slot be cleared. -/
def State.slotFree (slot : Nat) (s : State) : Bool :=
  let st := s.i (inst O.LauterSlotState slot)
  st == 0 || st == 2 || st == 6

/-- A slot's image goes: LOADING for a new one, EMPTY after a clear or a failed transfer. -/
def State.slotDrop (slot new : Nat) (s : State) : State :=
  ({ s with la := { s.la with valid := s.la.valid.filter (· != slot), stop := tdel s.la.stop slot, found := tdel s.la.found slot,
                              checking := tdel s.la.checking slot } } : State).setSlot slot new 0 0 0

/-! ### Validation (R281, R282) -/

/-- The first failing check of R281 with the tree or node index, or none. DESIGN CHOICE (log 170): where only the sum of SIZE differs from NODES the index is the last tree's. -/
def State.modelCheck (slot : Nat) (s : State) : Option (Nat × Nat) :=
  let f := s.modelFld slot
  let outs := s.mOutputs slot
  let trees := s.mTrees slot
  let nodes := s.mNodes slot
  let feats := s.mFeatures slot
  let csets := s.mCsets slot
  if f 0 8 ≠ 0xA0 ∨ f 128 8 ≠ 1 ∨ outs < 1 ∨ 16 < outs ∨ trees < 1 ∨ 65536 < trees ∨ nodes < 1 ∨ 16777216 < nodes ∨ feats < 1 ∨ 65536 < feats ∨
      2080640 < csets ∨ f 112 16 ≠ 0 ∨ f 144 16 ≠ 0 ∨ f 288 32 ≠ 0 ∨ f 384 128 ≠ 0 then some (1, 0)
  else
    let ts := (List.range trees).map fun t => (t, s.treeEntry slot t)
    let ends := ts.foldl (fun (acc : Nat × Option Nat) p =>
      let size := bits p.2 24 24
      let bad := bits p.2 0 24 != acc.1 || size == 0 || decide (131072 < size) || decide (outs ≤ bits p.2 48 4) || bits p.2 52 12 != 0
      (acc.1 + size, match acc.2 with | some x => some x | none => if bad then some p.1 else none)) (0, none)
    let treeBad := match ends.2 with | some t => some t | none => if ends.1 = nodes then none else some (trees - 1)
    match treeBad with
    | some t => some (2, t)
    | none =>
      let find := fun (p : Nat → Nat → Nat → Bool) => (ts.findSome? fun t =>
        let lo := bits t.2 0 24
        (List.range (bits t.2 24 24)).findSome? fun k => if p lo (lo + bits t.2 24 24) (s.node slot (lo + k)) then some (lo + k) else none)
      let inner := fun (x : Nat) => !bit x 96
      let child := find fun lo hi x => inner x && !(decide (lo ≤ bits x 48 24 ∧ bits x 48 24 < hi ∧ lo ≤ bits x 72 24 ∧ bits x 72 24 < hi))
      let feat := find fun _ _ x => inner x && decide (feats ≤ bits x 32 16)
      let cs := find fun _ _ x => inner x && bit x 99 && decide (csets ≤ bits x 104 24)
      let nan := find fun _ _ x => f32.isNan (bits x 0 32) && (bit x 96 || (!bit x 99 && !bit x 100))
      let base := (List.range outs).any fun o => f32.isNan (f (512 + 32 * o) 32)
      let cat := find fun _ _ x => inner x && bit x 99 && !bit x 100
      let rsv := find fun _ _ x => bits x 101 3 != 0
      match child, feat, cs, nan, cat, rsv with
      | some n, _, _, _, _, _ => some (3, n)
      | _, some n, _, _, _, _ => some (4, n)
      | _, _, some n, _, _, _ => some (5, n)
      | _, _, _, some n, _, _ => some (6, n)
      | _, _, _, _, c, r => if base then some (6, 0) else match c, r with
        | some n, _ => some (7, n)
        | _, some n => some (8, n)
        | _, _ => none

/-- MODEL_IMAGE_COMPLETE: an image that has landed in a slot is taken up for validation. -/
def State.modelImageComplete (slot : Nat) (s : State) : State :=
  match tget s.tw.landed (256 + slot) with
  | none => s
  | some n =>
    let s : State := { s with tw := { s.tw with landed := tdel s.tw.landed (256 + slot) }, la := { s.la with checking := tset s.la.checking slot n } }
    s.setSlot slot 1 0 0 0

/-- MODEL_IMAGE_COMPLETE. -/
def execModelImageComplete (slot : Nat) : State → Host.Outcome State Fault Refusal := run (State.modelImageComplete slot)

/-- MODEL_VALIDATION_DONE: the digest stands whether or not the image passes; the slot becomes READY, or in use where a binding names it, or MALFORMED (R281–R283). -/
def State.modelValidationDone (slot : Nat) (s : State) : State :=
  match tget s.la.checking slot with
  | none => s
  | some _ =>
    let s : State := { s with la := { s.la with checking := tdel s.la.checking slot } }
    let s : State := (s.iSet (inst O.ModelDigest slot) (Config.blake3 (s.modelBytes slot) % 2 ^ 128)).iSet (inst O.SlotModelId slot) (s.modelFld slot 320 64)
    match s.modelCheck slot with
    | some (c, d) => ((s.iSet (inst O.MalformedCause slot) c).iSet (inst O.MalformedDetail slot) d).setSlot slot 6 c d 0
    | none =>
      let s : State := { s with la := { s.la with valid := slot :: s.la.valid } }
      ((s.iSet (inst O.MalformedCause slot) 0).iSet (inst O.MalformedDetail slot) 0).setSlot slot (s.slotUse slot) 0 0 0

/-- MODEL_VALIDATION_DONE. -/
def execModelValidationDone (slot : Nat) : State → Host.Outcome State Fault Refusal := run (State.modelValidationDone slot)

/-- SLOT_CLEAR: the written value names the slot; an accepted slot becomes EMPTY (R283). -/
def State.slotClearOp (slot v : Nat) : Op := fun s =>
  if v ≠ slot then (s, no stRange)
  else if !s.slotFree slot then (s, no stBusy 1)
  else (((s.iSet (inst O.ModelDigest slot) 0).iSet (inst O.SlotModelId slot) 0).slotDrop slot 0, ok)

/-- SLOT_CLEAR. -/
def execSlotClear (q : Req) (slot v : Nat) : State → Host.Outcome State Fault Refusal :=
  run (State.reqWrite q (inst O.SlotClear slot) v (State.slotClearOp slot v))

/-! ### Walks (R285, R286) -/

/-- Direction at an internal node: right, and whether the default was taken. -/
def State.direction (slot n : Nat) (r : Rec) (s : State) : Bool × Bool :=
  let f := bits n 32 16
  let x := vecValue r f
  let th := bits n 0 32
  if vecMissing r f then (bit n 97, true)
  else if bit n 99 then
    let c := toS 32 x
    (decide (0 ≤ c ∧ c ≤ 255) && s.inCset slot (bits n 104 24) x, false)
  else if bit n 100 then ((if bit n 98 then decide (toS 32 th < toS 32 x) else decide (toS 32 th ≤ toS 32 x)), false)
  else if f32.isNan x then (bit n 97, true)
  else ((if bit n 98 then flt f32 th x else !flt f32 x th && !f32.isNan th), false)

/-- Walks a tree from a node at a depth, with visits left: the leaf's value, or none where an internal node stands at depth 64; and whether a default was taken. -/
def State.walk (slot : Nat) (r : Rec) (s : State) : Nat → Nat → Bool → Option Nat × Bool
  | 0, _, d => (none, d)
  | k + 1, i, d =>
    let n := s.node slot i
    if bit n 96 then (some (bits n 0 32), d)
    else if k = 0 then (none, d)
    else
      let g := s.direction slot n r
      State.walk slot r s k (if g.1 then bits n 72 24 else bits n 48 24) (d || g.2)

/-- The walk of every tree in ascending order: accumulators by output, whether a default was taken, the tree whose walk went beyond depth 64. -/
def State.walkAll (slot : Nat) (r : Rec) (s : State) : List RState × Bool × Option Nat :=
  let outs := s.mOutputs slot
  let acc0 := (List.range outs).map fun o => rfold 0 (s.modelFld slot (512 + 32 * o) 32) 0 0 false (rzero 0 3)
  (List.range (s.mTrees slot)).foldl (fun acc t =>
    if acc.2.2.isSome then acc
    else
      let e := s.treeEntry slot t
      let w := s.walk slot r 65 (bits e 0 24) false
      match w.1 with
      | none => (acc.1, acc.2.1 || w.2, some t)
      | some v =>
        let o := bits e 48 4
        (acc.1.mapIdx fun i a => if i = o then rfold 0 v 0 0 false a else a, acc.2.1 || w.2, none)) (acc0, false, none)

/-! ### Bindings (R291) -/

/-- The LauterBinding that applies at an FT: the value in force, or the one it superseded that applied then (R233, R291). -/
def State.bindAt (b t : Nat) (s : State) : Nat :=
  match tget s.la.act b with
  | some a => if a.1 ≤ t then a.2.1 else (pastAt s.la.past b t).getD a.2.2
  | none => 0

/-- The first instant after `t` from which another value of a binding applies. -/
def State.bindNext (b t : Nat) (s : State) : Option Nat :=
  let l := ((tget s.la.act b).toList.map (·.1)) ++ (s.la.past.filter fun p => p.1 == b).map (·.2.1)
  (sortBy id (l.filter fun x => decide (t < x))).head?

/-- A value of a binding that applies from an FT; the one before is kept for the vectors stamped earlier. -/
def State.bindFrom (b t v : Nat) (s : State) : State :=
  let cur := tgetD s.la.act b (0, 0, 0)
  { s with la := { s.la with act := tset s.la.act b (t, v, cur.2.1), past := (b, cur.1, cur.2.1) :: s.la.past } }

/-- LAUTER_BINDING_WRITE: accepted for the next epoch boundary, or refused by the slot's state, a change of SLOT while enabled, a NaN threshold or a reserved bit. -/
def State.lauterBindingOp (b v : Nat) : Op := fun s =>
  let old := s.i (inst O.LauterBinding b)
  let st := s.i (inst O.LauterSlotState (bits v 8 3))
  if bit v 15 || bits v 20 12 != 0 || f32.isNan (bits v 32 32) then (s, no stRange)
  else if bit old 11 && bits old 8 3 != bits v 8 3 then (s, no stBusy)
  else if bit v 11 && !bit old 11 && st != 2 && st != 4 then (s, no stBusy 11)
  else if bit v 11 && decide (s.mOutputs (bits v 8 3) ≤ bits v 16 4) then (s, no stRange)
  else
    let s : State := { (s.iSet (inst O.LauterBinding b) v) with la := { s.la with changed := b :: s.la.changed.filter (· != b) } }
    (s.lauterSlots, ok)

/-- LAUTER_BINDING_WRITE. -/
def execLauterBindingWrite (q : Req) (b v : Nat) : State → Host.Outcome State Fault Refusal :=
  run (State.reqWrite q (inst O.LauterBinding b) v (State.lauterBindingOp b v))

/-- What was written since the last boundary applies from this one, in ns (R291, R233). -/
def State.lauterBoundary (t : Nat) (s : State) : State :=
  let s : State := s.la.changed.foldl (fun s b => s.bindFrom b (ns t) (s.i (inst O.LauterBinding b))) s
  ({ s with la := { s.la with changed := [] } } : State).lauterSlots

/-! ### Feature staging (R309) -/

/-- A ScoreResultRecord leaves the engine: it is staged and admitted, the reduction engine reads it, an ANOMALOUS one is an event, fires rules and is posted, and a tenant's binding has it coarsened (R257, R290). -/
def State.scoreOut (unit : Nat) (rec_ : Rec) (s : State) : State :=
  let stm := recFld rec_ 128 128
  let slot := recFld rec_ 340 3
  let fl := recFld rec_ 352 16
  let bnd := s.bindAt (recFld rec_ 336 4) (stampFt stm)
  let link := (s.dieLink (rSrc rec_)).getD 0
  let s : State := ((s.keepOutput rec_).stage link 0 0 0 rec_).admitExport link 1 0 0 0 rec_
  let o := s.origOf unit rec_
  let s : State := if bit fl 0 then s else s.reduceVector o.1 o.2.1 o.2.2 rec_
  let s : State := if !bit fl 1 then s else
    let s : State := s.occur (0x098 + slot) none rec_
    let s : State := s.fireRules 4 (fun m => bit m slot) (s.dieLink (rSrc rec_)) (rSrc rec_) (rSeq rec_) stm (s.ft .icd)
    (s.hostPost rec_).leadPost rec_
  if bit bnd 12 && rPart rec_ != 0 then s.vfPost (rPart rec_) (recSet rec_ 128 128 (coarsenStamp stm)) else s

/-- Releases a die's scores in the order of their vectors, each with the next SEQUENCE of the die; one lost to an overrun is passed over (R18, R289, R293). -/
def State.releaseFrom (gid : Nat) : Nat → State → State
  | 0, s => s
  | n + 1, s =>
    let k := tgetD s.la.nextNum gid 0
    match s.la.waiting.find? fun w => w.1 == gid && w.2.1 == k with
    | none => s
    | some w =>
      let s : State := { s with la := { s.la with waiting := s.la.waiting.filter fun x => !(x.1 == gid && x.2.1 == k), nextNum := tset s.la.nextNum gid ((k + 1) % 2 ^ 32) } }
      match w.2.2 with
      | none => releaseFrom gid n s
      | some r =>
        let q := tgetD s.la.outSeq gid 0
        releaseFrom gid n (({ s with la := { s.la with outSeq := tset s.la.outSeq gid ((q + 1) % 2 ^ 32) } } : State).scoreOut r.1 (recSet r.2 64 32 q))

/-- Releases what a die's scores allow. -/
def State.releaseScores (gid : Nat) (s : State) : State := s.releaseFrom gid s.la.waiting.length

/-- The slot that a binding named at a past or present stamp, none when a switch left it there and its drain has ended (R296). -/
def State.slotThen (b t : Nat) (s : State) : Option Nat :=
  match s.la.moves.find? fun m => m.bind == b && s.bindNext b t == some m.at_ with
  | some m => if s.ft .icd < m.end_ ∨ tget s.la.retire m.old = some m.end_ then some m.old else none
  | none => some (bits (s.bindAt b t) 8 3)

/-- The slot that scores a vector stamped `t` on a binding (R296, R300): that of a pending switch whose instant is not after the stamp; else the one that the binding named at `t`, none when the drain of the switch that left it has ended. -/
def State.slotFor (b t : Nat) (s : State) : Option Nat :=
  match tget s.la.waits b with
  | some w => if w.1 ≤ t then some w.2 else s.slotThen b t
  | none => s.slotThen b t
/-- A FeatureVectorRecord enters feature staging: the reduction engine reads it, each enabled binding of its SOURCE subscribes, and records that the write position reaches unread are released: each binding that had not read them has one FeatureOverrun event for each SOURCE, with the first and last VECTOR (R288, R296, R309). -/
def State.pushVector (r : Rec) (s : State) : State :=
  let src := recFld r 336 8
  let stm := recFld r 128 128
  let t := stampFt stm
  let gid := rSrc r
  let o := s.origOf src r
  let s : State := s.reduceVector o.1 o.2.1 o.2.2 r
  let subs := (List.range 16).filter fun b => let v := s.bindAt b t; bit v 11 && bits v 0 8 == src
  let step := fun (acc : List (Nat × Nat × Nat) × State) b =>
    match acc.2.slotFor b t with
    | none => (acc.1, acc.2.addOb .icd O.VectorsDiscarded 64 1)
    | some k =>
      let n := tgetD acc.2.la.seq gid 0
      (acc.1 ++ [(b, k, n)], { acc.2 with la := { acc.2.la with seq := tset acc.2.la.seq gid ((n + 1) % 2 ^ 32) } })
  let p := subs.foldl step ([], s)
  let s : State := p.2
  let fv : FeatVec := ⟨s.la.head, r, p.1⟩
  let s : State := { s with la := { s.la with head := s.la.head + 16 * r.length, feats := if p.1.isEmpty then s.la.feats else s.la.feats ++ [fv] } }
  let cap := s.pw.layout.2.2 * 1073741824
  let lost := s.la.feats.filter fun f => decide (f.pos + cap < s.la.head)
  let slots := lost.flatMap fun f => f.need.map fun n => n.2.1
  let gone := lost.flatMap fun f => f.need.map fun n => (rSrc f.rec_, n.2.2, none)
  let s : State := slots.foldl (fun s k => s.overMark (32 + k))
    { s with la := { s.la with feats := s.la.feats.filter fun f => !decide (f.pos + cap < s.la.head), waiting := s.la.waiting ++ gone } }
  let s : State := (gone.map (·.1)).eraseDups.foldl (fun s g => s.releaseScores g) s
  (List.range 16).foldl (fun s b =>
    let mine := (lost.filter fun f => f.need.any fun n => n.1 == b).map FeatVec.rec_
    (mine.map fun r => recFld r 336 8).eraseDups.foldl (fun s u =>
      let vs := (mine.filter fun r => recFld r 336 8 == u).map fun r => recFld r 304 32
      ((s.iCount O.FeatureOverruns).localMark 0).occur (if u < 16 then 0x080 + u else 0x090 + (u - 16)) none
        [packFields [(0, 8, u), (8, 8, b), (32, 32, vs.headD 0), (64, 32, vs.getLastD 0)]]) s) s

/-! ### Batches (R292) -/

/-- The largest batch of a slot's model. -/
def State.batchMax (slot : Nat) (s : State) : Nat :=
  let f := s.mFeatures slot
  let vb := 16 * ((4 * f + 4 * ((f + 31) / 32) + 15) / 16)
  min 4096 (4194304 / max 1 vb)

/-- VECTOR_ENQUEUE: the oldest vector that a binding has not taken joins the open batch of its binding and slot; a full batch takes no more. -/
def State.vectorEnqueue (b : Nat) (s : State) : State :=
  match s.la.feats.find? fun f => f.need.any fun n => n.1 == b with
  | none => s
  | some f =>
    match f.need.find? fun n => n.1 == b with
    | none => s
    | some n =>
      let slot := n.2.1
      let here := s.la.open_.find? fun k => k.bind == b && k.slot == slot
      if (here.map fun k => decide (s.batchMax slot ≤ k.vecs.length)).getD false then s
      else
        let feats := s.la.feats.filterMap fun g =>
          if g.pos = f.pos then (let m := g.need.filter fun x => x.1 != b; if m.isEmpty then none else some { g with need := m }) else some g
        let open_ := match here with
          | some _ => s.la.open_.map fun k => if k.bind = b ∧ k.slot = slot then { k with vecs := k.vecs ++ [(n.2.2, f.rec_)] } else k
          | none => s.la.open_ ++ [⟨b, slot, [(n.2.2, f.rec_)], s.ft .icd, []⟩]
        { s with la := { s.la with feats := feats, open_ := open_ } }

/-- VECTOR_ENQUEUE. -/
def execVectorEnqueue (b : Nat) : State → Host.Outcome State Fault Refusal := run (State.vectorEnqueue b)

/-- BATCH_CLOSE: a batch closes when it is full or BatchLatency has passed since its first vector. -/
def State.batchClose (b slot : Nat) (s : State) : State :=
  match s.la.open_.find? fun k => k.bind == b && k.slot == slot with
  | none => s
  | some k =>
    if s.batchMax slot ≤ k.vecs.length ∨ k.first + us (s.i O.BatchLatency) ≤ s.ft .icd then
      { s with la := { s.la with open_ := removeFirst (fun x => x.bind == b && x.slot == slot) s.la.open_, closed := s.la.closed ++ [k] } }
    else s

/-- BATCH_CLOSE. -/
def execBatchClose (b slot : Nat) : State → Host.Outcome State Fault Refusal := run (State.batchClose b slot)

/-- BATCH_START: a free cluster takes the oldest closed batch; `bad` names its vectors whose Tier 1 read was uncorrectable (R298). -/
def State.batchStart (c : Nat) (bad : List Nat) (s : State) : State :=
  match tget s.la.running c, s.la.closed with
  | none, k :: rest => { (s.domainUse (76 + c)) with la := { s.la with closed := rest, running := tset s.la.running c { k with bad := bad } } }
  | _, _ => s

/-- BATCH_START. -/
def execBatchStart (c : Nat) (bad : List Nat) : State → Host.Outcome State Fault Refusal := run (State.batchStart c bad)

/-- Whether a node, tree entry or category set that a walk of the slot reads is poisoned (R298). -/
def State.modelPoisoned (slot : Nat) (s : State) : Bool :=
  let hit := fun (a n : Nat) => s.me.poison.any fun b => decide (b * 64 < a + n ∧ a < b * 64 + 64)
  hit (s.nodeBase slot) (16 * s.mNodes slot) || hit (s.setBase slot + 4096) (8 * s.mTrees slot) ||
    hit (s.setBase slot + 528384) (32 * s.mCsets slot)

/-- The first epoch that begins at least 1 ms after now. -/
def State.stopEpoch (s : State) : Nat := s.epochFrom (s.boundaryAfter (s.ft .icd + ms 1))

/-- A slot's model went beyond depth 64 in a tree: MALFORMED, with the alarm (R297). -/
def State.depthMark (slot tree stop : Nat) (s : State) : State :=
  if (tget s.la.stop slot).isSome then s
  else
    let s : State := { s with la := { s.la with stop := tset s.la.stop slot (stop, tree) } }
    let s : State := ((s.iSet (inst O.MalformedCause slot) 9).iSet (inst O.MalformedDetail slot) tree).setSlot slot 6 9 tree stop
    s.iAlarm 0x064 3 (0x0600 + slot) (slot + tree % 2 ^ 24 * 2 ^ 8 + stop % 2 ^ 32 * 2 ^ 32)

/-- DEPTH_EXCEEDED is found: the lead chooses STOP_EPOCH and sends it to the shadow; a shadow waits for it. -/
def State.depthFound (slot tree : Nat) (s : State) : State :=
  if (tget s.la.stop slot).isSome then s
  else if s.isLead then
    let e := s.stopEpoch
    (s.xMsg 0x297 [slot, tree, e]).depthMark slot tree e
  else if (tget s.la.found slot).isSome then s
  else { s with la := { s.la with found := tset s.la.found slot tree } }

/-- A new lead chooses STOP_EPOCH from its own detection (R300). -/
def State.lauterTakeover (s : State) : State :=
  s.la.found.foldl (fun s p => ({ s with la := { s.la with found := tdel s.la.found p.1 } } : State).depthFound p.1 p.2) s

/-- STOP_EPOCH_RECEIVE: the shadow takes the lead's epoch. -/
def State.stopEpochReceive (slot tree epoch : Nat) (s : State) : State :=
  ({ s with la := { s.la with found := tdel s.la.found slot } } : State).depthMark slot tree epoch

/-- STOP_EPOCH_RECEIVE. -/
def execStopEpochReceive (slot tree epoch : Nat) : State → Host.Outcome State Fault Refusal := run (State.stopEpochReceive slot tree epoch)

/-- One vector of a batch is scored: its ScoreResultRecord waits for the earlier ones of its die (R287, R289, R293). The tree whose walk went beyond depth 64 is noted for the batch (R297). DESIGN CHOICE (log 171): vectors of several sources are numbered in the order in which feature staging holds them. -/
def State.scoreOne (k : Batch) (poisoned : Bool) (idx num : Nat) (r : Rec) (s : State) : State :=
  let slot := k.slot
  let stm := recFld r 128 128
  let epoch := recFld r 256 48
  let outs := s.mOutputs slot
  let malformed := !s.la.valid.contains slot || (match tget s.la.stop slot with | some x => decide (x.1 ≤ epoch) | none => false)
  let cause := if malformed then 2 else if poisoned || k.bad.contains idx then 4 else if vecFeatures r < s.mFeatures slot then 3 else 0
  let w := if cause = 0 then s.walkAll slot r else ([], false, none)
  let cause := if w.2.2.isSome then 1 else cause
  let inv := cause != 0
  let sc := w.1.map fun a => rround false a
  let nanSeen := !inv && sc.any fun x => f32.isNan x.1
  let over_ := !inv && sc.any fun x => x.2
  let bnd := s.bindAt k.bind (stampFt stm)
  let o := bits bnd 16 4
  let v := ((sc[o]?).map (·.1)).getD f32.qnan
  let th := bits bnd 32 32
  let anom := bit bnd 13 && !inv && !f32.isNan v && (if bit bnd 14 then !flt f32 th v else !flt f32 v th)
  let fl := packFields [(0, 1, b2n inv), (1, 1, b2n anom), (2, 1, b2n nanSeen), (3, 1, b2n over_), (4, 1, bits stm 80 1),
    (5, 1, b2n w.2.1), (8, 4, cause)]
  let scores := (List.range outs).map fun i => if inv then f32.qnan else ((sc[i]?).map (·.1)).getD 0
  let rec_ := mkRec 0xA1 (4 + (outs + 3) / 4) 0 (rSrc r) 0 (rPart r)
    ([(128, 128, stm), (256, 48, epoch), (304, 32, recFld r 304 32), (336, 4, k.bind), (340, 3, slot), (344, 5, outs), (352, 16, fl),
      (384, 128, s.i (inst O.ModelDigest slot))] ++ scores.mapIdx fun i x => (512 + 32 * i, 32, x))
  let s : State := s.addOb .icd O.VectorsScored 64 1
  let s : State := if inv then s.addOb .icd O.ResultsInvalid 64 1 else s
  let s : State := if cause = 4 then s.localMark 2 else s
  { s with la := { s.la with waiting := s.la.waiting ++ [(rSrc r, num, some (recFld r 336 8, rec_))] } }

/-- The tree that a batch finds too deep first: trees are walked in ascending order, each by every vector of the batch (R292, R297). -/
def State.batchDeep (k : Batch) (poisoned : Bool) (s : State) : Option Nat :=
  let walked := k.vecs.zipIdx.filter fun x =>
    let stop := match tget s.la.stop k.slot with | some y => decide (y.1 ≤ recFld x.1.2 256 48) | none => false
    s.la.valid.contains k.slot && !stop && !poisoned && !k.bad.contains x.2 && decide (s.mFeatures k.slot ≤ vecFeatures x.1.2)
  (sortBy id (walked.filterMap fun x => (s.walkAll k.slot x.1.2).2.2)).head?

/-- BATCH_DONE: a result for every vector of the batch, in batch order; Grist restores the order of each die (R18, R293). A model found too deep is marked with the first tree that showed it (R297). -/
def State.batchDone (c : Nat) (s : State) : State :=
  match tget s.la.running c with
  | none => s
  | some k =>
    let s : State := { (s.domainUse (76 + c)) with la := { s.la with running := tdel s.la.running c } }
    let p := s.modelPoisoned k.slot
    let u := 0x0600 + k.slot
    let s : State := ((s.t1ReadErrors u (s.nodeBase k.slot) (16 * s.mNodes k.slot)).t1ReadErrors u (s.setBase k.slot + 4096) (8 * s.mTrees k.slot)).t1ReadErrors u
      (s.setBase k.slot + 528384) (32 * s.mCsets k.slot)
    let deep := s.batchDeep k p
    let s : State := k.vecs.zipIdx.foldl (fun s x => s.scoreOne k p x.2 x.1.1 x.1.2) s
    let s : State := ((k.vecs.map fun x => rSrc x.2).eraseDups).foldl (fun s g => s.releaseScores g) s
    match deep with | some t => s.depthFound k.slot t | none => s

/-- BATCH_DONE. -/
def execBatchDone (c : Nat) : State → Host.Outcome State Fault Refusal := run (State.batchDone c)

/-- A domain reset of a cluster: the batch it walked starts again (R530). -/
def State.lauterDomainReset (c : Nat) (s : State) : State :=
  match tget s.la.running c with
  | some k => { s with la := { s.la with running := tdel s.la.running c, closed := k :: s.la.closed } }
  | none => s

/-! ### Switches (R295, R296) -/

/-- MODEL_SWITCH: refused with the cause of R295, or queued as a timed action. -/
def State.modelSwitchOp (b c at_ : Nat) : Op := fun s =>
  let v := s.i (inst O.LauterBinding b)
  let st := s.i (inst O.LauterSlotState c)
  if !s.leadOk at_ then (s, no stLead)
  else if !bit v 11 then (s, no stBusy 10)
  else if st ≠ 2 ∧ st ≠ 4 then (s, no stBusy 11)
  else if (tget s.la.waits b).isSome then (s, no stBusy 6)
  else if bit v 13 && decide (s.mOutputs c ≤ bits v 16 4) then (s, no stBusy 13)
  else
    let h := s.newHandle
    let p := h.2.queueAct .icd ⟨h.1, 1, at_, b, c, 0, 0, 0, false, false, s.ft .icd⟩
    if !p.2 then (p.1, no stQueueFull)
    else (({ p.1 with la := { p.1.la with waits := tset p.1.la.waits b (at_, c) } } : State).lauterSlots, okH h.1)

/-- MODEL_SWITCH: a descriptor, or a SwitchIssue write at the instant of SwitchInstant. -/
def State.modelSwitch (q : Req) (reg : Bool) (b c at_ : Nat) (s : State) : State :=
  if reg then s.reqWrite q O.SwitchIssue (b + 16 * c) (fun s => s.modelSwitchOp b c (s.i O.SwitchInstant))
  else s.descriptor q (State.modelSwitchOp b c at_)

/-- MODEL_SWITCH. -/
def execModelSwitch (q : Req) (reg : Bool) (b c at_ : Nat) : State → Host.Outcome State Fault Refusal := run (State.modelSwitch q reg b c at_)

/-- MODEL_SWITCH_LAUNCH: vectors stamped from S on take the new slot; the old one is RETIRING until EpochEnd(n) + SupplementHold + GracePerLevel (R296). -/
def State.modelSwitchLaunch (s : State) : State :=
  match s.dueOf .icd fun a => a.kind == 1 with
  | none => s
  | some a =>
    let s : State := s.takeAct .icd a
    let v := s.i (inst O.LauterBinding a.a)
    let old := bits v 8 3
    let n := s.epochAt (a.at_ - ns 1)
    let start := ns (s.i O.EpochStartNs)
    let end_ := start + (n + 1 - s.i O.EpochNow) * s.epochLen
    let endFt := (match tget s.rd.epochs n with | some e => ns (e.start + e.len) | none => end_) + ms (s.i O.SupplementHold) + us (s.i O.GracePerLevel)
    let cur := tgetD s.la.act a.a (0, 0, 0)
    let s : State := if a.at_ < cur.1 then { s with la := { s.la with act := tset s.la.act a.a (cur.1, setBits cur.2.1 8 3 a.b, setBits cur.2.2 8 3 a.b), past := (a.a, a.at_, setBits (s.bindAt a.a a.at_) 8 3 a.b) :: s.la.past } }
      else s.bindFrom a.a a.at_ (setBits cur.2.1 8 3 a.b)
    let s : State := (s.iSet (inst O.LauterBinding a.a) (setBits v 8 3 a.b))
    let s : State := { s with la := { s.la with waits := tdel s.la.waits a.a, moves := ⟨a.a, a.at_, old, endFt⟩ :: s.la.moves, retire := tset s.la.retire old endFt } }
    s.stepping a.stepped State.lauterSlots

/-- MODEL_SWITCH_LAUNCH. -/
def execModelSwitchLaunch : State → Host.Outcome State Fault Refusal := run State.modelSwitchLaunch

/-- SLOT_RETIRE_END: a RETIRING slot reaches the end of its drain. -/
def State.slotRetireEnd (slot : Nat) (s : State) : State :=
  match tget s.la.retire slot with
  | some t => if s.ft .icd < t then s else ({ s with la := { s.la with retire := tdel s.la.retire slot } } : State).lauterSlots
  | none => s

/-- SLOT_RETIRE_END. -/
def execSlotRetireEnd (slot : Nat) : State → Host.Outcome State Fault Refusal := run (State.slotRetireEnd slot)

/-- A cancelled switch is no longer pending (R63). -/
def State.modelSwitchCancelled (a : Act) (s : State) : State :=
  ({ s with la := { s.la with waits := tdel s.la.waits a.a } } : State).lauterSlots

end Sys2Proof.Machine
end

