-- ==== Sys2Proof/Machine/Feed.lean ====
section
/-! DEFINITION. What Mash regions and Steep groups share: images, selectors, contexts, the order in which records are taken, switches, faults, and the feature vectors they write (R304–R318, R323, R346–R350). Units 0–15 are Mash regions, 16–23 Steep groups. -/

namespace Sys2Proof.Machine

/-! ### Units and their objects -/

/-- A unit right after reset. -/
def Feed.new : Feed :=
  { img := [], ctx := (0, 2 ^ 64 - 1, 2 ^ 64 - 1), sw := none, phase := 0, from_ := 0, to_ := 0xFF, skipped := 0, stopped := [], flt := false,
    epoch := 0, cons := [], shown := none, vecs := [], ends := [], ended := [] }

/-- A unit. -/
def State.feed (s : State) (u : Nat) : Feed := tgetD s.ma.units u Feed.new
/-- Replaces a unit. -/
def State.setFeed (u : Nat) (f : Feed) (s : State) : State := { s with ma := { s.ma with units := tset s.ma.units u f } }

/-- RegionState or GroupState: 0 OFF, 1 RUNNING, 2 SWITCHING, 3 FAULTED. -/
abbrev kState (u : Nat) : Nat := unitKey u 1
/-- ActiveImage. -/
abbrev kActive (u : Nat) : Nat := unitKey u 2
/-- PendingImage. -/
abbrev kPending (u : Nat) : Nat := unitKey u 3
/-- RegionContexts or GroupContexts. -/
abbrev kContexts (u : Nat) : Nat := unitKey u 5

/-- The object with a sub-index of an image slot of regions or of groups. -/
def imageKey (steep : Bool) (i sub : Nat) : Nat := (if steep then 0x4C4000 else 0x4B4000) + 256 * i + sub

/-- Tier 1 address of an image slot (R310, R346). -/
def State.imageAddr (steep : Bool) (i : Nat) (s : State) : Nat := s.regionBase 6 + (if steep then 536870912 else 0) + i * 8388608

/-- The 128-byte header of an image slot. -/
def State.imageHdr (steep : Bool) (i : Nat) (s : State) : Rec := bytesRec (memRead s.me.t1 (s.imageAddr steep i) 128)

/-- OUTPUT_KIND is EPOCH. -/
abbrev hdrEpoch (h : Rec) : Bool := recFld h 136 1 == 1
/-- EMIT_EMPTY. -/
abbrev hdrEmitEmpty (h : Rec) : Bool := recFld h 137 1 == 1
/-- FEATURES. -/
abbrev hdrFeatures (h : Rec) : Nat := recFld h 144 16
/-- SELECTOR[j] (R312). -/
abbrev hdrSel (h : Rec) (j : Nat) : Nat := recFld h (512 + 128 * j) 128
/-- The enabled selectors in use. -/
def hdrSels (h : Rec) : List (Nat × Nat) :=
  (List.range 4).filterMap fun j => if j < recFld h 160 4 ∧ bit (hdrSel h j) 8 then some (j, hdrSel h j) else none

/-- The lowest-numbered selector that a record matches (R305). -/
def selOf (h : Rec) (r : Rec) : Option (Nat × Nat) :=
  (hdrSels h).find? fun p =>
    bits p.2 0 8 == rType r && (bits p.2 16 16 == 0xFFFF || bits p.2 16 16 == rPart r) &&
      (rType r != 0x30 || bits p.2 32 16 == 0 || bit (bits p.2 32 16) (recFld r 448 4))

/-- The FtStamp at a selector's STAMP_OFFSET. -/
def selStamp (x : Nat) (r : Rec) : Nat := recFld r (8 * bits x 48 16) 128

/-- The word of a record at a byte offset, and whether it lies beyond LENGTH (R305). -/
def recWord (r : Rec) (off : Nat) : Nat × Bool := if off + 4 ≤ 16 * r.length then (recFld r (8 * off) 32, false) else (0, true)

/-- Words and ABSENT bits of a windowed delivery. -/
def window (x : Nat) (r : Rec) : List (Nat × Bool) := (List.range (bits x 80 7)).map fun i => recWord r (bits x 64 16 + 4 * i)

/-- Contexts of a unit that apply at an FT (R304, R233): those written, from the next boundary on; those in force, or the ones they superseded that applied then. -/
def State.ctxAt (u t : Nat) (s : State) : Nat :=
  let c := (s.feed u).ctx
  if s.rd.has && decide (ns (s.i O.EpochStartNs) + s.epochLen ≤ t) then s.i (kContexts u)
  else if c.1 * 65536 ≤ t then c.2.1 else (pastAt s.ma.past u (t / 65536)).getD c.2.2

/-- Contexts written since the last boundary apply from this one, in ns. -/
def State.feedBoundary (t : Nat) (s : State) : State :=
  (List.range 24).foldl (fun s u =>
    let f := s.feed u
    let v := s.i (kContexts u)
    if v = f.ctx.2.1 then s
    else { s.setFeed u { f with ctx := (t, v, f.ctx.2.1) } with ma := { (s.setFeed u { f with ctx := (t, v, f.ctx.2.1) }).ma with past := (u, f.ctx.1, f.ctx.2.1) :: s.ma.past } }) s

/-- The engines that a record of a context is staged for (R305, R317, R323), of the contexts that apply at its stamp: those whose active image selects it; and those whose pending or loading image does, where it is stamped at or after the switch's instant, from which such records wait. A FAULTED engine has no subscription until its switch launches (R320). -/
def State.feedNeed (c : Nat) (r : Rec) (s : State) : Nat :=
  (List.range 24).foldl (fun m u =>
    let f := s.feed u
    let st := s.i (kState u)
    let steep := decide (16 ≤ u)
    let next := match f.sw with
      | some w => if w.2.1 < 64 ∧ st ≠ 3 then [(w.1, s.imageHdr steep w.2.1)] else []
      | none => []
    let next := if f.phase ≠ 0 ∧ f.to_ < 64 then (f.from_, s.imageHdr steep f.to_) :: next else next
    let cur := if st = 1 ∨ (st = 2 ∧ !f.flt) then [(0, f.img)] else []
    let wanted := (cur ++ next).any fun h => match selOf h.2 r with
      | some x => let t := stampFt (selStamp x.2 r); decide (h.1 ≤ t) && bit (s.ctxAt u t) c
      | none => false
    if wanted then setBit m (8 + u) true else m) 0

/-! ### The order of presentation (R306, R307, R317) -/

/-- Agreed last SEQUENCEs of an epoch. -/
def State.agreedOf (n : Nat) (s : State) : Option (Tbl Nat) := tget s.ma.agreed n

/-- What becomes of a record of an agreed epoch: 1 in the set, 2 above it; 0 while there is no agreement. -/
def State.bySet (n : Nat) (e : Staged) (s : State) : Nat :=
  match s.agreedOf n with
  | none => 0
  | some a => if (match tget a (e.slot * 16 + e.st) with | some q => seqFrom e.fseq q | none => false) then 1 else 2

/-- What the unit does with the first record of a stream: 0 waits, 1 consumes, 2 skips, 3 releases it unread, 4 stops the stream at S. -/
def State.feedClass (u : Nat) (e : Staged) (x : Nat) (s : State) : Nat :=
  let f := s.feed u
  let t := stampFt (selStamp x e.rec_)
  let ep := s.epochAt t
  if s.inReset (52 + u) then 2
  else if f.phase = 2 ∨ f.flt ∨ f.stopped.contains (e.slot * 16 + e.st) then 0
  else if f.phase = 1 then
    if f.from_ ≤ t then 4
    else if !bit (s.ctxAt u t) e.slot then 3
    else if hdrEpoch f.img then (if ep < f.epoch then 2 else if f.epoch < ep then 0 else s.bySet ep e)
    else if e.at_ < f.from_ then 1
    else s.bySet (s.epochAt (f.from_ - ns 1)) e
  else if !bit (s.ctxAt u t) e.slot then 3
  else if t < f.from_ then 2
  else if hdrEpoch f.img then (if ep < f.epoch then 2 else if f.epoch < ep then 0 else s.bySet ep e)
  else 1

/-- The first record of each stream of a unit, in ascending context × 16 + stream type. -/
def State.feedHeads (u : Nat) (s : State) : List (Staged × Nat × Nat) :=
  let f := s.feed u
  let cand := s.gr.staging.filterMap fun e => if bit e.need (8 + u) then (selOf f.img e.rec_).map fun p => (e, p.1, p.2) else none
  let keys := sortBy id ((cand.map fun p => p.1.slot * 16 + p.1.st).eraseDups)
  keys.filterMap fun k => cand.find? fun p => p.1.slot * 16 + p.1.st == k

/-- The record of a context that is presented next: of the lowest stream type that does not wait. -/
def State.feedNext (u c : Nat) (s : State) : Option ((Staged × Nat × Nat) × Nat) :=
  ((s.feedHeads u).filterMap fun p => let k := s.feedClass u p.1 p.2.2; if p.1.slot = c ∧ k ≠ 0 then some (p, k) else none).head?

/-- A unit lets go of a staged record. -/
def State.feedDrop (u : Nat) (e : Staged) (s : State) : State :=
  { s with gr := { s.gr with staging := s.gr.staging.filterMap fun x =>
      if x.num = e.num then (let m := setBit x.need (8 + u) false; if m = 0 then none else some { x with need := m }) else some x } }

/-- A record that is not consumed: skipped and counted, released, or its stream stops. -/
def State.feedPass (u : Nat) (e : Staged) (k : Nat) (s : State) : State :=
  let f := s.feed u
  if k = 2 then ((s.feedDrop u e).addOb .icd (unitKey u 8) 64 1).setFeed u { f with skipped := f.skipped + 1 }
  else if k = 3 then s.feedDrop u e
  else s.setFeed u { f with stopped := (e.slot * 16 + e.st) :: f.stopped }

/-- A record is consumed: it leaves staging and counts; an EPOCH image notes the context's highest SEQUENCE and HOLDOVER (R307), and for a RECORD image the record is noted as the origin of its vector (R263). -/
def State.feedTake (u : Nat) (e : Staged) (x : Nat) (s : State) : State :=
  let f := s.feed u
  let stm := selStamp x e.rec_
  let old := tget f.cons e.slot
  let now : Nat × Nat × Bool := match old with
    | some o => if o.1 ≤ rSeq e.rec_ then (rSeq e.rec_, rSrc e.rec_, o.2.2 || bit stm 80) else (o.1, o.2.1, o.2.2 || bit stm 80)
    | none => (rSeq e.rec_, rSrc e.rec_, bit stm 80)
  let s : State := if hdrEpoch f.img then s else { s with ma := { s.ma with orig := (u, rSrc e.rec_, stm, e.slot, e.st, e.fseq) :: s.ma.orig } }
  ((s.feedDrop u e).addOb .icd (unitKey u 6) 64 1).setFeed u { f with cons := if hdrEpoch f.img then tset f.cons e.slot now else f.cons }

/-! ### Feature vectors (R307, R308) -/

/-- Writes a FeatureVectorRecord: FEATURES values, then the missing words. SEQUENCE counts by source, so that it does not depend on the order in which the records of different dies are taken (R13, R18, R32). -/
def State.emitVector (u gid part stm : Nat) (words : List Nat) (s : State) : State :=
  let n := hdrFeatures (s.feed u).img
  let len := 3 + (4 * n + 4 * ((n + 31) / 32) + 15) / 16
  let epoch := s.epochAt (stampFt stm)
  let (v, s) := s.vectorNum epoch u gid
  let ws := (List.range (n + (n + 31) / 32)).map fun i => (384 + 32 * i, 32, ((words[i]?).getD 0) % 2 ^ 32)
  let r := mkRec 0xA2 len 0 gid (tgetD s.ma.seq gid 0) part ([(128, 128, stm), (256, 48, epoch), (304, 32, v), (336, 8, u), (352, 32, n)] ++ ws)
  let s : State := { s.keepOutput r with ma := { s.ma with seq := tset s.ma.seq gid ((tgetD s.ma.seq gid 0 + 1) % 2 ^ 32) } }
  (s.addOb .icd (unitKey u 7) 64 1).pushVector r

/-- STAMP of an epoch vector of epoch `n`: EpochStart(n + 1), with HOLDOVER where a record consumed carried it. -/
def State.epochStamp (n : Nat) (hold : Bool) (s : State) : Nat :=
  packFields [(0, 80, s.epochStart n + (match tget s.rd.epochs n with | some e => ns e.len | none => s.epochLen)), (80, 1, b2n hold),
    (88, 16, s.i O.FtSegment)]

/-- SOURCE_GID of a context that consumed nothing: the die of the slot, or above a Tray the lower-numbered Icdon IX40 of the child pair (R307). -/
def State.ctxGid (c : Nat) (s : State) : Nat := if s.role = 1 then tgetD s.ln.dieGid c 0 else ((s.tw.route.filter fun p => p.1 / 2 ^ 24 == 2 && p.2 == (c, true)).head?.map (·.1)).getD 0

/-- PARTITION of an epoch vector: that of every enabled selector, else 0. -/
def hdrPart (h : Rec) : Nat :=
  match (hdrSels h).map fun p => bits p.2 16 16 with
  | [] => 0
  | a :: t => if t.all (· == a) then a else 0

/-- Contexts for which an EPOCH image emits in an epoch, ascending. -/
def State.epochContexts (u : Nat) (s : State) : List Nat :=
  let f := s.feed u
  let m := s.ctxAt u (s.epochStart f.epoch)
  (setBitsOf 64 m).filter fun c => hdrEmitEmpty f.img || (tget f.cons c).isSome

/-- Whether the unit has consumed every agreed record of its present epoch. -/
def State.epochConsumed (u : Nat) (s : State) : Bool :=
  let f := s.feed u
  (s.agreedOf f.epoch).isSome && !f.flt && f.phase != 2 &&
    (s.feedHeads u).all fun p => f.stopped.contains (p.1.slot * 16 + p.1.st) || decide (f.epoch < s.epochAt (stampFt (selStamp p.2.2 p.1.rec_)))

/-! ### States, events and faults (R315, R318, R320, R349, R350) -/

/-- Digest of an image slot, 0 for none. -/
def State.imageDig (steep : Bool) (i : Nat) (s : State) : Nat := if i < 64 then s.i (imageKey steep i 2) else 0

/-- Changes a unit's state with its RegionEventRecord or GroupEventRecord; SKIPPED is that of the switch which ends with the change (R318). -/
def State.unitState (u new cause core pc old_ new_ : Nat) (s : State) : State :=
  let old := s.i (kState u)
  if old = new then s
  else
    let s : State := s.iSet (kState u) new
    let (stm, s) := s.takeStamp .icd fnRecord
    let sk := if old = 2 then sat (2 ^ 32 - 1) (s.feed u).skipped else 0
    if u < 16 then
      let (r, s) := s.form .icd 0xB1 4 0 0 [(128, 128, stm), (256, 4, u), (264, 8, old), (272, 8, new), (280, 8, cause), (288, 8, old_), (296, 8, new_),
        (320, 32, sk), (384, 128, s.imageDig false new_)]
      s.occur (0x080 + u) none r
    else
      let (r, s) := s.form .icd 0xB3 4 0 0 [(128, 128, stm), (256, 3, u - 16), (259, 5, core), (264, 8, old), (272, 8, new), (280, 8, cause), (288, 8, old_),
        (296, 8, new_), (304, 15, pc), (320, 32, sk), (384, 128, s.imageDig true new_)]
      s.occur (0x090 + (u - 16)) none r

/-- IN_USE and VALID follow the units that name a slot as active or pending (R310). -/
def State.imageUses (steep : Bool) (s : State) : State :=
  let us := (List.range 24).filter fun u => decide (16 ≤ u) == steep
  let named := fun (s : State) (i : Nat) => us.any fun u => s.i (kActive u) == i || s.i (kPending u) == i || ((s.feed u).phase != 0 && (s.feed u).to_ == i)
  (List.range 64).foldl (fun s i =>
    let st := s.i (imageKey steep i 1)
    if st = 2 ∨ st = 3 then s.iSet (imageKey steep i 1) (if named s i then 3 else 2) else s) s

/-- A unit stops with a fault: its subscriptions are released, the epoch's results carry STAGING_OVERRUN, an alarm is raised (R320, R349). -/
def State.unitFault (u cause core pc : Nat) (s : State) : State :=
  let f := s.feed u
  let a := s.i (kActive u)
  let s : State := ({ s with gr := { s.gr with staging := s.gr.staging.filterMap fun x =>
      let m := setBit x.need (8 + u) (f.phase != 0 && bit x.need (8 + u)); if m = 0 then none else some { x with need := m } } } : State).overMark (8 + u)
  let s : State := s.setFeed u { f with flt := true, shown := none, vecs := [], ends := [], ended := [] }
  let s : State := (s.localMark 2).iSet (unitKey u 9) cause
  let s : State := if u < 16 then s else (s.iSet (unitKey u 0x0A) core).iSet (unitKey u 0x0B) (pc % 2 ^ 15)
  let s : State := s.unitState u 3 cause core pc a a
  if u < 16 then s.iAlarm 0x065 3 (0x0400 + u) (u + cause * 2 ^ 8)
  else s.iAlarm 0x066 3 (0x0500 + (u - 16)) ((u - 16) + core * 2 ^ 3 + cause * 2 ^ 8 + pc % 2 ^ 15 * 2 ^ 16)

/-! ### Switches (R316, R317, R348) -/

/-- MASH_SWITCH and STEEP_SWITCH: refused with the cause of R316, or queued. -/
def State.feedSwitchOp (u slot at_ : Nat) : Op := fun s =>
  let steep := decide (16 ≤ u)
  let st := s.i (imageKey steep slot 1)
  let f := s.feed u
  if !s.leadOk at_ then (s, no stLead)
  else if slot ≠ 0xFF ∧ 64 ≤ slot then (s, no stRange)
  else if !s.rd.has || s.boundaryAfter at_ != at_ then (s, no stBusy 5)
  else if slot ≠ 0xFF ∧ st ≠ 2 ∧ st ≠ 3 then (s, no stBusy 12)
  else if f.sw.isSome then (s, no stBusy 6)
  else
    let h := s.newHandle
    let p := h.2.queueAct .icd ⟨h.1, if steep then 3 else 2, at_, if steep then u - 16 else u, slot, 0, 0, 0, false, false, s.ft .icd⟩
    if !p.2 then (p.1, no stQueueFull)
    else
      let s : State := p.1.setFeed u { f with sw := some (at_, slot, h.1) }
      ((s.iSet (kPending u) slot).imageUses steep, okH h.1)

/-- The launch of a unit's switch at S: the unit enters SWITCHING (R317). -/
def State.feedLaunch (u slot at_ : Nat) (s : State) : State :=
  let f := s.feed u
  let s : State := s.setFeed u { f with sw := none, phase := 1, from_ := at_, to_ := slot, skipped := 0, stopped := [], shown := none, flt := s.i (kState u) == 3 }
  (s.unitState u 2 0 0 0 (s.i (kActive u)) slot).iSet (kPending u) slot

/-- Whether the old image has done what step 2 of R317 leaves it: the agreement of epoch m − 1, every stream at S, its last epoch emitted. -/
def State.feedDrained (u : Nat) (s : State) : Bool :=
  let f := s.feed u
  f.phase == 1 &&
    (if f.flt then decide (f.from_ + ns 1 ≤ s.ft .icd)
     else
      (s.agreedOf (s.epochAt (f.from_ - ns 1))).isSome && f.shown.isNone &&
      (s.feedHeads u).all (fun p => f.stopped.contains (p.1.slot * 16 + p.1.st) || decide (f.from_ ≤ stampFt (selStamp p.2.2 p.1.rec_))) &&
      (f.img.isEmpty || !hdrEpoch f.img || decide (s.epochAt f.from_ ≤ f.epoch)))

/-- Whether an image slot holds poisoned bytes. -/
def State.imagePoisoned (steep : Bool) (i : Nat) (s : State) : Bool :=
  let a := s.imageAddr steep i
  let n := recFld (s.imageHdr steep i) (if steep then 288 else 256) 32
  s.me.poison.any fun b => decide (b * 64 < a + n ∧ a < b * 64 + 64)

/-- What the read of the image that a unit loads logs (R446, R447). -/
def State.imageErrors (u : Nat) (s : State) : State :=
  let steep := decide (16 ≤ u)
  let i := (s.feed u).to_
  if i < 64 then s.t1ReadErrors (if steep then 0x0500 + (u - 16) else 0x0400 + u) (s.imageAddr steep i) (recFld (s.imageHdr steep i) (if steep then 288 else 256) 32)
  else s

/-! ### Tiles (R301, R313) -/

/-- The region of tile (row y, column x). -/
def tileRegion (y x : Nat) : Nat := 4 * (y / 8) + x / 8
/-- The index of tile (row y, column x) within its region. -/
def tileIndex (y x : Nat) : Nat := 8 * (y % 8) + x % 8

/-- Bytes padded to a multiple. -/
def padTo (k n : Nat) : Nat := (n + k - 1) / k * k

/-- The tile sections of a graph image from a byte offset, for the tiles named in ascending order: tile, configuration, context initial state, memory initial state (R313). -/
def tileSections (img : List Nat) : Nat → List Nat → List (Nat × List Nat × List Nat × List Nat)
  | _, [] => []
  | pos, t :: rest =>
    let h := bytesNat ((img.drop pos).take 16)
    let cfg := bits h 16 16
    let mem := bits h 32 16
    let ini := bits h 48 16
    let p1 := pos + 16 + padTo 16 cfg
    let p2 := p1 + padTo 16 ini
    (t, (img.drop (pos + 16)).take cfg, (img.drop p1).take ini, (img.drop p2).take mem) :: tileSections img (p2 + padTo 16 mem) rest

/-- Bytes from address 0 on, as memory. -/
def cellsOf (bs : List Nat) : List Host.Cell := (bs.zipIdx.filter fun p => p.1 % 256 != 0).map fun p => (p.2, BitVec.ofNat 8 p.1)

/-- A region's tiles hold nothing (R313, R315). -/
def State.tilesClear (u : Nat) (s : State) : State :=
  { s with ma := { s.ma with mem := s.ma.mem.filter fun p => p.1 / 64 != u, conf := s.ma.conf.filter fun p => p.1 / 64 != u } }

/-- Loads a region's tiles from an image slot: the configuration, the context initial state in each of the 64 context areas, the memory initial state after them, and zeros in the rest (R313). -/
def State.tilesLoad (u i : Nat) (s : State) : State :=
  let h := s.imageHdr false i
  let img := memRead s.me.t1 (s.imageAddr false i) (min 8388608 (recFld h 256 32))
  (tileSections img 128 (setBitsOf 64 (recFld h 192 64))).foldl (fun s x =>
    let k := u * 64 + x.1
    { s with ma := { s.ma with conf := tset s.ma.conf k x.2.1
                               mem := tset s.ma.mem k (cellsOf ((List.replicate 64 x.2.2.1).flatten ++ x.2.2.2)) } }) (s.tilesClear u)

/-- The end of a load: the unit runs the new image from its initial state; records stamped before S are skipped (R317, step 4). -/
def State.feedInstall (u : Nat) (s : State) : State :=
  let f := s.feed u
  let steep := decide (16 ≤ u)
  let old := s.i (kActive u)
  let img := if f.to_ < 64 then s.imageHdr steep f.to_ else []
  let dig := s.imageDig steep f.to_
  let m := s.epochAt f.from_
  let mine := s.gr.staging.filter fun e => bit e.need (8 + u)
  let early := mine.filter fun e => match selOf img e.rec_ with | some p => decide (stampFt (selStamp p.2 e.rec_) < f.from_) | none => false
  let alien := mine.filter fun e => (selOf img e.rec_).isNone
  let s : State := s.setFeed u { Feed.new with img := img, ctx := f.ctx, sw := f.sw, from_ := f.from_, skipped := f.skipped, epoch := m }
  let s : State := if u < 16 then (if f.to_ < 64 then s.tilesLoad u f.to_ else s.tilesClear u) else s
  let s : State := early.foldl (fun s e => s.feedPass u e 2) s
  let s : State := alien.foldl (fun s e => s.feedPass u e 3) s
  let s : State := ((s.iSet (kActive u) f.to_).iSet (kPending u) (match f.sw with | some w => w.2.1 | none => 0xFF)).iSet (unitKey u 4) dig
  let s : State := s.iSet (unitKey u 9) 0
  (s.unitState u (if f.to_ < 64 then 1 else 0) 0 0 0 old f.to_).imageUses steep

/-- A load that met an uncorrectable or poisoned read: the unit is FAULTED and names no image; the image stays VALID. -/
def State.feedLoadFault (u cause : Nat) (s : State) : State :=
  let f := s.feed u
  let s : State := s.unitFault u cause 0 0
  let s : State := s.setFeed u { Feed.new with ctx := f.ctx, sw := f.sw, from_ := f.from_, flt := true }
  let s : State := { s with gr := { s.gr with staging := s.gr.staging.filterMap fun x =>
      let m := setBit x.need (8 + u) false; if m = 0 then none else some { x with need := m } } }
  let s : State := if u < 16 then s.tilesClear u else s
  (((s.iSet (kActive u) 0xFF).iSet (kPending u) (match f.sw with | some w => w.2.1 | none => 0xFF)).iSet (unitKey u 4) 0).imageUses (decide (16 ≤ u))

/-- A cancelled switch is no longer pending (R63). -/
def State.feedSwitchCancelled (a : Act) (s : State) : State :=
  let u := if a.kind = 3 then 16 + a.a else a.a
  let f := s.feed u
  ((s.setFeed u { f with sw := none }).iSet (kPending u) (if f.phase ≠ 0 then f.to_ else 0xFF)).imageUses (a.kind == 3)

/-- A domain reset reloads the active image with its initial context state; a FAULTED unit returns to RUNNING (R530). -/
def State.feedReset (u : Nat) (s : State) : State :=
  let f := s.feed u
  let st := s.i (kState u)
  let a := s.i (kActive u)
  if st = 0 ∨ 64 ≤ a then s
  else
    let s : State := s.setFeed u { f with img := s.imageHdr (decide (16 ≤ u)) a, cons := [], shown := none, vecs := [], ends := [], ended := [], flt := false }
    let s : State := if u < 16 then s.tilesLoad u a else s
    if st = 3 then (s.iSet (unitKey u 9) 0).unitState u 1 0 0 0 a a else s

/-- IMAGE_CLEAR: the written value names the slot; an EMPTY, VALID or INVALID slot becomes EMPTY (R310). -/
def State.imageClearOp (steep : Bool) (i v : Nat) : Op := fun s =>
  let st := s.i (imageKey steep i 1)
  if v ≠ i then (s, no stRange)
  else if st = 1 ∨ st = 3 then (s, no stBusy 1)
  else ((((s.iSet (imageKey steep i 1) 0).iSet (imageKey steep i 2) 0).iSet (imageKey steep i 3) 0).iSet (imageKey steep i 5) 0, ok)

end Sys2Proof.Machine
end

