-- ==== Sys2Proof/Machine/Silent.lean ====
section
/-! DEFINITION. The read port, fences, pitch runs, replica compare, provenance and taint notices (R31, R57, R82–R89, R353–R381). -/

namespace Sys2Proof.Machine

/-- Replaces the Helad's silent-error state by a function of it. -/
def State.siHel (f : SiHel → SiHel) (s : State) : State := { s with si := { s.si with hel := f s.si.hel } }

/-! ### Read jobs (R82–R86, R370) -/

/-- Whole 64-byte blocks that hold a region. -/
def segSpan (g : Nat × Nat) : Nat := if g.2 = 0 then 0 else (g.1 + g.2 + 63) / 64 * 64 - g.1 / 64 * 64

/-- Moves a job past regions whose blocks have all come. -/
def Job.roll (j : Job) : Job :=
  (List.range j.segs.length).foldl (fun j _ =>
    match j.segs[j.cur]? with
    | some g => if j.wait = 0 ∧ segSpan g ≤ j.off then { j with cur := j.cur + 1, off := 0 } else j
    | none => j) j

/-- Whether a job has read everything or failed. -/
def Job.over_ (j : Job) : Bool := j.fail != 0 || decide (j.segs.length ≤ j.cur)

/-- Whether a job has a request to issue. -/
def Job.wants (j : Job) : Bool :=
  j.fail == 0 && (match j.segs[j.cur]? with | some g => decide (j.off < segSpan g) | none => false)

/-- The bytes of region `k` of a job, in ascending address order. -/
def Job.bytes (j : Job) (k : Nat) : List Nat :=
  match j.segs[k]? with
  | some g => (((sortBy (·.2.1) (j.got.filter fun b => b.1 == k)).flatMap (·.2.2)).drop (g.1 % 64)).take g.2
  | none => []

/-- Queues a read job and wakes DIGEST (R74); with HostMemBandwidth 0 it fails with NO_BUDGET (R85). -/
def State.addJob (kind ref part : Nat) (segs : List (Nat × Nat)) (s : State) : State :=
  let fail := if s.h O.HostMemBandwidth = 0 then 2 else 0
  let j : Job := (⟨s.si.hel.nextJob, kind, ref, part, segs, 0, 0, 0, [], fail, 0, 0⟩ : Job).roll
  (s.siHel fun h => { h with jobs := h.jobs ++ [j], nextJob := h.nextJob + 1 }).wake 5

/-- The job of a kind that serves something. -/
def State.jobOf (s : State) (kind ref : Nat) : Option Job := s.si.hel.jobs.find? fun j => j.kind == kind && j.ref == ref

/-- Removes a job; answers to its requests are still accepted and dropped. -/
def State.dropJob (id : Nat) (s : State) : State := s.siHel fun h => { h with jobs := h.jobs.filter fun j => j.id != id }

/-- Replaces a job by a function of it. -/
def State.modJob (id : Nat) (f : Job → Job) (s : State) : State :=
  s.siHel fun h => { h with jobs := h.jobs.map fun j => if j.id = id then (f j).roll else j }

/-- The next waiting job in the order of R370. -/
def State.nextRead (s : State) : Option Job :=
  (sortBy (·.kind) (s.si.hel.jobs.filter Job.wants)).head?

/-- The lowest read tag that is neither in use nor retired. -/
def State.freeTag (s : State) : Option Nat :=
  (List.range 64).find? fun t => (tget s.bd.reads t).isNone && !s.bd.retired.contains t

/-! ### Provenance (R365–R368) -/

/-- Field of a ProvenanceDescriptor. -/
def descFld (d : List Nat) (lo w : Nat) : Nat := bits (bytesNat d) lo w

/-- Replaces a command's provenance by a function of it. -/
def State.modProv (id : Nat) (f : Prov → Prov) (s : State) : State :=
  s.siHel fun h => { h with provs := h.provs.map fun p => if p.id = id then f p else p }

/-- A start boundary on a stream with a provenance table: the descriptor is read (R365, R367). -/
def State.provStart (stream cmdid part stamp : Nat) (s : State) : State :=
  let base := s.h (O.ProvTableBase + stream)
  if base = 0 then s
  else
    let id := s.si.hel.nextProv
    let a := base + cmdid % max 1 (s.h (O.ProvTableEntries + stream)) * 128
    let s : State := s.siHel fun h => { h with nextProv := id + 1, provs := h.provs ++ [⟨id, stream, cmdid, part, stamp, none, 0, none, none, none, none, none⟩] }
    s.addJob 0 id part [(a, 128)]

/-- Starts reading the output region once the command has ended (R367). -/
def State.provOutput (p : Prov) (s : State) : State :=
  match p.desc, p.end_, p.outp with
  | some d, some _, none =>
    if descFld d 544 32 = 0 then s.modProv p.id fun p => { p with outp := some 0 }
    else s.addJob 2 p.id p.part [(descFld d 576 64, descFld d 544 32)]
  | _, _, _ => s

/-- An end boundary of a command with provenance. -/
def State.provEnd (stream cmdid stamp : Nat) (s : State) : State :=
  match s.si.hel.provs.find? fun p => p.stream == stream && p.cmdid == cmdid && p.end_.isNone with
  | some p =>
    let s : State := s.modProv p.id fun p => { p with end_ := some stamp }
    s.provOutput { p with end_ := some stamp }
  | none => s

/-- The first read of a program or weights component: its generation word, or the region at once without one (R366). -/
def State.provPart (kind id part addr len gen : Nat) (s : State) : State :=
  s.addJob kind id part (if gen = 0 then [(addr, len)] else [(gen, 8)])

/-- The PFLAGS bit of a failed read (R368). -/
def failFlag (f : Nat) : Nat := if f = 2 then 2 ^ 6 else 2 ^ 3

/-- Sets one component digest. -/
def Prov.setPart (p : Prov) (kind v flags : Nat) : Prov :=
  let p := { p with flags := p.flags ||| flags }
  if kind = 1 then { p with inp := some v }
  else if kind = 2 then { p with outp := some v }
  else if kind = 3 then { p with prog := some v }
  else { p with wts := some v }

/-- What a finished provenance read leads to; a full digest cache drops the entry made longest ago (R366, R367; DESIGN CHOICE, log 179). -/
def State.provAdvance (j : Job) (s : State) : State :=
  match s.si.hel.provs.find? fun p => p.id == j.ref with
  | none => s.dropJob j.id
  | some p =>
    if j.kind = 0 then
      let s : State := s.dropJob j.id
      let all := fun (fl : Nat) => s.modProv p.id fun p => { p with flags := p.flags ||| fl, desc := some [], prog := some 0, wts := some 0, inp := some 0, outp := some 0 }
      if j.fail ≠ 0 then all (failFlag j.fail)
      else
        let d := j.bytes 0
        if descFld d 0 64 ≠ p.cmdid then all (2 ^ 5)
        else
          let s : State := s.modProv p.id fun p => { p with desc := some d }
          let s : State := s.addJob 1 p.id p.part [(descFld d 448 64, descFld d 512 32)]
          let s : State := s.provPart 3 p.id p.part (descFld d 64 64) (descFld d 128 64) (descFld d 192 64)
          let s : State := s.provPart 4 p.id p.part (descFld d 256 64) (descFld d 320 64) (descFld d 384 64)
          s.provOutput { p with desc := some d }
    else if j.fail ≠ 0 then (s.dropJob j.id).modProv p.id fun p => p.setPart j.kind 0 (failFlag j.fail)
    else if j.kind ≤ 2 then (s.dropJob j.id).modProv p.id fun p => p.setPart j.kind (Config.sha384 (j.bytes 0)) 0
    else
      let d := p.desc.getD []
      let b := if j.kind = 3 then 64 else 256
      let addr := descFld d b 64
      let len := descFld d (b + 64) 64
      if j.segs.length = 1 ∧ descFld d (b + 128) 64 = 0 then
        (s.dropJob j.id).modProv p.id fun p => p.setPart j.kind (Config.sha384 (j.bytes 0)) 0
      else
        let g0 := bytesNat (j.bytes 0)
        if j.segs.length = 1 then
          match s.si.hel.cache.find? fun c => g0 % 2 == 0 && c.1 == addr && c.2.1 == len && c.2.2.1 == g0 with
          | some c => (s.dropJob j.id).modProv p.id fun p => p.setPart j.kind c.2.2.2 (if j.kind = 3 then 1 else 2)
          | none => s.modJob j.id fun j => { j with segs := j.segs ++ [(addr, len), (descFld d (b + 128) 64, 8)] }
        else
          let g1 := bytesNat (j.bytes 2)
          let s : State := s.dropJob j.id
          if g0 ≠ g1 ∨ g0 % 2 = 1 then s.modProv p.id fun p => p.setPart j.kind 0 (2 ^ 4)
          else
            let v := Config.sha384 (j.bytes 1)
            let s : State := s.siHel fun h => { h with cache := ((addr, len, g0, v) :: h.cache.filter fun c => !(c.1 == addr && c.2.1 == len && c.2.2.1 == g0)).take 16 }
            s.modProv p.id fun p => p.setPart j.kind v 0

/-- Carries finished provenance reads on; a job that turns out to need nothing more is finished at once. -/
def State.provRoll (s : State) : State :=
  let go := fun (s : State) => (s.si.hel.jobs.filter fun j => j.kind ≤ 4 && j.over_).foldl (fun s j => s.provAdvance j) s
  go (go (go s))

/-- READ_REQUEST_ISSUE: one request of up to 4 KiB to the first waiting job, when the bucket holds its bytes, outside the guard drain (R57, R82, R85). With HostMemBandwidth 0 the port issues nothing and what waits fails with NO_BUDGET. -/
def State.readRequestIssue (s : State) : State :=
  if s.h O.HostMemBandwidth = 0 then
    (s.siHel fun h => { h with jobs := h.jobs.map fun j => if j.wants then { j with fail := 2 } else j }).provRoll
  else if !s.awake 5 ∨ s.tm.guardHold ∨ s.inDrain (s.ft .hel) then s
  else
    match s.nextRead, s.freeTag with
    | some j, some tag =>
      match j.segs[j.cur]? with
      | some g =>
        let n := min 4096 (segSpan g - j.off)
        if s.bd.tokens < n * 1000000 then s
        else
          let a := g.1 / 64 * 64 + j.off
          let s : State := { s with bd := { s.bd with tokens := s.bd.tokens - n * 1000000, reads := tset s.bd.reads tag ⟨j.id, a, n, j.part, s.ft .hel, j.cur, j.off, []⟩ } }
          let s : State := s.modJob j.id fun j => { j with off := j.off + n, wait := j.wait + 1 }
          s.put .readPort tag [a / 64, n / 64 - 1, tag, j.part]
      | none => s
    | _, _ => s

/-- READ_REQUEST_ISSUE. -/
def execReadRequestIssue : State → Host.Outcome State Fault Refusal := run State.readRequestIssue

/-- A read fails (R84): its job, and what the fault names: the address, the partition and the error code. -/
def State.readFault (why : Nat) (r : ReadReq) (addr code : Nat) (s : State) : State :=
  (s.modJob r.job fun j => { j with fail := if j.fail = 0 then why else j.fail, fAddr := addr, fCode := code }).siHel fun h =>
    { h with faults := (why, addr, r.part, code) :: h.faults }

/-- READ_RESPONSE: a beat is accepted; an error code fails its job; LAST frees the tag (R83, R84). The response of a retired tag is discarded. -/
def State.readResponse (tag : Nat) (data : List Nat) (last : Bool) (err : Nat) (s : State) : State :=
  match tget s.bd.reads tag with
  | none => if s.bd.retired.contains tag ∧ last then { s with bd := { s.bd with retired := s.bd.retired.filter (· != tag) } } else s
  | some r =>
    let s : State := if err = 0 then s else s.readFault 1 r (r.addr + r.data.length) err
    let r' := { r with data := r.data ++ data }
    if last then
      let s : State := { s with bd := { s.bd with reads := tdel s.bd.reads tag } }
      (s.modJob r.job fun j => { j with wait := j.wait - 1, got := j.got ++ [(r.seg, r.off, r'.data)] }).provRoll
    else { s with bd := { s.bd with reads := tset s.bd.reads tag r' } }

/-- READ_RESPONSE. -/
def execReadResponse (tag : Nat) (data : List Nat) (last : Bool) (err : Nat) : State → Host.Outcome State Fault Refusal :=
  run (State.readResponse tag data last err)

/-- READ_TIMEOUT: the job fails with READ_TIMEOUT and the tag stays retired until its response arrives (R84). -/
def State.readTimeout (tag : Nat) (s : State) : State :=
  match tget s.bd.reads tag with
  | some r =>
    if s.ft .hel < r.at_ + us (s.h O.ReadTimeout) then s
    else
      let s : State := { s with bd := { s.bd with reads := tdel s.bd.reads tag, retired := s.bd.retired ++ [tag] } }
      ((s.readFault 3 r r.addr 0).modJob r.job fun j => { j with wait := j.wait - 1 }).provRoll
  | none => s

/-- READ_TIMEOUT. -/
def execReadTimeout (tag : Nat) : State → Host.Outcome State Fault Refusal := run (State.readTimeout tag)

/-- PROV_DIGEST (R367): SHA-384 over the three component digests, zero when any is zero. -/
def provDigest (a b c : Nat) : Nat :=
  if a = 0 ∨ b = 0 ∨ c = 0 then 0 else Config.sha384 (natBytes 48 a ++ natBytes 48 b ++ natBytes 48 c)

/-- Emits the ProvenanceRecord of a command (R368). -/
def State.provEmit (p : Prov) (s : State) : State :=
  let a := p.prog.getD 0
  let b := p.wts.getD 0
  let c := p.inp.getD 0
  let e := p.end_.getD 0
  let fl := p.flags ||| (if bit p.start 80 || bit e 80 then 2 ^ 7 else 0)
  let (r, s) := s.form .hel 0xC1 19 0 p.part
    [(128, 64, p.cmdid), (192, 4, p.stream), (208, 16, fl), (256, 128, p.start), (384, 128, e), (512, 384, a), (896, 384, b), (1280, 384, c),
     (1664, 384, p.outp.getD 0), (2048, 384, provDigest a b c)]
  (s.siHel fun h => { h with provs := h.provs.filter fun x => x.id != p.id, jobs := h.jobs.filter fun j => !(j.kind ≤ 4 && j.ref == p.id) }).hQueueW stDigest r

/-- The provenance of a command that has ended. -/
def State.provOf (s : State) (stream cmdid : Nat) : Option Prov :=
  s.si.hel.provs.find? fun p => p.stream == stream && p.cmdid == cmdid && p.end_.isSome

/-- PROVENANCE_COMPLETE. -/
def State.provenanceComplete (stream cmdid : Nat) (s : State) : State :=
  match s.provOf stream cmdid with
  | some p => if p.prog.isSome ∧ p.wts.isSome ∧ p.inp.isSome ∧ p.outp.isSome then s.provEmit p else s
  | none => s

/-- PROVENANCE_COMPLETE. -/
def execProvenanceComplete (stream cmdid : Nat) : State → Host.Outcome State Fault Refusal := run (State.provenanceComplete stream cmdid)

/-- PROVENANCE_TIMEOUT: reads not completed by end + ProvHold mark their components TIMEOUT (R367). -/
def State.provenanceTimeout (stream cmdid : Nat) (s : State) : State :=
  match s.provOf stream cmdid with
  | some p =>
    if s.ft .hel < bits (p.end_.getD 0) 0 80 + us (s.h O.ProvHold) ∨ (p.prog.isSome ∧ p.wts.isSome ∧ p.inp.isSome ∧ p.outp.isSome) then s
    else s.provEmit { p with flags := p.flags ||| 2 ^ 2, prog := some (p.prog.getD 0), wts := some (p.wts.getD 0), inp := some (p.inp.getD 0), outp := some (p.outp.getD 0) }
  | none => s

/-- PROVENANCE_TIMEOUT. -/
def execProvenanceTimeout (stream cmdid : Nat) : State → Host.Outcome State Fault Refusal := run (State.provenanceTimeout stream cmdid)

/-! ### Fences (R87, R88, R376–R379) -/

/-- Key of a unit's FenceEntry. -/
abbrev fenceKey (u : Nat) : Nat := inst128 O.FenceEntry u

/-- The unit group of a unit (UnitGroupMap). -/
def State.unitGroup (s : State) (u : Nat) : Nat := bits (s.h (O.UnitGroupMap + u / 4)) (8 * (u % 4)) 8

/-- Whether a unit lies in a group that may run radio work. -/
def State.radioUnit (s : State) (u : Nat) : Bool := bit s.bd.radio (s.unitGroup u)

/-- Whether Helad wants the fence of a unit (R376). -/
def State.fenceWanted (s : State) (u : Nat) : Bool :=
  let e := s.h (fenceKey u)
  let m := bits e 0 2
  m == 1 || m == 2 || (m == 3 && bit e 56)

/-- Pin of a unit's FENCE_REQ. -/
abbrev fencePin (u : Nat) : Nat := 0x300 + u

/-- A FenceEventRecord in the AO ring (R378). -/
def State.fenceEvent (u old cause : Nat) (s : State) : State :=
  let (r, s) := s.form .hel 0xC7 2 0 0
    [(128, 8, u), (136, 2, old), (138, 2, s.h (fenceKey u)), (140, 1, b2n (bit s.bd.fReq u)), (141, 1, b2n (bit s.bd.fAck u)), (144, 8, cause),
     (192, 64, s.ft .hel / 65536)]
  s.hRing 2 r

/-- Drives FENCE_REQ of a unit. -/
def State.fenceLine (u : Nat) (on : Bool) (s : State) : State :=
  let cause := tgetD s.bd.fCause u 0
  let s : State := { s with bd := { s.bd with fReq := setBit s.bd.fReq u on, fAt := tset s.bd.fAt u (s.ft .hel), fLate := setBit s.bd.fLate u false } }
  let s : State := (s.hSet (fenceKey u) (setBit (s.h (fenceKey u)) 57 on)).pin (fencePin u) (b2n on)
  s.fenceEvent u (bits (s.h (fenceKey u)) 0 2) cause

/-- Begins step 1 when the fence is wanted, FENCE_ACK is 0, and, for a radio unit, outside the guard region (R87, R379). -/
def State.fenceRequest (u : Nat) (s : State) : State :=
  if !s.bd.haoReset && s.fenceWanted u && !bit s.bd.fReq u && !bit s.bd.fAck u && !(s.radioUnit u && s.inGuard (s.ft .hel)) then s.fenceLine u true else s

/-- FENCE_REQUEST. -/
def execFenceRequest (u : Nat) : State → Host.Outcome State Fault Refusal := run (State.fenceRequest u)

/-- FENCE_RELEASE: step 4, once FENCE_ACK is 1 and the fence is no longer wanted. -/
def State.fenceRelease (u : Nat) (s : State) : State :=
  if !s.bd.haoReset && !s.fenceWanted u && bit s.bd.fReq u && bit s.bd.fAck u then s.fenceLine u false else s

/-- FENCE_RELEASE. -/
def execFenceRelease (u : Nat) : State → Host.Outcome State Fault Refusal := run (State.fenceRelease u)

/-- FENCE_ACK_RISE: the unit is fenced; a change wanted meanwhile is applied (R87). -/
def State.fenceAckRise (u : Nat) (s : State) : State :=
  ({ s with bd := { s.bd with fAck := setBit s.bd.fAck u true } }).fenceRelease u

/-- FENCE_ACK_RISE. -/
def execFenceAckRise (u : Nat) : State → Host.Outcome State Fault Refusal := run (State.fenceAckRise u)

/-- FENCE_ACK_FALL: the unit is available again; a fence wanted meanwhile is requested (R87). -/
def State.fenceAckFall (u : Nat) (s : State) : State :=
  ({ s with bd := { s.bd with fAck := setBit s.bd.fAck u false } }).fenceRequest u

/-- FENCE_ACK_FALL. -/
def execFenceAckFall (u : Nat) : State → Host.Outcome State Fault Refusal := run (State.fenceAckFall u)

/-- FENCE_ACK_TIMEOUT: FENCE_TIMEOUT is recorded and FENCE_REQ held (R87). -/
def State.fenceAckTimeout (u : Nat) (s : State) : State :=
  if bit s.bd.fReq u && !bit s.bd.fAck u && !bit s.bd.fLate u && decide (tgetD s.bd.fAt u 0 + us (s.h O.FenceAckLimit) ≤ s.ft .hel) then
    let s : State := { s with bd := { s.bd with fLate := setBit s.bd.fLate u true } }
    (s.fenceEvent u (bits (s.h (fenceKey u)) 0 2) 4).hAlarm 0x003 2 u
  else s

/-- FENCE_ACK_TIMEOUT. -/
def execFenceAckTimeout (u : Nat) : State → Host.Outcome State Fault Refusal := run (State.fenceAckTimeout u)

/-- The Tray persists a unit's entry (R195, R376). -/
def State.persistFence (slot u v : Nat) (s : State) : State :=
  let w := setBits v 56 2 0
  { s with si := { s.si with perDie := if w = 32 * 2 ^ 48 then tdel s.si.perDie (slot * 256 + u) else tset s.si.perDie (slot * 256 + u) w } }

/-- Stores a FenceEntry at the Helad: MET starts at 1 for CONDITIONAL and is 0 otherwise; REQ shows the line; a change of MODE is an event (R376–R378). -/
def State.setFence (u v cause : Nat) (s : State) : State :=
  let old := bits (s.h (fenceKey u)) 0 2
  let m := bits v 0 2
  let w := setBit (setBit (setBits v 56 8 0) 56 (m == 3)) 57 (bit s.bd.fReq u)
  let s : State := { (s.hSet (fenceKey u) w) with bd := { s.bd with fCause := tset s.bd.fCause u cause } }
  let s : State := s.siHel fun h => { h with metAt := if m = 3 then tset h.metAt u (s.ft .hel) else tdel h.metAt u, suspect := if m = 2 then h.suspect else tdel h.suspect u, window := tdel h.window u }
  if old = m then s else s.fenceEvent u old cause

/-- FENCE_ENTRY_WRITE (R376, R377). -/
def State.fenceEntryOp (u v : Nat) : Op := fun s =>
  let src := bits v 4 12
  if bits v 58 6 ≠ 0 ∨ (bits v 0 2 = 3 ∧ bits v 2 2 ≠ 3 ∧ ¬ (176 ≤ src ∧ src ≤ 207)) then (s, no stRange)
  else
    let s : State := s.setFence u v 0
    ((s.persistFence (s.h O.SlotNumber) u v).fenceRequest u |>.fenceRelease u, ok)

/-- FENCE_ENTRY_WRITE. -/
def execFenceEntryWrite (q : Req) (u v : Nat) : State → Host.Outcome State Fault Refusal :=
  run (State.proxyWrite q (fenceKey u) v (State.fenceEntryOp u v))

/-- FENCE_MAP_LOAD: every unit takes its persisted entry, or NONE, and FENCE_MAP_VALID rises (R88); a Helad held by HAO_RST_N takes none (R76). -/
def State.fenceMapLoad (s : State) : State :=
  if s.bd.haoReset then s
  else
  let slot := s.h O.SlotNumber
  let s : State := (List.range 256).foldl (fun s u =>
    let v := tgetD s.si.perDie (slot * 256 + u) (32 * 2 ^ 48)
    if v = 32 * 2 ^ 48 ∧ (tget s.hd (fenceKey u)).isNone then s else (s.setFence u v 0).fenceRequest u) s
  s.pin 0x400 1

/-- FENCE_MAP_LOAD. -/
def execFenceMapLoad : State → Host.Outcome State Fault Refusal := run State.fenceMapLoad

/-- MET of a unit becomes 1. -/
def State.fenceMet (u : Nat) (s : State) : State :=
  let s : State := s.siHel fun h => { h with metAt := tset h.metAt u (s.ft .hel) }
  if bit (s.h (fenceKey u)) 56 then s
  else
    let s : State := s.hSet (fenceKey u) (setBit (s.h (fenceKey u)) 56 true)
    ({ s with bd := { s.bd with fCause := tset s.bd.fCause u 2 } }).fenceRequest u

/-- Units whose FenceEntry is listed, with CONDITIONAL entries first to be tested. -/
def State.condUnits (s : State) : List Nat :=
  s.hd.filterMap fun p =>
    if (keyIdx p.1 = 0x4E10 ∨ keyIdx p.1 = 0x4E11) ∧ 1 ≤ keySub p.1 ∧ keySub p.1 ≤ 128 then some ((keyIdx p.1 - 0x4E10) * 128 + keySub p.1 - 1) else none

/-- Whether a reading lies in the guarded band of an entry (R377). -/
def inBand (e x : Nat) : Bool :=
  let sgn := bits e 2 2 == 0
  let v : Int := if sgn then toS 32 x else (x : Int)
  let lo : Int := if sgn then toS 16 (bits e 16 16) else ((bits e 16 16 : Nat) : Int)
  let hi : Int := if sgn then toS 16 (bits e 32 16) else ((bits e 32 16 : Nat) : Int)
  let g : Int := ((bits e 48 8 : Nat) : Int)
  decide (lo - g ≤ v ∧ v ≤ hi + g)

/-- A counted tap is a reading of its port: conditional entries of KIND 0–2 that name it are tested (R377). -/
def State.fenceReading (port inc : Nat) (s : State) : State :=
  if port < 176 ∨ 207 < port then s
  else
    let s : State := s.siHel fun h => { h with readings := tset h.readings port (inc, s.ft .hel) }
    (s.condUnits.eraseDups).foldl (fun s u =>
      let e := s.h (fenceKey u)
      if bits e 0 2 = 3 ∧ bits e 2 2 ≠ 3 ∧ bits e 4 12 = port ∧ inBand e inc then s.fenceMet u else s) s

/-- KIND 3: a counter's increase over its 10 µs window, tested as it grows (R377). -/
def State.fenceCount (n before : Nat) (s : State) : State :=
  let w := s.ft .hel / us 10
  (s.condUnits.eraseDups).foldl (fun s u =>
    let e := s.h (fenceKey u)
    if bits e 0 2 = 3 ∧ bits e 2 2 = 3 ∧ bits e 4 12 = n then
      let base := match tget s.si.hel.window u with | some (i, b) => if i = w then b else before | none => before
      let s : State := s.siHel fun h => { h with window := tset h.window u (w, base) }
      let inc := (s.h (cval n) + 2 ^ 64 - base) % 2 ^ 64
      if inc * 100 ≥ 10 * bits e 16 16 * (100 - min 100 (bits e 48 8)) then s.fenceMet u else s
    else s) s

/-- CONDITION_HOLD_EXPIRY: MET returns to 0 once every reading for ConditionHold has failed; a source silent for 100 µs holds it (R377). -/
def State.conditionHoldExpiry (u : Nat) (s : State) : State :=
  let e := s.h (fenceKey u)
  let now := s.ft .hel
  let heard := if bits e 2 2 = 3 then s.awake 2 else match tget s.si.hel.readings (bits e 4 12) with | some r => decide (now < r.2 + us 100) | none => false
  if bits e 0 2 = 3 && bit e 56 && heard && decide (tgetD s.si.hel.metAt u 0 + us (s.h O.ConditionHold) ≤ now) then
    let s : State := s.hSet (fenceKey u) (setBit e 56 false)
    ({ s with bd := { s.bd with fCause := tset s.bd.fCause u 3 } }).fenceRelease u
  else s

/-- CONDITION_HOLD_EXPIRY. -/
def execConditionHoldExpiry (u : Nat) : State → Host.Outcome State Fault Refusal := run (State.conditionHoldExpiry u)

/-! ### Pitch runs (R357–R360) -/

/-- CLASS of a unit in force. -/
def State.unitClass (s : State) (u : Nat) : Nat := tgetD s.si.hel.cls u 0

/-- The rotation of a unit: active slots whose CLASS_MASK holds its CLASS, ascending (R357). -/
def State.rotation (s : State) (u : Nat) : List Nat :=
  (s.si.hel.active.filter fun p => bit (recFld p.2 144 16) (s.unitClass u)).map (·.1)

/-- The pitch period of a unit in µs (R357). -/
def State.pitchPeriod (s : State) (u : Nat) : Nat :=
  let m := ((s.rotation u).map fun k => recFld (tgetD s.si.hel.active k []) 160 16).foldl max 0
  let d := s.si.hel.duty
  if d = 0 then 0 else (m * 4096 + d - 1) / d

/-- The instant of run `k` of a unit (R357). -/
def State.pitchAt (s : State) (u k : Nat) : Nat :=
  let p := s.pitchPeriod u
  s.h O.PitchOrigin + us (k * p + u * p / 256)

/-- Takes a written duty or CLASS into force at its epoch boundary, which becomes PitchOrigin; deferred runs are dropped (R357; DESIGN CHOICE, log 177). -/
def State.pitchRoll (s : State) : State :=
  match s.si.hel.change with
  | some b =>
    if s.ft .hel < b then s
    else
      let cls := (s.hd.filterMap fun p =>
        if keyIdx p.1 = 0x4E04 ∨ keyIdx p.1 = 0x4E05 then some ((keyIdx p.1 - 0x4E04) * 128 + keySub p.1 - 1) else none).foldl
          (fun t u => tset t u (bits (s.h (inst128 O.UnitConfig u)) 16 4)) []
      (s.siHel fun h => { h with change := none, duty := s.h O.PitchDuty, cls := cls, next := [], deferred := [] }).hSet O.PitchOrigin b
  | none => s

/-- A write of PitchDuty or of a CLASS takes effect at the next epoch boundary (R357). -/
def State.pitchChange (s : State) : State := s.siHel fun h => { h with change := some (s.boundaryAfter (s.ft .hel)) }

/-- Emits a PitchResultRecord (R360). -/
def State.pitchRecord (p : Pitch) (result cause : Nat) (s : State) : State :=
  let (r, s) := s.form .hel 0xC0 4 0 0
    [(128, 8, p.unit), (136, 8, result), (144, 8, cause), (152, 1, b2n p.fenced), (153, 1, b2n p.deferred), (154, 1, b2n p.hold), (160, 8, p.slot),
     (176, 16, recFld p.desc 128 16), (192, 32, recFld p.desc 192 32), (224, 32, p.run), (256, 64, p.cmdid), (320, 64, p.start),
     (384, 16, p.temp), (400, 16, p.volt), (416, 16, p.freq), (448, 64, s.ft .hel / 65536)]
  s.hQueueW stDigest r

/-- A detection at the Helad (R372, R378): SUSPECT under policy 1, but not while the Icdon is in observe-only mode (R472), with the failing pattern to be characterised, the fence, the TaintAlertRecord. -/
def State.detect (p : Pitch) (cause : Nat) (s : State) : State :=
  let u := p.unit
  let s : State := if s.i (O.FencePolicy + cause) = 1 ∧ !s.observeOnly then
      let s : State := s.setFence u (setBits (s.h (fenceKey u)) 0 2 2) 1
      let s : State := s.siHel fun h => { h with suspect := tset h.suspect u (p.slot, s.i O.CharacteriseRuns) }
      s.fenceRequest u
    else s
  let (r, s) := s.form .hel 0xC5 3 0 0
    [(128, 8, u), (136, 8, cause), (144, 8, p.slot), (160, 32, p.run), (192, 64, tgetD s.si.hel.lastPass u 0), (256, 64, s.ft .hel / 65536)]
  s.hAlarmQueue r

/-- The end of a run (R358, R359): its record, the counts of consecutive ABORTED and SKIPPED results, the detections. -/
def State.pitchEnd (p : Pitch) (result cause : Nat) (s : State) : State :=
  let u := p.unit
  let s : State := s.siHel fun h => { h with requests := h.requests.filter fun x => !(x.unit == u && x.run == p.run) }
  let s : State := s.pitchRecord p result cause
  let ab := if result = 2 ∧ cause = 2 then tgetD s.si.hel.aborts u 0 + 1 else 0
  let sk := if result = 2 ∧ cause = 9 then tgetD s.si.hel.skips u 0 + 1 else 0
  let s : State := s.siHel fun h => { h with aborts := tset h.aborts u (if ab ≥ s.h O.AbortLimit then 0 else ab), skips := tset h.skips u sk, lastPass := if result = 0 then tset h.lastPass u p.start else h.lastPass }
  let s : State := if cause = 9 ∧ result = 2 then s.hCount O.PitchSkipped else s
  let s : State := if sk = 4 then s.hAlarm 0x006 2 u else s
  if result = 1 ∧ !p.fenced then s.detect p 0
  else if ab ≠ 0 ∧ ab ≥ s.h O.AbortLimit ∧ !p.fenced then s.detect p 3
  else s

/-- Latest reading of a port named in UnitConfig, or the value for none. -/
def State.portReading (s : State) (u lo none_ : Nat) : Nat :=
  let p := bits (s.h (inst128 O.UnitConfig u)) lo 8
  if p = 0xFF then none_ else match tget s.si.hel.readings p with | some r => r.1 % 65536 | none => none_

/-- A run that is not made; its readings are those at the decision (DESIGN CHOICE, log 178). -/
def State.pitchNot (u k slot cause : Nat) (defd : Bool) (s : State) : State :=
  let d := tgetD s.si.hel.active slot []
  s.pitchEnd ⟨u, slot, 0, k, false, defd, s.holdoverFlag .hel, 0, 0, d, 0, 0, s.portReading u 24 0x8000, s.portReading u 32 0xFFFF, s.portReading u 40 0xFFFF⟩ 2 cause

/-- Whether a unit's group is halted by a cut (R397). -/
def State.haltedUnit (s : State) (u : Nat) : Bool := bit s.bd.hReq (s.unitGroup u) || bit s.bd.hAck (s.unitGroup u)

/-- Makes run `k` of a unit, or records why not, or defers it (R358). A deferred run wakes COUNT and TIME; PITCH_VALID stays 0 while COUNT sleeps (R73). -/
def State.pitchGo (u k : Nat) (defd : Bool) (s : State) : State :=
  let rot := s.rotation u
  let e := s.h (fenceKey u)
  let m := bits e 0 2
  let susp := tgetD s.si.hel.suspect u (0, 0)
  let slot := if m = 2 then susp.1 else rot.getD (k % max 1 rot.length) 0
  let d := tgetD s.si.hel.active slot []
  if m = 1 ∨ (m = 3 ∧ bit e 56) ∨ (m = 2 ∧ susp.2 = 0) then s.pitchNot u k slot 10 defd
  else if s.si.hel.badSlots.contains slot ∨ d.isEmpty then s.pitchNot u k slot 11 defd
  else if !s.awake 2 ∨ (s.si.hel.requests.any fun p => p.unit == u) ∨ 16 ≤ (s.si.hel.requests.filter fun p => p.phase == 0).length ∨ s.haltedUnit u ∨ !s.guardFits (us (recFld d 160 16)) then
    ((s.siHel fun h => { h with deferred := h.deferred ++ [(u, k)] }).wake 2).wake 1
  else
    let tag := s.si.hel.nextTag
    let fenced := m == 2
    let p : Pitch := ⟨u, slot, tag, k % 2 ^ 32, fenced, defd, s.holdoverFlag .hel, s.ft .hel / 65536, s.ft .hel, d, 0, 0, 0x8000, 0xFFFF, 0xFFFF⟩
    let s : State := s.siHel fun h => { h with requests := h.requests ++ [p], nextTag := (tag + 1) % 256, suspect := if fenced then tset h.suspect u (susp.1, susp.2 - 1) else h.suspect }
    s.put .pin 0x500 [u, slot, recFld d 160 16, tag, b2n fenced]

/-- Tests deferred runs again (R31): at the end of each interval of the guard region, when a request they waited for has ended, and when COUNT is awake. -/
def State.pitchRetest (s : State) : State :=
  let l := s.si.hel.deferred
  l.foldl (fun s e => s.pitchGo e.1 e.2 true) (s.siHel fun h => { h with deferred := [] })

/-- The units whose next run is near: the Helad begins waking COUNT and TIME 4 µs before its instant (R62, R357). -/
def State.pitchAhead (s : State) : State :=
  if s.si.hel.duty = 0 ∨ s.si.hel.active.isEmpty then s
  else if (List.range 256).any fun u => !(s.rotation u).isEmpty && decide (s.pitchAt u (tgetD s.si.hel.next u 0) ≤ s.ft .hel + us 4) then (s.wake 2).wake 1
  else s

/-- A run that the wake made late (R62): COUNT began to wake less than 4 µs before its instant, and the launch falls more than two HCLK cycles after it. -/
def State.pitchLate (t : Nat) (s : State) : Bool := decide (t < tgetD s.bd.wakeAt 2 0 + us 4) && decide (t + 81920 < s.ft .hel)

/-- Whether a pitch run of some unit is due at or before an instant that FT has reached (R29): it launches before a pulse or an object write of that instant. -/
def State.pitchFirst (t : Nat) (s : State) : Bool :=
  !s.bd.hmainReset && s.si.hel.duty != 0 && !s.si.hel.active.isEmpty &&
    (List.range 256).any fun u => !(s.rotation u).isEmpty && decide (s.pitchAt u (tgetD s.si.hel.next u 0) ≤ min t (s.ft .hel))

/-- Whether a timed action of the Helad comes before a pitch run at an instant (R28, R29): an earlier one, or a cut at the same instant. -/
def State.beforePitch (t : Nat) (s : State) : Bool := (s.reached .hel).any fun a => decide (a.at_ < t) || (a.at_ == t && decide (actOrder a.kind < 5))

/-- PITCH_RUN_START: run `k` of a unit at t(u, k), in order 5 of R29, waking COUNT and TIME; a deferred run not started by now is not made (R357, R358). -/
def State.pitchRunStart (u : Nat) (s : State) : State :=
  let s : State := s.pitchRoll
  let k := tgetD s.si.hel.next u 0
  if s.bd.hmainReset ∨ s.si.hel.duty = 0 ∨ (s.rotation u).isEmpty ∨ s.ft .hel < s.pitchAt u k ∨ s.beforePitch (s.pitchAt u k) then s
  else if !s.awake 2 then (s.wake 2).wake 1
  else
    let held := s.jitterHold (u * 16 + 4)
    if held.1 then held.2
    else
    let s : State := held.2
    let t := s.pitchAt u k
    let s : State := if s.pitchLate t then
        let (stm, s) := s.takeStamp .hel fnRecord
        s.missed .hel ⟨0, 4, t, u, k, 0, 0, 0, false, false, 0⟩ 2 stm
      else s
    let old := s.si.hel.deferred.filter fun e => e.1 == u
    let s : State := s.siHel fun h => { h with next := tset h.next u (k + 1), deferred := h.deferred.filter fun e => e.1 != u }
    let s : State := old.foldl (fun s e => s.pitchNot u e.2 ((s.rotation u).getD (e.2 % max 1 (s.rotation u).length) 0) 9 true) s
    s.pitchGo u k false

/-- PITCH_RUN_START. -/
def execPitchRunStart (u : Nat) : State → Host.Outcome State Fault Refusal := run (State.pitchRunStart u)

/-- PITCH_RESPONSE (R359); a response to no request is discarded (R89). -/
def State.pitchResponse (tag status cmdid : Nat) (s : State) : State :=
  match s.si.hel.requests.find? fun p => p.tag == tag && p.phase == 0 with
  | none => s
  | some p =>
    let u := p.unit
    let p := { p with cmdid := cmdid, temp := s.portReading u 24 0x8000, volt := s.portReading u 32 0xFFFF, freq := s.portReading u 40 0xFFFF }
    if status = 0 then
      let p := { p with phase := 1 }
      let s : State := s.siHel fun h => { h with requests := h.requests.map fun x => if x.unit = u then p else x }
      s.addJob 5 u 0 [(s.h (inst128 O.PitchOutputAddr u), recFld p.desc 256 32)]
    else if status ≤ 4 then (s.pitchEnd p 2 (if status = 1 then 1 else if status = 2 then 2 else if status = 3 then 3 else 4)).pitchRetest
    else ((s.pitchEnd p 2 12).hAlarm 0x007 2 (u + status * 256)).pitchRetest

/-- PITCH_RESPONSE. -/
def execPitchResponse (tag status cmdid : Nat) : State → Host.Outcome State Fault Refusal := run (State.pitchResponse tag status cmdid)

/-- PITCH_TIMEOUT: no response within PITCH_MAXDUR + 1 ms (R89). -/
def State.pitchTimeout (u : Nat) (s : State) : State :=
  match s.si.hel.requests.find? fun p => p.unit == u && p.phase == 0 with
  | some p => if p.at_ + us (recFld p.desc 160 16) + ms 1 ≤ s.ft .hel then (s.pitchEnd p 2 5).pitchRetest else s
  | none => s

/-- PITCH_TIMEOUT. -/
def execPitchTimeout (u : Nat) : State → Host.Outcome State Fault Refusal := run (State.pitchTimeout u)

/-- The first 128 bits of a keyed BLAKE3. -/
def keyed128 (key : Nat) (bs : List Nat) : Nat := Config.blake3Keyed key bs % 2 ^ 128

/-- PITCH_OUTPUT_CHECKED: PASS when the keyed digest of the output equals EXPECTED_DIGEST, else FAIL; a failed read is NOT_RUN (R359). -/
def State.pitchOutputChecked (u : Nat) (s : State) : State :=
  match s.si.hel.requests.find? fun p => p.unit == u && p.phase == 1, s.jobOf 5 u with
  | some p, some j =>
    if !j.over_ then s
    else
      let s : State := s.dropJob j.id
      let s : State := if j.fail = 2 then s.pitchEnd p 2 8
        else if j.fail ≠ 0 then s.pitchEnd p 2 7
        else if keyed128 (recFld p.desc 576 256) (j.bytes 0) = recFld p.desc 448 128 then s.pitchEnd p 0 0
        else s.pitchEnd p 1 0
      s.pitchRetest
  | _, _ => s

/-- PITCH_OUTPUT_CHECKED. -/
def execPitchOutputChecked (u : Nat) : State → Host.Outcome State Fault Refusal := run (State.pitchOutputChecked u)

/-- GUARD_REGION_END: read issue resumes; deferred pitch runs are tested again; fences that waited are raised (R31, R57, R379). -/
def State.guardRegionEnd (s : State) : State :=
  if s.inGuard (s.ft .hel) then s
  else
    let s : State := if s.inDrain (s.ft .hel) then s else { s with tm := { s.tm with guardHold := false } }
    let s : State := s.condUnits.eraseDups.foldl (fun s u => s.fenceRequest u) s
    s.pitchRetest

/-- GUARD_REGION_END. -/
def execGuardRegionEnd : State → Host.Outcome State Fault Refusal := run State.guardRegionEnd

/-- HMAIN_RST_N: requests and checks end as RESET; provenance, reads and sweeps are lost (R76, R380). -/
def State.pitchReset (s : State) : State :=
  let s : State := s.si.hel.requests.foldl (fun s p => s.pitchEnd p 2 6) s
  s.siHel fun h => { h with jobs := [], provs := [], deferred := [], faults := [], cache := [], groups := h.groups.map fun g => (g.1, { g.2 with busy := none }) }

/-! ### The pattern library (R354–R356) -/

/-- DiesStaged counts the READY dies (R356): a die that has swapped its banks is READY no longer. -/
def State.dieUnready (slot : Nat) (s : State) : State :=
  if s.role ≠ 1 then s
  else
    let l := s.si.ready.filter (· != slot)
    ({ s with si := { s.si with ready := l } } : State).iSet O.DiesStaged l.length

/-- A READY stage becomes the active bank; PitchOrigin is the instant, and deferred runs are dropped (R356; DESIGN CHOICE, log 177). -/
def State.bankSwap (at_ : Nat) (s : State) : State :=
  let v := s.si.hel.stVer
  let s : State := s.siHel fun h => { h with active := h.staged, staged := [], verified := [], badSlots := [], waitVer := none, next := [], deferred := [] }
  (((s.hSet O.LibraryVersion v).hSet O.LibStageStatus 0).hSet O.PitchOrigin at_).dieUnready (s.h O.SlotNumber)

/-- PATTERN_DESCRIPTOR_RECEIVE: the staged bank fills; the last descriptor starts verification (R355). -/
def State.patternDescriptorReceive (slot : Nat) (r : Rec) (last : Bool) (s : State) : State :=
  if s.heladReset then s
  else
  let v := recFld r 192 32
  let s : State := if s.si.hel.stVer = v ∧ s.h O.LibStageStatus = 1 then s
    else s.siHel fun h => { h with staged := [], verified := [], badSlots := [], stVer := v, jobs := h.jobs.filter fun j => j.kind != 6 }
  let s : State := (s.siHel fun h => { h with staged := tset h.staged slot r }).hSet O.LibStageStatus 1
  if last then
    (s.si.hel.staged.foldl (fun s p => s.addJob 6 p.1 0 [(s.h (inst128 O.PatternImageAddr p.1), recFld p.2 224 32)]) (s.hSet O.LibStageStatus 2))
  else s

/-- PATTERN_DESCRIPTOR_RECEIVE. -/
def execPatternDescriptorReceive (slot : Nat) (r : Rec) (last : Bool) : State → Host.Outcome State Fault Refusal :=
  run (State.patternDescriptorReceive slot r last)

/-- DiesStaged counts the READY dies (R356). DESIGN CHOICE: the spec gives no message that carries READY upward; this Tray learns of its own die. -/
def State.dieReady (slot : Nat) (s : State) : State :=
  if s.role ≠ 1 then s
  else
    let l := if s.si.ready.contains slot then s.si.ready else slot :: s.si.ready
    ({ s with si := { s.si with ready := l } } : State).iSet O.DiesStaged l.length

/-- PATTERN_VERIFY: a good image counts towards READY, which swaps at once when an activation waits; a bad one is INSTALL_BAD with an alarm, and runs of its slot find no pattern (R355, R356, R358). DEDUCED (log 142): the slot is INSTALL_BAD until a later stage begins or swaps, because PatternImageAddr of the slot already names the bad image. -/
def State.patternVerify (slot : Nat) (s : State) : State :=
  match s.jobOf 6 slot, tget s.si.hel.staged slot with
  | some j, some d =>
    if !j.over_ then s
    else
      let s : State := s.dropJob j.id
      if j.fail = 0 ∧ keyed128 (recFld d 576 256) (j.bytes 0) = recFld d 320 128 then
        let s : State := s.siHel fun h => { h with verified := slot :: h.verified }
        if s.si.hel.staged.all (fun p => s.si.hel.verified.contains p.1) ∧ s.h O.LibStageStatus = 2 then
          let s : State := s.hSet O.LibStageStatus 3
          let s : State := s.dieReady (s.h O.SlotNumber)
          if s.si.hel.waitVer = some s.si.hel.stVer then s.bankSwap (s.ft .hel) else s
        else s
      else ((s.siHel fun h => { h with badSlots := slot :: h.badSlots }).hSet O.LibStageStatus 4).hAlarm 0x008 2 (slot + s.si.hel.stVer * 2 ^ 32)
  | _, _ => s

/-- PATTERN_VERIFY. -/
def execPatternVerify (slot : Nat) : State → Host.Outcome State Fault Refusal := run (State.patternVerify slot)

/-- LIBRARY_SWAP: at the activation instant a READY Helad swaps; another keeps its bank until it is READY (R356). -/
def State.librarySwap (s : State) : State :=
  match s.dueOf .hel (fun a => a.kind == 6 && a.key == O.LibraryActivate) with
  | some a =>
    let s : State := s.takeAct .hel a
    if s.si.hel.stVer = a.val ∧ s.h O.LibStageStatus = 3 then s.stepping a.stepped (State.bankSwap a.at_)
    else s.siHel fun h => { h with waitVer := some a.val }
  | none => s

/-- LIBRARY_SWAP. -/
def execLibrarySwap : State → Host.Outcome State Fault Refusal := run State.librarySwap

/-- LIBRARY_ACTIVATE: the activation is spread as a timed object write at ActivateInstant (R356). -/
def State.libraryActivateOp (v : Nat) : Op := fun s =>
  let t := s.i O.ActivateInstant
  if !s.leadOk t then (s, no stLead)
  else
    let (h, s) := s.newHandle
    let a : Act := ⟨h, 6, t, 0, 0, 0, O.LibraryActivate, v, true, false, s.ft .icd⟩
    let p := s.queueAct .icd a
    if p.2 then ((p.1).belowSend stControl (actRec a), okH h) else (p.1, no stQueueFull)

/-- LIBRARY_ACTIVATE. -/
def execLibraryActivate (q : Req) (v : Nat) : State → Host.Outcome State Fault Refusal :=
  run (State.reqWrite q O.LibraryActivate v (State.libraryActivateOp v))

/-- A library is held in the management heap; a Tray posts its images to the host and sends its descriptors to the Helads in BULK (R355). -/
def State.holdLibrary (version : Nat) (descs : List Rec) (images : List Nat) (s : State) : State :=
  let s : State := { ((s.iSet O.LibraryStaged version).iSet O.DiesStaged 0) with si := { s.si with libNew := descs.zipIdx.map fun p => (p.2, p.1), ready := [] } }
  if s.role = 1 then descs.foldl (fun s r => s.belowSend stBulk r) (if s.isLead then s.put .host 0x355 (version :: images) else s) else s

/-- The descriptors that begin a library's bytes: whole PatternDescriptors (R354). -/
def libraryDescs (bs : List Nat) : List Rec :=
  ((List.range 256).map fun k => bytesRec ((bs.drop (128 * k)).take 128)).takeWhile fun r => r.length == 8 && rType r == 0xC6

/-! ### Replica compare (R361–R364) -/

/-- The slot in which a die is attached. -/
def State.slotOfDie (s : State) (gid : Nat) : Option Nat := (s.ln.dieGid.find? fun p => p.2 == gid).map (·.1)

/-- A group as the home tells it to a member's Helad: HOME_GID, the partition, the region, its length, the interval, ENABLE and the replica key (R361). -/
def State.helGroup (s : State) (g : Nat) (m : RepMember) (home key : Nat) : RepHel :=
  let cfg := s.i (inst O.ReplicaConfig g)
  ⟨home, bits cfg 0 16, m.base, m.gen, s.i (inst O.RegionLength g), bits cfg 32 16, bit cfg 48, key, 0, none⟩

/-- The CONTROL record that carries a group and its key to one member (R361). DESIGN CHOICE (log 143): the spec names what is sent and gives no layout. -/
def memberRec (g gid : Nat) (r : RepHel) : Rec :=
  mkRec 0x60 7 0 0 0 r.part [(128, 16, 0x0041), (144, 1, 1), (145, 1, 1), (160, 32, g), (192, 32, gid), (224, 32, r.home), (256, 64, r.base), (320, 64, r.gen), (384, 64, r.len), (448, 16, r.every), (464, 1, b2n r.on), (512, 256, r.key)]

/-- Number by which a Helad knows a group: HOME_GID × 256 + GROUP (R361). -/
def groupNum (home g : Nat) : Nat := home * 256 + g % 256

/-- A member Helad takes a group, or its changed settings; its next sweep is that of the next instant s × INTERVAL (R362). -/
def State.groupSet (g : Nat) (r : RepHel) (s : State) : State :=
  let k := groupNum r.home g
  s.siHel fun h => { h with groups := tset h.groups k { r with last := if r.every = 0 then 0 else s.ft .hel / ms r.every, busy := (tget h.groups k).bind (·.busy) } }

/-- A Helad takes a group from the CONTROL record that names its die (R361). -/
def State.groupTake (r : Rec) (s : State) : State :=
  if rType r ≠ 0x60 ∨ recFld r 128 16 ≠ 0x0041 ∨ recFld r 192 32 ≠ s.hGid then s
  else s.groupSet (recFld r 160 32) ⟨recFld r 224 32, rPart r, recFld r 256 64, recFld r 320 64, recFld r 384 64, recFld r 448 16, bit (recFld r 464 1) 0, recFld r 512 256, 0, none⟩

/-- Sends a CONTROL record towards one die: at a Tray on its slot's channel only, above it on the downward links. -/
def State.memberSend (gid : Nat) (r : Rec) (s : State) : State :=
  if s.role = 1 then (match s.slotOfDie gid with | some k => s.downSend k stControl r | none => s) else s.childSend stControl r

/-- The home lead sends a group with its key to the members' Helads, and to nobody else (R361). DESIGN CHOICE (log 143): it sends them again when a setting of the group is written. -/
def State.groupSend (g : Nat) (s : State) : State :=
  match tget s.si.keys g with
  | some key => (tgetD s.si.members g []).foldl (fun s m =>
      if m.gid = s.hGid ∧ s.role = 1 then s.groupSet g (s.helGroup g m s.pairGid key)
      else s.memberSend m.gid (memberRec g m.gid (s.helGroup g m s.pairGid key))) s
  | none => s

/-- REPLICA_DEFINE: the home takes the group's members; its lead generates the key and sends it to the members' Helads (R361). -/
def State.replicaDefineOp (g : Nat) (members : List (Nat × Nat × Nat × Nat)) : Op := fun s =>
  if members.length < 2 ∨ members.length > 64 ∨ (members.any fun m => m.2.2.1 % 64 != 0 || m.2.2.2 % 8 != 0 || m.2.1 ≥ 65536) then (s, no stMalformed)
  else
    let s : State := { s with si := { s.si with members := tset s.si.members g (members.map fun m => ⟨m.1, m.2.1, m.2.2.1, m.2.2.2⟩) } }
    if !s.isLead then ({ s with si := { s.si with keys := tdel s.si.keys g } }, ok)
    else
      let (key, s) := s.fresh 256
      (({ s with si := { s.si with keys := tset s.si.keys g key } } : State).groupSend g, ok)

/-- REPLICA_DEFINE. -/
def execReplicaDefine (q : Req) (g : Nat) (members : List (Nat × Nat × Nat × Nat)) : State → Host.Outcome State Fault Refusal :=
  run (State.descriptor q (State.replicaDefineOp g members))

/-- Sends a ReplicaDigestRecord with the group's number at its home (R363). -/
def State.sweepRecord (g n status gen digest : Nat) (r : RepHel) (s : State) : State :=
  let (stm, s) := s.takeStamp .hel fnRecord
  let (x, s) := s.form .hel 0xC2 5 0 r.part
    [(128, 16, g % 256), (144, 32, n), (176, 8, status), (192, 64, gen), (256, 128, digest), (384, 128, stm), (512, 32, r.home)]
  s.hQueueW stDigest x

/-- REPLICA_SWEEP: at s × INTERVAL the generation word, the region and the generation word again; a sweep still running makes the next SKIPPED (R362). -/
def State.replicaSweep (g : Nat) (s : State) : State :=
  match tget s.si.hel.groups g with
  | none => s
  | some r =>
    let n := if r.every = 0 then 0 else s.ft .hel / ms r.every
    if n ≤ r.last ∨ !r.on then s
    else
      let s : State := s.siHel fun h => { h with groups := tset h.groups g { r with last := n, busy := some (r.busy.getD n) } }
      match r.busy with
      | some _ => s.sweepRecord g n 4 0 0 r
      | none => s.addJob 7 g r.part [(r.gen, 8), (r.base, r.len), (r.gen, 8)]

/-- REPLICA_SWEEP. -/
def execReplicaSweep (g : Nat) : State → Host.Outcome State Fault Refusal := run (State.replicaSweep g)

/-- REPLICA_SWEEP_DONE: OK, UNSTABLE, READ_ERROR or NO_BUDGET (R362, R363). -/
def State.replicaSweepDone (g : Nat) (s : State) : State :=
  match s.jobOf 7 g, tget s.si.hel.groups g with
  | some j, some r =>
    if !j.over_ then s
    else
      let n := r.busy.getD r.last
      let s : State := s.dropJob j.id
      let s : State := s.siHel fun h => { h with groups := tset h.groups g { r with busy := none } }
      let g0 := bytesNat (j.bytes 0)
      let g1 := bytesNat (j.bytes 2)
      if j.fail = 2 then s.sweepRecord g n 3 0 0 r
      else if j.fail ≠ 0 then s.sweepRecord g n 2 g0 0 r
      else if g0 ≠ g1 ∨ g0 % 2 = 1 then s.sweepRecord g n 1 g0 0 r
      else s.sweepRecord g n 0 g0 (keyed128 r.key (j.bytes 1)) r
  | _, _ => s

/-- REPLICA_SWEEP_DONE. -/
def execReplicaSweepDone (g : Nat) : State → Host.Outcome State Fault Refusal := run (State.replicaSweepDone g)

/-- The most frequent value of a list, ties to the highest. -/
def mode_ (l : List Nat) : Nat :=
  l.foldl (fun b x =>
    let cx := (l.filter (· == x)).length
    let cb := (l.filter (· == b)).length
    if cb < cx ∨ (cb = cx ∧ b < x) then x else b) (l.headD 0)

/-- A TaintOrder is applied at the suspect member's Tray, or sent on towards it (R372). Beside what the rule names it carries DETECT, the deadline of the sweep's compare, so that both twins of the Tray form one notice (R32; DESIGN CHOICE, log 169). -/
def State.taintOrderSend (gid group sweep cause streams clean detect : Nat) (k : Nat → Nat → Nat → Nat → Nat → Nat → Nat → State → State) (s : State) : State :=
  if s.role = 1 ∧ (s.ln.dieGid.any fun p => p.2 == gid) then k gid group sweep cause streams clean detect s
  else s.childSend stControl (mkRec 0x60 4 0 0 0 0 [(128, 16, 0x372), (160, 32, group), (192, 32, gid), (256, 64, clean), (320, 32, sweep), (352, 8, cause), (384, 16, streams), (448, 64, detect)])

/-- Whether a notice is of a replica region, which has no unit (R374): UNIT 0xFF is also a unit's number. -/
def Notice.replica (n : Notice) : Bool := n.cause == 1 || n.cause == 2

/-- A notice to be formed (R373). -/
def State.noticeNew (n : Notice) (s : State) : State :=
  { s with si := { s.si with notices := tset s.si.notices s.si.nextNotice n, nextNotice := s.si.nextNotice + 1 } }

/-- Records a detection on a unit for a notice of the Tray (R373): a second one on the unit before formation joins the first. -/
def State.noticeAdd (n : Notice) (s : State) : State :=
  match s.si.notices.find? fun p => p.2.slot == n.slot && p.2.unit == n.unit && p.2.formed.isNone && !p.2.replica with
  | some p => { s with si := { s.si with notices := tset s.si.notices p.1 { p.2 with detect := max p.2.detect n.detect } } }
  | none => s.noticeNew n

/-- A TaintAlertRecord of a die reaches its Tray (R372, R373). -/
def State.taintAlert (slot : Nat) (r : Rec) (s : State) : State :=
  let u := recFld r 128 8
  let ref := recFld (tgetD s.si.lib (recFld r 144 8) []) 128 16
  s.noticeAdd ⟨slot, rSrc r, u, recFld r 136 8, bits (s.copyOf slot (inst128 O.UnitConfig u)) 0 16, ref, recFld r 160 32,
    recFld r 192 64, recFld r 256 64, 0, none, 0, 0⟩

/-- TAINT_ORDER: under policy 1 every unit whose STREAMS meets the member's goes to SUSPECT, but not in observe-only mode (R472); the notice is due (R372, R378). -/
def State.taintOrder (gid group sweep cause streams clean detect : Nat) (s : State) : State :=
  match s.slotOfDie gid with
  | none => s
  | some slot =>
    let s : State := if s.i (O.FencePolicy + cause) = 1 ∧ !s.observeOnly then
        (List.range 256).foldl (fun s u =>
          if (bits (s.copyOf slot (inst128 O.UnitConfig u)) 0 16 &&& streams) = 0 then s
          else
            let v := setBits (s.copyOf slot (fenceKey u)) 0 2 2
            let s : State := s.persistFence slot u v
            if gid = s.hGid then (s.setFence u v 1).fenceRequest u else s.downSend slot stControl (fwdRec 2 0 0 u gid)) s
      else s
    s.noticeNew ⟨slot, gid, 0xFF, cause, streams, group, sweep, clean, detect, 0, none, 0, 0⟩

/-- TAINT_ORDER. -/
def execTaintOrder (gid group sweep cause streams clean detect : Nat) : State → Host.Outcome State Fault Refusal :=
  run (State.taintOrder gid group sweep cause streams clean detect)

/-- The compare of a sweep over the records held (R364). -/
def State.compareSweep (g n : Nat) (s : State) : State :=
  let key := g * 2 ^ 32 + n
  let recs := tgetD s.si.sets key []
  let ms_ := tgetD s.si.members g []
  let oks := recs.filter fun r => recFld r 176 8 == 0
  let gen := mode_ (oks.map fun r => recFld r 192 64)
  let cmp := oks.filter fun r => recFld r 192 64 == gen
  let dig := mode_ (cmp.map fun r => recFld r 256 128)
  let agree := cmp.filter fun r => recFld r 256 128 == dig
  let outcome := if cmp.length < 2 then 3 else if agree.length = cmp.length then 0 else if cmp.length < 2 * agree.length then 1 else 2
  let major := outcome == 0 || outcome == 1
  let suspects := if outcome = 1 then cmp.filter fun r => recFld r 256 128 != dig else if outcome = 2 then cmp else []
  let s : State := { s with si := { s.si with sets := tdel s.si.sets key, done := (key :: s.si.done).take 1024 } }
  let orders := suspects.map fun r => (rSrc r, tgetD s.si.clean (g * 2 ^ 32 + rSrc r) 0, ((ms_.find? fun m => m.gid == rSrc r).map (·.streams)).getD 0)
  let s : State := if major then
      { s with si := { s.si with clean := agree.foldl (fun t r => tset t (g * 2 ^ 32 + rSrc r) (n * bits (s.i (inst O.ReplicaConfig g)) 32 16 * 1000000)) s.si.clean } }
    else s
  let s : State := s.iSet (inst O.LastOutcome g) outcome
  let (r, s) := s.form .icd 0xC3 4 0 (bits (s.i (inst O.ReplicaConfig g)) 0 16)
    [(128, 16, g), (144, 32, n), (176, 8, outcome), (192, 16, ms_.length), (208, 16, cmp.length), (224, 16, if major then agree.length else 0),
     (240, 64, gen), (304, 128, if major then dig else 0)]
  let s : State := if s.isLead then (s.occur srcPitch none r).xMsg 0x364 (g :: n :: recs.map rSrc) else s
  let s : State := if outcome = 0 then s else s.auditAppend r
  orders.foldl (fun s o => s.taintOrderSend o.1 g n (if outcome = 1 then 1 else 2) o.2.2 o.2.1 ((n + 2) * bits (s.i (inst O.ReplicaConfig g)) 32 16 * 1000000) State.taintOrder) s

/-- REPLICA_COMPARE: when every member's record has arrived. -/
def State.replicaCompare (g n : Nat) (s : State) : State :=
  let recs := tgetD s.si.sets (g * 2 ^ 32 + n) []
  let ms_ := tgetD s.si.members g []
  if !ms_.isEmpty ∧ (ms_.all fun m => recs.any fun r => rSrc r == m.gid) ∧ !s.si.done.contains (g * 2 ^ 32 + n) then s.compareSweep g n else s

/-- REPLICA_COMPARE. -/
def execReplicaCompare (g n : Nat) : State → Host.Outcome State Fault Refusal := run (State.replicaCompare g n)

/-- REPLICA_COMPARE_DEADLINE: at (s + 2) × INTERVAL missing members are ABSENT. A shadow takes the record set that the lead used, where it has been told: `agreed` names its sources (R26, R364). -/
def State.replicaCompareDeadline (g n : Nat) (agreed : Option (List Nat)) (s : State) : State :=
  let s : State := match agreed with
    | some l => if s.isLead then s else { s with si := { s.si with sets := tset s.si.sets (g * 2 ^ 32 + n) ((tgetD s.si.sets (g * 2 ^ 32 + n) []).filter fun r => l.contains (rSrc r)) } }
    | none => s
  let int := ms (bits (s.i (inst O.ReplicaConfig g)) 32 16)
  if (tgetD s.si.members g []).isEmpty ∨ s.si.done.contains (g * 2 ^ 32 + n) ∨ int = 0 ∨ s.ft .icd < (n + 2) * int then s else s.compareSweep g n

/-- REPLICA_COMPARE_DEADLINE. -/
def execReplicaCompareDeadline (g : Nat) (n : SweepEnd) : State → Host.Outcome State Fault Refusal := run (State.replicaCompareDeadline g n.num n.agreed)

/-- A ReplicaDigestRecord reaches an Icdon IX40: the home keeps it, others pass it upward; after the compare it is discarded (R363, R364). -/
def State.replicaArrive (r : Rec) (s : State) : State :=
  if recFld r 512 32 = s.pairGid then
    let key := recFld r 128 16 * 2 ^ 32 + recFld r 144 32
    if s.si.done.contains key then s
    else { s with si := { s.si with sets := tset s.si.sets key (tgetD s.si.sets key [] ++ [r]) } }
  else s.upSend stDigest r

/-! ### Taint notices (R373–R375) -/

/-- Whether a CommandCounterRecord lies in a notice's range (R373). -/
def Notice.holds (n : Notice) (r : Rec) : Bool :=
  rType r == 0x30 && bit n.streams (recFld r 448 4) && decide (n.clean ≤ recFld r 336 64) && decide (recFld r 208 64 ≤ n.detect)

/-- Destination sums of one command: (kind × 256 + index, bytes), and whether its set names a destination counter (R373). -/
def State.destsOf (s : State) (slot : Nat) (r : Rec) : List (Nat × Nat) :=
  let list := (tget (tgetD s.ct.copySets (slot * 8 + recFld r 452 3) []) (recFld r 472 16)).getD []
  (list.zipIdx.take (recFld r 456 10)).filterMap fun p =>
    let c := s.copyOf slot (ccfg p.1)
    let port := bits c 0 8
    if bit c 18 then
      (if 16 ≤ port ∧ port ≤ 47 then some (port - 16, recFld r (512 + 64 * p.2) 64)
       else if 8 ≤ port ∧ port ≤ 15 then some (256 + port - 8, recFld r (512 + 64 * p.2) 64) else none)
    else none

/-- An FtStamp of an instant in ns. -/
def State.nsStamp (s : State) (t : Nat) (hold : Bool) : Nat := packFields [(16, 64, t), (80, 1, b2n hold), (88, 16, s.i O.FtSegment)]

/-- The notice of one partition (R374); RADIO of another slot's die is a free value (UNVERIFIED, log 180). -/
def State.noticeRec (n : Notice) (part : Nat) (cmds : List Rec) (follow : Bool) (s : State) : Rec × State :=
  let sts := (List.range 16).filter fun k => cmds.any fun r => recFld r 448 4 == k
  let streamE := sts.flatMap fun k =>
    let l := cmds.filter fun r => recFld r 448 4 == k
    let f := l.foldl (fun b r => if recFld r 192 80 < recFld b 192 80 then r else b) (l.headD [])
    let g := l.foldl (fun b r => if recFld b 192 80 < recFld r 192 80 then r else b) (l.headD [])
    [recFld f 128 64 + recFld g 128 64 * 2 ^ 64, l.length + k * 2 ^ 32]
  let ds := cmds.flatMap (s.destsOf n.slot)
  let sums := ((List.range 512).filterMap fun k => let t := lsum ((ds.filter fun d => d.1 == k).map (·.2)); if t = 0 then none else some (k, t)).take 40
  let destE := sums.map fun d => d.1 / 256 + (d.1 % 256) * 2 ^ 8 + (d.2 % 2 ^ 64) * 2 ^ 64
  let provs := sortBy (fun r => recFld r 384 80 * 2 ^ 64 + recFld r 128 64)
    (s.auditProvs.filter fun r => rSrc r == n.die && cmds.any fun c => recFld c 128 64 == recFld r 128 64 && recFld c 448 4 == recFld r 192 4)
  let shown := provs.take 64
  let provE := shown.flatMap fun r => splitUnits 4 (packFields [(0, 64, recFld r 128 64), (64, 4, recFld r 192 4), (128, 384, recFld r 2048 384)])
  let unknown := cmds.any fun r =>
    let list := (tget (tgetD s.ct.copySets (n.slot * 8 + recFld r 452 3) []) (recFld r 472 16)).getD []
    !list.any fun c => let w := s.copyOf n.slot (ccfg c); bit w 18 && ((16 ≤ bits w 0 8 && bits w 0 8 ≤ 47) || (8 ≤ bits w 0 8 && bits w 0 8 ≤ 15))
  let newest := s.allChunks.flatMap fun c => if c.slot = n.slot then c.recs.map (·.at_) else []
  let incomplete := s.counterGap n.slot n.clean (s.ft .icd / 65536) || (!newest.isEmpty && newest.all fun t => n.clean < t / 65536)
  let noProv := cmds.any fun c => s.copyOf n.slot (O.ProvTableBase + recFld c 448 4) != 0 &&
    !provs.any fun r => recFld c 128 64 == recFld r 128 64 && recFld c 448 4 == recFld r 192 4
  let hold := (s.slotRecs n.slot).any fun e =>
    if n.replica then rType e.rec_ == 0xC2 && recFld e.rec_ 128 16 == n.ref && recFld e.rec_ 144 32 == n.run && recFld e.rec_ 464 1 == 1
    else rType e.rec_ == 0xC0 && recFld e.rec_ 128 8 == n.unit && recFld e.rec_ 224 32 == n.run && recFld e.rec_ 154 1 == 1
  let radio := !n.replica && (if n.die = s.hGid then s.radioUnit n.unit else Config.radioUnit n.die n.unit)
  let fl := b2n unknown + 2 * b2n incomplete + 4 * b2n noProv + 8 * b2n follow + 16 * b2n hold + 32 * b2n radio +
    64 * b2n (!n.replica && bits (tgetD s.si.perDie (n.slot * 256 + n.unit) 0) 0 2 != 0) + 128 * b2n (n.streams == 0)
  s.formTail 0xC4 5 part
    [(128, 32, n.die), (160, 8, n.unit), (168, 8, n.cause), (176, 16, fl), (192, 32, n.id), (224, 16, n.ref), (256, 128, s.nsStamp n.clean hold),
     (384, 128, s.nsStamp n.detect hold), (512, 16, sts.length), (528, 8, sums.length), (536, 8, shown.length), (544, 32, provs.length - shown.length),
     (576, 32, cmds.length)]
    (streamE ++ destE ++ provE)

/-- Posts the notices of a range, one per affected partition (R373, R375). DESIGN CHOICE (log 162): of a notice's two times DETECT_FT is its trigger time (R211). -/
def State.postNotices (n : Notice) (cmds : List Rec) (follow : Bool) (s : State) : State :=
  let parts := if n.streams = 0 ∧ !follow then [0] else sortBy id ((cmds.map rPart).eraseDups)
  parts.foldl (fun s p =>
    let (r, s) := s.noticeRec n p (cmds.filter fun c => rPart c == p) follow
    let s : State := s.auditAppend r
    let s : State := if s.isLead then
        let s : State := (((s.iCount O.TaintNotices).occur srcPitch none r).hostPost r).mgmtPost r
        s.vfPost p (recSet (recSet r 256 128 (coarsenStamp (recFld r 256 128))) 384 128 (coarsenStamp (recFld r 384 128)))
      else s
    s.fireRules 6 (fun _ => true) none (rSrc r) (rSeq r) (recFld r 384 128) 0) s

/-- The records of a slot in the ring and, beside them, those that only staging still holds (R373). -/
def State.slotHeld (s : State) (slot : Nat) : List Rec :=
  let l := (s.slotRecs slot).map (·.rec_)
  l ++ ((s.gr.staging.filter fun e => e.slot == slot).map (·.rec_)).filter fun r => !l.contains r

/-- TAINT_NOTICE_FORM: at DETECT + TaintSettle from the ring, staging, the index and the audit cask (R373). -/
def State.taintNoticeForm (k : Nat) (s : State) : State :=
  match tget s.si.notices k with
  | some n =>
    let now := s.ft .icd
    if n.formed.isSome ∨ now < ns n.detect + ms (s.i O.TaintSettle) then s
    else
      let n := { n with id := s.si.noticeId, formed := some now, seen := s.gr.nextPos, next := now + ms (s.i O.TaintSettle) }
      let s : State := { s with si := { s.si with noticeId := (s.si.noticeId + 1) % 2 ^ 32, notices := tset s.si.notices k n } }
      s.postNotices n ((s.slotHeld n.slot).filter n.holds) false
  | none => s

/-- TAINT_NOTICE_FORM. -/
def execTaintNoticeForm (n : Nat) : State → Host.Outcome State Fault Refusal := run (State.taintNoticeForm n)

/-- TAINT_FOLLOW_UP: matching records that came after formation and within 1 s, at multiples of TaintSettle (R373). -/
def State.taintFollowUp (k : Nat) (s : State) : State :=
  match tget s.si.notices k with
  | some n =>
    match n.formed with
    | some f =>
      if s.ft .icd < n.next then s
      else
        let late := (s.slotRecs n.slot).filter fun e => decide (n.seen ≤ e.pos ∧ e.at_ ≤ f + ms 1000) && n.holds e.rec_
        let n' := { n with seen := s.gr.nextPos, next := n.next + ms (s.i O.TaintSettle) }
        let s : State := { s with si := { s.si with notices := if f + ms 1000 < s.ft .icd then tdel s.si.notices k else tset s.si.notices k n' } }
        if late.isEmpty then s else s.postNotices n' (late.map (·.rec_)) true
    | none => s
  | none => s

/-- TAINT_FOLLOW_UP. -/
def execTaintFollowUp (n : Nat) : State → Host.Outcome State Fault Refusal := run (State.taintFollowUp n)

/-! ### The host-visible window's latches (R522) -/

/-- Word `k` of 32 bits. -/
abbrev word32 (v k : Nat) : Nat := bits v (32 * k) 32

/-- The 32-bit word of the window at an aligned offset (R522). -/
def State.hvWord (s : State) (off : Nat) : Nat :=
  if off = 0x000 then s.hGid
  else if off = 0x004 then packFields [(0, 8, s.h O.SlotNumber), (8, 8, s.h O.LaneState), (16, 8, s.h O.SelectedChannel), (24, 1, s.h O.SpareActive)]
  else if off = 0x008 then packFields [(0, 8, s.h O.FtState), (8, 8, s.h O.RtState), (16, 1, s.pinOf 0x400)]
  else if 0x010 ≤ off ∧ off < 0x020 then word32 s.mo.hvFt (off / 4 - 4)
  else if 0x020 ≤ off ∧ off < 0x028 then word32 s.mo.hvRt (off / 4 - 8)
  else if 0x040 ≤ off ∧ off < 0x060 then word32 s.bd.fReq (off / 4 - 16)
  else if 0x060 ≤ off ∧ off < 0x080 then word32 s.bd.fAck (off / 4 - 24)
  else if 0x080 ≤ off ∧ off < 0x08C then word32 s.mo.hvOh (off / 4 - 32)
  else if 0x0A0 ≤ off ∧ off < 0x0A8 then word32 s.bd.hReq (off / 4 - 40)
  else if off = 0x0C0 then packFields [(0, 8, s.si.hel.requests.length), (8, 8, s.h O.LibStageStatus)]
  else if off = 0x0C4 then s.h O.LibraryVersion
  else if 0x100 ≤ off ∧ off < 0x200 then
    packFields ((List.range 4).map fun k =>
      let e := s.h (fenceKey (off - 0x100 + k))
      (8 * k, 3, bits e 0 2 + 4 * b2n (bit e 56)))
  else 0

/-- A read of the window (R97, R522): only an aligned 32-bit access is served, not while HAO_RST_N is asserted; PitchStatus stands in COUNT and wakes it. -/
def State.hvRead (off : Nat) (s : State) : State :=
  if off % 4 ≠ 0 ∨ 0x1000 ≤ off ∨ s.bd.haoReset then s
  else (if off = 0x0C0 then s.wake 2 else s).put .reply 0x522 [s.hvWord off]

/-- HV_FTNOW_LATCH: FtNow and RtNow are latched; the read at 0x010 answers. The opcode table has no row for the window's other reads, which change no state but the wake; `hvWord` holds what they return (log 112). -/
def State.hvFtnowLatch (s : State) : State :=
  if s.bd.haoReset then s
  else ({ s with mo := { s.mo with hvFt := s.stamp .hel, hvRt := s.rtWord (s.ft .hel) } }).hvRead 0x010

/-- HV_FTNOW_LATCH. -/
def execHvFtnowLatch : State → Host.Outcome State Fault Refusal := run State.hvFtnowLatch

/-- HV_HOURS_LATCH: OhSeconds and PowerCycles are latched; the read at 0x080 answers. -/
def State.hvHoursLatch (s : State) : State :=
  if s.bd.haoReset then s
  else ({ s with mo := { s.mo with hvOh := packFields [(0, 64, s.h O.OhSeconds), (64, 32, s.h O.PowerCycles)] } }).hvRead 0x080

/-- HV_HOURS_LATCH. -/
def execHvHoursLatch : State → Host.Outcome State Fault Refusal := run State.hvHoursLatch

end Sys2Proof.Machine
end

