-- ==== Sys2Proof/Machine/Kiln.lean ====
section
/-! DEFINITION. Cuts, snapshot chains, halts and cut summaries (R90–R93, R382–R403). -/

namespace Sys2Proof.Machine

/-! ### Halts at the Helad (R90, R396) -/

/-- Pin of a group's HALT_REQ. -/
abbrev haltPin (g : Nat) : Nat := 0x410 + g

/-- Queues a record of a cut in CONTROL: one formed while LANE may not be woken by AO waits (R74). -/
def State.cutQueue (st : Nat) (r : Rec) (s : State) : State := if s.dozing then s.hQueue st r else s.hQueueW st r

/-- A CutHaltRecord (R396): EVENT 0 HALTED, 1 RELEASED, 2 REVOKED. -/
def State.haltRecord (c : CutHalt) (event : Nat) (s : State) : State :=
  let (stm, s) := s.takeStamp .hel fnRecord
  let (r, s) := s.form .hel 0xD3 4 0 0
    [(128, 32, c.cut), (160, 8, event), (192, 128, stm), (320, 64, s.bd.hAck), (384, 64, s.bd.hLate &&& c.groups), (448, 64, c.revoked)]
  s.cutQueue stControl r

/-- Replaces a cut's halt. -/
def State.setHalt (c : CutHalt) (s : State) : State :=
  { s with ki := { s.ki with hel := { s.ki.hel with halts := s.ki.hel.halts.map fun d => if d.cut = c.cut then c else d } } }

/-- Sends HALTED once every requested group has acknowledged, timed out or been revoked, and RELEASED once every group has completed step 5. -/
def State.haltCheck (s : State) : State :=
  s.ki.hel.halts.foldl (fun s c =>
    let s : State := if !c.halted && (setBitsOf 64 c.groups).all (fun g => bit s.bd.hAck g || bit s.bd.hLate g || bit c.revoked g) then
        (s.setHalt { c with halted := true }).haltRecord c 0 else s
    if c.freeing && (setBitsOf 64 c.groups).all (fun g => !bit s.bd.hAck g && !bit s.bd.hReq g) then
      ({ s with ki := { s.ki with hel := { s.ki.hel with halts := s.ki.hel.halts.filter fun d => d.cut != c.cut } } }).haltRecord c 1
    else s) s

/-- Drops HALT_REQ of groups that no other cut still halts. -/
def State.haltDrop (n groups : Nat) (s : State) : State :=
  let others := (s.ki.hel.halts.filter fun d => d.cut != n && !d.freeing).foldl (fun m d => m ||| d.groups) 0
  (setBitsOf 64 groups).foldl (fun s g =>
    if bit s.bd.hReq g && !bit others g then ({ s with bd := { s.bd with hReq := setBit s.bd.hReq g false } }).pin (haltPin g) 0 else s) s

/-- HALT_ACK_RISE. -/
def State.haltAckRise (g : Nat) (s : State) : State := ({ s with bd := { s.bd with hAck := setBit s.bd.hAck g true } }).haltCheck

/-- HALT_ACK_RISE: a halted group acknowledges (R396). -/
def execHaltAckRise (g : Nat) : State → Host.Outcome State Fault Refusal := run (State.haltAckRise g)

/-- HALT_ACK_FALL: step 5 of a group is complete (R396); deferred pitch runs of its units are tested again (R397). -/
def State.haltAckFall (g : Nat) (s : State) : State :=
  ({ s with bd := { s.bd with hAck := setBit s.bd.hAck g false } }).haltCheck.pitchRetest

/-- HALT_ACK_FALL. -/
def execHaltAckFall (g : Nat) : State → Host.Outcome State Fault Refusal := run (State.haltAckFall g)

/-- HALT_ACK_TIMEOUT: HALT_TIMEOUT is recorded and the request held (R90). -/
def State.haltAckTimeout (g : Nat) (s : State) : State :=
  if bit s.bd.hReq g && !bit s.bd.hAck g && !bit s.bd.hLate g && decide (tgetD s.bd.hAt g 0 + us (s.h O.HaltAckLimit) ≤ s.ft .hel) then
    (({ s with bd := { s.bd with hLate := setBit s.bd.hLate g true } }).hAlarm 0x004 2 g).haltCheck
  else s

/-- HALT_ACK_TIMEOUT. -/
def execHaltAckTimeout (g : Nat) : State → Host.Outcome State Fault Refusal := run (State.haltAckTimeout g)

/-- RADIO_GROUP_RISE: a halt of the group is dropped at once and HALT_REVOKED recorded (R90, R396). -/
def State.radioGroupRise (g : Nat) (s : State) : State :=
  let s : State := { s with bd := { s.bd with radio := setBit s.bd.radio g true } }
  if bit s.bd.hReq g then
    let s : State := (({ s with bd := { s.bd with hReq := setBit s.bd.hReq g false } }).pin (haltPin g) 0).hAlarm 0x005 0 g
    let s : State := s.ki.hel.halts.foldl (fun s c =>
      if bit c.groups g ∧ !c.freeing then
        let c := { c with revoked := setBit c.revoked g true }
        (s.setHalt c).haltRecord c 2
      else s) s
    s.haltCheck
  else s

/-- RADIO_GROUP_RISE. -/
def execRadioGroupRise (g : Nat) : State → Host.Outcome State Fault Refusal := run (State.radioGroupRise g)

/-- CUT_HALT_HOLD_END: at X + HALT_HOLD_US, or at a release, every HALT_REQ of the cut drops (R396). -/
def State.cutHaltHoldEnd (n : Nat) (s : State) : State :=
  match s.ki.hel.halts.find? fun c => c.cut == n && !c.freeing with
  | some c => if s.ft .hel < c.end_ then s else ((s.setHalt { c with freeing := true }).haltDrop n c.groups).haltCheck
  | none => s

/-- CUT_HALT_HOLD_END. -/
def execCutHaltHoldEnd (n : Nat) : State → Host.Outcome State Fault Refusal := run (State.cutHaltHoldEnd n)

/-! ### The latch at a Helad (R386–R388, R398) -/

/-- Fields of a pending cut: KIND, HALT, CHAINS (CutArgument [31:0] in `a`), hold in `b`, GROUP_MASK in `c`, scope in `key`, CutSettle in `val`. -/
abbrev cutKindOf (a : Act) : Nat := bits a.a 0 2
/-- HALT of a pending cut. -/
abbrev cutHaltOf (a : Act) : Bool := bit a.a 2

/-- Whether a chain is selected by a cut (R382). -/
def State.chainWanted (a : Act) (c : Nat) (s : State) : Bool :=
  let ch := bit (bits a.a 8 16) c
  let hang := bit (s.h O.HangChains) c
  if cutKindOf a = 1 then ch && !hang else if cutKindOf a = 2 then ch || hang else false

/-- CHAIN_STATUS of a chain at a latch (R387). -/
def State.chainStatus (a : Act) (c : Nat) (s : State) : Nat :=
  if !s.chainWanted a c then 0
  else if s.h (O.SnapChainLength + c) = 0 then 3
  else if !s.awake 3 then 4
  else if (tget s.ki.hel.shifts c).isSome then 2 else 1

/-- The HeladHangRecord (R398). -/
def State.hangRecord (n : Nat) (s : State) : Rec × State :=
  let opens := sortBy (fun o => o.stream * 2 ^ 64 + bits o.start 16 64) s.ct.opens
  let k := opens.length
  let (r, s) := s.form .hel 0xD2 (5 + 2 * k) 0 0
    [(128, 32, n), (160, 16, k), (176, 8, (s.si.hel.requests.filter fun p => p.phase == 0).length), (184, 8, s.bd.reads.length + s.bd.retired.length),
     (256, 256, s.bd.fReq ^^^ s.bd.fAck), (512, 64, s.bd.hReq ^^^ s.bd.hAck)]
  (r.take 5 ++ opens.flatMap fun o => splitUnits 2 (packFields [(0, 64, o.cmdid), (64, 64, bits o.start 16 64), (128, 4, o.stream), (144, 16, o.part)]), s)

/-- A Helad latches a cut (R386): the cut number and the markers, in a retune outage on the first new flits, so that what waits leaves behind the cut (R176; DEDUCED, log 161), the capture pulse, the halts, its own state for a HANG cut, the CutLatchRecord. -/
def State.heladLatch (a : Act) (early : Bool) (s : State) : State :=
  let s : State := s.takeAct .hel a
  let s : State := (s.hSet O.HeladCutNumber a.handle)
  let retune := s.h O.LaneState == 4
  let s : State := { s with ln := { s.ln with mark := s.ln.mark ++ (List.range 12).map fun t => (t + 1, a.handle)
                                              q := if retune then s.ln.q.map fun p => (p.1, p.2.map fun e => (a.handle, e.2)) else s.ln.q } }
  let s : State := if retune then { s with tr := { s.tr with closed := s.tr.closed.map fun b => (b.1, b.2.1, b.2.2.1, a.handle) } } else s
  let asleep := !s.awake 3
  let status := (List.range 16).map fun c => s.chainStatus a c
  let taken := (List.range 16).filter fun c => status.getD c 0 == 1
  let snap := lsum (taken.map fun c => s.h (O.SnapChainLength + c) / 8)
  let hang := s.hangRecord a.handle
  let stm := s.stampOf .hel (s.ft .hel) a.stepped
  let s : State := if taken.isEmpty then s else
    { s with ki := { s.ki with hel := { s.ki.hel with shifts := taken.foldl (fun t c => tset t c ⟨a.handle, s.h (O.SnapChainLength + c) / 8, 0⟩) s.ki.hel.shifts } } }.put
      .pin 0x600 [(taken.map fun c => 2 ^ c).sum, s.h O.SnapPulseWidth]
  let want := if cutHaltOf a && !asleep then a.c else 0
  let skip := want &&& s.bd.radio
  let groups := want ^^^ skip
  let s : State := (setBitsOf 64 groups).foldl (fun s g =>
    ({ s with bd := { s.bd with hReq := setBit s.bd.hReq g true, hAt := tset s.bd.hAt g (s.ft .hel), hLate := setBit s.bd.hLate g false } }).pin (haltPin g) 1) s
  let hold := if a.b = 0 then 10000000 else min a.b 10000000
  let s : State := if cutHaltOf a && !asleep then
      { s with ki := { s.ki with hel := { s.ki.hel with halts := s.ki.hel.halts ++ [⟨a.handle, groups, 0, a.at_ + us hold, false, false⟩] } } }
    else s
  let s : State := if cutKindOf a = 2 then ({ s with hSeq := hang.2.hSeq }).cutQueue stEvent hang.1 else s
  let (r, s) := s.form .hel 0xD0 7 0 0
    ([(128, 32, a.handle), (160, 3, a.a), (168, 1, b2n early), (169, 1, b2n s.dozing), (170, 1, bits stm 80 1), (171, 1, b2n a.stepped), (172, 1, b2n asleep),
      (192, 128, stm), (384, 64, groups), (448, 64, skip), (512, 64, snap)] ++
     (status.zipIdx.map fun p => (320 + 4 * p.2, 4, p.1)) ++ ((List.range 16).map fun c => (576 + 16 * c, 16, s.h (O.SnapLatency + c))))
  (s.cutQueue stControl r).haltCheck

/-- CUT_LATCH: the launch of a pending cut at a Helad (R28, R386). -/
def State.cutLatch (s : State) : State :=
  match s.dueOf .hel (fun a => a.kind == 0) with
  | some a =>
    let held := s.jitterHold (a.handle * 16)
    if held.1 then held.2 else held.2.heladLatch a false
  | none => s

/-- CUT_LATCH. -/
def execCutLatch : State → Host.Outcome State Fault Refusal := run State.cutLatch

/-- Bytes of snapshot records that wait in EVENT: the snapshot buffer (R388). -/
def State.snapFill (s : State) : Nat := lsum ((s.laneQ stEvent).map fun p => if rType p.2 = 0xD1 then recFld p.2 176 16 else 0)

/-- Keeps SnapBufferFill. -/
def State.snapSync (s : State) : State := s.hSet O.SnapBufferFill s.snapFill

/-- Queues the bytes a chain has shifted, in records of at most 4,064 bytes; `fin` marks the last one, with its DFLAGS. -/
def State.shiftBytes : Nat → Nat → Nat → Nat → List Nat → Option Nat → State → State
  | 0, _, _, _, _, _, s => s
  | fuel + 1, cut, c, off, bs, fin, s =>
    if bs.isEmpty ∧ fin.isNone then s
    else
      let now := bs.take 4064
      let rest := bs.drop 4064
      let last := rest.isEmpty
      let fl := match fin with | some f => if last then f + 1 else 0 | none => 0
      let n := now.length
      let (r, s) := s.form .hel 0xD1 (2 + (n + 15) / 16) 0 0
        [(128, 32, cut), (160, 4, c), (168, 8, fl), (176, 16, n), (192, 32, off), (256, 8 * n, bytesNat now)]
      let s : State := s.hQueueW stEvent r
      if last then s else s.shiftBytes fuel cut c (off + n) rest fin

/-- A chain's new bytes enter the buffer, up to its length. -/
def State.shiftTake (c : Nat) (bs : List Nat) (fin : Option Nat) (s : State) : State :=
  match tget s.ki.hel.shifts c with
  | none => s
  | some h =>
    let take := bs.take (h.len - h.off)
    let s : State := s.shiftBytes 200 h.cut c h.off take fin
    let h' := { h with off := h.off + take.length }
    { s with ki := { s.ki with hel := { s.ki.hel with shifts := if fin.isSome then tdel s.ki.hel.shifts c else tset s.ki.hel.shifts c h' } } }

/-- SNAPSHOT_SHIFT_RESUME: chains shift while the 64 KiB buffer has room (R388). -/
def State.snapshotShiftResume (data : List (Nat × List Nat)) (s : State) : State :=
  (data.foldl (fun s d => let room := 65536 - s.snapFill; s.shiftTake d.1 (d.2.take room) none) s).snapSync

/-- SNAPSHOT_SHIFT_RESUME. -/
def execSnapshotShiftResume (data : List (Nat × List Nat)) : State → Host.Outcome State Fault Refusal := run (State.snapshotShiftResume data)

/-- How a chain ends (R388, R403): CHAIN_RESET when a host reset aborted it, LAST when its last byte has shifted; a chain whose bytes have not all found room goes on shifting. -/
def State.shiftEnd (c : Nat) (bs : List Nat) (reset : Bool) (s : State) : Option Nat :=
  if reset then some 2
  else match tget s.ki.hel.shifts c with
    | some h => if h.len ≤ h.off + bs.length then some 0 else none
    | none => none

/-- SNAPSHOT_SHIFT_COMPLETE: the remaining bytes, as far as the buffer has room; the last record of each chain carries LAST, and CHAIN_RESET for a chain a host reset ended (R388, R403). -/
def State.snapshotShiftComplete (data : List (Nat × List Nat)) (reset : Nat) (s : State) : State :=
  let all := s.ki.hel.shifts.map (·.1)
  (all.foldl (fun s c =>
    let bs := ((data.find? fun d => d.1 == c).map (·.2) |>.getD []).take (65536 - s.snapFill)
    s.shiftTake c bs (s.shiftEnd c bs (bit reset c))) s).snapSync

/-- SNAPSHOT_SHIFT_COMPLETE. -/
def execSnapshotShiftComplete (data : List (Nat × List Nat)) (reset : Nat) : State → Host.Outcome State Fault Refusal :=
  run (State.snapshotShiftComplete data reset)

/-- Whether any chain shifts or buffer content waits. -/
def State.kilnShifting (s : State) : Bool := !s.ki.hel.shifts.isEmpty || s.snapFill != 0

/-- HMAIN_RST_N: each unfinished chain ends with ABORTED; halts stay in AO (R403). -/
def State.kilnHeladReset (s : State) : State :=
  (s.ki.hel.shifts.map (·.1)).foldl (fun s c => s.shiftTake c [] (some 4)) (s.hSet O.SnapBufferFill 0)

/-! ### Cuts at the Icdon IX40 (R383–R385, R389–R393) -/

/-- Whether a flit's CUT_ID lies after cut `c` (R389). -/
def postCut (cutId c : Nat) : Bool := (cutId + 256 - c % 256) % 256 < 128

/-- Replaces a cut. -/
def State.setCut (c : CutRec) (s : State) : State :=
  { s with ki := { s.ki with cuts := s.ki.cuts.map fun d => if d.number = c.number then c else d } }

/-- An Icdon IX40 latches a cut (R392): its markers, RX_SEQ of every receiver, the slots that doze or have failed; the lead sends RX_SEQ to the shadow (R393). -/
def State.icdonLatch (a : Act) (early : Bool) (s : State) : State :=
  let s : State := s.takeAct .icd a
  let c := (s.ki.cuts.find? fun c => c.number == a.handle).getD
    ⟨a.handle, a.at_, a.a, a.key, a.val, false, none, false, false, [], [], [], [], [], [], [], []⟩
  let st := fun (p : Nat → Bool) => (List.range 64).filter fun k => p (s.i (O.SlotState + k))
  let rx := (s.ln.rx.filter fun p => s.linkInScope c.scope (p.1 / 16)).filterMap fun p => p.2.expect.map fun e => (p.1, (e + 2 ^ 28 - 1) % 2 ^ 28)
  let c := { c with latch := some (s.stampOf .icd (s.ft .icd) a.stepped), early := early, stepped := a.stepped, dozing := st (· == 3),
                    failed := st fun x => x == 0 || x == 5 || x == 6, rx := rx }
  let s : State := { s with ki := { s.ki with cuts := (s.ki.cuts.filter fun d => d.number != c.number) ++ [c], number := a.handle, mark := s.ki.mark ++ ((s.pk.use.map (·.1)).flatMap fun p => (none :: (s.downLinks.filter fun d => s.linkPort d == some p).map some).flatMap fun l => (List.range 16).map fun t => (flitKey p l t, a.handle)) },
                            ln := { s.ln with dmark := s.ln.dmark ++ (List.range 64).flatMap fun k => [stControl, stTime, stBulk].map fun t => (k * 16 + t, a.handle) } }
  if s.isLead then s.xMsg 0x393 (a.handle :: rx.flatMap fun p => [p.1, p.2]) else s

/-- ICDON_CUT_LATCH: the launch at an Icdon IX40 (R392). -/
def State.icdonCutLatch (s : State) : State :=
  match s.dueOf .icd (fun a => a.kind == 0) with
  | some a => s.icdonLatch a false
  | none => s

/-- ICDON_CUT_LATCH. -/
def execIcdonCutLatch : State → Host.Outcome State Fault Refusal := run State.icdonCutLatch

/-- A post-c flit from a transmitter in scope makes a part latch at once, with EARLY, every cut c that it holds and that the flit lies after, in the order of their instants (R391). -/
def State.earlyLatch (sd : Side) (link cutId : Nat) (s : State) : State :=
  (sortBy (·.at_) ((s.acts sd).filter fun a => a.kind == 0 && postCut cutId a.handle && s.linkInScope a.key link)).foldl
    (fun s a => match sd with | .hel => s.heladLatch a true | .icd => s.icdonLatch a true) s

/-- A flit taken from below in scope after the latch whose CUT_ID is pre-c and whose SEQUENCE is above RX_SEQ is in flight (R392, R400). -/
def State.kilnFlit (link st seq cutId : Nat) (s : State) : State :=
  { s with ki := { s.ki with cuts := s.ki.cuts.map fun c => if decide (link < 192) && s.linkInScope c.scope link && c.latch.isSome && !s.ki.formed.contains c.number && !postCut cutId c.number then
        (match tget c.rx (link * 16 + st) with
         | some m => if (seq + 2 ^ 28 - m) % 2 ^ 28 < 2 ^ 27 ∧ seq ≠ m then { c with flight := tset c.flight link (tgetD c.flight link 0 + 1) } else c
         | none => { c with flight := tset c.flight link (tgetD c.flight link 0 + 1) })
      else c } }

/-- The checks of R384 in the order of its table. -/
def State.cutRefusal (at_ arg scope : Nat) (s : State) : Option Nat :=
  if !s.leadOk at_ then some stLead
  else if s.ki.opened.length ≥ 8 then some stQueueFull
  else if s.ki.opened.any fun c => decide (c.2 < at_ + us (s.i O.CutSpacing) ∧ at_ < c.2 + us (s.i O.CutSpacing)) then some stMalformed
  else if bits arg 0 2 = 3 ∨ bits arg 3 5 ≠ 0 ∨ bits arg 24 8 ≠ 0 ∨ bits arg 128 128 ≠ 0 ∨ (bit arg 2 ∧ bits arg 64 64 = 0) then some stMalformed
  else if !s.routeKnown scope then some stMalformed
  else none

/-- CUT: the Apex lead assigns the next CUT_NUMBER, holds the cut and forwards it, or refuses it; LastCutStatus keeps the STATUS (R383, R384). -/
def State.cutOp (at_ arg scope : Nat) : Op := fun s =>
  if !s.apexLead then (s, no stDenied 8)
  else
    match s.cutRefusal at_ arg scope with
    | some st => (s.iSet O.LastCutStatus st, no st)
    | none =>
      let n := s.ki.nextCut
      let a : Act := ⟨n, 0, at_, bits arg 0 32, bits arg 32 32, bits arg 64 64, scope, s.i O.CutSettle, true, false, s.ft .icd⟩
      let p := s.queueAct .icd a
      if !p.2 then (p.1.iSet O.LastCutStatus stQueueFull, no stQueueFull)
      else
        let s : State := p.1
        let c : CutRec := ⟨n, at_, bits arg 0 32, scope, s.i O.CutSettle, false, none, false, false, [], [], [], [], [], [], [], []⟩
        let s : State := { s with ki := { s.ki with nextCut := (n + 1) % 2 ^ 32, opened := s.ki.opened ++ [(n, at_)], cuts := s.ki.cuts ++ [c] } }
        let s : State := ((s.iSet O.LastCutStatus 0).iSet O.LastCutNumber n).iSet O.CutsOpen s.ki.opened.length
        (s.cutDown scope (actRec a), okH n)

/-- CUT. -/
def State.cutIssue (q : Req) (reg : Bool) (at_ arg scope : Nat) (s : State) : State :=
  if reg then
    s.reqWrite q O.CutIssue 1 (fun s =>
      s.cutOp (s.i O.CutTime) (packFields [(0, 32, s.i O.CutKind), (32, 32, s.i O.CutHaltHold), (64, 64, s.i O.CutGroups)]) (s.i O.CutScope))
  else s.descriptor q (State.cutOp at_ arg scope)

/-- CUT. -/
def execCut (q : Req) (reg : Bool) (at_ arg scope : Nat) : State → Host.Outcome State Fault Refusal := run (State.cutIssue q reg at_ arg scope)

/-- A release of cut `n`: its halt ends now, or at INSTANT, if that is before its hold's end, and the level below is told in the cut/control class (R385, R396). -/
def State.releaseHalt (timed : Bool) (at_ n : Nat) (s : State) : State :=
  let t := if timed then at_ else s.ft .hel
  ({ s with ki := { s.ki with hel := { s.ki.hel with halts := s.ki.hel.halts.map fun (c : CutHalt) => if c.cut = n then { c with end_ := min c.end_ t } else c } } } : State).belowSend
    stControl (fwdRec 0x51 n (if timed then at_ else 0) n 0)

/-- CUT_RELEASE ends a cut's halt at once or at INSTANT; without a halt it does nothing (R385). -/
def State.cutReleaseOp (timed : Bool) (at_ n : Nat) : Op := fun s =>
  if !s.apexLead then (s, no stDenied 8)
  else if timed ∧ !s.leadOk at_ then (s, no stLead)
  else
    (s.releaseHalt timed at_ n, ok)

/-- CUT_RELEASE: an object write, a descriptor, or the release that comes from the level above, which any other device carries out and passes on (R385). -/
def State.cutRelease (q : Req) (reg timed : Bool) (at_ n : Nat) (s : State) : State :=
  match reg, q.who with
  | true, _ => s.reqWrite q O.CutRelease n (State.cutReleaseOp false 0 n)
  | false, .device _ => if s.apexLead then s.descriptor q (State.cutReleaseOp timed at_ n) else s.releaseHalt timed at_ n
  | false, _ => s.descriptor q (State.cutReleaseOp timed at_ n)

/-- CUT_RELEASE. -/
def execCutRelease (q : Req) (reg timed : Bool) (at_ n : Nat) : State → Host.Outcome State Fault Refusal := run (State.cutRelease q reg timed at_ n)

/-! ### Reports and summaries (R399, R400) -/

/-- A cut record from below: latch and halt records of dies, MissedAction of a cut, child summaries; late ones are counted (R399). -/
def State.kilnArrive (link : Nat) (r : Rec) (s : State) : State :=
  let n := recFld r 128 32
  match s.ki.cuts.find? fun c => c.number == n with
  | none => if rType r = 0xD0 ∨ rType r = 0xD4 then s.iCount O.LateCutReports else s
  | some c =>
    if s.ki.formed.contains n ∨ c.at_ + s.level * us c.settle < s.ft .icd then (if rType r = 0xD0 ∨ rType r = 0xD4 then s.iCount O.LateCutReports else s)
    else if rType r = 0xD0 then s.setCut { c with reports := tset c.reports link r }
    else if rType r = 0xD3 then
      (if recFld r 160 8 = 0 ∧ recFld r 384 64 ≠ 0 then s.setCut { c with timeouts := link :: c.timeouts } else s)
    else if rType r = 0xD4 then s.setCut { c with childs := tset c.childs link r }
    else if rType r = 0x26 ∧ recFld r 160 8 = 0 then s.setCut { c with missed := link :: c.missed }
    else s

/-- Status of a die in a summary (R399). -/
def CutRec.dieStatus (c : CutRec) (member : Bool) (k : Nat) : Nat :=
  if !member then 6
  else match tget c.reports k with
    | some r => if recFld r 168 1 = 1 then 1 else 0
    | none => if c.dozing.contains k then 2 else if c.missed.contains k then 3 else if c.failed.contains k then 4 else 5

/-- The Tray's own dies of a cut: slot, GID, STATUS (R399). -/
def State.cutDies (c : CutRec) (s : State) : List (Nat × Nat × Nat) :=
  s.ln.dieGid.filterMap fun p =>
    if p.1 < 64 ∧ p.2 ≠ 0 ∧ s.inScope c.scope p.2 then some (p.1, p.2, c.dieStatus (s.isMember p.2) p.1) else none

/-- The sum of a 32- or 64-bit field over child summaries. -/
def sumFld (l : List Rec) (lo w : Nat) : Nat := lsum (l.map fun r => recFld r lo w)

/-- The words of the absent set of a child summary. -/
def absentOf (r : Rec) : Tbl Nat := unitsWords ((r.drop (8 + recFld r 184 8)).take (recFld r 224 32))

/-- Forms this level's CutSummaryRecord (R399, R400). -/
def State.summaryRec (c : CutRec) (s : State) : Rec × State :=
  let dies := if s.role = 1 ∧ !c.cancelled then s.cutDies c else []
  let cnt := fun (p : Nat → Bool) => (dies.filter fun d => p d.2.2).length
  let reps := c.reports.map (·.2)
  let ch := c.childs.map (·.2)
  let late := if s.role = 1 ∨ c.cancelled then [] else s.downLinks.filter fun p => (tget c.childs p).isNone && s.downInScope c.scope p
  let lost := (late.flatMap s.membersBelow).filter fun g => s.isMember g && s.inScope c.scope g
  let absent := wordsOr (wordsOf ((dies.filter fun d => 3 ≤ d.2.2 && d.2.2 ≤ 5).map (·.2.1))) (wordsOr (wordsOf lost) (ch.foldl (fun w r => wordsOr w (absentOf r)) []))
  let own := c.latch.getD (s.stampAt .icd c.at_)
  let fl := packFields [
    (0, 1, b2n (bit own 80 || reps.any (fun r => recFld r 170 1 == 1) || ch.any (fun r => recFld r 176 1 == 1))),
    (1, 1, b2n (c.stepped || reps.any (fun r => recFld r 171 1 == 1) || ch.any (fun r => recFld r 177 1 == 1))),
    (2, 1, b2n c.early), (3, 1, b2n (!late.isEmpty || ch.any (fun r => recFld r 179 1 == 1))), (4, 1, b2n c.cancelled)]
  let slots := dies.map fun d => packFields [(0, 32, d.2.1), (32, 8, d.2.2), (48, 16, sat 0xFFFF (tgetD c.flight d.1 0)),
    (64, 64, match tget c.reports d.1 with | some r => recFld r 512 64 | none => 0)]
  let words := wordsUnits absent
  s.formTail 0xD4 8 0
    [(128, 32, c.number), (160, 3, c.arg), (163, 2, s.level), (176, 8, fl), (184, 8, slots.length), (192, 32, c.scope), (224, 32, words.length),
     (256, 128, s.stampAt .icd c.at_), (384, 128, own),
     (512, 32, cnt (· ≤ 5) + sumFld ch 512 32 + lost.length), (544, 32, cnt (· ≤ 2) + sumFld ch 544 32), (576, 32, cnt (· == 2) + sumFld ch 576 32),
     (608, 32, cnt (fun x => 3 ≤ x && x ≤ 5) + sumFld ch 608 32 + lost.length), (640, 32, cnt (· == 1) + sumFld ch 640 32),
     (672, 32, (reps.filter fun r => (List.range 16).any fun k => recFld r (320 + 4 * k) 4 == 2).length + sumFld ch 672 32),
     (704, 32, (reps.filter fun r => recFld r 448 64 != 0).length + sumFld ch 704 32), (736, 32, c.timeouts.eraseDups.length + sumFld ch 736 32),
     (768, 64, lsum (c.flight.map (·.2)) + sumFld ch 768 64), (832, 64, (reps.foldl (fun t r => t + recFld r 512 64) 0) + sumFld ch 832 64)]
    (slots ++ words)

/-- The cut's in-flight counts against the lead's RX_SEQ set (R393): where the lead's last SEQUENCE of a link and stream type lies before this twin's own, what came between counts too, and where it lies after, it does not count. -/
def CutRec.against (l : List (Nat × Nat)) (c : CutRec) : CutRec :=
  l.foldl (fun c p => match tget c.rx p.1 with
    | some m =>
      let d := (m + 2 ^ 28 - p.2 % 2 ^ 28) % 2 ^ 28
      let n := tgetD c.flight (p.1 / 16) 0
      { c with rx := tset c.rx p.1 p.2, flight := if d = 0 then c.flight else tset c.flight (p.1 / 16) (if d < 2 ^ 27 then n + d else n - (2 ^ 28 - d)) }
    | none => c) c

/-- CUT_SUMMARY: at X + L × CutSettle each Icdon IX40 forms its summary; the shadow counts in-flight flits against the lead's RX_SEQ set (R393); the lead of a Tray or Row sends it upward, the Apex posts it; at a Tray a HANG summary fires rules of kind 7 (R398, R399). -/
def State.cutSummary (n : Nat) (lead : Option (List (Nat × Nat))) (s : State) : State :=
  match s.ki.cuts.find? fun c => c.number == n with
  | none => s
  | some c =>
    if s.ki.formed.contains n ∨ (c.latch.isNone ∧ !c.cancelled) ∨ s.ft .icd < c.at_ + s.level * us c.settle then s
    else
      let (r, s) := s.summaryRec (if s.isLead then c else c.against (lead.getD []))
      let s : State := { s with ki := { s.ki with formed := (n :: s.ki.formed).take 64, cuts := s.ki.cuts.filter fun d => d.number != n, opened := s.ki.opened.filter fun o => o.1 != n } }
      let s : State := s.iSet O.CutsOpen s.ki.opened.length
      let s : State := if s.isLead then
          let s : State := s.occur srcKiln none r
          if s.role = 3 then (s.hostPost r).mgmtPost r else s.upSend stControl r
        else s
      if s.role = 1 ∧ bits c.arg 0 2 = 2 then s.fireRules 7 (fun _ => true) none s.iGid (rSeq r) (s.stampAt .icd c.at_) 0 else s

/-- CUT_SUMMARY. -/
def execCutSummary (n : CutEnd) : State → Host.Outcome State Fault Refusal := run (State.cutSummary n.num n.lead)

end Sys2Proof.Machine
end

