-- ==== Sys2Proof/Machine/Actions.lean ====
section
/-! DEFINITION. Cancelling a pending timed action (R63, R64). -/

namespace Sys2Proof.Machine

/-- What a cancelled action leaves behind at a part: a cut leaves the open cuts, and its record stands until the Apex posts its summary with CANCELLED (R64), a pending switch returns its slot or image, a pulse generator is disarmed (R64). -/
def State.cancelEffect (sd : Side) (a : Act) (s : State) : State :=
  match sd, a.kind with
  | .icd, 0 =>
    let cuts := if s.apexLead then s.ki.cuts.map fun c => if c.number = a.handle then { c with cancelled := true } else c
      else s.ki.cuts.filter fun c => c.number != a.handle
    let opened := s.ki.opened.filter fun o => o.1 != a.handle
    ({ s with ki := { s.ki with cuts := cuts, opened := opened } } : State).iSet O.CutsOpen opened.length
  | .icd, 1 => s.modelSwitchCancelled a
  | .icd, 2 => s.feedSwitchCancelled a
  | .icd, 3 => s.feedSwitchCancelled a
  | _, 5 => let k := inst O.PulseControl a.a; s.setOb sd k (setBit (s.ob sd k) 3 false)
  | _, _ => s

/-- Drops a part's copy of an action: it launches nothing. -/
def State.dropAct (sd : Side) (a : Act) (s : State) : State :=
  let s : State := { s with ln := { s.ln with copyDue := s.ln.copyDue.filter fun e => e.1 != a.handle } }
  (s.setActs sd ((s.acts sd).filter fun b => !(b.handle == a.handle && b.kind == a.kind))).cancelEffect sd a

/-- Whether a part launches a pending action in the present cycle: its instant has come, and a Helad that must wake for it is awake (R62, R63). -/
def State.launching (sd : Side) (a : Act) (s : State) : Bool :=
  decide (a.at_ ≤ s.ft sd) && (match sd with | .hel => s.awakeFor a | .icd => true)

/-- A cancel at the issuing unit (R63, R64): MALFORMED for a handle it does not hold, BUSY at or after launch, LEAD_TOO_SHORT within 50 µs of a forwarded action's instant, else every copy is dropped. -/
def State.cancelOp (sd : Side) (h : Nat) : Op := fun s =>
  match (s.acts sd).find? fun a => a.handle == h with
  | none => if (s.done sd).contains h then (s, no stBusy 4) else (s, no stMalformed)
  | some a =>
    if s.launching sd a then (s, no stBusy 4)
    else if sd = .icd ∧ a.fwd ∧ a.at_ < s.ft .icd + us 50 then (s, no stLead)
    else
      let s : State := s.dropAct sd a
      (if sd = .icd ∧ a.fwd then s.belowSend stControl (fwdRec 3 h 0 h 0) else s, ok)

/-- ACTION_CANCEL: a write of ActionCancel, or the descriptor of a host ring (R63, R64). -/
def State.actionCancel (q : Req) (h : Nat) (s : State) : State :=
  match q.who with
  | .ring _ => s.descriptor q (State.cancelOp .icd h)
  | _ => s.reqWrite q O.ActionCancel h (State.cancelOp .icd h)

/-- ACTION_CANCEL. -/
def execActionCancel (q : Req) (handle : Nat) : State → Host.Outcome State Fault Refusal := run (State.actionCancel q handle)

/-- CANCEL_RECEIVE: a holder drops its copy and passes the cancel on; one that has launched keeps its records and raises CANCEL_LATE (R64). -/
def State.cancelReceive (sd : Side) (h : Nat) (s : State) : State :=
  let s : State := match (s.acts sd).find? fun a => a.handle == h with
    | some a => s.dropAct sd a
    | none =>
      if (s.done sd).contains h then (match sd with | .hel => s.hAlarm 0x04F 2 h | .icd => s.iAlarm 0x04F 2 0x0C00 h) else s
  match sd with
  | .hel => s
  | .icd =>
    let s : State := { s with ln := { s.ln with copyDue := s.ln.copyDue.filter fun e => e.1 != h } }
    s.belowSend stControl (fwdRec 3 h 0 h 0)

/-- CANCEL_RECEIVE. -/
def execCancelReceive (u : Side) (handle : Nat) : State → Host.Outcome State Fault Refusal := run (State.cancelReceive u handle)

end Sys2Proof.Machine
end

