-- ==== Sys2Proof/Machine/Boundary.lean ====
section
/-! DEFINITION. Events of the boundary that several engines of the Helad see: taps, command boundaries and capture edges (R67, R77–R80, R102, R108, R134, R365, R377). -/

namespace Sys2Proof.Machine

/-- PULSE_START: an armed generator reaches StartFt and emits its first pulse (R65). A dozing Helad wakes for it, and reports a launch that the wake made late (R62); of a periodic generator whose StartFt a step passed over, that instant is skipped (R47). -/
def State.pulseStart (sd : Side) (n : Nat) (s : State) : State :=
  match s.dueOf sd (fun a => a.kind == 5 && a.a == n) with
  | some a =>
    if sd = .hel ∧ s.pitchFirst a.at_ then s
    else if sd = .hel ∧ !s.awakeFor a then s.wakeAct a
    else
    let held := match sd with | .hel => s.jitterHold (a.handle * 16 + 5) | .icd => (false, s)
    if held.1 then held.2
    else
    let s : State := held.2.takeAct sd a
    let c := s.ob sd (inst O.PulseControl n)
    if bit c 3 then
      let s : State := { s with tm := { s.tm with pulseOn := pulseNum sd n :: s.tm.pulseOn } }
      let s : State := if sd = .hel ∧ s.launchLate a then s.lateRecord a else s
      let k := tgetD s.tm.pulseK (pulseNum sd n) 0
      if bit c 1 ∧ 0 < k then s else s.emitPulse sd n k
    else s
  | none => s

/-- PULSE_START. -/
def execPulseStart (u : Side) (n : Nat) : State → Host.Outcome State Fault Refusal := run (State.pulseStart u n)

/-- An uncorrectable read of a counter in Helad SRAM: it is cleared as R104 lays down, open commands carry RECONFIGURED, and a MemoryErrorRecord goes to the AO ring (R449). -/
def State.counterLost (n : Nat) (s : State) : State := (s.clearCounter n).heladMemError 1

/-- TAP_INCREMENT: the counters that match, then conditional fences and KIND 3 comparators (R77, R102, R134, R377). `bad`: a counter whose read of Helad SRAM is uncorrectable (R449). -/
def State.tapIncrement (port inc tag evt : Nat) (bad : Option Nat) (s : State) : State :=
  let taken := s.awake 2 && (s.counters.any fun n => some n == bad && tapMatches (s.h (ccfg n)) port tag evt)
  let s : State := match bad with | some n => if taken then s.counterLost n else s | none => s
  let hits := (s.counters.filter fun n => tapMatches (s.h (ccfg n)) port tag evt).eraseDups.map fun n => (n, s.h (cval n))
  let p := s.tap port inc tag evt
  if p.2 then
    (hits.foldl (fun s e => s.fenceCount e.1 e.2) (p.1.fenceReading port inc)).fireCounters (hits.map (·.1))
  else p.1

/-- TAP_INCREMENT. -/
def execTapIncrement (port inc tag evt : Nat) (bad : Option Nat) : State → Host.Outcome State Fault Refusal :=
  run (State.tapIncrement port inc tag evt bad)

/-- COMMAND_START: the counters' latch, the sequencer, and provenance (R80, R108, R134, R367). -/
def State.boundaryStart (stream cmdid part : Nat) (s : State) : State :=
  if !s.cbReady then s.commandStart stream cmdid part
  else
    let stm := s.stampOf .hel (s.ft .hel) (bit s.tm.hc.owed fnCommand)
    (((s.commandStart stream cmdid part).fireBoundary stream 0).provStart stream cmdid part stm).provRoll

/-- COMMAND_START. -/
def execCommandStart (stream cmdid part : Nat) : State → Host.Outcome State Fault Refusal := run (State.boundaryStart stream cmdid part)

/-- COMMAND_END: the command's record, the sequencer, and provenance. `bad`: the latch-store slot reads uncorrectable (R449). -/
def State.boundaryEnd (stream cmdid part : Nat) (bad : Bool) (s : State) : State :=
  if !s.cbReady then s.commandEnd stream cmdid part false
  else
    let stm := s.stampOf .hel (s.ft .hel) (bit s.tm.hc.owed fnCommand)
    let bad := bad && s.ct.opens.any fun o => o.stream == stream && o.cmdid == cmdid
    let s : State := ((s.commandEnd stream cmdid part bad).fireBoundary stream 1).provEnd stream cmdid stm |>.provRoll
    if bad then s.heladMemError 1 else s

/-- COMMAND_END. -/
def execCommandEnd (stream cmdid part : Nat) (bad : Bool) : State → Host.Outcome State Fault Refusal :=
  run (State.boundaryEnd stream cmdid part bad)

/-- CAPTURE_EDGE: the record of R67; a rising edge that the Helad records fires KIND 4 comparators (R134). -/
def State.captureEvent (sd : Side) (n : Nat) (rising : Bool) (s : State) : State :=
  if sd = .hel ∧ s.bd.haoReset then s
  else
  let s' := s.captureEdge sd n rising
  let took := (tgetD s'.tm.caps (pulseNum sd n) ⟨none, 0⟩).last != (tgetD s.tm.caps (pulseNum sd n) ⟨none, 0⟩).last
  if sd = .hel ∧ rising ∧ took then s'.fireCapture n else s'

/-- CAPTURE_EDGE. -/
def execCaptureEdge (u : Side) (n : Nat) (rising : Bool) : State → Host.Outcome State Fault Refusal := run (State.captureEvent u n rising)

end Sys2Proof.Machine
end

