-- ==== Sys2Proof/Machine/Security.lean ====
section
/-! DEFINITION. VFs, IDE and TDISP, SPDM and attestation, Helad identity, credentials, the sealing of the audit cask, and the tenants' power and thermal records (R119, R481–R502). -/

namespace Sys2Proof.Machine

/-! ### Tenants' power and temperature (R119, R483) -/

/-- The Tray adds a CommandCounterRecord of a tenant to its partition's interval: the POWER-class fields, and the stream of the command on the Helad that the model holds, whose units alone have readings here (log 149). -/
def State.powerTake (slot : Nat) (r : Rec) (s : State) : State :=
  if rPart r = 0 ∨ s.role ≠ 1 then s
  else
    let list := (tget (tgetD s.ct.copySets (slot * 8 + recFld r 452 3) []) (recFld r 472 16)).getD []
    let n := recFld r 456 10
    let e := lsum ((list.take n).zipIdx.map fun p =>
      let c := s.copyOf slot (ccfg p.1)
      if bits c 30 2 = 3 ∧ bit c 18 then recFld r (512 + 64 * p.2) 64 else 0)
    let k := rPart r * 2 ^ 40 + recFld r 336 64 / 100000000
    let old := tgetD s.ct.power k (0, 0, 0)
    { s with ct := { s.ct with power := tset s.ct.power k (old.1 + e, old.2.1 + 1, if slot = s.h O.SlotNumber then setBit old.2.2 (recFld r 448 4) true else old.2.2) } }

/-- The highest reading of the TEMP_PORTs of the units whose STREAMS meet a mask, in 1/16 °C, and the units read. -/
def State.tempOf (streams : Nat) (s : State) : Option Int × Nat :=
  let us_ := (List.range 256).filter fun u => bits (s.h (inst128 O.UnitConfig u)) 0 16 &&& streams != 0
  us_.foldl (fun (acc : Option Int × Nat) u =>
    match tget s.si.hel.readings (bits (s.h (inst128 O.UnitConfig u)) 24 8) with
    | some r => let t := toS 16 r.1; (some (match acc.1 with | some m => max m t | none => t), acc.2 + 1)
    | none => acc) (none, 0)

/-- Whether a partition is a tenant partition for its power record: ACTIVE, TEST or DRAINING (DESIGN CHOICE, log 117). -/
def Part.tenant (p : Part) : Bool := 2 ≤ p.state && p.state ≤ 4

/-- PARTITION_POWER_TICK: every FT-aligned 100 ms the Tray forms a PartitionPowerRecord and a PartitionThermalRecord for each tenant partition (R119, R483). The record is formed at the tick from what has arrived; a command record that ends in the interval and arrives later is in no power record (DESIGN CHOICE, log 118). -/
def State.partitionPowerTick (s : State) : State :=
  let now := s.ft .icd / ms 100
  if s.role ≠ 1 ∨ now ≤ s.ct.powerK then s
  else
    let k := now - 1
    let stm := s.stampAt .icd (k * ms 100)
    let s : State := { s with ct := { s.ct with powerK := now } }
    let s : State := (s.tw.parts.filter fun p => p.2.tenant).foldl (fun s p =>
      let e := tgetD s.ct.power (p.1 * 2 ^ 40 + k) (0, 0, 0)
      let (r, s) := s.form .icd 0x33 3 0 p.1 [(128, 128, stm), (256, 32, e.1 / 100000), (288, 32, e.2.1)]
      let s : State := (s.vfPost p.1 r).upSend stCounter r
      let t := s.tempOf e.2.2
      let c := match t.1 with | some x => ofS 16 (x / 16) | none => 0x8000
      let (r, s) := s.form .icd 0x35 3 0 p.1 [(128, 128, stm), (256, 16, c), (272, 16, t.2)]
      (s.vfPost p.1 r).upSend stCounter r) s
    { s with ct := { s.ct with power := s.ct.power.filter fun p => now ≤ p.1 % 2 ^ 40 } }

/-- PARTITION_POWER_TICK. -/
def execPartitionPowerTick : State → Host.Outcome State Fault Refusal := run State.partitionPowerTick

/-! ### VFs, IDE and TDISP (R484–R486) -/

/-- VF_BIND: accepted in CONFIG_UNLOCKED for a partition in ACTIVE or TEST that no other VF holds; 0 unbinds; a VF above VfCount is refused (R484, R501). -/
def State.vfBindOp (v part : Nat) : Op := fun s =>
  if s.i O.VfCount < v then (s, no stRange)
  else if s.i (vfKey O.TdiState v) ≠ 0 then (s, no stBusy)
  else if part = 0 then (s.iSet (vfKey O.VfPartition v) 0, ok)
  else
    let st := s.partState part
    if (st = 2 ∨ st = 3) ∧ ((s.vfOf part).all fun w => w == v) = true then (s.iSet (vfKey O.VfPartition v) part, ok)
    else (s, no stBusy)

/-- VF_BIND. -/
def execVfBind (q : Req) (v part : Nat) : State → Host.Outcome State Fault Refusal :=
  run (State.reqWrite q (vfKey O.VfPartition v) part (State.vfBindOp v part))

/-- Sends an answer on a DOE mailbox or the MOP binding: 0 SPDM DOE, 1 SPDM MOP, 2 IDE_KM, 3 TDISP. -/
def State.spdmOut (b : Nat) (body : List Nat) (s : State) : State := s.put .reply (0x3000 + b) body

/-- Whether a secured session of the DOE binding is established. -/
def State.secured (sess : Nat) (s : State) : Bool := match tget s.sc.sess sess with | some x => x.ready && x.binding == 0 | none => false

/-- The PCIe domain is up, so the DOE mailboxes answer. -/
def State.doeUp (s : State) : Bool := s.pk.pcieUp && !s.inReset 92

/-- Runs an IDE_KM message inside a secured session; outside one nothing happens. -/
def State.ideKm (sess : Nat) (f : State → State) (s : State) : State := if s.doeUp && s.secured sess then f s else s

/-- IDE stream of a VF, 0 the PF. -/
def State.ideOf (v : Nat) (s : State) : IdeStream := tgetD s.sc.ide v ⟨[], none⟩

/-- Replaces an IDE stream. -/
def State.setIde (v : Nat) (x : IdeStream) (s : State) : State := { s with sc := { s.sc with ide := tset s.sc.ide v x } }

/-- QUERY: the stream's port capability: one selective stream, one address range, key sets 0 and 1. -/
def State.ideQuery (sess v : Nat) (s : State) : State :=
  s.ideKm sess fun s => s.spdmOut 2 [0x01, v, 1, 1, 2, b2n (s.ideOf v).set_.isSome]

/-- QUERY. -/
def execIdeQuery (sess v : Nat) : State → Host.Outcome State Fault Refusal := run (State.ideQuery sess v)

/-- KEY_PROG: stores a 256-bit key of one half of a key set that is not in use. -/
def State.keyProg (sess v set half key : Nat) (s : State) : State :=
  s.ideKm sess fun s =>
    let x := s.ideOf v
    if x.set_ = some set then s.spdmOut 2 [0x03, v, set, half, 1]
    else (s.setIde v { x with keys := tset x.keys (set * 2 + half) key }).spdmOut 2 [0x03, v, set, half, 0]

/-- KEY_PROG. -/
def execKeyProg (sess v set half key : Nat) : State → Host.Outcome State Fault Refusal := run (State.keyProg sess v set half key)

/-- K_SET_GO: a key set both halves of which hold keys goes into use, so the stream is secure. -/
def State.kSetGo (sess v set : Nat) (s : State) : State :=
  s.ideKm sess fun s =>
    let x := s.ideOf v
    let has := (tget x.keys (set * 2)).isSome && (tget x.keys (set * 2 + 1)).isSome
    (if has then s.setIde v { x with set_ := some set } else s).spdmOut 2 [0x04, v, set, b2n has]

/-- K_SET_GO. -/
def execKSetGo (sess v set : Nat) : State → Host.Outcome State Fault Refusal := run (State.kSetGo sess v set)

/-- A stream leaves secure: a TDI in CONFIG_LOCKED or RUN enters ERROR (R486). -/
def State.ideLeave (v : Nat) (s : State) : State :=
  let s : State := s.setIde v { s.ideOf v with set_ := none, keys := [] }
  if v = 0 then s
  else
    let t := s.i (vfKey O.TdiState v)
    if t = 1 ∨ t = 2 then s.iSet (vfKey O.TdiState v) 3 else s

/-- K_SET_STOP: stopping the set in use takes the stream out of secure. -/
def State.kSetStop (sess v set : Nat) (s : State) : State :=
  s.ideKm sess fun s =>
    let x := s.ideOf v
    (if x.set_ = some set then s.ideLeave v else s.setIde v { x with keys := x.keys.filter fun k => k.1 / 2 != set }).spdmOut 2 [0x05, v, set]

/-- K_SET_STOP. -/
def execKSetStop (sess v set : Nat) : State → Host.Outcome State Fault Refusal := run (State.kSetStop sess v set)

/-- IDE_INTEGRITY_FAIL. -/
def execIdeIntegrityFail (v : Nat) : State → Host.Outcome State Fault Refusal := run (State.ideLeave v)

/-- A TDISP answer. -/
def State.tdisp (v : Nat) (body : List Nat) (s : State) : State := if s.doeUp then s.spdmOut 3 (v :: body) else s

/-- GET_TDISP_VERSION. -/
def execGetTdispVersion (v : Nat) : State → Host.Outcome State Fault Refusal := run (State.tdisp v [0x01, 0x10])

/-- GET_TDISP_CAPABILITIES: the messages of R486. -/
def execGetTdispCapabilities (v : Nat) : State → Host.Outcome State Fault Refusal := run (State.tdisp v [0x02, 7])

/-- LOCK_INTERFACE_REQUEST: a bound VF whose IDE stream is secure enters CONFIG_LOCKED; else an error answer (R486). -/
def State.lockInterface (v : Nat) (s : State) : State :=
  if !s.doeUp then s
  else if s.i (vfKey O.TdiState v) = 0 ∧ s.i (vfKey O.VfPartition v) ≠ 0 ∧ (s.ideOf v).set_.isSome then (s.iSet (vfKey O.TdiState v) 1).tdisp v [0x03, 0]
  else s.tdisp v [0x7F]

/-- LOCK_INTERFACE_REQUEST. -/
def execLockInterfaceRequest (v : Nat) : State → Host.Outcome State Fault Refusal := run (State.lockInterface v)

/-- GET_DEVICE_INTERFACE_REPORT: the VF's 64 KiB BAR0, no peer-to-peer requests. -/
def execGetDeviceInterfaceReport (v : Nat) : State → Host.Outcome State Fault Refusal := run (State.tdisp v [0x04, 65536, 0])

/-- GET_DEVICE_INTERFACE_STATE. -/
def execGetDeviceInterfaceState (v : Nat) : State → Host.Outcome State Fault Refusal :=
  run (fun s => s.tdisp v [0x05, s.i (vfKey O.TdiState v)])

/-- START_INTERFACE_REQUEST: CONFIG_LOCKED to RUN. -/
def State.startInterface (v : Nat) (s : State) : State :=
  if !s.doeUp then s
  else if s.i (vfKey O.TdiState v) = 1 then (s.iSet (vfKey O.TdiState v) 2).tdisp v [0x06, 0] else s.tdisp v [0x7F]

/-- START_INTERFACE_REQUEST. -/
def execStartInterfaceRequest (v : Nat) : State → Host.Outcome State Fault Refusal := run (State.startInterface v)

/-- STOP_INTERFACE_REQUEST: CONFIG_UNLOCKED from any state, the VF's rings disabled. -/
def State.stopInterface (v : Nat) (s : State) : State :=
  if !s.doeUp then s
  else
    let rings := match tget s.pk.rings (1024 + v) with | some r => tset s.pk.rings (1024 + v) { r with enable := false } | none => s.pk.rings
    ({ s with pk := { s.pk with rings := rings } }.iSet (vfKey O.TdiState v) 0).tdisp v [0x07, 0]

/-- STOP_INTERFACE_REQUEST. -/
def execStopInterfaceRequest (v : Nat) : State → Host.Outcome State Fault Refusal := run (State.stopInterface v)

/-- A reset of the PCIe domain: keys lost, every TDI not in CONFIG_UNLOCKED enters ERROR (R486). -/
def State.pcieKeysLost (s : State) : State :=
  let s : State := { s with sc := { s.sc with ide := [] } }
  (List.range 256).foldl (fun s n => if s.i (vfKey O.TdiState (n + 1)) = 0 then s else s.iSet (vfKey O.TdiState (n + 1)) 3) s

/-! ### SPDM (R491–R493) -/

/-- Number of the Alias key, and of the DeviceID key, of a device. -/
def State.aliasKey (s : State) : Nat := s.sc.secret * 2 ^ 32 + s.sc.alias_ + 1
/-- The DeviceID key. -/
def State.deviceKey (s : State) : Nat := s.sc.secret * 2 ^ 32

/-- Whether a binding answers: the DOE mailbox not while the PCIe domain is down. -/
def State.spdmUp (b : Nat) (s : State) : Bool := b != 0 || s.doeUp

/-- The SPDM requests that the bootstrap-free path serves: GET_VERSION, GET_CAPABILITIES, NEGOTIATE_ALGORITHMS, GET_MEASUREMENTS (R526). -/
def bootCode (code : Nat) : Bool := code == 0x84 || code == 0xE1 || code == 0xE3 || code == 0xE0

/-- An SPDM request: silence on a dead mailbox; in the bootstrap-free path ACCESS_DENIED to another request on MOP, and nothing on the mailbox (R526); ResponseNotReady with a token during an activation switch, NOT_READY on MOP; an error before the negotiation it needs (R493). -/
def State.spdm (b code need : Nat) (args : List Nat) (f : State → State) (s : State) : State :=
  if !s.spdmUp b then s
  else if s.pw.phase = 1 ∧ !bootCode code then (if b = 0 then s else s.spdmOut b [stDenied, 0])
  else if s.pw.switching then
    let t := s.sc.nextToken
    let s : State := { s with sc := { s.sc with token := some (t, b, code, args), nextToken := (t + 1) % 256 } }
    if b = 0 then s.spdmOut 0 [0x7F, 0x42, 16, t, 1, code] else s.spdmOut b [stNotReady, 66]
  else if tgetD s.sc.phase b 0 < need then s.spdmOut b [0x7F, 0x04]
  else f s

/-- GET_VERSION: 1.2 and 1.3; negotiation starts anew. -/
def State.getVersion (b : Nat) (s : State) : State :=
  s.spdm b 0x84 0 [] fun s => { s with sc := { s.sc with phase := tset s.sc.phase b 1 } }.spdmOut b [0x04, 0x12, 0x13]

/-- GET_VERSION. -/
def execGetVersion (b : Nat) : State → Host.Outcome State Fault Refusal := run (State.getVersion b)

/-- GET_CAPABILITIES. -/
def State.getCapabilities (b : Nat) (s : State) : State :=
  s.spdm b 0xE1 1 [] fun s => { s with sc := { s.sc with phase := tset s.sc.phase b (max 2 (tgetD s.sc.phase b 0)) } }.spdmOut b [0x61, 4096]

/-- GET_CAPABILITIES. -/
def execGetCapabilities (b : Nat) : State → Host.Outcome State Fault Refusal := run (State.getCapabilities b)

/-- NEGOTIATE_ALGORITHMS: the set of R491, or an error when it is not offered. -/
def State.negotiateAlgorithms (b : Nat) (common : Bool) (s : State) : State :=
  s.spdm b 0xE3 2 [b2n common] fun s =>
    if common then { s with sc := { s.sc with phase := tset s.sc.phase b 3 } }.spdmOut b [0x63, 384, 384, 384, 256] else s.spdmOut b [0x7F, 0x01]

/-- NEGOTIATE_ALGORITHMS. -/
def execNegotiateAlgorithms (b : Nat) (common : Bool) : State → Host.Outcome State Fault Refusal := run (State.negotiateAlgorithms b common)

/-- The certificate chain of slot 0: Melhild root, provisioning CA, DeviceID, Alias. -/
def State.chain (s : State) : List Nat := Config.certChain s.deviceKey s.aliasKey

/-- GET_DIGESTS: slot 0 alone is provisioned. -/
def State.getDigests (b : Nat) (s : State) : State := s.spdm b 0x81 3 [] fun s => s.spdmOut b [0x01, 1, Config.sha384 s.chain]

/-- GET_DIGESTS. -/
def execGetDigests (b : Nat) : State → Host.Outcome State Fault Refusal := run (State.getDigests b)

/-- GET_CERTIFICATE: bytes of the chain of slot 0; slots 1–7 are an error. -/
def State.getCertificate (b slot off len : Nat) (s : State) : State :=
  s.spdm b 0x82 3 [slot, off, len] fun s =>
    if slot ≠ 0 then s.spdmOut b [0x7F, 0x01] else s.spdmOut b (0x02 :: (s.chain.drop off).take (min len 4096))

/-- GET_CERTIFICATE. -/
def execGetCertificate (b slot off len : Nat) : State → Host.Outcome State Fault Refusal := run (State.getCertificate b slot off len)

/-- CHALLENGE: signed with the Alias key. -/
def State.challenge (b slot nonce : Nat) (s : State) : State :=
  s.spdm b 0x83 3 [slot, nonce] fun s =>
    if slot ≠ 0 then s.spdmOut b [0x7F, 0x01]
    else
      let (n, s) := s.fresh 256
      s.spdmOut b [0x03, Config.sha384 s.chain, n, Config.signature s.aliasKey (natBytes 32 nonce ++ natBytes 32 n)]

/-- CHALLENGE. -/
def execChallenge (b slot nonce : Nat) : State → Host.Outcome State Fault Refusal := run (State.challenge b slot nonce)

/-- The AttestFlags of block 6: STAGING, ACTIVATING, IN_RESET, OBSERVE_ONLY. -/
def State.attestFlags (s : State) : Nat :=
  b2n s.pw.staged.isSome + 2 * b2n s.pw.switching + 4 * b2n (s.pk.domReset.any fun p => decide (s.ft .icd < p.2)) + 8 * b2n s.observeOnly

/-- Domains in reset as bits (block 7). -/
def State.resetBits (s : State) : Nat := (s.pk.domReset.map fun p => if s.ft .icd < p.2 then 2 ^ p.1 else 0).sum

/-- The measurement blocks (R492): value type and value. The bootstrap-free path serves blocks 1 and 4, the latter as 48 bytes of 0xFF when no record has verified (R526). -/
def State.measBlock (n : Nat) (s : State) : Option (Nat × Nat) :=
  if s.pw.phase = 1 ∧ n ≠ 1 ∧ n ≠ 4 then none
  else if s.pw.phase = 1 ∧ n = 4 ∧ !s.pw.recOk then some (2, 2 ^ 384 - 1)
  else match n with
  | 1 => some (0, Config.romDigest)
  | 2 => some (1, s.pw.imgDigest)
  | 3 => some (1, match s.pw.staged with | some x => x.2 | none => 0)
  | 4 => some (2, s.sc.identity)
  | 5 => some (3, s.sc.persistDig)
  | 6 => some (5, packFields [(0, 32, s.i O.MeasEpoch), (32, 4, s.attestFlags), (40, 4, s.i O.TwinState), (44, 4, s.role)])
  | 7 => some (5, s.resetBits)
  | 8 =>
    let d := ((List.range 8).map fun k => s.i (inst O.ModelDigest k)) ++ ((List.range 64).map fun k => s.i (inst O.MashImageDigest k)) ++
      ((List.range 64).map fun k => s.i (inst O.SteepImageDigest k))
    some (3, Config.sha384 (d.flatMap (natBytes 16) ++ natBytes 4 (s.i O.LibraryActive)))
  | 9 => if s.role = 1 then some (2, Config.sha384 ((List.range 64).flatMap fun k => natBytes 97 (tgetD s.sc.dieKey k 0))) else none
  | _ => none

/-- GET_MEASUREMENTS: a block, their count for 0, all for 0xFF; signed with the Alias key on request (R492). The bootstrap-free path has no Alias key: there the DeviceID key signs, or nothing when no record has verified (R526). -/
def State.getMeasurements (b index : Nat) (signed : Bool) (nonce : Nat) (s : State) : State :=
  s.spdm b 0xE0 3 [index, b2n signed, nonce] fun s =>
    let all := (List.range 9).filterMap fun k => (s.measBlock (k + 1)).map fun v => (k + 1, v)
    let l := if index = 0xFF then all else all.filter fun p => p.1 == index
    if index ≠ 0 ∧ l.isEmpty then s.spdmOut b [0x7F, 0x01]
    else
      let body := if index = 0 then [all.length] else l.flatMap fun p => [p.1, p.2.1, p.2.2]
      s.spdmOut b ([0x60] ++ body ++ (if signed && (s.pw.phase != 1 || s.pw.recOk) then [Config.signature (if s.pw.phase = 1 then s.deviceKey else s.aliasKey) (body.flatMap (natBytes 48) ++ natBytes 32 nonce)] else []))

/-- GET_MEASUREMENTS. -/
def execGetMeasurements (b index : Nat) (signed : Bool) (nonce : Nat) : State → Host.Outcome State Fault Refusal :=
  run (State.getMeasurements b index signed nonce)

/-- KEY_EXCHANGE: a session identifier, of at most 8 sessions on a binding; the answer is signed with the Alias key. -/
def State.keyExchange (b : Nat) (s : State) : State :=
  s.spdm b 0xE4 3 [] fun s =>
    if 8 ≤ (s.sc.sess.filter fun p => p.2.binding == b).length then s.spdmOut b [0x7F, 0x0A]
    else
      let id := s.sc.nextSess
      let (n, s) := s.fresh 768
      let s : State := { s with sc := { s.sc with sess := tset s.sc.sess id ⟨b, false, 0⟩, nextSess := id + 1 } }
      s.spdmOut b [0x64, id, n, Config.signature s.aliasKey (natBytes 4 id ++ natBytes 96 n)]

/-- KEY_EXCHANGE. -/
def execKeyExchange (b : Nat) : State → Host.Outcome State Fault Refusal := run (State.keyExchange b)

/-- A request inside a session of a binding. -/
def State.inSession (b code sess : Nat) (ready : Bool) (f : SpdmSess → State → State) (s : State) : State :=
  s.spdm b code 3 [] fun s => match tget s.sc.sess sess with
    | some x => if x.binding = b ∧ (x.ready || !ready) then f x s else s.spdmOut b [0x7F, 0x02]
    | none => s.spdmOut b [0x7F, 0x02]

/-- Drops a session. -/
def State.dropSess (sess : Nat) (s : State) : State := { s with sc := { s.sc with sess := tdel s.sc.sess sess } }

/-- FINISH: the session is established, or ended when its verify data is wrong. -/
def State.finish (b sess : Nat) (good : Bool) (s : State) : State :=
  s.inSession b 0xE5 sess false fun x s =>
    if good then { s with sc := { s.sc with sess := tset s.sc.sess sess { x with ready := true } } }.spdmOut b [0x65, sess]
    else (s.dropSess sess).spdmOut b [0x7F, 0x06]

/-- FINISH. -/
def execFinish (b sess : Nat) (good : Bool) : State → Host.Outcome State Fault Refusal := run (State.finish b sess good)

/-- HEARTBEAT. -/
def execSpdmHeartbeat (b sess : Nat) : State → Host.Outcome State Fault Refusal :=
  run (State.inSession b 0xE8 sess true fun _ s => s.spdmOut b [0x68, sess])

/-- KEY_UPDATE. -/
def State.keyUpdate (b sess : Nat) (s : State) : State :=
  s.inSession b 0xE9 sess true fun x s =>
    { s with sc := { s.sc with sess := tset s.sc.sess sess { x with keyGen := x.keyGen + 1 } } }.spdmOut b [0x69, sess]

/-- KEY_UPDATE. -/
def execKeyUpdate (b sess : Nat) : State → Host.Outcome State Fault Refusal := run (State.keyUpdate b sess)

/-- END_SESSION. -/
def execEndSession (b sess : Nat) : State → Host.Outcome State Fault Refusal :=
  run (State.inSession b 0xEC sess true fun _ s => (s.dropSess sess).spdmOut b [0x6C, sess])

/-- RESPOND_IF_READY: the request that the token stands for is answered with its own operands, outside any session (R493; DEDUCED, log 58). -/
def State.respondIfReady (b token : Nat) (s : State) : State :=
  if !s.spdmUp b then s
  else match s.sc.token with
    | some t =>
      if t.1 ≠ token ∨ t.2.1 ≠ b then s.spdmOut b [0x7F, 0x01]
      else if s.pw.switching then s.spdmOut b [0x7F, 0x42, 16, token, 1, t.2.2.1]
      else
        let s : State := { s with sc := { s.sc with token := none, phase := tset s.sc.phase b 3 } }
        let code := t.2.2.1
        let a := fun n => t.2.2.2.getD n 0
        if code = 0xE0 then s.getMeasurements b (a 0) (a 1 == 1) (a 2)
        else if code = 0x84 then s.getVersion b
        else if code = 0xE1 then s.getCapabilities b
        else if code = 0xE3 then s.negotiateAlgorithms b (a 0 == 1)
        else if code = 0x81 then s.getDigests b
        else if code = 0x82 then s.getCertificate b (a 0) (a 1) (a 2)
        else if code = 0x83 then s.challenge b (a 0) (a 1)
        else if code = 0xE4 then s.keyExchange b
        else s.spdmOut b [0x7F, 0x02]
    | none => s.spdmOut b [0x7F, 0x01]

/-- RESPOND_IF_READY. -/
def execRespondIfReady (b token : Nat) : State → Host.Outcome State Fault Refusal := run (State.respondIfReady b token)

/-! ### Credentials and sessions (R494) -/

/-- Whether a maintainer entry is enabled. -/
def State.hasMaintainer (s : State) : Bool := (List.range 64).any fun n => s.i (O.CredentialRole + n) == 2

/-- CREDENTIAL_WRITE: stored unless no enabled maintainer entry would remain; disabling an entry closes its sessions. -/
def State.credentialOp (key v : Nat) : Op := fun s =>
  let t := s.iSet key v
  if !t.hasMaintainer then (s, no stRange)
  else if keyIdx key = 0x5A11 ∧ v = 0 then
    ({ t with mo := { t.mo with sessions := t.mo.sessions.filter fun p => p.2.cred != keySub key - 1 } }, ok)
  else (t, ok)

/-- CREDENTIAL_WRITE. -/
def execCredentialWrite (q : Req) (key v : Nat) : State → Host.Outcome State Fault Refusal := run (State.reqWrite q key v (State.credentialOp key v))

/-- DTLS_HANDSHAKE: a client whose key equals the CredentialKey of an enabled entry is admitted with its role, at most 32 sessions (R494); the bootstrap-free path admits none (R526). -/
def State.dtlsHandshake (port key : Nat) (s : State) : State :=
  let hit := (List.range 64).find? fun n => s.pw.phase != 1 && s.i (O.CredentialRole + n) != 0 && s.i (O.CredentialKey + n) == key
  match hit, (List.range 32).find? fun n => (tget s.mo.sessions n).isNone with
  | some n, some id =>
    let code := s.i (O.CredentialRole + n)
    let role : Role := if code = 1 then .op else if code = 2 then .mt else if code = 3 then .au else .tp
    let part := if code = 4 then s.i (O.CredentialPartition + n) else 0
    let se : Session := ⟨n, role, part, port, [], 0, []⟩
    { s with mo := { s.mo with sessions := tset s.mo.sessions id se } }.put .eth port [id, 1, Config.sha384 s.chain]
  | _, _ => s.put .eth port [0]

/-- DTLS_HANDSHAKE. -/
def execDtlsHandshake (port key : Nat) : State → Host.Outcome State Fault Refusal := run (State.dtlsHandshake port key)

/-! ### Sealing (R496–R500) -/

/-- Last SEQUENCE per source and type of the entries that arrived by an FT. -/
def lastPositions (l : List (Nat × Rec)) (t : Nat) : List (Nat × Nat × Nat) :=
  (l.filter fun p => decide (p.1 < t)).foldl (fun acc p =>
    let k := (rSrc p.2, rType p.2)
    if acc.any fun x => x.1 == k.1 && x.2.1 == k.2 then acc.map fun x => if x.1 = k.1 ∧ x.2.1 = k.2 then (x.1, x.2.1, max x.2.2 (rSeq p.2)) else x
    else acc ++ [(k.1, k.2, rSeq p.2)]) []

/-- AUDIT_SEAL_AGREE: at S_k the lead sends the last SEQUENCE of each source of interval k and the entries that it has refused; the shadow takes both (R497, R500). A twin that the lead has sent nothing takes its own positions (R502). -/
def State.auditSealAgree (k : Nat) (lead : Option (List (Nat × Nat × Nat) × List (Nat × Nat × Nat))) (s : State) : State :=
  let t := k * ns 1000000000
  let own := lastPositions s.sc.entries t
  if s.ft .icd < t ∨ k ≤ s.i O.LastSealInterval then s
  else if s.isLead then
    let flat := fun (l : List (Nat × Nat × Nat)) => l.flatMap fun (x : Nat × Nat × Nat) => [x.1, x.2.1, x.2.2]
    ({ s with sc := { s.sc with agreed := some (k, own), refused := [] } } : State).xMsg 0x497 ([k, own.length] ++ flat own ++ flat s.sc.refused)
  else
    let s : State := s.auditRefuse (lead.elim [] (·.2))
    { s with sc := { s.sc with agreed := some (k, lead.elim own (·.1)) } }

/-- AUDIT_SEAL_AGREE. -/
def execAuditSealAgree (k : Nat) (lead : Option (List (Nat × Nat × Nat) × List (Nat × Nat × Nat))) : State → Host.Outcome State Fault Refusal := run (State.auditSealAgree k lead)

/-- Appends an entry to a leaf. -/
def Leaf.append (l : Leaf) (r : Rec) : Leaf := { l with head := chainHead l.head r, count := l.count + 1, total := l.total + 1 }

/-- The hash of a leaf (R497): an empty leaf is zero. -/
def leafHash (n : Nat) (l : Option Leaf) : Nat :=
  match l with
  | some l => Config.sha384 (natBytes 2 n ++ natBytes 2 l.part ++ natBytes 48 l.head ++ natBytes 4 l.count)
  | none => 0

/-- The hash of the node at a height over 2^h leaves from a first leaf. -/
def nodeHash (lv : Tbl Leaf) : Nat → Nat → Nat
  | 0, n => leafHash n (tget lv n)
  | h + 1, n => Config.sha384 (natBytes 48 (nodeHash lv h (2 * n)) ++ natBytes 48 (nodeHash lv h (2 * n + 1)))

/-- The siblings of a leaf, leaf level first (R499). -/
def siblings (lv : Tbl Leaf) (n : Nat) : List Nat := (List.range 11).map fun h => let m := n / 2 ^ h; nodeHash lv h (if m % 2 = 0 then m + 1 else m - 1)

/-- AUDIT_SEAL_FORM: 1 ms after S_k the agreed entries are appended in canonical order, each leaf of a closing partition ends with its PartitionClosedRecord, the root is formed and signed, the seal written (with the closing records it counts among the unracked bytes), and each tenant in RUN gets its proof (R496–R500). -/
def State.auditSealForm (k : Nat) (s : State) : State :=
  let t := k * ns 1000000000
  match s.sc.agreed with
  | none => s
  | some (k', pos) =>
    if k' ≠ k ∨ s.ft .icd < t + ms 1 then s
    else
      let inK := fun (r : Rec) => pos.any fun p => p.1 == rSrc r && p.2.1 == rType r && decide (rSeq r ≤ p.2.2)
      let now := sortBy canonKey ((s.sc.entries.filter fun e => inK e.2).map (·.2))
      let lv0 := (s.sc.leaves.filter fun p => !p.2.freed).map fun p => (p.1, { p.2 with count := 0 })
      let lv0 := if (tget lv0 1024).isSome then lv0 else tset lv0 1024 ⟨0, 0, 0, 0, false⟩
      let put := fun (lv : Tbl Leaf) (n : Nat) (r : Rec) => match tget lv n with | some l => tset lv n (l.append r) | none => lv
      let add := fun (lv : Tbl Leaf) (r : Rec) =>
        let lv := put lv 1024 r
        match (if rPart r = 0 then none else tget s.sc.slots (rPart r)) with
        | some n => put lv n (tenantForm r)
        | none => lv
      let lv := now.foldl add lv0
      let c := s.sc.closing.foldl (fun (acc : Tbl Leaf × List Rec × State) x =>
        match tget s.sc.slots x.1 with
        | some n =>
          let l := (tget acc.1 n).getD ⟨x.1, 0, 0, 0, false⟩
          let (r0, s) := acc.2.2.form .icd 0xE6 5 0 x.1 [(128, 48, x.2), (176, 16, n), (192, 64, l.total + 1)]
          let l := l.append r0
          let r := recSet r0 256 384 l.head
          (put (tset acc.1 n l) 1024 r, acc.2.1 ++ [r], s)
        | none => acc) (lv, [], s)
      let lv := c.1
      let s : State := c.2.2
      let root := nodeHash lv 11 0
      let ents := lsum (lv.map fun p => p.2.count)
      let first := s.sc.first
      let hold := s.holdoverFlag .icd
      let keyId := Config.sha384 (natBytes 96 s.deviceKey) % 2 ^ 128
      let flds := [(128, 64, k), (192, 128, s.stampAt .icd t), (320, 32, ents), (352, 32, s.sc.lost), (384, 16, b2n s.sc.gapDue + 2 * b2n hold + 4 * b2n first),
        (448, 384, root), (832, 384, if first then 0 else s.sc.prevRoot), (1216, 128, keyId)]
      let body := (recBytes (mkRec 0xF6 17 0 s.iGid (s.seqOf .icd 0xF6) 0 flds)).take 168
      let sig := Config.signature s.deviceKey body
      let (r, s) := s.form .icd 0xF6 17 0 0 (flds ++ [(1344, 384, sig), (1728, 384, sig / 2 ^ 384)])
      let s : State := { (s.addOb .icd O.AuditLost 64 s.sc.lost) with sc := { s.sc with leaves := lv, closing := [], lost := 0, gapDue := false, first := false, prevRoot := root, agreed := none, entries := s.sc.entries.filter fun e => !inK e.2, sealed := tset s.sc.sealed k (now ++ c.2.1 ++ [r]) } }
      let s : State := (((s.auditGrow (c.2.1 ++ [r])).iSet O.LastSealInterval k).iSet O.LastRoot root).upSend stAudit r
      s.sc.slots.foldl (fun s p =>
        match tget lv p.2 with
        | some l =>
          if (match s.vfOf p.1 with | some v => s.i (vfKey O.TdiState v) == 2 | none => false) && s.isLead then
            let sibs := (siblings lv p.2).zipIdx.map fun x => (640 + 384 * x.2, 384, x.1)
            let (f, s) := s.form .icd 0xF7 38 0 p.1 ([(128, 64, k), (192, 11, p.2), (224, 32, l.count), (256, 384, l.head)] ++ sibs)
            (s.vfPost p.1 f).vfPost p.1 r
          else s
        | none => s) s

/-- AUDIT_SEAL_FORM. -/
def execAuditSealForm (k : Nat) : State → Host.Outcome State Fault Refusal := run (State.auditSealForm k)

/-- AUDIT_RACK: a sealed interval is copied to the archive, which keeps every interval above AuditExported (R500). -/
def State.auditRack (k : Nat) (s : State) : State :=
  match tget s.sc.sealed k, (List.range 4).find? fun p => bit (s.i O.Tier2Present) p with
  | some l, some p =>
    let kept := s.sc.archive.filter fun e => s.i O.AuditExported < e.1
    let cap := s.i O.AuditArchiveSize * 1073741824
    let room := cap - lsum (s.sc.archive.map fun e => auditSize e.2)
    let arch := if auditSize l ≤ room then s.sc.archive else kept
    if cap < lsum (arch.map fun e => auditSize e.2) + auditSize l then s
    else
      let bs := padPages (l.flatMap recBytes)
      let s : State := { s with sc := { s.sc with sealed := tdel s.sc.sealed k, archive := tset arch k l } }
      let s : State := s.put .pin (0x2000 + p) [k, bs.length / 4096, crc64 bs]
      (s.iSet O.AuditFill (s.i O.AuditFill - auditSize l)).auditCond
  | _, _ => s

/-- AUDIT_RACK. -/
def execAuditRack (k : Nat) : State → Host.Outcome State Fault Refusal := run (State.auditRack k)

end Sys2Proof.Machine
end

