-- ==== Sys2Proof/Machine/Series.lean ====
section
/-! DEFINITION. The series engine: the series table, drift detectors, forwarding, and the steps of partitions (R227–R249). -/

namespace Sys2Proof.Machine

/-! ### Parameters (R232, R233) -/

/-- The object of a series' parameters. -/
abbrev serParam (i : Nat) : Nat := inst128 O.SeriesParam i

/-- The parameters that apply to a sample of a series at an FT in ns. -/
def State.paramAt (i t : Nat) (s : State) : Nat :=
  match tget s.se.act i with
  | some a => if a.1 ≤ t then a.2.1 else (pastAt s.se.past i t).getD a.2.2
  | none => objDefault .icd (serParam i)

/-- TRANSFORM. -/
abbrev spTransform (p : Nat) : Nat := bits p 0 2

/-- SeriesWindow that applies at an FT, ns. -/
def State.windowAt (t : Nat) (s : State) : Nat := max 1 ((if s.se.win.1 ≤ t then s.se.win.2.1 else (pastAt s.se.past (2 ^ 12) t).getD s.se.win.2.2) * 1000000)

/-- Whether a Rebaseline value names a key: die 0xFFFFFF all, series 0xFFF all. -/
def rebaseHits (v key : Nat) : Bool :=
  (bits v 12 24 == 0xFFFFFF || bits v 12 24 == bits key 12 24) && (bits v 0 12 == 0xFFF || bits v 0 12 == bits key 0 12)

/-- The start of a new baseline (R236). -/
def SerEnt.newBase (e : SerEnt) (epoch : Nat) : SerEnt :=
  { e with flags := setBit (setBits e.flags 3 2 0) 2 true, alarms := 0, hi := 0, lo := 0, count := 0, base := epoch }

/-- Applies at a boundary, in ns, what was written since the last one (R233, R440): parameters, the window, Rebaseline. A new baseline begins with an entry's first sample at or after the boundary. -/
def State.seriesBoundary (t : Nat) (s : State) : State :=
  let s : State := s.se.changed.eraseDups.foldl (fun s i =>
    let v := s.i (serParam i)
    let old := s.paramAt i t
    let ents := if bits v 0 3 = bits old 0 3 then s.se.ents else s.se.ents.map fun p => if p.2.key % 4096 = i then (p.1, { p.2 with rebase := p.2.rebase ++ [t] }) else p
    let from_ := match tget s.se.act i with | some a => a.1 | none => 0
    { s with se := { s.se with act := tset s.se.act i (t, v, old), past := (i, from_, old) :: s.se.past, ents := ents } }) s
  let before := s.se.win
  let s : State := if s.se.winChanged then
      { s with se := { s.se with win := (t, s.i O.SeriesWindow, before.2.1), past := (2 ^ 12, before.1, before.2.1) :: s.se.past } }
    else s
  let ents := s.se.ents.map fun p => if s.se.rebase.any (rebaseHits · p.2.key) then (p.1, { p.2 with rebase := p.2.rebase ++ [t] }) else p
  { s with se := { s.se with changed := [], winChanged := false, rebase := [], ents := ents } }

/-- REBASELINE: takes effect at the next boundary for the keys it names, with no record (R233, R236). -/
def State.rebaselineOp (v : Nat) : Op := fun s => ({ s with se := { s.se with rebase := v :: s.se.rebase } }, ok)

/-- REBASELINE. -/
def execRebaseline (q : Req) (v : Nat) : State → Host.Outcome State Fault Refusal := run (State.reqWrite q O.Rebaseline v (State.rebaselineOp v))

/-- The entries of dies that leave become DORMANT at an epoch's start, in ns (R231). -/
def State.seriesLeave (dies : Tbl Nat) (t : Nat) (s : State) : State :=
  { s with se := { s.se with ents := s.se.ents.map fun p => if wordsNum dies (p.2.key / 4096) then (p.1, { p.2 with flags := setBit p.2.flags 1 true, lastFt := t }) else p } }

/-! ### The table (R229–R231) -/

/-- Bucket and preferred way of a key. -/
def State.seriesHash (key : Nat) (s : State) : Nat × Nat :=
  let h := crc32c (natBytes 4 (s.coldVal O.SeriesHashSeed) ++ natBytes 5 key)
  (h % 2 ^ 22, h / 2 ^ 22 % 8)

/-- Keeps SeriesEntries. -/
def State.seriesCount (s : State) : State := s.iSet O.SeriesEntries s.se.ents.length

/-- Finds a key's entry, or the way it is placed in: address, entry. A DORMANT entry whose hold has expired frees its way. -/
def State.seriesFind (key t : Nat) (s : State) : Option (Nat × SerEnt) × State :=
  let b := s.seriesHash key
  let n := s.epochAt (ns t)
  let start := s.epochStart n / 65536
  let expired := fun (e : SerEnt) => bit e.flags 1 && decide (e.lastFt + s.i O.DormantHold * 1000000000 ≤ start)
  let at_ := fun w => tget s.se.ents (b.1 * 8 + w)
  let order := b.2 :: (List.range 8).filter (· != b.2)
  let found := order.findSome? fun w => match at_ w with
    | some e => if e.key = key ∧ !expired e then some (b.1 * 8 + w, e) else none
    | none => none
  match found with
  | some x => (some x, s)
  | none =>
    let free := fun w => match at_ w with | some e => expired e | none => true
    match (if free b.2 then some b.2 else (List.range 8).find? free) with
    | some w =>
      let e : SerEnt := ⟨key, 5, 0, 0, 0, 0, 0, 0, 0, 0, 0, n, 0, true, []⟩
      (some (b.1 * 8 + w, e), { s with se := { s.se with ents := tset s.se.ents (b.1 * 8 + w) e } }.seriesCount)
    | none => (none, (s.addOb .icd O.SeriesOverflows 64 1).iSet O.LastOverflowKey key)

/-! ### Detectors (R234–R237) -/

/-- 2^e in binary64. -/
def f64pow (e : Int) : Nat := fround f64 false 1 e false

/-- The state of one evaluated sample: the entry after, z, σ, and the mean before. -/
def SerEnt.evaluate (e : SerEnt) (p x v t win : Nat) : SerEnt × Nat × Nat :=
  let alpha := f64pow (-(bits p 8 5 : Int))
  let sigma := fmax f64 (fsqrt f64 e.var) (f64pow ((bits p 48 8 : Int) - 64))
  let dev := fsub f64 x e.mean
  let first := e.count == 0
  let z := if first then 0 else fdiv f64 dev sigma
  let k16 := froundI f64 (bits p 32 8) (-4)
  let up := fun c z => fcvt f64 f32 (fmax f64 0 (fsub f64 (fadd f64 (fcvt f32 f64 c) z) k16))
  let dn := fun c z => fcvt f64 f32 (fmax f64 0 (fsub f64 (fsub f64 (fcvt f32 f64 c) z) k16))
  let mean := if first then x else fadd f64 e.mean (fmul f64 alpha dev)
  let var := if first then 0 else fmul f64 (fsub f64 (f64pow 0) alpha) (fadd f64 e.var (fmul f64 alpha (fmul f64 dev dev)))
  let x32 := fcvt f64 f32 x
  let newWin := t / win != e.lastFt / win
  let cnt := min (e.count + 1) 0xFFFF
  let flags := setBit e.flags 5 false
  ({ e with mean := mean, var := var, hi := up e.hi z, lo := dn e.lo z, wmin := if newWin then x32 else fmin f32 e.wmin x32,
            wmax := if newWin then x32 else fmax f32 e.wmax x32, count := cnt, last := v, lastFt := t, fresh := false,
            flags := if bits p 16 16 ≤ cnt then setBit flags 2 false else flags }, z, sigma)

/-- Writes a DriftAlarmRecord, which the lead delivers to operator, maintainer and auditor; KINDs 0–2 count and fire the trigger rules of kind 5, with the series' die as trigger GID (DESIGN CHOICE, log 162: R211 names the source, which here is the holding Icdon IX40) (R237, R211). -/
def State.driftRecord (e : SerEnt) (stm kind fl x mean sigma sum base : Nat) (s : State) : State :=
  let (r, s) := s.formOf (e.key / 4096) 0x81 5 0
    [(128, 128, stm), (256, 32, 2 ^ 24 + e.key / 4096), (288, 12, e.key), (304, 8, kind), (312, 8, fl), (320, 64, x), (384, 64, mean), (448, 64, sigma),
     (512, 32, sum), (544, 16, e.alarms), (560, 48, base)]
  let s : State := ((s.occur srcSeries none r).hostPost r).leadPost r
  if kind ≤ 2 then
    (s.iCount O.DriftAlarms).fireRules 5 (fun m => m % 4096 == 0xFFF || m % 4096 == e.key % 4096) (s.dieLink (2 ^ 24 + e.key / 4096)) (2 ^ 24 + e.key / 4096) (rSeq r) stm 0
  else s

/-- Alarms of an evaluated sample, in order KIND 0, 1, 3, 4, 2 (R236). DESIGN CHOICE (log 166): SUM of a SPIKE is the sum on the side of z (R237). -/
def State.seriesAlarms (addr : Nat) (e0 e : SerEnt) (p stm x z sigma : Nat) (s : State) : State :=
  let hold := b2n (bit stm 80)
  let lim := froundI f64 (bits p 40 8) (-2)
  let over_ := fun c => flt f64 lim (fcvt f32 f64 c)
  let rebaseOn := bit p 4
  let base := e.base
  let fire0 := over_ e.hi && !bit e0.flags 3
  let fire1 := over_ e.lo && !bit e0.flags 4
  let e := if fire0 then { e with flags := setBit e.flags 3 true, alarms := min (e.alarms + 1) 0xFFFF } else e
  let s : State := if fire0 then s.driftRecord e stm 0 (hold + if rebaseOn then 2 else 0) x e0.mean sigma e.hi base else s
  let e := if fire1 then { e with flags := setBit e.flags 4 true, alarms := min (e.alarms + 1) 0xFFFF } else e
  let s : State := if fire1 then s.driftRecord e stm 1 (hold + if rebaseOn then 2 else 0) x e0.mean sigma e.lo base else s
  let clr0 := bit e0.flags 3 && e.hi == 0
  let clr1 := bit e0.flags 4 && e.lo == 0
  let e := if clr0 then { e with flags := setBit e.flags 3 false } else e
  let s : State := if clr0 then s.driftRecord e stm 3 hold x e0.mean sigma e.hi base else s
  let e := if clr1 then { e with flags := setBit e.flags 4 false } else e
  let s : State := if clr1 then s.driftRecord e stm 4 hold x e0.mean sigma e.lo base else s
  let zl := bits p 56 8
  let spike := zl != 0 && flt f64 (froundI f64 zl (-2)) (z % f64.signBit)
  let s : State := if spike then s.driftRecord e stm 2 hold x e0.mean sigma (if bit z 63 then e.lo else e.hi) base else s
  let e := if (fire0 || fire1) && rebaseOn then e.newBase (s.epochAt (stampFt stm)) else e
  { s with se := { s.se with ents := tset s.se.ents addr e } }

/-- One sample of a series (R227, R231, R234, R235). DESIGN CHOICE (log 166): HOLDOVER of a forwarded entry is that of the last sample (R228). -/
def State.seriesTake (m : Sample) (s : State) : State :=
  let key := m.die * 4096 + m.ser
  let t := bits m.stm 16 64
  let p := s.paramAt m.ser t
  let touch := match tget s.se.touched key with | some x => (m.val, x.2.1 || m.gap, bit m.stm 80) | none => (m.val, m.gap, bit m.stm 80)
  let s : State := { s with se := { s.se with touched := tset s.se.touched key touch } }
  let tr := spTransform p
  if tr = 0 then s
  else
    let f := s.seriesFind key t
    let s : State := f.2
    match f.1 with
    | none => s
    | some (a, e) =>
      let put := fun (e : SerEnt) (s : State) => { s with se := { s.se with ents := tset s.se.ents a e } }
      if !e.fresh ∧ t ≤ e.lastFt then s.iCount O.SamplesDiscarded
      else if bit e.flags 1 then put { e with flags := setBit (setBit e.flags 1 false) 5 true, last := m.val, lastFt := t } s
      else
        let e := if e.rebase.any (decide <| · ≤ t) then { e.newBase (s.epochAt (stampFt m.stm)) with rebase := e.rebase.filter (decide <| t < ·) } else e
        let d : Nat := (m.val + 2 ^ 64 - e.last) % 2 ^ 64
        let seen := { e with last := m.val, lastFt := t, fresh := false }
        if tr ≠ 1 ∧ m.gap then put { seen with flags := setBit seen.flags 5 true } s
        else if tr ≠ 1 ∧ e.fresh then put seen s
        else if tr ≠ 1 ∧ 2 ^ 63 ≤ d then put { seen with flags := setBit seen.flags 7 true } s
        else
          let x := if tr = 1 then (if bit p 2 then fofInt f64 (toS 64 m.val) else fofInt f64 m.val)
            else if tr = 2 then fofInt f64 d
            else fmul f64 (fdiv f64 (fofInt f64 d) (fofInt f64 (t - e.lastFt : Nat))) (fofInt f64 1000)
          let r := e.evaluate p x m.val t (s.windowAt t)
          let e1 := { r.1 with flags := setBit r.1.flags 6 (bit m.stm 80) }
          if bit e.flags 2 ∧ e.count < bits p 16 16 then put e1 s else s.seriesAlarms a e e1 p m.stm x r.2.1 r.2.2

/-- Samples of a staged CounterSampleRecord, or of a SeriesForwardRecord from below (R227). -/
def State.samplesOf (slot : Nat) (r : Rec) (s : State) : List Sample :=
  if rType r = 0x31 then
    let stm := recFld r 128 128
    let n := recFld r 272 16
    ((s.sampleList slot (recFld r 256 16) n).zipIdx.take n).map fun p => ⟨rSrc r % 2 ^ 24, p.1, recFld r (384 + 64 * p.2) 64, stm, recFld r 288 1 == 1⟩
  else
    let stm := recFld r 128 128
    (r.drop 3).take (recFld r 256 32) |>.map fun u => ⟨bits u 0 24, bits u 24 12, bits u 64 64, setBit stm 80 (bit u 37), bit u 36⟩

/-- SERIES_SAMPLE: the series engine takes the next sample of the record it reads, or the next staged record, in the order of R18 (R227, R235). -/
def State.seriesSample (s : State) : State :=
  let s : State := match s.se.cur with
    | _ :: _ => s
    | [] => match s.unstage 1 with
      | some (e, s) => match s.stagedRead 0x0D02 e.slot e.rec_ with
        | (some r, s) => { s with se := { s.se with cur := s.samplesOf e.slot r } }
        | (none, s) => s
      | none => s
  match s.se.cur with
  | m :: t => { s with se := { s.se with cur := t } }.seriesTake m
  | [] => s

/-- SERIES_SAMPLE. -/
def execSeriesSample : State → Host.Outcome State Fault Refusal := run State.seriesSample

/-! ### Forwarding (R228, R439, R440) -/

/-- Sends a DecimationRecord before the first set at a new factor, with a copy to the event queue. -/
def State.decimationOut (port k : Nat) (s : State) : State :=
  match s.up.decOwed with
  | none => s
  | some old =>
    let d := s.i (inst O.DecimationFactor port)
    let first := if k % d = 0 then k else k + (d - k % d)
    let (stm, s) := s.takeStamp .icd fnRecord
    let (r, s) := s.form .icd 0x55 3 0 0 [(128, 8, old), (136, 8, d), (192, 64, first), (256, 128, stm)]
    ({ s with up := { s.up with decOwed := none } }.upSend stSeries r).occur srcUplink none r

/-- SERIES_FORWARD: at each ForwardInterval multiple that the decimation factor keeps, one entry per series that has FORWARD and was sampled, in records ordered by DIE and SERIES. -/
def State.seriesForward (s : State) : State :=
  let int := ms (max 1 (s.i O.ForwardInterval))
  let k := s.ft .icd / int
  let port := s.upPort.getD 0
  let d := max 1 (s.i (inst O.DecimationFactor port))
  if k ≤ s.se.fwdK ∨ s.role = 3 ∨ s.role = 0 then s
  else
    let s : State := { s with se := { s.se with fwdK := k } }
    if k % d ≠ 0 then s
    else
      let s : State := s.decimationOut port k
      let t := k * int / 65536
      let l := s.se.touched.filter fun p => bit (s.paramAt (p.1 % 4096) t) 3
      let us_ : Rec := l.map fun p => packFields [(0, 24, p.1 / 4096), (24, 12, p.1), (36, 1, b2n p.2.2.1), (37, 1, b2n p.2.2.2), (64, 64, p.2.1)]
      let s : State := { s with se := { s.se with touched := [] }, up := { s.up with lastSet := 16 * us_.length } }
      let stm := s.stampAt .icd (k * int)
      (List.range ((us_.length + 65531) / 65532)).foldl (fun s j =>
        let u := (us_.drop (65532 * j)).take 65532
        let (r, s) := s.form .icd 0x80 (3 + u.length) 0 0 [(128, 128, stm), (256, 32, u.length), (384, 128 * u.length, joinUnits u)]
        s.upSend stSeries r) s

/-- SERIES_FORWARD. -/
def execSeriesForward : State → Host.Outcome State Fault Refusal := run State.seriesForward

/-! ### Steps (R239–R246) -/

/-- Active step entries: entry number, StepConfig. -/
def State.stepEntries (s : State) : List (Nat × Nat) :=
  s.cd.filterMap fun p =>
    if 0x4100 ≤ keyIdx p.1 ∧ keyIdx p.1 ≤ 0x44FF ∧ keySub p.1 = 1 ∧ bits (s.i p.1) 16 16 ≠ 0 then some (keyIdx p.1 - 0x4100, s.i p.1) else none

/-- The step entry of a partition. -/
def State.stepEntry (part : Nat) (s : State) : Option (Nat × Nat) := s.stepEntries.find? fun e => bits e.2 0 16 == part

/-- Sends a record to a partition's VF with times rounded to 1 µs (R246). -/
def State.stepVf (part : Nat) (flds : List Nat) (r : Rec) (s : State) : State :=
  s.vfPost part (flds.foldl (fun r lo => let v := recFld r lo 64; if v = 2 ^ 64 - 1 then r else recSet r lo 64 (v / 1000 * 1000)) r)

/-- Delivers a step record of the home: event queue, the VF, and upward or, at the Apex, the host port (R246). -/
def State.stepOut (part : Nat) (flds : List Nat) (r : Rec) (s : State) : State :=
  let s : State := (s.occur srcSeries none r).stepVf part flds r
  if s.role = 3 then s.hostPost r else s.upSend stSeries r

/-- Step time of a member from its usable records: largest end minus smallest start. -/
def stepTime (l : List Rec) : Option Nat :=
  if l.isEmpty then none
  else some ((l.foldl (fun m r => max m (recFld r 320 64)) 0) - (l.foldl (fun m r => min m (recFld r 256 64)) (2 ^ 64)))

/-- The shard of a die's usable record of a step, else of its latest earlier step; all ones if none is known (R245). -/
def shardOf (l : Tbl Nat) (die step : Nat) : Nat :=
  match (sortBy (·.1) (l.filter fun p => p.1 / 2 ^ 32 == die && decide (p.1 % 2 ^ 32 ≤ step))).getLast? with | some p => p.2 | none => 0xFFFFFFFF

/-- Whether a history raises the flag under a StepConfig (R243). -/
def flaggedBy (cfg h : Nat) : Bool := decide (bits cfg 60 4 + 1 ≤ popCount 16 (h % 2 ^ (bits cfg 56 4 + 1)))

/-- STEP_CLOSE: quantiles, histories, the StepCloseRecord and advisories (R242–R245). -/
def State.stepClose (part cause : Nat) (o : StepOpen) (s : State) : State :=
  let e := (s.stepEntry part).getD (0, 0)
  let cfg := e.2
  let pct := bits (s.i (inst O.StepLimits e.1)) 0 8
  let n := bits cfg 56 4 + 1
  let m := bits cfg 60 4 + 1
  let sp := (tget s.se.steps part).getD ⟨[], [], [], [], []⟩
  let cur := (tget s.tw.parts part).map (·.words) |>.getD []
  let dies := wordsDies (wordsAnd o.members cur)
  let usable := fun d => o.recs.filter fun r => recFld r 128 32 == d && recFld r 224 1 == 0
  let ts := dies.map fun d => (d, stepTime (usable d))
  let rep := ts.filterMap (·.2)
  let bs := rep.foldl (fun l t => bucketAdd (sketchBucket t) 1 l) []
  let total := dies.length
  let q := fun p => quantile total p bs
  let p50 := q 50
  let noMed := p50 == 2 ^ 64 - 1
  let hold := o.recs.any fun r => recFld r 225 1 == 1
  let (r, s) := s.form .icd 0x83 5 0 part
    [(128, 32, o.step), (160, 32, total), (192, 32, rep.length), (224, 32, total - rep.length), (256, 64, p50), (320, 64, q 90), (384, 64, q 99),
     (448, 64, rep.foldl max 0), (512, 8, cause), (520, 8, b2n noMed + 2 * b2n hold)]
  let s : State := s.stepOut part [256, 320, 384, 448] r
  let shard := o.recs.foldl (fun t r => if recFld r 224 1 = 0 ∧ recFld r 160 32 ≠ 0xFFFFFFFF then tset t (recFld r 128 32 * 2 ^ 32 + o.step) (recFld r 160 32) else t) sp.shard
  let sp := { sp with open_ := sp.open_.filter fun x => x.step != o.step, closed := (o.step :: sp.closed).take 64, shard := shard }
  let thr := p50 * (100 + pct) / 100
  let r2 := if noMed then (sp, s) else ts.foldl (fun (acc : StepPart × State) d =>
    let sp := acc.1
    let slow := match d.2 with | none => true | some t => decide (thr < t)
    let h := (tgetD sp.hist d.1 0 * 2 + b2n slow) % 65536
    let fl := flaggedBy cfg h
    let was := sp.flagged.contains d.1
    let sp := { sp with hist := tset sp.hist d.1 h, flagged := if fl then (if was then sp.flagged else d.1 :: sp.flagged) else sp.flagged.filter (· != d.1) }
    if fl = was then (sp, acc.2)
    else
      let (a, s) := acc.2.form .icd 0x84 4 0 part
        [(128, 32, d.1), (160, 32, shardOf shard d.1 o.step), (192, 32, o.step), (224, 16, h), (240, 8, m), (248, 8, n),
         (256, 64, d.2.getD (2 ^ 64 - 1)), (320, 64, p50), (384, 64, thr),
         (448, 8, b2n (!fl) + 2 * b2n d.2.isNone + 4 * b2n hold + 8 * b2n (cause == 2))]
      let s : State := if fl then s.iCount O.Advisories else s
      (sp, s.stepOut part [256, 320, 384] a)) (sp, s)
  let s : State := { r2.2 with se := { r2.2.se with steps := tset r2.2.se.steps part r2.1 } }
  let s : State := s.iSet (inst O.OpenSteps e.1) r2.1.open_.length
  let s : State := if cause = 2 then s.iCount O.StepsForced else s
  if s.isLead then s.xMsg 0x241 ([part, o.step, cause] ++ o.recs.map fun r => recFld r 128 32 * 2 ^ 32 + rSeq r) else s

/-- Members of a partition at the opening of a step: its membership in the current epoch (R241). -/
def State.stepMembers (part : Nat) (s : State) : Tbl Nat :=
  match tget s.rd.epochs (s.i O.EpochNow) with
  | some ep => (match tget ep.parts part with | some p => p.1 | none => [])
  | none => (tget s.tw.parts part).map (·.words) |>.getD []

/-- Whether every member of a step that is still in the partition has a record without INVALID (R241). -/
def State.stepComplete (part : Nat) (o : StepOpen) (s : State) : Bool :=
  let cur := (tget s.tw.parts part).map (·.words) |>.getD []
  (wordsDies (wordsAnd o.members cur)).all fun d => o.recs.any fun x => recFld x 128 32 == d && recFld x 224 1 == 0

/-- STEP_RECORD at the home's lead: late, opening, joining; a ninth open step forces the oldest closed; all members reported closes (R241). Only the lead decides: the shadow takes the record and closes from the lead's set. -/
def State.stepRecord (r : Rec) (s : State) : State :=
  let part := rPart r
  match s.stepEntry part with
  | none => s
  | some e =>
    let step := recFld r 192 32
    let sp := (tget s.se.steps part).getD ⟨[], [], [], [], []⟩
    if sp.closed.contains step then s.iCount O.StepLate
    else
      let known := sp.open_.find? fun o => o.step == step
      let s : State := match known, sp.open_ with
        | none, o :: _ => if 8 ≤ sp.open_.length ∧ s.isLead then s.stepClose part 2 o else s
        | _, _ => s
      let sp := (tget s.se.steps part).getD ⟨[], [], [], [], []⟩
      let o : StepOpen := known.getD ⟨step, s.ft .icd, s.stepMembers part, []⟩
      let o := { o with recs := o.recs ++ [r] }
      let open_ := if known.isSome then sp.open_.map fun x => if x.step = step then o else x else sp.open_ ++ [o]
      let s : State := { s with se := { s.se with steps := tset s.se.steps part { sp with open_ := open_ } } }
      let s : State := s.iSet (inst O.OpenSteps e.1) open_.length
      if s.isLead && s.stepComplete part o then s.stepClose part 0 o else s

/-- STEP_RECORD. -/
def execStepRecord (r : Rec) : State → Host.Outcome State Fault Refusal := run (State.stepRecord r)

/-- The shadow closes a step that the lead has closed, from the lead's set of records: die × 2^32 + SEQUENCE; those of the set that it lacks are fetched (R241, R26). -/
def State.stepAgreed (part step cause : Nat) (set_ : List Nat) (fetched : List Rec) (s : State) : State :=
  let id := fun (r : Rec) => recFld r 128 32 * 2 ^ 32 + rSeq r
  let o := ((tget s.se.steps part).bind fun sp => sp.open_.find? fun o => o.step == step).getD ⟨step, s.ft .icd, s.stepMembers part, []⟩
  let lacked := fetched.filter fun r => !o.recs.any fun x => id x == id r
  s.stepClose part cause { o with recs := (o.recs ++ lacked).filter fun r => set_.contains (id r) }

/-- STEP_TIMEOUT: TIMEOUT_US after its opening a step closes with cause TIMEOUT; at a shadow, when the lead's set has come, with the cause of the lead (R241). -/
def State.stepTimeout (part step : Nat) (agreed : Option StepSet) (s : State) : State :=
  match agreed with
  | some a =>
    if s.isLead ∨ (((tget s.se.steps part).map (·.closed)).getD []).contains step then s else s.stepAgreed part step a.cause a.set_ a.fetched
  | none =>
    match s.stepEntry part, (tget s.se.steps part).bind fun sp => sp.open_.find? fun o => o.step == step with
    | some e, some o => if o.at_ + us (bits (s.i (inst O.StepLimits e.1)) 16 32) ≤ s.ft .icd ∧ s.isLead then s.stepClose part 1 o else s
    | _, _ => s

/-- STEP_TIMEOUT. -/
def execStepTimeout (part step : Nat) (agreed : Option StepSet) : State → Host.Outcome State Fault Refusal :=
  run (State.stepTimeout part step agreed)

/-- A Tray forms a StepTimeRecord for a CommandCounterRecord of an active step entry, consumed in place at a Tray that is the home, else sent in SERIES (R240). -/
def State.stepTimeOf (r : Rec) (s : State) : State :=
  match s.stepEntry (rPart r) with
  | some e =>
    if s.role ≠ 1 ∨ !bit (bits e.2 16 16) (recFld r 448 4) then s
    else
      let id := recFld r 128 64
      let cf := recFld r 488 24
      let sb := bits e.2 50 6
      let (t, s) := s.formOf (rSrc r) 0x82 3 (rPart r)
        [(128, 32, rSrc r), (160, 32, if sb = 0 then 0xFFFFFFFF else bits id (bits e.2 44 6) sb), (192, 32, bits id (bits e.2 32 6) (bits e.2 38 6)),
         (224, 16, b2n (bit cf 3 || bit cf 4 || bit cf 5) + 2 * b2n (recFld r 272 1 == 1 || recFld r 400 1 == 1) + 4 * b2n (bit cf 2)),
         (256, 64, recFld r 208 64), (320, 64, recFld r 336 64)]
      if s.i (inst O.StepHome e.1) = 1 then s.stepRecord t else s.upSend stSeries t
  | none => s

/-- Open steps of a torn-down partition close FORCED, and its histories go (R420, R243). -/
def State.stepsEnd (part : Nat) (s : State) : State :=
  let s : State := ((tget s.se.steps part).map (·.open_) |>.getD []).foldl (fun s o => s.stepClose part 2 o) s
  { s with se := { s.se with steps := tdel s.se.steps part } }

/-- Histories of dies that leave a partition are deleted (R243). -/
def State.stepsLeave (part : Nat) (dies : Tbl Nat) (s : State) : State :=
  match tget s.se.steps part with
  | some sp => { s with se := { s.se with steps := tset s.se.steps part { sp with hist := sp.hist.filter fun p => !wordsHas dies p.1, flagged := sp.flagged.filter fun d => !wordsHas dies d } } }
  | none => s

/-- After members have left a partition, the lead closes the steps whose other members have all reported (R241). -/
def State.stepsDone (part : Nat) (s : State) : State :=
  if !s.isLead then s
  else ((tget s.se.steps part).map (·.open_) |>.getD []).foldl (fun s o => if s.stepComplete part o then s.stepClose part 0 o else s) s

end Sys2Proof.Machine
end

