-- ==== Sys2Proof/Machine/Fleet.lean ====
section
/-! DEFINITION. Twins, heartbeats, quorum, handover, resync, membership, partitions and the broadcast tree (R404–R427, R508). -/

namespace Sys2Proof.Machine

/-! ### Slots and links on a change of identity or training (R12, R166, R545, R551) -/

/-- The default GID of the die in a slot: tray number × 64 + slot (R12). DESIGN CHOICE (log 105): the spec does not define the tray number; it is the low 18 bits of the NUMBER of the pair GID. -/
def dieGidOf (pair k : Nat) : Nat := 2 ^ 24 + pair % 2 ^ 18 * 64 + k

/-- What the Tray gives the Helad of a slot beside SlotAssign (R543): its values of 0x2001.02–.06 as proxied writes, and the asymmetries of the slot and of the fibre's spare. -/
def State.slotTimes (k : Nat) (s : State) : State :=
  let s : State := (List.range 5).foldl (fun s j => s.downSend k stControl (fwdRec 2 0 0 (s.i (O.FtStartValue + 1 + j)) (O.FtStartValue + 1 + j))) s
  (s.downSend k stControl (fwdRec 2 0 0 (s.i (O.DieLinkAsymmetry + k)) (O.DieLinkAsymmetry + k))).downSend k stControl
    (fwdRec 2 0 0 (s.i (O.DieLinkAsymmetry + 64 + k / 8)) (O.DieLinkAsymmetry + 64 + k / 8))

/-- The SlotAssignRecord of a slot on its downstream channel (R166, R545), with the values of R543. -/
def State.slotAssignSend (k : Nat) (s : State) : State :=
  let g := (tget s.ln.dieGid k).getD (dieGidOf s.pairGid k)
  let s : State := ({ s with ln := { s.ln with dieGid := tset s.ln.dieGid k g } } : State).learn g k true
  let (r, s) := s.form .icd 0x53 2 0 0 [(128, 8, k), (160, 32, g)]
  (s.downSend k stControl r).slotTimes k

/-- Step 1 of R166 at a Tray: every slot's downstream channel is lit and SlotAssign sent. -/
def State.slotAssignAll (s : State) : State := if s.role = 1 then (List.range 64).foldl (fun s k => (s.put .pin (0x800 + k) [1]).slotAssignSend k) s else s

/-- Receive streams of a link start anew at its next flits (R551). -/
def State.rxRestart (link : Nat) (s : State) : State := { s with ln := { s.ln with rx := s.ln.rx.filter fun p => p.1 / 16 != link } }

/-- When the pair GID becomes another, a Tray gives the dies that had the default number the one of the pair's tray number, and sends SlotAssign again (R12, R166, R545). `old`: the pair GID before. -/
def State.pairRenumber (old : Nat) (s : State) : State :=
  if s.role ≠ 1 ∨ s.pairGid = old ∨ s.ln.dieGid.isEmpty then s
  else
    let new := s.pairGid
    let gone := (s.ln.dieGid.filter fun p => p.2 == dieGidOf old p.1).map (·.2)
    let s : State := { s with ln := { s.ln with dieGid := s.ln.dieGid.map fun p => (p.1, if p.2 = dieGidOf old p.1 then dieGidOf new p.1 else p.2) }
                              tw := { s.tw with route := s.tw.route.filter fun p => !gone.contains p.1 } }
    (List.range 64).foldl (fun s k => s.slotAssignSend k) s

/-- A port whose links have trained again receives each stream from its next flit (R551). -/
def State.portRestart (p : Nat) (s : State) : State :=
  let u := s.portUse p
  if u = 1 then (s.downLinks.filter fun d => s.linkPort d == some p).foldl (fun s d => s.rxRestart (linkNum (.down d))) s
  else if u = 2 then s.rxRestart (linkNum .xlink)
  else s.rxRestart (linkNum (.port p))

/-- The pair-link transmitters of the ports with a use: lit with the alignment burst of R167, or dark (R21); the standby uplink stays dark until the pair has switched to it (R181). -/
def State.pairLinks (lit : Bool) (s : State) : State :=
  ((List.range 16).filter fun p => let u := s.portUse p; u == 1 || u == 3 || (u == 4 && s.pk.standby)).foldl (fun s p => s.put .pin (0x900 + p) [b2n (lit && !s.pk.dark_)]) s

/-- LEAD as the downstream flits of this device carry it (R161). -/
def State.leadFlag (on : Bool) (s : State) : State := s.put .pin 0x920 [b2n on]

/-- Sends again what the old lead had not transmitted: the contributions and results of every closed epoch after its POSTED_EPOCH (R411). -/
def State.resendEpochs (after : Nat) (s : State) : State :=
  (s.rd.epochs.filter fun p => decide (after < p.1) && p.2.closed).foldl (fun s p => (s.epochOut p.2 p.2.main false).postHome p.2) s

/-- A new lead rewrites the completions that its predecessor may not have written, with REPLAYED (R192, R203). -/
def State.replayUnsaid (s : State) : State :=
  s.pk.unsaid.foldl (fun s u => s.complete u.1 u.2.1 true ⟨u.2.2.1, u.2.2.2.1, u.2.2.2.2⟩) { s with pk := { s.pk with unsaid := [], replay := true } }

/-- Takes the lead (R411): open steps close by the records held (R249); TERM, TwinState, light, LEAD, ring processing from the acknowledged position, the unposted epochs, FT root at the Apex. -/
def State.takeLead (state : Nat) (s : State) : State :=
  let s : State := s.iSet O.LeadTerm ((s.i O.LeadTerm + 1) % 2 ^ 16)
  let s : State := ((s.setTwinState state).pairLinks true).leadFlag true
  let rings := s.pk.rings.map fun p => (p.1, { p.2 with cons := (tget s.pk.ackPos p.1).getD p.2.cons })
  let s : State := { s with pk := { s.pk with rings := rings }, tw := { s.tw with quorum := none, handover := none } }.replayUnsaid
  let s : State := (s.resendEpochs s.tw.twinPosted).lauterTakeover
  let s : State := s.se.steps.foldl (fun s p => s.stepsDone p.1) s
  if s.role = 3 ∧ s.i O.FtState ≠ 2 then s.ftChange .icd 2 0 0 false else s

/-- Decides a resync: its boundary is the first at least 1 ms ahead, and after a failure ResyncRetry later (R414). -/
def State.planResync (s : State) : State :=
  let t := s.ft .icd + ms 1
  let t := match s.tw.failedAt with | some f => max t (f + ms (s.i O.ResyncRetry)) | none => t
  { s with tw := { s.tw with resync := true, resyncAt := some (s.boundaryAfter t) } }

/-- Plans a handover at the first boundary at least 1 ms ahead, sending Handover with TERM, POSTED_EPOCH and the position of each ring; while the twin is not in SHADOW the cause waits (R413). -/
def State.planHandover (s : State) : State :=
  if s.tw.twinState = 3 ∧ s.isLead then
    let b := s.boundaryAfter (s.ft .icd + ms 1)
    { s with tw := { s.tw with handover := some b } }.xMsg 0x413 ([s.i O.LeadTerm, b, s.tw.posted] ++ s.pk.rings.flatMap fun (p : Nat × Ring) => [p.1, p.2.cons])
  else s

/-- Whether a port has lost every wavelength: its failed positions beyond what the spare replaces. -/
def State.portLost (s : State) (p : Nat) : Bool :=
  let d := tgetD s.pk.dark p 0
  let lost := popCount 8 d
  let spare := s.pk.spareUsed.contains p && !bit d 8
  decide (s.portWaves p + b2n spare ≤ lost)

/-- Whether the uplink in use has lost every wavelength while no standby uplink can serve (R181, R413). -/
def State.uplinkLost (s : State) : Bool :=
  match s.upPort with
  | some u => s.portLost u && (s.pk.standby || (match s.portOf 4 with | some b => s.portLost b | none => true))
  | none => false

/-- Whether the device calls itself DEGRADED: a slot above DegradeThreshold (R159), or observe-only mode (R472). -/
def State.degraded (s : State) : Bool := !s.ln.degraded.isEmpty || s.observeOnly

/-- Whether a cause of a planned handover stands (R413): a DEGRADED lead whose twin is not, a lost uplink, a DIVERGED lead, a twin update. -/
def State.handoverCause (s : State) : Bool :=
  (s.degraded && !s.tw.twinDeg) || s.uplinkLost || s.tw.diverged || s.pw.switchAt.isSome

/-- A lead for which a cause stands, with none planned yet, plans its handover (R413). -/
def State.handoverTest (s : State) : State := if s.isLead ∧ s.tw.handover.isNone ∧ s.handoverCause then s.planHandover else s

/-- Both twins begin with empty analysis state: series, steps, open supplements (R405). -/
def State.emptyAnalysis (s : State) : State :=
  ({ s with se := { s.se with ents := [], cur := [], touched := [], steps := [] }, rd := { s.rd with epochs := s.rd.epochs.map fun p => (p.1, { p.2 with vals := [], lateVals := [], childs := [] }) }, gr := { s.gr with staging := [] } } : State).seriesCount |> fun s => s.stepEntries.foldl (fun s e => s.iSet (inst O.OpenSteps e.1) 0) s

/-- PAIRING_MISMATCH (R3, R229): neither twin leads. Both stay OUT_OF_SERVICE, with dark pair links and no round, handover or resync under way, until the mismatched device returns corrected. -/
def State.outOfService (detail : Nat) (s : State) : State :=
  let s : State := if s.isLead then (s.pairLinks false).leadFlag false else s
  ({ s with tw := { s.tw with quorum := none, handover := none, resync := false, resyncAt := none, stopped := false, copied := false, freshAt := none }, pw := { s.pw with switchAt := none } }.setTwinState 7).iAlarm 0x040 3 0x0C00 detail

/-- The twins pair (R405): one that leads keeps the lead and the other receives its state; when neither serves, the lower GID NUMBER leads, both beginning empty at one boundary. A twin that was OUT_OF_SERVICE for a mismatch now mended pairs as one that has just come up (R3). -/
def State.pairUpTwins (peer state term : Nat) (s : State) : State :=
  let s : State := if s.i O.TwinState = 7 then s.setTwinState 1 else s
  if s.isLead then
    if (state = 2 ∨ state = 6) ∧ (s.i O.LeadTerm < term ∨ (s.i O.LeadTerm = term ∧ peer < s.iGid)) then
      (((s.setTwinState 5).pairLinks false).leadFlag false).planResync
    else { s with tw := { s.tw with twinState := if state = 2 ∨ state = 6 then 5 else 4 } }.planResync
  else if state = 2 ∨ state = 6 then (s.setTwinState 4).planResync
  else
    let b := s.boundaryAfter (s.ft .icd + ms 1)
    let s : State := { s with tw := { s.tw with freshAt := some b } }.iSet O.LeadTerm 1
    if s.iGid % 2 ^ 24 < peer % 2 ^ 24 then
      ((({ s with tw := { s.tw with twinState := 3 } }.setTwinState 2).pairLinks true).leadFlag true)
    else { s with tw := { s.tw with twinState := 2 } }.setTwinState 3

/-- FABRIC_LINK_UP: on the crosslink the twins exchange and compare identities, the role and seed that each took at its cold reset, and take their states; on the uplink the node regains its pair-link master; a relit link is served anchors anew, and its receivers take SEQUENCE from its first flits (R3, R39, R251, R405, R551). -/
def State.fabricLinkUp (port peer role seed state term : Nat) (s : State) : State :=
  let u := s.portUse port
  let s : State := { s.portRestart port with
    rd := { s.rd with served := s.rd.served.filter fun e => if u = 2 then e.1 != linkNum .xlink else s.linkPort (e.1 - 128) != some port }
    pk := { s.pk with dark := tdel s.pk.dark port, spareUsed := s.pk.spareUsed.filter (· != port), spareFor := tdel s.pk.spareFor port, retune := tdel s.pk.retune port } }
  if u = 3 ∨ u = 4 then { s with tm := { s.tm with pairUp := true } }
  else if u ≠ 2 then s
  else
    let old := s.pairGid
    let s : State := s.xMsg 0x405 [s.iGid, s.coldVal O.IcdonRole, s.coldVal O.SeriesHashSeed, s.i O.TwinState, s.i O.LeadTerm]
    let s : State := { s with tm := { s.tm with xlinkUp := true }, tw := { s.tw with twinGid := peer, twinState := state, peer := tset s.tw.peer xLinkNo peer } }.learn peer xLinkNo true |>.pairRenumber old
    let roleBad := role != s.coldVal O.IcdonRole
    let seedBad := seed != s.coldVal O.SeriesHashSeed
    if roleBad || seedBad then s.outOfService (b2n roleBad + 2 * b2n seedBad) else s.pairUpTwins peer state term

/-- FABRIC_LINK_UP. -/
def execFabricLinkUp (port peer role seed state term : Nat) : State → Host.Outcome State Fault Refusal :=
  run (State.keepMaster (State.fabricLinkUp port peer role seed state term))

/-! ### Heartbeats (R406, R407) -/

/-- Slots or ports whose reception this twin has lost. -/
def State.failedSlots (s : State) : Nat :=
  ((List.range 64).filter fun k => s.i (O.SlotState + k) == 5).length + ((List.range 16).filter fun p => s.portUse p != 0 && (tget s.pk.dark p).isSome).length

/-- The HeartbeatRecord of now. -/
def State.heartbeat (departing : Bool) (s : State) : Rec × State :=
  s.form .icd 0xE0 3 0 0
    [(128, 8, s.i O.TwinState), (136, 8, b2n s.degraded + 2 * b2n departing + 4 * b2n (s.role != 3 && !s.tm.pairUp) + 8 * b2n (s.i O.ThrottleStep != 0)),
     (144, 48, s.i O.EpochNow), (192, 48, s.tw.posted), (240, 32, s.i O.MemberVersion), (272, 16, s.failedSlots), (288, 16, s.i O.LeadTerm)]

/-- Sends a heartbeat on the crosslink, and as lead on the uplink and every downward pair link. -/
def State.heartbeatOut (departing : Bool) (s : State) : State :=
  let (r, s) := s.heartbeat departing
  ((s.xSend stControl r).upSend stControl r).childSend stControl r

/-- A departing membership message (R198, R406). -/
def State.departing (s : State) : State := { s with tw := { s.tw with departing := true } }.heartbeatOut true

/-- HEARTBEAT_SEND. -/
def State.heartbeatSend (s : State) : State :=
  let k := s.ft .icd / us (max 1 (s.i O.HeartbeatInterval))
  if k ≤ s.tw.hbSent ∨ s.role = 0 then s else { s with tw := { s.tw with hbSent := k } }.heartbeatOut s.tw.departing

/-- HEARTBEAT_SEND. -/
def execHeartbeatSend : State → Host.Outcome State Fault Refusal := run State.heartbeatSend

/-- Queues a membership change; its MemberEventRecord names the epoch of effect (R415). A die that was a member before joins as RETURNED. -/
def State.memberChange (gid : Nat) (leave : Bool) (cause after : Nat) (s : State) : State :=
  let b := s.boundaryAfter after
  let cause := if !leave ∧ wordsHas s.tw.past gid then 5 else cause
  let (r, s) := s.form .icd 0xE2 2 0 0 [(128, 32, gid), (160, 8, b2n leave), (168, 8, cause), (192, 48, s.epochFrom b)]
  (({ s with tw := { s.tw with changes := s.tw.changes ++ [⟨gid, leave, cause, b⟩] } } : State).occur srcMember none r).upSend stControl r

/-- A slot has reached ACTIVE with its GID assigned: the die joins at the first epoch at least 1 ms later (R415). -/
def State.memberJoin (gid : Nat) (s : State) : State :=
  if s.isMember gid ∨ (s.tw.changes.any fun c => c.gid == gid && !c.leave) then s else s.memberChange gid false 0 (s.ft .icd + ms 1)

/-- The dies of a child's subtree leave: one event names the child, and the dies' own events go upward (R415, R416). -/
def State.childLeave (port cause : Nat) (s : State) : State :=
  let w := tgetD s.tw.below port []
  let b := s.boundaryAfter (s.ft .icd)
  let gid := tgetD s.tw.peer port 0
  let (r, s) := s.form .icd 0xE2 2 0 0 [(128, 32, gid), (160, 8, 1), (168, 8, cause), (192, 48, s.epochFrom b)]
  let s : State := s.occur srcMember none r
  let s : State := { s with tw := { s.tw with removed := tset s.tw.removed port w, changes := s.tw.changes ++ (wordsDies w).map fun g => ⟨g, true, cause, b⟩ } }
  (wordsDies w).foldl (fun s g =>
    let (r, s) := s.form .icd 0xE2 2 0 0 [(128, 32, g), (160, 8, 1), (168, 8, cause), (192, 48, s.epochFrom b)]
    s.upSend stControl r) s

/-- A MemberEventRecord from below: the die is filed under its link and changes at the epoch it names. -/
def State.memberBelow (port : Nat) (r : Rec) (s : State) : State :=
  let g := recFld r 128 32
  let leave := recFld r 160 8 == 1
  let e := recFld r 192 48
  let at_ := ns (s.i O.EpochStartNs) + (e - s.i O.EpochNow) * s.epochLen
  let w := tgetD s.tw.below port []
  let w := if leave then w else wordsOr w (wordsOf [g])
  ({ s with tw := { s.tw with below := tset s.tw.below port w, homes := if leave then s.tw.homes else tset s.tw.homes g (rSrc r), changes := s.tw.changes ++ [⟨g, leave, recFld r 168 8, at_⟩] } } : State).learn (rSrc r) port false |>.learn g port false |>.upSend stControl r

/-- The witnesses of an Apex pair's quorum round (R410): the Row leads that ApexWitness names; each 0 stands for the next of the lowest-numbered child pairs. A Tray's or Row's are the two twins of its parent pair, of which no object names the GIDs: none is listed. -/
def State.witnesses (s : State) : List Nat :=
  if s.role ≠ 3 then []
  else
    let named := (List.range 3).map fun i => s.i (O.ApexWitness + i)
    let kids := (sortBy id ((s.tw.peer.filter fun p => p.1 < 64).map (·.2)).eraseDups).filter fun g => !named.contains g
    named.filter (· != 0) ++ kids.take (named.filter (· == 0)).length

/-- Declares the sender on a link silent (R407). -/
def State.declareSilent (link : Nat) (departed : Bool) (s : State) : State :=
  let s : State := { s with tw := { s.tw with silent := (link :: s.tw.silent).eraseDups, hbRun := tset s.tw.hbRun link 0 } }
  let s : State := if link = xLinkNo then s.priv 5 s.tw.twinGid else s
  if link = xLinkNo then
    if s.isLead then
      let s : State := { s with tw := { s.tw with twinState := 0 } }
      if s.i O.TwinState = 6 then s else (s.setTwinState 6).iAlarm 0x060 3 0x0C00 s.tw.twinGid
    else if s.i O.TwinState = 3 then
      if departed then s.takeLead 6
      else
        let now := s.ft .icd
        { s with tw := { s.tw with quorum := some (now, now, [s.iGid]) } }.put .eth 0x410 ([s.iGid, s.tw.twinGid, s.i O.LeadTerm] ++ s.witnesses)
    else s
  else if departed ∧ link < 64 then s.childLeave link 4
  else s

/-- HEARTBEAT_RECEIVE: clears SILENT; a removed child's dies rejoin after 16 consecutive; a lead whose twin is not eligible is ALONE until it is (R404); a higher TERM deposes a lead, and a twin that does not lead takes it as its own (DEDUCED, log 144); a handover whose cause still stands is planned once the twin is in SHADOW; an abandoned quorum round; DEPARTING declares at once (R406, R407, R410, R411, R416). -/
def State.heartbeatReceive (link : Nat) (r : Rec) (s : State) : State :=
  let st := recFld r 128 8
  let term := recFld r 288 16
  let run_ := tgetD s.tw.hbRun link 0 + 1
  let s : State := { s with tw := { s.tw with hbAt := tset s.tw.hbAt link (s.ft .icd), peer := tset s.tw.peer link (rSrc r), hbRun := tset s.tw.hbRun link run_, silent := s.tw.silent.filter (· != link) } }.learn (rSrc r) link true
  let s : State := match tget s.tw.removed link with
    | some w =>
      if run_ < 16 then s
      else (wordsDies w).foldl (fun s g => s.memberChange g false 5 (s.ft .icd + ms 1)) { s with tw := { s.tw with removed := tdel s.tw.removed link } }
    | none => s
  let s : State := if link ≠ xLinkNo then s
    else
      let s : State := { s with tw := { s.tw with twinGid := rSrc r, twinState := st, twinDeg := recFld r 136 1 == 1, twinNoUp := recFld r 138 1 == 1, twinPosted := if st = 2 ∨ st = 6 then recFld r 192 48 else s.tw.twinPosted } }
      let s : State := if (st = 2 ∨ st = 6) ∧ s.i O.LeadTerm < term then
          let s : State := s.iSet O.LeadTerm term
          if s.isLead then (((s.setTwinState 5).pairLinks false).leadFlag false).planResync else s
        else s
      let s : State := if s.i O.TwinState = 6 ∧ st = 3 then s.setTwinState 2
        else if s.i O.TwinState = 2 ∧ (st = 4 ∨ st = 5) then s.setTwinState 6 else s
      let s : State := if s.isLead ∧ (st = 4 ∨ st = 5) ∧ s.tw.resyncAt.isNone ∧ !s.tw.stopped then s.planResync else s
      let s : State := if st = 3 then s.handoverTest else s
      match s.tw.quorum with
      | some _ => if (st = 2 ∨ st = 6) ∧ term = s.i O.LeadTerm then { s with tw := { s.tw with quorum := none } } else s
      | none => s
  if recFld r 137 1 = 1 then s.declareSilent link true else s

/-- HEARTBEAT_RECEIVE. -/
def execHeartbeatReceive (link : Nat) (r : Rec) : State → Host.Outcome State Fault Refusal := run (State.keepMaster (State.heartbeatReceive link r))

/-- HEARTBEAT_SILENCE. -/
def State.heartbeatSilence (link : Nat) (s : State) : State :=
  match tget s.tw.hbAt link with
  | some t =>
    if s.ft .icd < t + s.i O.HeartbeatMiss * us (s.i O.HeartbeatInterval) + us 50 ∨ s.tw.silent.contains link then s
    else s.declareSilent link false
  | none => s

/-- HEARTBEAT_SILENCE. -/
def execHeartbeatSilence (link : Nat) : State → Host.Outcome State Fault Refusal := run (State.keepMaster (State.heartbeatSilence link))

/-! ### Quorum and handover (R410, R411, R413) -/

/-- QUORUM_QUERY at a witness: YES when it has itself received no heartbeat of that lead for 1,050 µs and has voted for no other twin in this TERM; NO in its own failover. -/
def State.quorumQuery (asker lead term : Nat) (s : State) : State :=
  let heard := s.tw.peer.any fun p => p.2 == lead && (match tget s.tw.hbAt p.1 with | some t => decide (s.ft .icd < t + us 1050) | none => false)
  let other := s.tw.voted.any fun v => v.1 == lead && v.2.1 == term && v.2.2 != asker
  let yes := !heard && !other && s.tw.quorum.isNone
  let s : State := if yes ∧ !(s.tw.voted.contains (lead, term, asker)) then { s with tw := { s.tw with voted := (lead, term, asker) :: s.tw.voted } } else s
  s.put .eth 0x411 [asker, s.iGid, b2n yes]

/-- QUORUM_QUERY. -/
def execQuorumQuery (asker lead term : Nat) : State → Host.Outcome State Fault Refusal := run (State.quorumQuery asker lead term)

/-- Votes that a shadow needs, its own among them: 2 of 3, at the Apex 3 of 4. -/
def State.quorumNeed (s : State) : Nat := if s.role = 3 then 3 else 2

/-- QUORUM_VOTE: a vote of a witness counts at a shadow; with a quorum within 5 ms of its declaration the shadow takes the lead. -/
def State.quorumVote (witness : Nat) (yes : Bool) (s : State) : State :=
  match s.tw.quorum with
  | none => s
  | some (t, q, l) =>
    if !yes ∨ l.contains witness ∨ s.i O.TwinState ≠ 3 ∨ (s.role = 3 ∧ !s.witnesses.contains witness) then s
    else
      let l := l ++ [witness]
      if s.quorumNeed ≤ l.length ∧ s.ft .icd ≤ t + ms 5 then s.takeLead 6
      else { s with tw := { s.tw with quorum := some (t, q, l) } }

/-- QUORUM_VOTE. -/
def execQuorumVote (witness : Nat) (yes : Bool) : State → Host.Outcome State Fault Refusal := run (State.keepMaster (State.quorumVote witness yes))

/-- QUORUM_RETRY. -/
def State.quorumRetry (s : State) : State :=
  match s.tw.quorum with
  | some (t, q, l) =>
    if s.ft .icd < q + ms 1 ∨ t + ms 5 ≤ s.ft .icd then s
    else { s with tw := { s.tw with quorum := some (t, s.ft .icd, l) } }.put .eth 0x410 ([s.iGid, s.tw.twinGid, s.i O.LeadTerm] ++ s.witnesses)
  | none => s

/-- QUORUM_RETRY. -/
def execQuorumRetry : State → Host.Outcome State Fault Refusal := run State.quorumRetry

/-- QUORUM_DEADLINE: DIVERGED, CROSSLINK_LOST. -/
def State.quorumDeadline (s : State) : State :=
  match s.tw.quorum with
  | some (t, _, _) =>
    if s.ft .icd < t + ms 5 then s
    else ((({ s with tw := { s.tw with quorum := none, resync := true } }).setTwinState 5).priv 6 0).iAlarm 0x061 3 0x0C00 0
  | none => s

/-- QUORUM_DEADLINE. -/
def execQuorumDeadline : State → Host.Outcome State Fault Refusal := run State.quorumDeadline

/-- LEAD_HANDOVER: refused with BUSY unless the twin is in SHADOW. -/
def State.leadHandoverOp : Op := fun s => if s.tw.twinState = 3 ∧ s.isLead then (s.planHandover, ok) else (s, no stBusy)

/-- LEAD_HANDOVER. -/
def execLeadHandover (q : Req) : State → Host.Outcome State Fault Refusal := run (State.reqWrite q O.LeadHandover 1 State.leadHandoverOp)

/-- HANDOVER_BOUNDARY: the lead, unless its twin has left SHADOW meanwhile and the cause waits again, darkens its pair links and becomes SHADOW, or stays DIVERGED; the shadow takes the lead without quorum (R413). -/
def State.handoverBoundary (msg : Option (Nat × Nat)) (s : State) : State :=
  if s.isLead then
    match s.tw.handover with
    | some b =>
      if s.ft .icd < b then s
      else if s.tw.twinState ≠ 3 then { s with tw := { s.tw with handover := none } }
      else
        let s : State := (s.pairLinks false).leadFlag false
        let d := s.tw.diverged
        let s : State := (s.setTwinState (if d then 5 else 3))
        let s : State := { s with tw := { s.tw with handover := none, twinState := 2, diverged := false } }
        if d then s.planResync else s
    | none => s
  else match msg with
    | some m =>
      if s.i O.TwinState = 3 then { (s.iSet O.LeadTerm m.1) with tw := { s.tw with twinPosted := m.2, twinState := 3 } }.takeLead 2 else s
    | none => s

/-- HANDOVER_BOUNDARY. -/
def execHandoverBoundary (msg : Option (Nat × Nat)) : State → Host.Outcome State Fault Refusal := run (State.keepMaster (State.handoverBoundary msg))

/-! ### Resync (R414) -/

/-- RESYNC_START: at R both twins stop their engines and spill; the joining twin discards its retained state. -/
def State.resyncStart (s : State) : State :=
  match s.tw.resyncAt with
  | none => s
  | some b =>
    if s.ft .icd < b then s
    else
      let s : State := { s with tw := { s.tw with resyncAt := none, stopped := true, copied := false } }
      if s.isLead then s else s.emptyAnalysis

/-- RESYNC_START. -/
def execResyncStart : State → Host.Outcome State Fault Refusal := run State.resyncStart

/-- A series entry in the map of R230. -/
def serUnits (e : SerEnt) : Nat :=
  packFields [(0, 36, e.key), (36, 12, e.flags), (48, 16, e.alarms), (64, 64, e.last), (128, 64, e.mean), (192, 64, e.var), (256, 32, e.hi), (288, 32, e.lo),
    (320, 32, e.wmin), (352, 32, e.wmax), (384, 64, e.lastFt), (448, 48, e.base), (496, 16, e.count)]

/-- The entry that a map of R230 holds. -/
def serOf (x : Nat) : SerEnt :=
  ⟨bits x 0 36, bits x 36 12, bits x 48 16, bits x 64 64, bits x 128 64, bits x 192 64, bits x 256 32, bits x 288 32, bits x 320 32, bits x 352 32,
    bits x 384 64, bits x 448 48, bits x 496 16, bits x 384 64 == 0 && bits x 496 16 == 0, []⟩

/-- Whether a unit's active image keeps state between epochs: a Mash image of OUTPUT_KIND PER_RECORD, any Steep image (R414). -/
def State.keepsState (u : Nat) (s : State) : Bool :=
  match tget s.ma.units u with
  | some f => !f.img.isEmpty && (16 ≤ u || recFld f.img 136 1 == 0)
  | none => false

/-- Whether an address lies in the context window of a Steep group's image (R325). -/
def State.inWindow (g a : Nat) (s : State) : Bool :=
  let h := (tget s.ma.units (16 + g)).elim [] (·.img)
  let lo := (recFld h 192 32 + 63) / 64 * 64 + (recFld h 224 32 + 63) / 64 * 64
  s.keepsState (16 + g) && decide (lo ≤ a ∧ a < lo + 16 * recFld h 168 16)

/-- The tile memories and context areas of the retained state, by place, address and byte (R414). -/
def State.retainedMem (s : State) : List (Nat × Nat × Nat) :=
  (s.ma.mem.filter fun p => s.keepsState (p.1 / 64)).flatMap (fun p => p.2.map fun c => (p.1, c.1, c.2.toNat)) ++
    s.sp.cores.flatMap fun p => (p.2.mem.filter fun c => s.inWindow (p.1 / 4) c.1).map fun c => (1024 + p.1, c.1, c.2.toNat)

/-- The joining twin discards its own tile memories and context areas, and loads the lead's (R414). -/
def State.retainedTake (l : List (Nat × Nat × Nat)) (s : State) : State :=
  let mem := l.foldl (fun m x => if x.1 < 1024 then tset m x.1 (memPut x.2.1 (BitVec.ofNat 8 x.2.2) (tgetD m x.1 [])) else m) (s.ma.mem.filter fun p => !s.keepsState (p.1 / 64))
  let cores := s.sp.cores.map fun p =>
    (p.1, { p.2 with mem := l.foldl (fun m x => if x.1 = 1024 + p.1 then memPut x.2.1 (BitVec.ofNat 8 x.2.2) m else m) (p.2.mem.filter fun c => !s.inWindow (p.1 / 4) c.1) })
  { s with ma := { s.ma with mem := mem }, sp := { s.sp with cores := cores } }

/-- Keeps the objects that show partitions. -/
def State.partObjects (s : State) : State :=
  ((s.iSet O.PartitionsActive (s.tw.parts.filter fun p => p.2.state == 2 || p.2.state == 3).length).iSet O.PartitionQueueFree (256 - s.tw.ops.length)).iSet
    O.PartitionStateOf (s.partState (s.i O.PartitionQuery))

/-- The partition table of a twin, as it goes into the copy (R414). -/
def State.partCopy (s : State) : State :=
  let s : State := s.xMsg 0x4143 (s.tw.parts.flatMap fun p => [p.1, p.2.state, p.2.effective, p.2.home] ++ wordsUnits p.2.words)
  let s : State := s.xMsg 0x414A (s.tw.parts.flatMap fun p => [p.1, tgetD s.sc.slots p.1 0, b2n p.2.test, p.2.endEpoch, p.2.since])
  let s : State := s.xMsg 0x414B (s.tw.parts.flatMap fun p => p.2.pend.flatMap fun c => [p.1, c.1, c.2.1, (wordsUnits c.2.2).length] ++ wordsUnits c.2.2)
  s.xMsg 0x414C (s.tw.parts.flatMap fun p => p.2.sealed.flatMap fun g => [p.1, g])

/-- The joining twin takes the lead's partition table; a partition that is new to it opens its leaf in the same slot (R414, R481). -/
def State.partLoad (t : Retained) (s : State) : State :=
  let parts := t.parts.map fun p =>
    let x := (t.partSlots.find? fun y => y.1 == p.1).elim (0, 0, 0, 0) (·.2)
    let pend := (t.partOps.filter fun y => y.1 == p.1).map fun y => (y.2.1, y.2.2.1, unitsWords y.2.2.2)
    (p.1, (⟨p.2.1, p.2.2.1, x.2.1 == 1, unitsWords p.2.2.2.2, p.2.2.2.1, pend, x.2.2.1, (t.partSealed.filter fun y => y.1 == p.1).map (·.2), x.2.2.2⟩ : Part))
  let s : State := { s with tw := { s.tw with parts := parts.foldl (fun l p => tset l p.1 p.2) [] } }
  t.partSlots.foldl (fun s x =>
    if tget s.sc.slots x.1 = some x.2.1 then s
    else s.leafOpen x.1 x.2.1 ((tget s.tw.parts x.1).elim 0 (·.effective))) { s with sc := { s.sc with slots := s.sc.slots.filter fun p => t.partSlots.any fun x => x.1 == p.1 && x.2.1 == p.2 } }

/-- RESYNC_COPY_DONE: the lead sends its copy over the crosslink and resumes. -/
def State.resyncCopyDone (s : State) : State :=
  if !s.isLead ∨ !s.tw.stopped then s
  else
    let s : State := { s with tw := { s.tw with stopped := false, copied := true, resync := false } }
    let s : State := s.xMsg 0x4140 (s.se.ents.flatMap fun p => [p.1, serUnits p.2])
    let s : State := s.xMsg 0x4141 (s.iSeq.flatMap fun p => [p.1, p.2])
    let s : State := s.xMsg 0x4142 (s.gr.casks.flatMap fun c => c.lo.flatMap fun p => [c.id, p.1, p.2])
    let s : State := s.xMsg 0x4144 (s.se.steps.flatMap fun p => [p.1, p.2.closed.length] ++ p.2.closed ++ [p.2.hist.length] ++ (p.2.hist.flatMap fun h => [h.1, h.2]) ++ (p.2.open_.flatMap fun o => o.recs.flatMap id))
    let s : State := s.xMsg 0x4147 (s.se.ents.flatMap fun p => p.2.rebase.flatMap fun t => [p.1, t])
    let s : State := s.xMsg 0x4148 (s.se.steps.flatMap fun p => p.2.shard.flatMap fun d => [p.1, d.1, d.2])
    let s : State := s.xMsg 0x4145 (s.rd.epochs.flatMap fun e => e.2.lateVals.flatMap fun v => [e.1, v.r, v.part, v.val, v.gid, v.seq, v.slot, v.st, v.fseq, b2n v.hold])
    let s : State := s.xMsg 0x4146 ((s.ln.dseq.filter fun p => p.1 % 16 == stControl || p.1 % 16 == stBulk).flatMap fun p => [p.1, p.2])
    let s : State := s.xMsg 0x4149 (s.retainedMem.flatMap fun x => [x.1, x.2.1, x.2.2])
    s.partCopy

/-- RESYNC_COPY_DONE. -/
def execResyncCopyDone : State → Host.Outcome State Fault Refusal := run State.resyncCopyDone

/-- RESYNC_RECEIVE_DONE: the joining twin loads the state, resumes with its spill and becomes SHADOW. -/
def State.resyncReceiveDone (t : Retained) (s : State) : State :=
  if s.isLead ∨ !s.tw.stopped then s
  else
    let casks := s.gr.casks.map fun c => { c with lo := t.bounds.foldl (fun l b => if b.1 = c.id then tset l b.2.1 b.2.2 else l) c.lo }
    let steps := t.closed.map fun p =>
      let h := t.hists.foldl (fun l x => if x.1 = p.1 then tset l x.2.1 x.2.2 else l) []
      let cfg := ((s.stepEntry p.1).getD (0, 0)).2
      let shard := t.shards.foldl (fun l x => if x.1 = p.1 then tset l x.2.1 x.2.2 else l) []
      (p.1, (⟨[], p.2, h, (h.filter fun x => flaggedBy cfg x.2).map (·.1), shard⟩ : StepPart))
    let ents := t.rebase.foldl (fun l p => match tget l p.1 with
      | some e => tset l p.1 { e with rebase := e.rebase ++ [p.2] }
      | none => l) (t.series.foldl (fun l p => tset l p.1 (serOf p.2)) [])
    let s : State := { s with
      se := { s.se with ents := ents, steps := steps },
      iSeq := t.seqs.foldl (fun l p => tset l p.1 p.2) s.iSeq,
      ln := { s.ln with dseq := t.flits.foldl (fun l p => tset l p.1 p.2) s.ln.dseq },
      gr := { s.gr with casks := casks },
      tw := { s.tw with stopped := false, resync := false, failedAt := none } }
    let s : State := ((s.retainedTake t.memory).partLoad t).partObjects
    let s : State := t.supp.foldl (fun s p => s.contributionReceive p.1 p.2) s.seriesCount
    let s : State := t.steps.foldl (fun s r => s.stepRecord r) s
    s.setTwinState 3

/-- RESYNC_RECEIVE_DONE. -/
def execResyncReceiveDone (t : Retained) : State → Host.Outcome State Fault Refusal := run (State.resyncReceiveDone t)

/-- RESYNC_OVERRUN: the attempt ends, the lead's epoch results carry STAGING_OVERRUN, and the resync is retried. -/
def State.resyncOverrun (s : State) : State :=
  if !s.tw.stopped ∧ !s.tw.copied then s
  else
    let s : State := { s with tw := { s.tw with stopped := false, copied := false, failedAt := some (s.ft .icd) } }
    let s : State := if s.isLead then s.overMark 0 else s
    s.planResync

/-- RESYNC_OVERRUN. -/
def execResyncOverrun : State → Host.Outcome State Fault Refusal := run State.resyncOverrun

/-- TWIN_WRITE_ACK_TIMEOUT: the lead's write stands; the shadow missed it and becomes DIVERGED (R508). -/
def State.twinWriteAckTimeout (pos : Nat) (s : State) : State :=
  if s.isLead ∧ 0 < pos ∧ pos ≤ s.mo.pos then { s with tw := { s.tw with twinState := 5 } }.planResync.xMsg 0x509 [pos] else s

/-- TWIN_WRITE_ACK_TIMEOUT. -/
def execTwinWriteAckTimeout (pos : Nat) : State → Host.Outcome State Fault Refusal := run (State.twinWriteAckTimeout pos)

/-! ### Membership (R415, R416) -/

/-- FAILED_REMOVE_HOLD. -/
def State.failedRemoveHold (slot : Nat) (s : State) : State :=
  let st := s.i (O.SlotState + slot)
  match tget s.tw.badFrom slot, tget s.ln.dieGid slot with
  | some t, some g =>
    if !s.observeOnly ∧ (st = 5 ∨ st = 6) ∧ t + ms (s.i O.FailedRemoveHold) ≤ s.ft .icd ∧ s.isMember g ∧ !(s.tw.changes.any fun c => c.gid == g && c.leave) then
      s.memberChange g true 1 (s.ft .icd)
    else s
  | _, _ => s

/-- FAILED_REMOVE_HOLD. -/
def execFailedRemoveHold (slot : Nat) : State → Host.Outcome State Fault Refusal := run (State.failedRemoveHold slot)

/-- CHILD_REMOVE_HOLD: the time counts from the declaration of silence. -/
def State.childRemoveHold (port : Nat) (s : State) : State :=
  match tget s.tw.hbAt port with
  | some t =>
    let declared := t + s.i O.HeartbeatMiss * us (s.i O.HeartbeatInterval) + us 50
    if s.tw.silent.contains port ∧ declared + ms (s.i O.ChildRemoveHold) ≤ s.ft .icd ∧ (tget s.tw.removed port).isNone then s.childLeave port 3 else s
  | none => s

/-- CHILD_REMOVE_HOLD. -/
def execChildRemoveHold (port : Nat) : State → Host.Outcome State Fault Refusal := run (State.childRemoveHold port)

/-- DIE_REMOVE: at the die's Tray a member, or one about to join, leaves at the first boundary at least 1 ms later; above it the request goes down the die's path (R415). -/
def State.dieRemoveOp (gid : Nat) : Op := fun s =>
  if gid / 2 ^ 24 ≠ 1 then (s, no stRange)
  else match s.dieLink gid with
    | none => (s, no stUnreachable)
    | some p =>
      if s.role ≠ 1 then (s.linkSend p stControl (fwdRec 0x64 0 0 gid gid), ok)
      else
        let joins := s.tw.changes.any fun c => c.gid == gid && !c.leave
        let leaves := s.tw.changes.any fun c => c.gid == gid && c.leave
        if (s.isMember gid || joins) && !leaves then (s.memberChange gid true 2 (s.ft .icd + ms 1), ok) else (s, ok)

/-- DIE_REMOVE. -/
def execDieRemove (q : Req) (reg : Bool) (gid : Nat) : State → Host.Outcome State Fault Refusal :=
  run (if reg then State.reqWrite q O.DieRemove gid (State.dieRemoveOp gid) else State.descriptor q (State.dieRemoveOp gid))

/-- Keeps StepHome of a partition's step entry (R241). -/
def State.stepHomeSet (part home : Nat) (s : State) : State :=
  match s.stepEntry part with
  | some e => s.iSet (inst O.StepHome e.1) home
  | none => s

/-- The step home after a membership change of a partition, as far as this device can tell it: a Tray tells its own subtree from the rest (R241). -/
def State.rehome (old : Nat) (words : Tbl Nat) (s : State) : Nat := if words.length ≤ 1 then 1 else if s.role = 1 then old else s.stepHomeOf words

/-- Membership changes whose boundary has come: members, version, series, steps, partitions and their step homes (R231, R241, R243, R415). -/
def State.memberBoundary (t : Nat) (s : State) : State :=
  let due := s.tw.changes.filter fun c => c.after ≤ t
  if due.isEmpty then s
  else
    let last := fun g => ((due.filter fun c => c.gid == g).getLast?.map (·.leave)).getD false
    let out := wordsOf ((due.filter fun c => c.leave && last c.gid).map (·.gid))
    let inn := wordsOf ((due.filter fun c => !c.leave && !last c.gid).map (·.gid))
    let parts := s.tw.parts.map fun p => (p.1, { p.2 with words := wordsSub p.2.words out })
    let s : State := s.tw.parts.foldl (fun s p => s.stepsLeave p.1 out) s
    let s : State := { s with tw := { s.tw with members := wordsOr (wordsSub s.tw.members out) inn, past := wordsOr s.tw.past out, parts := parts, below := s.tw.below.map fun p => (p.1, wordsSub p.2 (wordsSub out inn)), changes := s.tw.changes.filter fun c => !decide (c.after ≤ t) } }
    let s : State := s.tw.parts.foldl (fun s p => s.stepsDone p.1) s
    let s : State := { s with tw := { s.tw with parts := s.tw.parts.map fun p => (p.1, { p.2 with home := s.rehome p.2.home p.2.words }) } }
    let s : State := s.tw.parts.foldl (fun s p => s.stepHomeSet p.1 p.2.home) s
    let s : State := s.seriesLeave out (t / 65536)
    (s.addOb .icd O.MemberVersion 32 1).iSet O.MemberCount (wordsCount s.tw.members)

/-! ### Partitions (R418–R422) -/

/-- The members of a partition after one more operation (R419). -/
def wordsOp (op : Nat) (w words : Tbl Nat) : Tbl Nat := if op = 0 then words else if op = 1 then wordsOr w words else if op = 2 then wordsSub w words else []

/-- The members of a partition once its waiting operations have taken effect; from the teardown epoch on it has none (R419, R420). -/
def Part.after (x : Part) : Tbl Nat := if 4 ≤ x.state ∨ x.state = 0 then [] else x.pend.foldl (fun w c => wordsOp c.2.1 w c.2.2) x.words

/-- Delivers a PartitionEventRecord to operator, maintainer, auditor and the partition's VF (R422); `x`: the partition after the operation (DEDUCED, log 181). -/
def State.partEvent (x : Part) (op part cause effective : Nat) (words : Tbl Nat) (s : State) : Rec × State :=
  let u := wordsUnits words
  let (r, s) := s.form .icd 0xE3 (2 + u.length) 0 part
    [(128, 8, op), (136, 8, x.state), (144, 8, cause), (152, 8, x.home), (160, 48, effective), (208, 32, wordsCount x.after), (240, 16, u.length),
     (256, 128 * u.length, joinUnits u)]
  let s : State := if s.isLead then (((s.occur srcMember none r).hostPost r).mgmtPost r).vfPost part r else s
  (r, s)

/-- A partition as this device holds it; one that is FREE has nothing. -/
def State.partOf (s : State) (part : Nat) : Part := (tget s.tw.parts part).getD ⟨0, 0, false, [], 0, [], 0, [], 0⟩

/-- A refused operation's answer and record (R419). -/
def State.partRefuse (q : Req) (part st cause : Nat) (s : State) : State :=
  ((s.partEvent (s.partOf part) 6 part cause 0 []).2).answer q 0 true (no st) []

/-- An operation is accepted into the queue by the Apex lead, which answers it when it is processed; a full queue and an identifier that may not be assigned are refused at once (R419). -/
def State.partAccept (q : Req) (op part : Nat) (test : Bool) (set_ : Rec) (s : State) : State :=
  if !s.acked q then s
  else if !s.ringRights q || s.observeBlocks q then s.answer q 0 true (no stDenied) []
  else if !s.apexLead then s.answer q 0 true (no stDenied 8) []
  else if part = 0 ∨ part = 0xFFFF then s.partRefuse q part stMalformed 4
  else if 256 ≤ s.tw.ops.length then s.partRefuse q part stQueueFull 3
  else ({ s with tw := { s.tw with ops := s.tw.ops ++ [⟨op, part, test, unitsWords set_, q⟩] } } : State).partObjects

/-- PARTITION_CREATE. -/
def execPartitionCreate (q : Req) (part : Nat) (test : Bool) (set_ : Rec) : State → Host.Outcome State Fault Refusal :=
  run (State.partAccept q 0 part test set_)
/-- PARTITION_ADD. -/
def execPartitionAdd (q : Req) (part : Nat) (set_ : Rec) : State → Host.Outcome State Fault Refusal := run (State.partAccept q 1 part false set_)
/-- PARTITION_REMOVE. -/
def execPartitionRemove (q : Req) (part : Nat) (set_ : Rec) : State → Host.Outcome State Fault Refusal := run (State.partAccept q 2 part false set_)
/-- PARTITION_TEARDOWN. -/
def execPartitionTeardown (q : Req) (part : Nat) : State → Host.Outcome State Fault Refusal := run (State.partAccept q 3 part false [])

/-- Enters an operation in the partition table; it takes effect at its epoch. A CREATE takes a table slot (R419, R481). -/
def State.partEnter (op part epoch home : Nat) (test : Bool) (words : Tbl Nat) (s : State) : State :=
  let x := s.partOf part
  let x := if op = 0 then ⟨1, epoch, test, words, home, [], 0, [], 0⟩
    else { x with pend := x.pend ++ [(epoch, op, words)], home := if op = 3 then x.home else home }
  let s : State := { s with tw := { s.tw with parts := tset s.tw.parts part x } }
  let s : State := if op = 0 then s.leafCreate part epoch else s
  (s.stepHomeSet part home).partObjects

/-- The member set of a partition after an operation and those that wait before it; a teardown leaves its step home. -/
def State.partAfter (op part : Nat) (words : Tbl Nat) (s : State) : Tbl Nat :=
  let w := (s.partOf part).after
  if op = 3 then w else wordsOp op w words

/-- Sends an operation to every pair whose subtree holds a member of the partition, held one, or holds a die that the operation names (R419). `before`: the members before the operation. -/
def State.partDown (before words : Tbl Nat) (part : Nat) (r : Rec) (s : State) : State :=
  let now := (tget s.tw.parts part).elim [] (·.words)
  let w := wordsOr (wordsOr before words) now
  if s.isLead then (s.downLinks.filter fun d => !(wordsAnd w (tgetD s.tw.below d [])).isEmpty).foldl (fun s d => s.linkSend d stControl r) s else s

/-- PARTITION_OP_PROCESS: the Apex lead checks the oldest operation, assigns EFFECTIVE_EPOCH, enters it, answers, writes its record and sends it down (R419, R421). -/
def State.partitionOpProcess (s : State) : State :=
  match s.tw.ops with
  | [] => s
  | o :: rest =>
    if !s.apexLead then s
    else
      let s : State := ({ s with tw := { s.tw with ops := rest } } : State).partObjects
      let st := s.partState o.part
      let used := (s.tw.parts.filter fun p => 1 ≤ p.2.state && p.2.state ≤ 5).length
      let cause := if (o.op = 0 ∧ st ≠ 0) ∨ (o.op ≠ 0 ∧ st ≠ 2 ∧ st ≠ 3) then 1
        else if o.op = 0 ∧ 1024 ≤ used then 2
        else if !(wordsSub o.words s.tw.members).isEmpty then 5 else 0
      if cause ≠ 0 then s.partRefuse o.req o.part stMalformed cause
      else
        let e := s.epochFrom (s.boundaryAfter (s.ft .icd + ms 1))
        let home := s.stepHomeOf (s.partAfter o.op o.part o.words)
        let before := (tget s.tw.parts o.part).elim [] (·.words)
        let s : State := s.partEnter o.op o.part e home o.test o.words
        let (r, s) := s.partEvent (s.partOf o.part) o.op o.part 0 e o.words
        (s.partDown before o.words o.part (recSet r 12 4 (b2n o.test))).answer o.req 0 true ok []

/-- PARTITION_OP_PROCESS. -/
def execPartitionOpProcess : State → Host.Outcome State Fault Refusal := run State.partitionOpProcess

/-- PARTITION_OP_APPLY: a device below applies an operation in the order received and passes it on. -/
def State.partitionOpApply (r : Rec) (test : Bool) (s : State) : State :=
  let op := recFld r 128 8
  if s.role = 3 ∨ 3 < op then s
  else
    let before := (tget s.tw.parts (rPart r)).elim [] (·.words)
    let words := unitsWords ((r.drop 2).take (recFld r 240 16))
    let s : State := s.partEnter op (rPart r) (recFld r 160 48) (recFld r 152 8) test words
    if s.role = 2 then s.partDown before words (rPart r) r else s

/-- PARTITION_OP_APPLY. -/
def execPartitionOpApply (r : Rec) (test : Bool) : State → Host.Outcome State Fault Refusal := run (State.partitionOpApply r test)

/-- Partition operations that take effect at the epoch that begins, at `t` in ns (R231, R418–R420). -/
def State.partBoundary (epoch t : Nat) (s : State) : State :=
  s.tw.parts.foldl (fun s p =>
    match tget s.tw.parts p.1 with
    | none => s
    | some x =>
      let x := if x.state = 1 ∧ x.effective ≤ epoch then { x with state := if x.test then 3 else 2 } else x
      let due := x.pend.filter fun c => decide (c.1 ≤ epoch)
      let x := { x with pend := x.pend.filter fun c => !decide (c.1 ≤ epoch) }
      let r := due.foldl (fun (acc : Part × State) c =>
        let x := acc.1
        if c.2.1 = 1 then ({ x with words := wordsOr x.words c.2.2 }, acc.2)
        else if c.2.1 = 2 then ({ x with words := wordsSub x.words c.2.2 }, (acc.2.stepsLeave p.1 c.2.2).seriesLeave (wordsAnd x.words c.2.2) t)
        else if x.state ≠ 2 ∧ x.state ≠ 3 then acc
        else ({ x with state := 4, endEpoch := c.1 }, (acc.2.stepsEnd p.1).seriesLeave x.words t)) (x, s)
      let s : State := r.2
      let s : State := { s with tw := { s.tw with parts := tset s.tw.parts p.1 r.1 } }
      if due.any fun c => c.2.1 == 2 then s.stepsDone p.1 else s) s |>.partObjects

/-- PARTITION_DRAIN_END: the last supplement of epoch e_t − 1 has closed at the Apex's level; the partition enters SEALING (R418, R420). -/
def State.partitionDrainEnd (part : Nat) (s : State) : State :=
  match tget s.tw.parts part with
  | some x =>
    let endNs := s.i O.EpochStartNs + (x.endEpoch - s.i O.EpochNow) * s.rd.len - (s.i O.EpochNow - x.endEpoch) * s.rd.len
    if x.state ≠ 4 ∨ s.ft .icd < ns endNs + ms (s.i O.SupplementHold) + 3 * us (s.i O.GracePerLevel) then s
    else ({ s with tw := { s.tw with parts := tset s.tw.parts part { x with state := 5 } } }.partitionSealing part x.endEpoch).partObjects
  | none => s

/-- PARTITION_DRAIN_END. -/
def execPartitionDrainEnd (part : Nat) : State → Host.Outcome State Fault Refusal := run (State.partitionDrainEnd part)

/-- Peers below that hold members of a partition. -/
def State.holders (x : Part) (s : State) : List Nat :=
  s.downLinks.filterMap fun p => if (wordsAnd x.words (tgetD s.tw.below p [])).isEmpty then none else tget s.tw.peer p

/-- PARTITION_SEALED: when this device and every holder below have sealed it, QUARANTINE begins and the report goes upward (R420). -/
def State.partitionSealed (part gid : Nat) (s : State) : State :=
  match tget s.tw.parts part with
  | some x =>
    if x.state ≠ 5 then s
    else
      let x := { x with sealed := (gid :: x.sealed).eraseDups }
      if x.sealed.contains s.iGid && (s.holders x).all x.sealed.contains then
        let s : State := { s with tw := { s.tw with parts := tset s.tw.parts part { x with state := 6, since := s.ft .icd } } }
        let (r, s) := s.partEvent (s.partOf part) 4 part 0 x.endEpoch []
        (s.upSend stControl r).partObjects
      else { s with tw := { s.tw with parts := tset s.tw.parts part x } }
  | none => s

/-- PARTITION_SEALED. -/
def execPartitionSealed (part gid : Nat) : State → Host.Outcome State Fault Refusal := run (State.partitionSealed part gid)

/-- PARTITION_QUARANTINE_END: the identifier is FREE again, its slot and leaf are released (R418, R481). -/
def State.partitionQuarantineEnd (part : Nat) (s : State) : State :=
  match tget s.tw.parts part with
  | some x =>
    if x.state ≠ 6 ∨ s.ft .icd < x.since + s.i O.PartitionQuarantine * ns 1000000000 then s
    else
      let s : State := { s with tw := { s.tw with parts := tdel s.tw.parts part } }
      let s : State := (s.partEvent { x with state := 0 } 5 part 0 x.endEpoch []).2
      (s.leafFree part).partObjects
  | none => s

/-- PARTITION_QUARANTINE_END. -/
def execPartitionQuarantineEnd (part : Nat) : State → Host.Outcome State Fault Refusal := run (State.partitionQuarantineEnd part)

/-- Whether a record of a partition is stale: its identifier is FREE or in QUARANTINE, or its stamp lies at or after e_t (R420). -/
def State.staleRecord (part stm : Nat) (s : State) : Bool :=
  part != 0 && (match tget s.tw.parts part with
    | none => true
    | some x => x.state == 6 || ((x.state == 4 || x.state == 5) && decide (x.endEpoch ≤ s.epochAt (stampFt stm))))

/-! ### The broadcast tree (R423–R425) -/

/-- The SignatureBlock that follows the manifest of a signed image (R489). -/
def sigBlock (image : List Nat) : List Nat := (image.drop 128).take 256

/-- KEY_ID of a trust-list entry: the first 128 bits of SHA-384 of its key (R489). -/
def State.signerKeyId (n : Nat) (s : State) : List Nat := natBytes 16 (Config.sha384 (natBytes 96 (s.i (O.SignerKey + n))))

/-- Whether a SignatureBlock has ALG 1 and names an enabled trust-list entry whose SignerKinds permits the kind (R490). -/
def State.signerOk (kind : Nat) (blk : List Nat) (s : State) : Bool :=
  let kinds := s.i (O.SignerKinds + blk.getD 1 0)
  blk.getD 0 0 == 1 && decide (blk.getD 1 0 < 8) && bit kinds 7 && bit kinds kind

/-- The four conditions of R490, of which `sigOk` is that the signature verifies (log 8). -/
def State.signed (kind : Nat) (sigOk : Bool) (blk : List Nat) (s : State) : Bool :=
  sigOk && s.signerOk kind blk && (blk.drop 16).take 16 == s.signerKeyId (blk.getD 1 0)

/-- Keeps TransfersOpen. -/
def State.transferCount (s : State) : State := s.iSet O.TransfersOpen (s.tw.transfers.filter fun p => !p.2.done).length

/-- Tier 1 address of a destination slot and the bytes it holds: a Lauter slot's node array and set area; the halves of the image region (R276, R310, R346). -/
def State.imagePlace (m : Nat) (s : State) : Option (Nat × Nat) :=
  let slot := bits m 16 8
  if mfKind m = 1 ∧ slot < 8 then some (s.nodeBase slot, 335544320)
  else if mfKind m = 2 ∧ slot < 64 then some (s.regionBase 6 + slot * 8388608, 8388608)
  else if mfKind m = 3 ∧ slot < 64 then some (s.regionBase 6 + 536870912 + slot * 8388608, 8388608)
  else none

/-- Whether the state of a destination slot lets an image be written (R283, R310): kinds that name no slot are always free. -/
def State.imageFree (m : Nat) (s : State) : Bool :=
  let slot := bits m 16 8
  if mfKind m = 1 then slot < 8 && s.slotFree slot
  else if mfKind m = 2 ∨ mfKind m = 3 then
    let st := s.i (inst (if mfKind m = 2 then O.MashImageState else O.SteepImageState) slot)
    slot < 64 && (st == 0 || st == 2 || st == 4)
  else true

/-- The destination slot shows LOADING (1) while an image comes, EMPTY (0) when its transfer fails. -/
def State.imageMark (m v : Nat) (s : State) : State :=
  let slot := bits m 16 8
  if mfKind m = 1 then s.slotDrop slot v
  else if mfKind m = 2 then s.iSet (inst O.MashImageState slot) v
  else if mfKind m = 3 then s.iSet (inst O.SteepImageState slot) v
  else s

/-- The bytes of a transfer from an offset, as far as they have come without a gap. -/
def Transfer.bytes (t : Transfer) (off : Nat) : List Nat := (t.chunks.flatMap (·.2)).drop off

/-- Sends this subtree's BroadcastStatusRecord when it has finished; the Apex posts it (R424). -/
def State.transferStatus (id : Nat) (s : State) : State :=
  match tget s.tw.transfers id with
  | none => s
  | some t =>
    let kids := (s.castLinks t.manifest).filter fun p => (tget s.tw.peer p).isSome
    if !t.done ∨ t.sent ∨ !kids.all t.heard.contains then s
    else
      let own := s.castOwn t.manifest
      let c := t.complete + b2n (own && t.cause == 0)
      let f := t.failed + b2n (own && t.cause != 0)
      let fg := if own ∧ t.cause ≠ 0 ∧ (t.firstGid = 0 ∨ s.iGid < t.firstGid) then (s.iGid, t.cause) else (t.firstGid, t.firstCause)
      let (r, s) := s.form .icd 0xE5 3 0 0 [(128, 32, id), (160, 32, c), (192, 32, f), (224, 32, fg.1), (256, 8, fg.2)]
      let s : State := { s with tw := { s.tw with transfers := tset s.tw.transfers id { t with sent := true } } }
      if s.role = 3 then s.hostPost r else s.upSend stControl r

/-- A transfer ends at this node, with a cause or none (R424). -/
def State.transferEnd (id cause : Nat) (s : State) : State :=
  match tget s.tw.transfers id with
  | none => s
  | some t =>
    let s : State := { s with tw := { s.tw with transfers := tset s.tw.transfers id { t with done := true, cause := cause } } }
    let s : State := if cause = 0 then s else s.iCount O.BroadcastFailed
    (s.transferCount).transferStatus id

/-- The writes of an OBJECT_BLOCK's bytes. -/
def blockWrites (bs : List Nat) : List (Nat × Nat) :=
  (List.range (bs.length / 16)).map fun k =>
    let e := bytesNat ((bs.drop (16 * k)).take 16)
    (bits e 0 16 * 256 + bits e 16 8, bits e 64 64)

/-- The image is complete: its digest is compared; an OBJECT_BLOCK's writes are queued at INSTANT, those of the UT settings at once with INSTANT as their reference FT (R59); a slot's validation follows (R423, R424). What an image holds beyond its slot's bytes is not written (DESIGN CHOICE, log 176: R310 gives the slot's size and names no refusal). -/
def State.transferLast (id : Nat) (s : State) : State :=
  match tget s.tw.transfers id with
  | none => s
  | some t =>
    let body := t.bytes 384
    let m := t.manifest
    let good := Config.blake3 body % 2 ^ 128 == bits m 128 128 && body.length == bits m 64 64
    if !s.castOwn m then s.transferEnd id 0
    else if !good then
      let s : State := s.imageMark m 0
      s.transferEnd id 2
    else
      let s : State := match s.imagePlace m with
        | some p =>
          let image := body.take p.2
          let s : State := if mfKind m = 1 then s.modelWrite (bits m 16 8) image else s.t1Write 0x0C00 p.1 image
          { s with tw := { s.tw with landed := tset s.tw.landed (mfKind m * 256 + bits m 16 8) image.length } }
        | none => s
      let s : State := if mfKind m = 4 then
          let ds := libraryDescs body
          s.holdLibrary (recFld (ds.headD []) 192 32) ds (body.drop (128 * ds.length)) else s
      let ws := blockWrites body
      let ut := mfKind m == 5 && !ws.isEmpty && ws.all fun w => keyIdx w.1 == 0x2010
      let at_ := if ut then 0 else bits m 320 80
      let s : State := if ut then { s with tm := { s.tm with utRef := bits m 320 80 } } else s
      let s : State := if mfKind m = 5 then ws.foldl (fun s w =>
          let (h, s) := s.newHandle
          (s.queueAct .icd ⟨h, 6, if at_ = 0 then s.ft .icd else at_, 0, 0, 0, w.1, w.2, true, false, s.ft .icd⟩).1) s else s
      s.transferEnd id 0

/-- BROADCAST_CHUNK: FIRST is checked for its signature (R490) and its slot before any byte is written; an OBJECT_BLOCK that the Apex lead itself spreads bears no signature (DESIGN CHOICE, log 157); every chunk is forwarded and kept; at LAST the digest decides; a gap is asked for from the parent (R424). -/
def State.broadcastChunk (r : Rec) (sigOk : Bool) (s : State) : State :=
  let id := recFld r 128 32
  let n := recFld r 160 16
  let fl := recFld r 176 8
  let off := recFld r 192 64
  let data := ((recBytes r).drop 48).take n
  match tget s.tw.transfers id with
  | none =>
    if !bit fl 0 then s
    else
      let m := bytesNat (data.take 128)
      let fwd := s.castDown m r
      if 8 ≤ (s.tw.transfers.filter fun p => !p.2.done).length then fwd
      else
        let own := s.castOwn m
        let sg := (mfKind m == 5 && (sigBlock data).all (· == 0)) || s.signed (mfKind m) sigOk (sigBlock data)
        let cause := if !own then 0 else if !sg then 1 else if !s.imageFree m then 3 else 0
        let t : Transfer := ⟨m, [(off, data)], bits m 64 64 + 384, s.ft .icd, cause, false, 0, 0, 0, 0, [], false⟩
        let s : State := ({ fwd with tw := { fwd.tw with transfers := tset fwd.tw.transfers id t } } : State).transferCount
        if cause ≠ 0 then s.transferEnd id cause
        else
          let s : State := if own then s.imageMark m 1 else s
          if bit fl 1 then s.transferLast id else s
  | some t =>
    let fwd := s.castDown t.manifest r
    if t.done then fwd
    else
      let t := { t with chunks := tset t.chunks off data }
      let s : State := { fwd with tw := { fwd.tw with transfers := tset fwd.tw.transfers id t } }
      let have_ := lsum (t.chunks.map fun p => p.2.length)
      if t.size ≤ have_ then s.transferLast id
      else if bit fl 1 then
        let missing := (List.range ((t.size + 4095) / 4096)).filterMap fun k => if (tget t.chunks (k * 4096)).isNone then some (k * 4096) else none
        missing.foldl (fun s o => s.upSend stControl (fwdRec 0x424 id 0 o s.iGid)) s
      else s

/-- BROADCAST_CHUNK. -/
def execBroadcastChunk (r : Rec) (sigOk : Bool) : State → Host.Outcome State Fault Refusal := run (State.broadcastChunk r sigOk)

/-- BROADCAST_RESEND_REQUEST: the lead resends the chunks it holds with RESENT. -/
def State.broadcastResend (port id : Nat) (offsets : List Nat) (s : State) : State :=
  match tget s.tw.transfers id with
  | none => s
  | some t =>
    offsets.foldl (fun s o => match tget t.chunks o with
      | some d =>
        let last := decide (t.size ≤ o + d.length)
        let (r, s) := s.form .icd 0xE4 (3 + (d.length + 15) / 16) 0 0
          [(128, 32, id), (160, 16, d.length), (176, 8, b2n (o == 0) + 2 * b2n last + 4), (192, 64, o), (384, 8 * d.length, bytesNat d)]
        if s.isLead then s.linkSend port stBulk r else s
      | none => s) s

/-- BROADCAST_RESEND_REQUEST. -/
def execBroadcastResendRequest (port id : Nat) (offsets : List Nat) : State → Host.Outcome State Fault Refusal :=
  run (State.broadcastResend port id offsets)

/-- BROADCAST_STATUS: a child's counts are merged; the failed target of lowest GID stands first (R424). -/
def State.broadcastStatus (port : Nat) (r : Rec) (s : State) : State :=
  let id := recFld r 128 32
  match tget s.tw.transfers id with
  | none => s
  | some t =>
    if t.heard.contains port then s
    else
      let g := recFld r 224 32
      let first := if g ≠ 0 ∧ (t.firstGid = 0 ∨ g < t.firstGid) then (g, recFld r 256 8) else (t.firstGid, t.firstCause)
      let t := { t with heard := port :: t.heard, complete := t.complete + recFld r 160 32, failed := t.failed + recFld r 192 32, firstGid := first.1, firstCause := first.2 }
      let s : State := { s with tw := { s.tw with transfers := tset s.tw.transfers id t } }
      (s.addOb .icd O.BroadcastFailed 32 (recFld r 192 32)).transferStatus id

/-- BROADCAST_STATUS. -/
def execBroadcastStatus (port : Nat) (r : Rec) : State → Host.Outcome State Fault Refusal := run (State.broadcastStatus port r)

/-- BROADCAST_TIMEOUT: a node not complete by BroadcastTimeout fails with TIMEOUT. -/
def State.broadcastTimeout (id : Nat) (s : State) : State :=
  match tget s.tw.transfers id with
  | some t =>
    if t.done ∨ s.ft .icd < t.since + ms (s.i O.BroadcastTimeout) then s
    else
      let s : State := if s.castOwn t.manifest then s.imageMark t.manifest 0 else s
      s.transferEnd id 4
  | none => s

/-- BROADCAST_TIMEOUT. -/
def execBroadcastTimeout (id : Nat) : State → Host.Outcome State Fault Refusal := run (State.broadcastTimeout id)

/-- The Apex lead gives a signed image the next TRANSFER_ID, sends it down and writes it where the Apex is a target (R424). -/
def State.castStart (image : List Nat) (s : State) : State :=
  let m := bytesNat (image.take 128)
  let id := s.tw.nextTransfer
  let ch := (pieces 4096 (image.length / 4096 + 1) image).zipIdx.map fun p => (p.2 * 4096, p.1)
  let busy := s.castOwn m && !s.imageFree m
  let t : Transfer := ⟨m, ch, image.length, s.ft .icd, 0, false, 0, 0, 0, 0, [], false⟩
  let s : State := ({ s with tw := { s.tw with nextTransfer := (id + 1) % 2 ^ 32, transfers := tset s.tw.transfers id t } } : State).transferCount
  let s : State := s.sendChunks id image false []
  if busy then s.transferEnd id 3 else if s.castOwn m then (s.imageMark m 1).transferLast id else s.transferLast id

/-- Whether a signed image has the length that its manifest gives, and its KIND is one of R423. -/
def imageBad (image : List Nat) : Bool :=
  let m := bytesNat (image.take 128)
  mfKind m == 0 || decide (5 < mfKind m) || bits m 64 64 == 0 || decide (335544320 < bits m 64 64) || image.length != bits m 64 64 + 384

/-- BROADCAST: the Apex lead checks the signature and spreads the image; at most 8 transfers are open (R423, R424). -/
def State.broadcastOp (image : List Nat) (sigOk : Bool) : Op := fun s =>
  if !s.apexLead then (s, no stDenied 8)
  else if !s.signed (mfKind (bytesNat (image.take 128))) sigOk (sigBlock image) then (s, no stDenied)
  else if imageBad image then (s, no stMalformed)
  else if 8 ≤ (s.tw.transfers.filter fun p => !p.2.done).length then (s, no stBusy)
  else (s.castStart image, ok)

/-- BROADCAST. -/
def execBroadcast (q : Req) (image : List Nat) (sigOk : Bool) : State → Host.Outcome State Fault Refusal :=
  run (State.descriptor q (State.broadcastOp image sigOk))

/-- PATTERN_STAGE: the Apex refuses a library whose signature fails or whose version is not above the active one, else holds it and spreads it by the broadcast tree (R355, R423, R490). -/
def State.patternStageOp (image : List Nat) (sigOk : Bool) : Op := fun s =>
  let body := image.drop 384
  let descs := libraryDescs body
  let version := recFld (descs.headD []) 192 32
  if !s.apexLead then (s, no stDenied 8)
  else if !s.signed 4 sigOk (sigBlock image) ∨ version ≤ s.i O.LibraryActive then (s, no stDenied)
  else if imageBad image ∨ mfKind (bytesNat (image.take 128)) ≠ 4 ∨ descs.isEmpty then (s, no stMalformed)
  else if 8 ≤ (s.tw.transfers.filter fun p => !p.2.done).length then (s, no stBusy)
  else ((s.holdLibrary version descs (body.drop (128 * descs.length))).castStart image, ok)

/-- PATTERN_STAGE. -/
def execPatternStage (q : Req) (image : List Nat) (sigOk : Bool) : State → Host.Outcome State Fault Refusal :=
  run (State.descriptor q (State.patternStageOp image sigOk))

end Sys2Proof.Machine
end

