-- ==== Sys2Proof/Machine/Irq.lean ====
section
/-! DEFINITION. The interrupt controller, the error handling contexts and the event recorder as commands reach them (R459–R480). -/

namespace Sys2Proof.Machine

/-- EVENT_POST: an occurrence of a message source, with its record; an AlarmRecord carries its severity (R461, R465, R469). -/
def State.eventPost (src : Nat) (r : Rec) (s : State) : State :=
  s.occur src (if rType r = 0xF3 then some (recFld r 272 8) else none) r

/-- EVENT_POST. -/
def execEventPost (src : Nat) (r : Rec) : State → Host.Outcome State Fault Refusal := run (State.eventPost src r)

/-- LEVEL_SOURCE_RISE: a condition of R546 becomes true. -/
def execLevelSourceRise (src : Nat) : State → Host.Outcome State Fault Refusal := run (State.cond src true)

/-! ### Completions (R462, R463, R468) -/

/-- Whether a privileged source is a level (R467). -/
def privIsLevel (p : Nat) : Bool := p == 1 || p == 2 || p == 3 || p == 8 || p == 13

/-- Counts stray completions. -/
def State.stray (n : Nat) (s : State) : State := s.addOb .icd O.StrayCompletions 32 n

/-- Removes a value from a list up to `n` times. -/
def removeN (p : Nat) : Nat → List Nat → List Nat
  | 0, l => l
  | n + 1, l => removeN p n (removeFirst (· == p) l)

/-- Completion of a privileged source: its handler ends, and the core takes what waits (R468); a level condition that still holds occurs again. -/
def State.completePriv (p cnt : Nat) (s : State) : State :=
  let w := s.i (inst128 O.IrqStatus p)
  let arr := bits w 0 8
  if arr = 0 then s.stray 1
  else
    let lev := privIsLevel p
    let n := if lev then arr else min cnt arr
    let left := arr - n
    let s : State := s.iSet (inst128 O.IrqStatus p) (statusWord left (left > 0) false (bits w 16 8))
    let core := s.i (inst O.PrivTarget p)
    let held := (tgetD s.ir.nest core []).contains p
    let s : State := { s with ir := { s.ir with nest := tset s.ir.nest core (removeN p n (tgetD s.ir.nest core [])),
                                                wait := tset s.ir.wait core (removeN p (n - b2n held) (tgetD s.ir.wait core [])) } }
    let s : State := s.privDeliver core
    if lev then (if s.ir.conds.contains p then s.priv p 0 else s) else s.stray (cnt - n)

/-- A Completion write (R463). -/
def State.completionOp (v : Nat) : Op := fun s =>
  let src := bits v 0 12
  let cnt := bits v 12 8
  let w := s.i (inst128 O.IrqStatus src)
  let s : State :=
    if src < 16 then s.completePriv src cnt
    else if !bit w 8 then s.stray 1
    else if bit (s.i (inst128 O.IrqSource src)) 1 then
      if s.ir.conds.contains src then s.levelPost src true else s.iSet (inst128 O.IrqStatus src) (statusWord 0 false false (bits w 16 8))
    else
      let arr := bits w 0 8
      let left := arr - min cnt arr
      (s.iSet (inst128 O.IrqStatus src) (statusWord left (left > 0) false (bits w 16 8))).stray (cnt - min cnt arr)
  (s.queue0Check, ok)

/-- COMPLETION. -/
def execCompletion (q : Req) (v : Nat) : State → Host.Outcome State Fault Refusal := run (State.reqWrite q O.IrqCompletion v (State.completionOp v))

/-- SOFT_POST: firmware sources 0xF00–0xFFF. -/
def execSoftPost (q : Req) (v : Nat) : State → Host.Outcome State Fault Refusal :=
  run (State.reqWrite q O.SoftPost v fun s => if v < 0xF00 ∨ 0xFFF < v then (s, no stRange) else (s.occur v none [], ok))

/-- SOFT_PRIV: privileged sources 14 and 15. -/
def execSoftPriv (q : Req) (v : Nat) : State → Host.Outcome State Fault Refusal :=
  run (State.reqWrite q O.SoftPriv v fun s => if v ≠ 14 ∧ v ≠ 15 then (s, no stRange) else (s.priv v 0, ok))

/-- PRIVILEGED_SOURCE: the source occurs; a level source occurs when its condition rises. -/
def State.privilegedSource (p detail : Nat) (s : State) : State := if privIsLevel p then s.privLevel p true detail else s.priv p detail

/-- PRIVILEGED_SOURCE. -/
def execPrivilegedSource (p detail : Nat) : State → Host.Outcome State Fault Refusal := run (State.privilegedSource p detail)

/-! ### Queues (R464–R466) -/

/-- Owed level entries go to a queue while it has room. -/
def State.payOwed (n : Nat) (s : State) : State :=
  s.ir.owed.foldl (fun s o =>
    if bits (s.i (inst128 O.IrqSource (o / 2))) 8 6 = n ∧ s.queueOn n ∧ !s.queueFull n then
      { s with ir := { s.ir with owed := removeFirst (· == o) s.ir.owed } }.levelEntry (o / 2) (o % 2 == 1)
    else s) s

/-- A CONSUMER write: beyond PRODUCER it is taken as PRODUCER; consumed entries give up their place; a queue that stays non-empty signals again (R466). -/
def State.consumerOp (n v : Nat) : Op := fun s =>
  let c := s.i (inst O.QueueConsumer n)
  let p := s.i (inst O.QueueProducer n)
  let m := 2 ^ 32
  let to_ := if (p + m - c) % m < (v + m - c) % m then p else v
  let gone := (to_ + m - c) % m
  let s : State := (s.iSet (inst O.QueueConsumer n) to_)
  let s : State := { s with ir := { s.ir with queues := tset s.ir.queues n ((tgetD s.ir.queues n []).drop gone) } }
  let s : State := if s.queueOn n then s.queueSignal n (to_ != p) else s
  ((s.payOwed n).queue0Check, ok)

/-- CONSUMER_WRITE. -/
def execConsumerWrite (q : Req) (n v : Nat) : State → Host.Outcome State Fault Refusal :=
  run (State.reqWrite q (inst O.QueueConsumer n) v (State.consumerOp n v))

/-- The block of a queue in the event queue region: offset and bytes. -/
def queueBlock (ctl base : Nat) : Nat × Nat := (base, 32 * 2 ^ bits ctl 16 5 + 2 ^ bits ctl 21 5)

/-- Whether a QueueControl or QueueBase would put the block outside the 256 MiB region or over another enabled block (R464). -/
def State.queueOverlap (n ctl base : Nat) (s : State) : Bool :=
  let b := queueBlock ctl base
  decide (268435456 < b.1 + b.2) ||
  (bit ctl 0 && (List.range 64).any fun m =>
    let o := queueBlock (s.i (inst O.QueueControl m)) (s.i (inst O.QueueBase m))
    m != n && s.queueOn m && decide (b.1 < o.1 + o.2 ∧ o.1 < b.1 + b.2))

/-- A write of QueueControl, or of QueueBase when `base`: a queue that holds entries takes only ENABLE 0 (R464, R480); OVERFLOWED is cleared by a 1. -/
def State.queueControlOp (n : Nat) (base : Bool) (v : Nat) : Op := fun s =>
  let old := s.i (inst O.QueueControl n)
  let busy := s.i (inst O.QueueProducer n) != s.i (inst O.QueueConsumer n)
  if base then
    if v % 4096 ≠ 0 ∨ s.queueOverlap n old v then (s, no stRange)
    else if busy then (s, no stBusy)
    else (s.iSet (inst O.QueueBase n) v, ok)
  else
    let bad := bits v 27 37 != 0 || decide (4 < bits v 1 3) || decide (2047 < bits v 4 12) || decide (bits v 16 5 < 6) || decide (16 < bits v 16 5) ||
      decide (bits v 21 5 < 12) || decide (26 < bits v 21 5)
    if bad || s.queueOverlap n v (s.i (inst O.QueueBase n)) then (s, no stRange)
    else if busy ∧ bit v 0 then (s, no stBusy)
    else
      let over_ := bit old 26 && !bit v 26
      let s : State := s.iSet (inst O.QueueControl n) (setBit v 26 over_)
      let s : State := { s with ir := { s.ir with ext := s.ir.ext.map fun e => (e.1, setBit e.2 n false) } }
      let s : State := if bit v 0 then s.queueSignal n false else s
      ((s.payOwed n).queue0Check, ok)

/-- QUEUE_CONTROL_WRITE. -/
def execQueueControlWrite (q : Req) (n : Nat) (base : Bool) (v : Nat) : State → Host.Outcome State Fault Refusal :=
  run (State.reqWrite q (inst (if base then O.QueueBase else O.QueueControl) n) v (State.queueControlOp n base v))

/-! ### Error contexts (R471, R472) -/

/-- ERROR_CLOSE: refused with MORE when errors joined since; else the context closes and the oldest pending unit takes it at once. -/
def State.errorCloseOp (v : Nat) : Op := fun s =>
  let n := bits v 0 4
  match tget s.ir.ctxs n with
  | none => (s.stray 1, ok)
  | some c =>
    if bits v 32 32 < c.joined then (s.ctxPost n 2 c, no stBusy)
    else
      let s : State := { s.ctxPost n 3 c with ir := { (s.ctxPost n 3 c).ir with ctxs := tdel (s.ctxPost n 3 c).ir.ctxs n } }
      let s : State := match s.ir.pend with
        | [] => s
        | p :: rest => { s with ir := { s.ir with ctxs := tset s.ir.ctxs n p, pend := rest } }.ctxPost n 0 p
      (s.ctxCounts, ok)

/-- ERROR_CLOSE. -/
def execErrorClose (q : Req) (v : Nat) : State → Host.Outcome State Fault Refusal := run (State.reqWrite q O.ErrorClose v (State.errorCloseOp v))

/-- OBSERVE_ONLY_EXIT: while fewer than 128 units are pending the mode ends, with a recorder entry; else BUSY. -/
def State.observeExitOp (v : Nat) : Op := fun s =>
  if v ≠ 1 then (s, no stRange)
  else if 128 ≤ s.ir.pend.length then (s, no stBusy)
  else if !s.observeOnly then (s, ok)
  else (((s.iSet O.ObserveOnly 0).record 2 0 0x003 [0]).privLevel 3 false 0, ok)

/-- OBSERVE_ONLY_EXIT. -/
def execObserveOnlyExit (q : Req) (v : Nat) : State → Host.Outcome State Fault Refusal :=
  run (State.reqWrite q O.ObserveOnlyExit v (State.observeExitOp v))

/-! ### The event recorder (R473–R477) -/

/-- RECORDER_WRITE: a body of up to 960 bytes from Tier 1; an address outside the management cores' regions is not read (R23). DEDUCED: the value's top 16-bit word holds the length in its low 10 bits, the rest is the address. The spec gives the entry no severity: it is a free value. -/
def State.recorderWriteOp (v : Nat) : Op := fun s =>
  let n := bits v 48 10
  let a := bits v 0 48
  if 960 < n ∨ bits v 58 6 ≠ 0 ∨ t1Size < a + n then (s, no stRange)
  else if !s.inRegion mgmtReads a n then (s.accessEvent 0x0B0 0x0C00 a, no stRange)
  else
    let (f, s) := s.fresh 8
    let body := s.t1Read a n
    let s : State := s.t1ReadErrors 0x0C00 a n
    (s.recordN (f % 5) 0 0x0B0 n (bytesRec body), ok)

/-- RECORDER_WRITE. -/
def execRecorderWrite (q : Req) (v : Nat) : State → Host.Outcome State Fault Refusal := run (State.reqWrite q O.RecorderWrite v (State.recorderWriteOp v))

/-- RECORDER_SUMMARY: the rate has fallen after entries were dropped. -/
def execRecorderSummary : State → Host.Outcome State Fault Refusal := run State.recSecond

/-- Whole entries from a list that fit in `room` units. -/
def fitEntries : Nat → List Rec → List Nat
  | _, [] => []
  | room, e :: t => if e.length ≤ room then e ++ fitEntries (room - e.length) t else []

/-- RECORDER_CURSOR: the 4 KiB window freezes with the whole entries from the cursor on that fit, then zeros; a cursor already overwritten becomes RecorderFirst (R476). -/
def State.recorderCursorOp (v : Nat) : Op := fun s =>
  let first := s.i O.RecorderFirst
  let lost := !s.ir.log.isEmpty && decide (v < first)
  let cur := if lost then first else v
  let u := fitEntries 256 ((s.ir.log.filter fun e => decide (cur ≤ e.1)).map (·.2.2))
  let s : State := (s.iSet O.RecorderCursor cur).iSet O.RecorderStatus (setBit (s.i O.RecorderStatus) 0 lost)
  ({ s with ir := { s.ir with window := u ++ List.replicate (256 - u.length) 0 } }, ok)

/-- RECORDER_CURSOR. -/
def execRecorderCursor (q : Req) (v : Nat) : State → Host.Outcome State Fault Refusal := run (State.reqWrite q O.RecorderCursor v (State.recorderCursorOp v))

/-- Arms or disarms a clear, with bit 1 of RecorderStatus. -/
def State.setArm (a : Option (Nat × Nat × Nat)) (s : State) : State :=
  { (s.iSet O.RecorderStatus (setBit (s.i O.RecorderStatus) 1 a.isSome)) with ir := { s.ir with arm := a } }

/-- RECORDER_CLEAR_ARM. -/
def execRecorderClearArm (q : Req) (v : Nat) : State → Host.Outcome State Fault Refusal :=
  run (State.reqWrite q O.RecorderClearArm v fun s => (s.setArm (some (v, s.ft .icd, s.i O.RecorderLast)), ok))

/-- RECORDER_CLEAR: the same V within 10 s discards the entries up to V, keeps all written after the arm, and writes an entry with CLEARED that names V and the credential; otherwise it is refused and disarms (R477). -/
def State.recorderClearOp (q : Req) (v : Nat) : Op := fun s =>
  match s.ir.arm with
  | none => (s, no stNotReady)
  | some (w, t, last) =>
    let s : State := s.setArm none
    if w ≠ v then (s, no stRange)
    else if t + ms 10000 < s.ft .icd then (s, no stTimeout)
    else
      let kept := s.ir.log.filter fun e => decide (v < e.1 ∨ last < e.1)
      let s : State := { s with ir := { s.ir with log := kept, tail := s.ir.tail.filter fun n => decide (v < n ∨ last < n) } }
      let who := match q.who with | .session n => (tget s.mo.sessions n).elim 0 (fun x => x.cred) | _ => 0
      (s.recAppend 2 16 0x0B0 [v + who % 2 ^ 64 * 2 ^ 64], ok)

/-- RECORDER_CLEAR. -/
def execRecorderClear (q : Req) (v : Nat) : State → Host.Outcome State Fault Refusal := run (State.reqWrite q O.RecorderClear v (State.recorderClearOp q v))

/-- RECORDER_CLEAR_ARM_EXPIRY: 10 s after the arm the clear disarms. -/
def State.clearArmExpiry (s : State) : State :=
  match s.ir.arm with
  | some (_, t, _) => if t + ms 10000 ≤ s.ft .icd then s.setArm none else s
  | none => s

/-- RECORDER_CLEAR_ARM_EXPIRY. -/
def execRecorderClearArmExpiry : State → Host.Outcome State Fault Refusal := run State.clearArmExpiry

/-- A Helad's AO-ring entry arrives (R478): a gap in SEQUENCE is counted in MirrorGaps, the OH restored is added to that of entries formed before the restore, which are those of another cycle count (R60), and the entry goes to the slot's source. -/
def State.aoMirror (slot : Nat) (base : Nat × Nat) (e : Rec) (s : State) : State :=
  let q := rSeq e
  let gap := match tget s.ir.aoNext slot with | some n => if n < q then q - n else 0 | none => 0
  let s : State := { s.addOb .icd (inst O.MirrorGaps slot) 32 gap with ir := { (s.addOb .icd (inst O.MirrorGaps slot) 32 gap).ir with aoNext := tset s.ir.aoNext slot (q + 1) } }
  let e := if recFld e 168 32 ≠ base.2 then recSet (recSet e 128 40 (recFld e 128 40 + base.1)) 168 32 base.2 else e
  let sev := recFld e 200 3
  s.occur (0x010 + slot) (some sev) e

end Sys2Proof.Machine
end

