-- ==== Sys2Proof/Machine/Mash.lean ====
section
/-! DEFINITION. The Mash array: lane arithmetic, presentation of records, epoch vectors, graph images, region switches and faults (R301–R321). -/

namespace Sys2Proof.Machine

/-! ### Lane arithmetic (R303) -/

/-- The quiet NaN that every operation whose result is NaN returns. -/
abbrev laneNan : Nat := 0x7FC00000
/-- A result with any NaN replaced. -/
def laneFix (x : Nat) : Nat := if f32.isNan x then laneNan else x
/-- int32 add. -/
def laneAdd (a b : Nat) : Nat := (a + b) % 2 ^ 32
/-- int32 subtract. -/
def laneSub (a b : Nat) : Nat := (a + 2 ^ 32 - b % 2 ^ 32) % 2 ^ 32
/-- Saturating signed add. -/
def laneAddS (a b : Nat) : Nat := ofS 32 (clampI (-(2 ^ 31)) (2 ^ 31 - 1) (toS 32 a + toS 32 b))
/-- Saturating signed subtract. -/
def laneSubS (a b : Nat) : Nat := ofS 32 (clampI (-(2 ^ 31)) (2 ^ 31 - 1) (toS 32 a - toS 32 b))
/-- Low 32 bits of a product. -/
def laneMul (a b : Nat) : Nat := a * b % 2 ^ 32
/-- High 32 bits of a signed or unsigned product. -/
def laneMulHi (signed : Bool) (a b : Nat) : Nat :=
  if signed then ofS 32 (toS 32 a * toS 32 b / 2 ^ 32) else a % 2 ^ 32 * (b % 2 ^ 32) / 2 ^ 32
/-- Leading zeros of a 32-bit word. -/
def laneClz (a : Nat) : Nat := if a % 2 ^ 32 = 0 then 32 else 31 - (a % 2 ^ 32).log2
/-- The 64-bit value of lanes 2k and 2k + 1. -/
def pairOf (lo hi : Nat) : Nat := lo % 2 ^ 32 + hi % 2 ^ 32 * 2 ^ 32
/-- int64 pair add. -/
def pairAdd (a b : Nat) : Nat := (a + b) % 2 ^ 64
/-- int64 pair subtract. -/
def pairSub (a b : Nat) : Nat := (a + 2 ^ 64 - b % 2 ^ 64) % 2 ^ 64
/-- int64 pair to binary32, nearest even. -/
def pairToFloat (a : Nat) : Nat := fofInt f32 (toS 64 a)
/-- binary32 add. -/
def laneFAdd (a b : Nat) : Nat := laneFix (fadd f32 a b)
/-- binary32 subtract. -/
def laneFSub (a b : Nat) : Nat := laneFix (fsub f32 a b)
/-- binary32 multiply. -/
def laneFMul (a b : Nat) : Nat := laneFix (fmul f32 a b)
/-- binary32 fused multiply-add, rounded once. -/
def laneFma (a b c : Nat) : Nat := laneFix (fvAdd f32 (fvMul (fdec f32 a) (fdec f32 b)) (fdec f32 c))
/-- binary32 divide. -/
def laneFDiv (a b : Nat) : Nat := laneFix (fdiv f32 a b)
/-- binary32 square root. -/
def laneFSqrt (a : Nat) : Nat := laneFix (fsqrt f32 a)
/-- binary32 absolute value. -/
def laneFAbs (a : Nat) : Nat := laneFix (a % 2 ^ 31)
/-- binary32 negation. -/
def laneFNeg (a : Nat) : Nat := laneFix (setBit a 31 (!bit a 31))
/-- minimumNumber: a NaN gives way to the other operand; −0 lies below +0. -/
def laneFMin (a b : Nat) : Nat :=
  if f32.isNan a then laneFix b else if f32.isNan b then a else if ftotal f32 a ≤ ftotal f32 b then a else b
/-- maximumNumber. -/
def laneFMax (a b : Nat) : Nat :=
  if f32.isNan a then laneFix b else if f32.isNan b then a else if ftotal f32 a ≤ ftotal f32 b then b else a
/-- binary32 compare: any comparison with NaN is false. -/
def laneFLt (a b : Nat) : Bool := flt f32 a b
/-- bf16 widened to binary32, exactly. -/
def laneWiden (a : Nat) : Nat := a % 2 ^ 16 * 2 ^ 16
/-- binary32 narrowed to bf16, nearest even. -/
def laneNarrow (a : Nat) : Nat := fcvt f32 bf16 a
/-- int32 or uint32 to binary32. -/
def laneToFloat (signed : Bool) (a : Nat) : Nat := fofInt f32 (if signed then toS 32 a else (a % 2 ^ 32 : Nat))
/-- binary32 to int32: toward zero, saturating, NaN to 0. -/
def laneToInt (a : Nat) : Nat :=
  match fdec f32 a with
  | .nan => 0
  | .inf neg => if neg then 2 ^ 31 else 2 ^ 31 - 1
  | .fin neg m e =>
    let v : Nat := if 0 ≤ e then m * 2 ^ e.toNat else m / 2 ^ (-e).toNat
    ofS 32 (clampI (-(2 ^ 31)) (2 ^ 31 - 1) (if neg then -(v : Int) else v))

/-- The halves of a 64-bit value, low first. -/
def pairOut (v : Nat) : List Nat := [v % 2 ^ 32, v / 2 ^ 32 % 2 ^ 32]
/-- Minimum of two int32 values. -/
def laneMin (a b : Nat) : Nat := if toS 32 a ≤ toS 32 b then a else b
/-- Maximum of two int32 values. -/
def laneMax (a b : Nat) : Nat := if toS 32 a ≤ toS 32 b then b else a
/-- Arithmetic shift right of a value of `w` bits. -/
def sarBits (w a n : Nat) : Nat := ofS w (toS w a / 2 ^ n)
/-- binary32 compare, equal: −0 equals +0. -/
def laneFEq (a b : Nat) : Bool := !f32.isNan a && !f32.isNan b && fcmp f32 a b == 0
/-- binary32 compare, less or equal. -/
def laneFLe (a b : Nat) : Bool := flt f32 a b || laneFEq a b

/-- What an operation leaves, from its operands in order; a pair is two operands or two results, the low half first. A comparison gives 1 or 0, and select takes its second operand where the first is not 0 (DESIGN CHOICE, log 173). A shift by the operand's width or more has no stated result: a free value. -/
def tileOp (o : LaneOp) (l : List Nat) : List Nat :=
  let x := fun i => (l.getD i 0) % 2 ^ 32
  let a := x 0
  let b := x 1
  let p := pairOf (x 0) (x 1)
  let q := pairOf (x 2) (x 3)
  match o with
  | .add => [laneAdd a b]
  | .sub => [laneSub a b]
  | .addSat => [laneAddS a b]
  | .subSat => [laneSubS a b]
  | .mul => [laneMul a b]
  | .mulhi => [laneMulHi true a b]
  | .mulhiU => [laneMulHi false a b]
  | .min => [laneMin a b]
  | .max => [laneMax a b]
  | .and => [a &&& b]
  | .or => [a ||| b]
  | .xor => [a ^^^ b]
  | .not => [2 ^ 32 - 1 - a]
  | .shl => [if b < 32 then (a <<< b) % 2 ^ 32 else Config.laneOpen o l % 2 ^ 32]
  | .shr => [if b < 32 then a >>> b else Config.laneOpen o l % 2 ^ 32]
  | .sar => [if b < 32 then sarBits 32 a b else Config.laneOpen o l % 2 ^ 32]
  | .lt => [b2n (decide (toS 32 a < toS 32 b))]
  | .ltU => [b2n (decide (a < b))]
  | .eq => [b2n (a == b)]
  | .select => [if a ≠ 0 then b else x 2]
  | .clz => [laneClz a]
  | .bucket => [bucketOf a]
  | .pAdd => pairOut (pairAdd p q)
  | .pSub => pairOut (pairSub p q)
  | .pLt => [b2n (decide (toS 64 p < toS 64 q))]
  | .pLtU => [b2n (decide (p < q))]
  | .pEq => [b2n (p == q)]
  | .pMin => pairOut (if toS 64 p ≤ toS 64 q then p else q)
  | .pMax => pairOut (if toS 64 p ≤ toS 64 q then q else p)
  | .pShl => pairOut (if x 2 < 64 then (p <<< x 2) % 2 ^ 64 else Config.laneOpen o l)
  | .pShr => pairOut (if x 2 < 64 then p >>> x 2 else Config.laneOpen o l)
  | .pSar => pairOut (if x 2 < 64 then sarBits 64 p (x 2) else Config.laneOpen o l)
  | .pToF => [pairToFloat p]
  | .fAdd => [laneFAdd a b]
  | .fSub => [laneFSub a b]
  | .fMul => [laneFMul a b]
  | .fma => [laneFma a b (x 2)]
  | .fDiv => [laneFDiv a b]
  | .fSqrt => [laneFSqrt a]
  | .fAbs => [laneFAbs a]
  | .fNeg => [laneFNeg a]
  | .fLt => [b2n (laneFLt a b)]
  | .fLe => [b2n (laneFLe a b)]
  | .fEq => [b2n (laneFEq a b)]
  | .fMin => [laneFMin a b]
  | .fMax => [laneFMax a b]
  | .widen => [laneFix (laneWiden a)]
  | .narrow => [laneNarrow a]
  | .toF => [laneToFloat true a]
  | .toFU => [laneToFloat false a]
  | .toI => [laneToInt a]

/-! ### Records and vectors (R305–R308) -/

/-- A token: its selector, context, FtStamp, and the words with their ABSENT bits. -/
structure Token where
  sel   : Nat
  ctx   : Nat
  stamp : Nat
  words : List (Nat × Bool)
deriving DecidableEq, Repr

/-- What a token has done so far: results on links and lanes, the tiles' local memory, VALUE words, MISSING bits, and whether it emits a vector. -/
structure TileRun where
  nodes : Tbl Nat
  mem   : Tbl (List Host.Cell)
  vals  : Tbl Nat
  miss  : Tbl Nat
  emit  : Bool
deriving DecidableEq, Repr

/-- A 32-bit word of a tile's local memory; local memory is 16 KiB and an address beyond it reads 0. -/
def TileRun.load (u t a : Nat) (x : TileRun) : Nat := if a + 4 ≤ 16384 then bytesNat (memRead (tgetD x.mem (u * 64 + t) []) a 4) else 0

/-- The byte address of an offset in a context's area, none outside it: a token touches its own context's area alone (R304). -/
def areaAddr (bytes c off : Nat) : Option Nat := if off + 4 ≤ bytes then some (c * bytes + off) else none

/-- An operand. -/
def tileSrc (u bytes : Nat) (k : Token) (x : TileRun) : TileSrc → Nat
  | .word i => ((k.words[i]?).map (·.1)).getD 0
  | .absent i => ((k.words[i]?).map fun w => b2n w.2).getD 0
  | .selector => k.sel
  | .context => k.ctx
  | .stamp i => bits k.stamp (32 * i) 32
  | .const v => v % 2 ^ 32
  | .node n => tgetD x.nodes n 0
  | .area t o => ((areaAddr bytes k.ctx o).map fun a => x.load u t a).getD 0
  | .areaAt t n => ((areaAddr bytes k.ctx (tgetD x.nodes n 0)).map fun a => x.load u t a).getD 0
  | .table t o => x.load u t (64 * bytes + o)
  | .tableAt t n => x.load u t (64 * bytes + tgetD x.nodes n 0)

/-- A result goes to its destination. -/
def tileDst (u bytes : Nat) (k : Token) (x : TileRun) (d : TileDst) (v : Nat) : TileRun :=
  let store := fun (t : Nat) (o : Nat) => match areaAddr bytes k.ctx o with
    | some a => { x with mem := tset x.mem (u * 64 + t) (memWrite a (natBytes 4 v) (tgetD x.mem (u * 64 + t) [])) }
    | none => x
  match d with
  | .node n => { x with nodes := tset x.nodes n v }
  | .area t o => store t o
  | .areaAt t n => store t (tgetD x.nodes n 0)
  | .value i => { x with vals := tset x.vals i v }
  | .missing i => { x with miss := tset x.miss i (v % 2) }
  | .emit => { x with emit := v != 0 }

/-- A token passes through a region's tiles: each operation in turn, exactly as R303 states it. -/
def tileRun (u bytes : Nat) (k : Token) (prog : List TileStep) (x : TileRun) : TileRun :=
  prog.foldl (fun x st => (st.dst.zip (tileOp st.op (st.src.map (tileSrc u bytes k x)))).foldl (fun x p => tileDst u bytes k x p.1 p.2) x) x

/-- The words of a vector of `n` features: the values, then the MISSING bits (R308). -/
def TileRun.vector (n : Nat) (x : TileRun) : List Nat :=
  (List.range n).map (fun i => tgetD x.vals i 0) ++
  (List.range ((n + 31) / 32)).map fun w => packFields ((List.range 32).map fun b => (b, 1, tgetD x.miss (32 * w + b) 0))

/-- A token in a region: the tiles' memory after it, and its vector if it emits one. -/
def State.tilesToken (u : Nat) (end_ : Bool) (k : Token) (s : State) : Option (List Nat) × State :=
  let h := (s.feed u).img
  let cfgs := (s.ma.conf.filter fun p => p.1 / 64 == u).map fun p => (p.1 % 64, p.2)
  let x := tileRun u (recFld h 168 8) k (Config.mashProgram cfgs end_) ⟨[], s.ma.mem, [], [], false⟩
  (if x.emit then some (x.vector (hdrFeatures h)) else none, { s with ma := { s.ma with mem := x.mem } })

/-- MASH_RECORD: the input streamer presents the next record of a context. The tiles consume it (0), do not consume it yet (1), or meet an uncorrectable read (2) (R305, R307, R319, R320). -/
def State.mashRecord (u c what : Nat) (s : State) : State :=
  let f := s.feed u
  let st := s.i (kState u)
  if st ≠ 1 ∧ st ≠ 2 then s
  else if (match f.shown with | some p => p.1 != c | none => false) then s
  else
    match s.feedNext u c with
    | none => s
    | some ((e, j, x), k) =>
      if k ≠ 1 then s.feedPass u e k
      else if what = 1 then (if f.shown.isSome then s else s.setFeed u { f with shown := some (c, s.ft .icd) })
      else if what = 2 then (s.sramError (0x0400 + u)).unitFault u 1 0 0
      else
        match s.stagedRead (0x0400 + u) e.slot e.rec_ with
        | (none, s) => s.feedPass u e 2
        | (some _, s) =>
        let s : State := (s.domainUse (52 + u)).feedTake u e x
        let (out, s) := s.tilesToken u false ⟨j, c, selStamp x e.rec_, window x e.rec_⟩
        let s : State := s.setFeed u { s.feed u with shown := none }
        if hdrEpoch f.img then s
        else match out with
          | some v => s.emitVector u (rSrc e.rec_) (rPart e.rec_) (selStamp x e.rec_) v
          | none => s

/-- MASH_RECORD. -/
def execMashRecord (r c what : Nat) : State → Host.Outcome State Fault Refusal := run (State.mashRecord r c what)

/-- MASH_EPOCH_EMIT: with the agreed records of its epoch consumed, an EPOCH image emits one vector per context, ascending; each context's area is restored (R307). -/
def State.mashEpochEmit (u : Nat) (s : State) : State :=
  let f := s.feed u
  let st := s.i (kState u)
  if (st ≠ 1 ∧ st ≠ 2) ∨ !hdrEpoch f.img ∨ !s.epochConsumed u then s
  else if f.phase = 1 ∧ s.epochAt f.from_ ≤ f.epoch then s
  else
    let n := f.epoch
    let emit := fun (s : State) (c : Nat) =>
      let q := tget f.cons c
      let hold := match q with | some q => q.2.2 | none => false
      let (out, s) := s.tilesToken u true ⟨0, c, s.epochStamp n hold, []⟩
      s.emitVector u (match q with | some q => q.2.1 | none => s.ctxGid c) (hdrPart f.img) (s.epochStamp n hold) (out.getD [])
    let s : State := ((s.epochContexts u).foldl emit s).tilesLoad u (s.i (kActive u))
    s.setFeed u { s.feed u with cons := [], epoch := n + 1 }

/-- MASH_EPOCH_EMIT. -/
def execMashEpochEmit (r : Nat) : State → Host.Outcome State Fault Refusal := run (State.mashEpochEmit r)

/-! ### Graph images (R310–R314) -/

/-- Whether the header's selectors pass cause 2 of R314; FIELD_WORDS is not checked where `whole` holds for an entry. -/
def selectorsOk (h : Rec) (steep : Bool) : Bool :=
  let n := recFld h 160 4
  let on := (List.range 4).filter fun j => bit (hdrSel h j) 8
  on.any (fun j => decide (j < n)) && on.all (fun j => decide (j < n)) &&
    on.all fun j =>
      let x := hdrSel h j
      let whole := steep && bit x 87
      bits x 48 16 % 8 == 0 && bits x 64 16 % 4 == 0 && (whole || bits x 80 7 != 0)

/-- Whether a reserved bit of a selector entry is set. -/
def selReserved (h : Rec) (steep : Bool) : Bool :=
  (List.range 4).any fun j => let x := hdrSel h j; bits x 9 7 != 0 || (if steep then bits x 88 40 != 0 else bits x 87 41 != 0)

/-- Whether a FIELD_WORDS that applies lies above 64, outside the range of R312. -/
def selLong (h : Rec) (steep : Bool) : Bool :=
  (List.range 4).any fun j => let x := hdrSel h j; bit x 8 && !(steep && bit x 87) && decide (64 < bits x 80 7)

/-- Whether the common header of an image does not have LENGTH 8, or sets a reserved bit (R13, R346). -/
def hdrBad (h : Rec) : Bool := recFld h 16 16 != 8 || recFld h 112 16 != 0

/-- The sections of a graph image from a byte offset: whether they match the tiles and end with the image, and whether every tile's memory fits. -/
def sections (img : List Nat) (size ctx : Nat) : Nat → List Nat → Bool × Bool
  | pos, [] => (pos == size, true)
  | pos, t :: rest =>
    let h := bytesNat ((img.drop pos).take 16)
    let cfg := bits h 16 16
    let mem := bits h 32 16
    let ini := bits h 48 16
    let next := pos + 16 + padTo 16 cfg + padTo 16 ini + padTo 16 mem
    let good := bits h 0 6 == t && bits h 6 10 == 0 && decide (16 ≤ cfg ∧ cfg ≤ 4096 ∧ mem ≤ 16384) && ini == ctx && bits h 64 64 == 0 && decide (next ≤ size)
    let r := sections img size ctx next rest
    (good && r.1, decide (64 * ctx + mem ≤ 16384) && r.2)

/-- The first failing check of R314, 0 when the image passes. -/
def graphCheck (img : List Nat) (written : Nat) : Nat :=
  let h := bytesRec (img.take 128)
  let f := recFld h
  let n := f 256 32
  let ctx := f 168 8
  if rType h ≠ 0xB0 ∨ f 112 16 ≠ 0 ∨ f 128 8 ≠ 1 ∨ f 138 6 ≠ 0 ∨ hdrFeatures h < 1 ∨ 4096 < hdrFeatures h ∨ f 160 4 < 1 ∨ 4 < f 160 4 ∨ f 164 4 ≠ 0 ∨
      128 < ctx ∨ ctx % 16 ≠ 0 ∨ f 176 16 ≠ 0 ∨ n < 128 ∨ 8388608 < n ∨ n ≠ written ∨ f 288 32 ≠ 0 ∨ f 384 128 ≠ 0 ∨ selReserved h false ∨ selLong h false then 1
  else if !selectorsOk h false then 2
  else
    let sec := sections img n ctx 128 (setBitsOf 64 (f 192 64))
    if !sec.1 then 3
    else if !sec.2 then 4
    else
      let c := Config.mashCheck img
      if c = 5 ∨ c = 6 then c else 0

/-- GRAPH_IMAGE_VALIDATE: the digest stands whether or not the image passes; the slot becomes VALID or INVALID. -/
def State.graphImageValidate (i : Nat) (s : State) : State :=
  match tget s.tw.landed (512 + i) with
  | none => s
  | some n =>
    let s : State := { s with tw := { s.tw with landed := tdel s.tw.landed (512 + i) } }
    let img := memRead s.me.t1 (s.imageAddr false i) n
    let h := bytesRec (img.take 128)
    let c := graphCheck img n
    let dig := Config.blake3 (memRead s.me.t1 (s.imageAddr false i) (min 8388608 (recFld h 256 32))) % 2 ^ 128
    let s : State := ((s.iSet (imageKey false i 2) dig).iSet (imageKey false i 3) c).iSet (imageKey false i 5) (recFld h 320 64)
    (s.iSet (imageKey false i 1) (if c = 0 then 2 else 4)).imageUses false

/-- GRAPH_IMAGE_VALIDATE. -/
def execGraphImageValidate (i : Nat) : State → Host.Outcome State Fault Refusal := run (State.graphImageValidate i)

/-- IMAGE_CLEAR. -/
def execImageClear (q : Req) (steep : Bool) (i v : Nat) : State → Host.Outcome State Fault Refusal :=
  run (State.reqWrite q (imageKey steep i 4) v (State.imageClearOp steep i v))

/-! ### Switches of regions (R316, R317) -/

/-- MASH_SWITCH: a descriptor, or a RegionSwitchIssue write at RegionSwitchInstant. -/
def State.mashSwitch (q : Req) (reg : Bool) (r i at_ : Nat) (s : State) : State :=
  if reg then s.reqWrite q O.RegionSwitchIssue (r + 16 * i) (fun s => s.feedSwitchOp r i (s.i O.RegionSwitchInstant))
  else s.descriptor q (State.feedSwitchOp r i at_)

/-- MASH_SWITCH. -/
def execMashSwitch (q : Req) (reg : Bool) (r i at_ : Nat) : State → Host.Outcome State Fault Refusal := run (State.mashSwitch q reg r i at_)

/-- REGION_SWITCH_LAUNCH. -/
def State.regionSwitchLaunch (s : State) : State :=
  match s.dueOf .icd fun a => a.kind == 2 with
  | some a => (s.takeAct .icd a).stepping a.stepped (State.feedLaunch a.a a.b a.at_)
  | none => s

/-- REGION_SWITCH_LAUNCH. -/
def execRegionSwitchLaunch : State → Host.Outcome State Fault Refusal := run State.regionSwitchLaunch

/-- REGION_LOAD_START: after the agreement and the old image's last vector the region loads the new image. -/
def State.regionLoadStart (r : Nat) (s : State) : State :=
  if s.feedDrained r then (s.domainUse (52 + r)).setFeed r { s.feed r with phase := 2 } else s

/-- REGION_LOAD_START. -/
def execRegionLoadStart (r : Nat) : State → Host.Outcome State Fault Refusal := run (State.regionLoadStart r)

/-- REGION_LOAD_DONE: RUNNING on the new image, OFF after an unload, or FAULTED by a poisoned read. -/
def State.regionLoadDone (r : Nat) (s : State) : State :=
  let f := s.feed r
  if f.phase ≠ 2 then s
  else if f.to_ < 64 && s.imagePoisoned false f.to_ then (s.imageErrors r).feedLoadFault r 3
  else (s.imageErrors r).feedInstall r

/-- REGION_LOAD_DONE. -/
def execRegionLoadDone (r : Nat) : State → Host.Outcome State Fault Refusal := run (State.regionLoadDone r)

/-- REGION_RECORD_TIMEOUT: a presented record is not consumed within RecordTimeout: FAULTED with HANG (R319, R320). -/
def State.regionRecordTimeout (r : Nat) (s : State) : State :=
  match (s.feed r).shown with
  | some p => if s.ft .icd < p.2 + us (s.i O.RecordTimeout) then s else s.unitFault r 2 0 0
  | none => s

/-- REGION_RECORD_TIMEOUT. -/
def execRegionRecordTimeout (r : Nat) : State → Host.Outcome State Fault Refusal := run (State.regionRecordTimeout r)

/-- A domain reset of a region (R530). -/
def State.mashDomainReset (r : Nat) (s : State) : State := s.feedReset r

end Sys2Proof.Machine
end

