-- ==== Sys2Proof/Machine/Lane.lean ====
section
/-! DEFINITION. The telemetry lane: flits, transmit shares, receivers, repair, training, doze and the spare-wavelength retune (R25, R148–R176, R545, R551). -/

namespace Sys2Proof.Machine

/-! ### Flits (R150–R153) -/

/-- The header of a flit (R150). -/
def flitHdr (f : List Nat) : FlitHdr :=
  let h := f.headD 0
  ⟨bits h 0 4, bits h 4 8, bits h 12 16, bits h 28 28, bits h 56 1, bit h 57, bits h 58 8, bit h 66, bit h 67, bit h 68, bit h 69, bit h 70, bits h 71 4, bits h 75 4⟩

/-- CRC16 of a flit: header bits [111:0], then the payload (R153). -/
def flitCrc (f : List Nat) : Nat := crc16 (natBytes 14 (f.headD 0) ++ recBytes (f.drop 1))

/-- A flit made of a header and at most 15 units, with its CRC16. -/
def mkFlit (h : FlitHdr) (units : List Nat) : List Nat :=
  let w := packFields [(0, 4, h.ty), (4, 8, h.port), (12, 16, h.part), (28, 28, h.seq), (56, 1, h.phase), (57, 1, b2n h.mark), (58, 8, h.cutId), (66, 1, b2n h.loss),
    (67, 1, b2n h.spare), (68, 1, b2n h.resumed), (69, 1, b2n h.lead), (70, 1, b2n h.retx), (71, 4, h.start), (75, 4, h.valid)]
  let body := units ++ List.replicate (15 - units.length) 0
  (w + flitCrc (w :: body) * 2 ^ 112) :: body

/-- The units of one flit from the records that wait (R152): those of one partition and one cut tag; the place of the first unit that begins a record; what is left, and the units of its head record already sent. -/
def gather (part tag : Nat) : List (Nat × Rec) → Nat → Nat → List Nat × Option Nat × List (Nat × Rec) × Nat
  | [], _, _ => ([], none, [], 0)
  | (t, r) :: rest, sent, room =>
    if room = 0 ∨ t ≠ tag ∨ rPart r ≠ part then ([], none, (t, r) :: rest, sent)
    else
      let us := (r.drop sent).take room
      let start := if sent = 0 then some (15 - room) else none
      if sent + us.length < r.length then (us, start, (t, r) :: rest, sent + us.length)
      else
        let g := gather part tag rest 0 (room - us.length)
        (us ++ g.1, (match start with | some x => some x | none => g.2.1), g.2.2.1, g.2.2.2)

/-! ### What Helad sends (R155, R156, R221) -/

/-- A LaneNoticeRecord in CONTROL (R169). -/
def State.laneNotice (kind ch : Nat) (s : State) : State :=
  let (r, s) := s.form .hel 0x51 2 0 0 [(128, 8, kind), (136, 8, ch), (192, 64, s.ft .hel / 65536)]
  s.hQueue stControl r

/-- The alignment burst of R167 as the transmitter sends it: 64 codewords of PRBS13Q, then a delimiter of 40 bits. Line value 1 stands for it; the delimiter's bits are not stated. -/
abbrev burstCodewords : Nat := 64

/-- The transmitter is lit with the alignment burst of R167, and a superframe begins with the flit after it (R149). -/
def State.laneBurst (s : State) : State := { s with ln := { s.ln with lastLit := s.ft .hel, frame := 0 } }.put .pin 0x700 [1, burstCodewords]

/-- The transmitter is squelched. -/
def State.laneDark (s : State) : State := s.put .pin 0x700 [0]

/-- The next closed trace block in strict class order, sources of a class in round robin, joins the lane's queue when it begins in the flit that is being formed (R125): of the same partition and side of a cut as what the flit already carries (R152). -/
def State.tracePull : Nat → State → State
  | 0, s => s
  | n + 1, s =>
    if 15 ≤ lsum ((s.laneQ stTrace).map fun p => p.2.length) - tgetD s.ln.sent stTrace 0 then s
    else
      match (s.tr.closed.map (·.1)).min? with
      | none => s
      | some c =>
        let mine := s.tr.closed.filter fun b => b.1 == c
        let last := tgetD s.tr.served c 63
        let srcs := mine.map fun b => b.2.1
        let src := ((srcs.filter fun x => last < x).min?).getD ((srcs.min?).getD 0)
        match mine.find? fun b => b.2.1 == src with
        | none => s
        | some b =>
          if (s.laneQ stTrace).any fun e => e.1 != b.2.2.2 || rPart e.2 != rPart b.2.2.1 then s
          else
          let s : State := { s with tr := { s.tr with closed := removeFirst (fun x => x.1 == c && x.2.1 == src) s.tr.closed, served := tset s.tr.served c src } }
          State.tracePull n { s with ln := { s.ln with q := tset s.ln.q stTrace (s.laneQ stTrace ++ [(b.2.2.2, b.2.2.1)]) } }

/-- The fining stage codes command and sample records as they enter the lane (R221): the records that may fill the next flit. -/
def State.lineFine : Nat → State → State
  | 0, s => s
  | n + 1, s =>
    let q := s.laneQ stCounter
    let k := s.ln.coded
    if 15 + tgetD s.ln.sent stCounter 0 ≤ lsum ((q.take k).map fun p => p.2.length) then s
    else
      match q[k]? with
      | none => s
      | some (tag, r) =>
        let ty := rType r
        if s.h O.HeladFining = 1 ∧ (ty = 0x30 ∨ ty = 0x31) then
          let e := finEncode 15 (s.h O.FiningResync) s.gr.hHist r
          State.lineFine n { s with gr := { s.gr with hHist := e.2 }, ln := { s.ln with q := tset s.ln.q stCounter (listSet q k (tag, e.1)), coded := k + 1 } }
        else State.lineFine n { s with ln := { s.ln with coded := k + 1 } }

/-- Whether Helad has a unit of a stream type to send. -/
def State.hasUnits (s : State) (st : Nat) : Bool := !(s.laneQ st).isEmpty || (st == stTrace && !s.tr.closed.isEmpty)

/-- The strict-priority types of R155. -/
def strictType (st : Nat) : Bool := st == stAlarm || st == stControl || st == stTime

/-- A flit leaves Helad on the lane: the window of 1,024 flits, the place in the superframe of 1,285 flits (R149), LANE at work (R75). -/
def State.laneFlit (st : Nat) (f : List Nat) (s : State) : State :=
  { s with ln := { s.ln with window := (strictType st :: s.ln.window).take 1023, frame := (s.ln.frame + 1) % 1285 },
           bd := if st = 0 then s.bd else { s.bd with busyAt := tset s.bd.busyAt 4 (s.ft .hel) } }.put .lane st f

/-- A new flit leaves Helad, and stays in the replay buffer of R172. -/
def State.laneOut (st seq : Nat) (f : List Nat) (s : State) : State :=
  { s with ln := { s.ln with replay := if st = 0 ∨ st = stTime then s.ln.replay else ((st, seq, f) :: s.ln.replay).take 1024 } }.laneFlit st f

/-- An uncorrectable read of the outbound queue (R449): the record at its head is discarded and the next flit of the type carries LOSS; a damaged AO-ring entry is replaced by a MemoryErrorRecord, which goes in its place. -/
def State.laneLost (st : Nat) (s : State) : State :=
  match s.laneQ st with
  | [] => s
  | (tag, r) :: rest =>
    if st = stEvent ∧ rType r = 0xF4 ∧ tgetD s.ln.sent st 0 = 0 then
      let p := s.heladMemRec 1
      let s : State := p.2
      let (stm, s) := s.takeStamp .hel fnRecorder
      let e := recEntry s.hGid (rSeq r) 2 0 0 stm (s.h O.OhSeconds) (s.h O.PowerCycles) (16 * p.1.length) p.1
      { s with ir := { s.ir with ao := s.ir.ao.map fun x => if x.1 = rSeq r then (x.1, e, true) else x }, ln := { s.ln with q := tset s.ln.q st ((tag, e) :: rest) } }
    else
      { s with ln := { s.ln with q := tset s.ln.q st rest, sent := tset s.ln.sent st 0, loss := setBit s.ln.loss st true,
                                 coded := if st = stCounter then s.ln.coded - 1 else s.ln.coded } }.heladMemError 1

/-- Sends the next flit of a stream type (R150–R156): SEQUENCE, the cut fields of its records' queuing, CUT_MARK, LOSS and RESUMED where owed; the flits that hold the summary of an overflow carry LOSS, and it follows once its queue has room (R155); a DelayReq's t3 is taken here (R41). `bad`: the read of its head is uncorrectable (R449). -/
def State.sendFlit (st : Nat) (bad : Bool) (s : State) : State :=
  let s : State := if st = stTrace then s.tracePull 16 else if st = stCounter then s.lineFine 16 else s
  let ecc := match s.laneQ st with | [] => (false, s) | (_, r) :: _ => s.heladRead (rPart r)
  let s : State := if bad || ecc.1 then ecc.2.laneLost st else ecc.2
  let q := s.laneQ st
  match q with
  | [] => if st = stTrace then s.fillSync else s
  | (tag, r) :: _ =>
    let g := gather (rPart r) tag q (tgetD s.ln.sent st 0) 15
    let gone := q.length - g.2.2.1.length
    let seq := tgetD s.ln.seq st 0
    let marked := owes s.ln.mark st tag
    let in_ := gone + b2n (g.2.2.2 != 0)
    let summary := st == stAlarm && (q.take in_).any fun p => rType p.2 == 0xF3 && recFld p.2 256 16 == 1
    let hit := s.rouseEvent 1 st (rPart r) (· == s.hGid)
    let s : State := match hit.1 with | some m => hit.2.put .pin 0x720 [m] | none => hit.2
    let f := mkFlit ⟨st, s.h O.SlotNumber, rPart r, seq, tag % 2, marked, tag % 256, bit s.ln.loss st || summary, s.h O.SpareActive == 1,
      bit s.ln.resume st, false, false, g.2.1.getD 15, g.1.length⟩ g.1
    let s : State := { s with ln := { s.ln with
      q := tset s.ln.q st g.2.2.1, sent := tset s.ln.sent st g.2.2.2, seq := tset s.ln.seq st ((seq + 1) % 2 ^ 28),
      mark := if marked then paid s.ln.mark st tag else s.ln.mark, loss := setBit s.ln.loss st false, resume := setBit s.ln.resume st false,
      coded := if st = stCounter then s.ln.coded - gone else s.ln.coded } }
    let s : State := (q.take gone).foldl (fun s p => s.delayLeaves .hel p.2) (s.laneOut st seq f)
    let s : State := if st = stTrace then s.fillSync else if st = stEvent then s.snapSync else s
    if st = stAlarm ∧ 0 < s.ln.alarmLost ∧ s.laneBytes stAlarm + 48 ≤ 16384 then
      let n := s.ln.alarmLost
      { s with ln := { s.ln with alarmLost := 0 } }.hAlarm 0x001 2 n
    else s

/-- One IDLE flit. -/
def State.sendIdle (s : State) : State :=
  let c := s.h O.HeladCutNumber
  s.laneOut 0 0 (mkFlit ⟨0, s.h O.SlotNumber, 0, 0, c % 2, false, c % 256, false, s.h O.SpareActive == 1, false, false, false, 15, 0⟩ [])

/-- The weighted types. -/
def weighted : List Nat := [stCounter, stTrace, stDigest, stEvent]

/-- Deficit round robin over COUNTER, TRACE, DIGEST and EVENT (R155): a flit costs 100, each round adds a backlogged type's weight, and an empty type loses its deficit. -/
def State.drrPick : Nat → State → Option (Nat × State)
  | 0, s => (weighted.find? s.hasUnits).map fun t => (t, s)
  | n + 1, s =>
    if !weighted.any s.hasUnits then none
    else
      match weighted.find? fun t => s.hasUnits t && decide (100 ≤ tgetD s.ln.deficit t 0) with
      | some t => some (t, { s with ln := { s.ln with deficit := tset s.ln.deficit t (tgetD s.ln.deficit t 0 - 100) } })
      | none =>
        State.drrPick n { s with ln := { s.ln with deficit := weighted.foldl (fun d t =>
          tset d t (if s.hasUnits t then tgetD s.ln.deficit t 0 + s.h (O.LaneWeight + (t - 4)) else 0)) s.ln.deficit } }

/-- Whether a strict flit keeps the strict types within StrictCeiling of any 1,024 consecutive flits (R155). -/
def State.strictRoom (s : State) : Bool :=
  decide (((s.ln.window.filter id).length + 1) * 100 ≤ s.h O.StrictCeiling * 1024)

/-- Takes the next replayed flit that may leave: one of a strict type waits for room under StrictCeiling (R155, R172). -/
def State.replayNext (s : State) : Option ((Nat × List Nat) × State) :=
  (s.ln.again.find? fun x => !strictType x.1 || s.strictRoom).map fun x => (x, { s with ln := { s.ln with again := removeFirst (fun y => y == x) s.ln.again } })

/-- IDLE flits until a strict flit has room under StrictCeiling (R155). -/
def State.idleUntilRoom : Nat → State → State
  | 0, s => s
  | n + 1, s => if s.strictRoom then s else State.idleUntilRoom n s.sendIdle

/-- FLIT_TRANSMIT: after a retune the flits to be replayed, then strict types first, then deficit round robin, else IDLE (R155, R172). `bad`: the read of what would leave is uncorrectable; of the replay buffer it discards the flit (R449). A LANE that has woken with something to send lights its transmitter (R167). -/
def State.flitTransmit (bad : Bool) (s : State) : State :=
  let some_ := (List.range 8).any fun t => s.hasUnits t
  let s : State := if s.h O.LaneState = 3 ∧ s.awake 4 ∧ some_ then (s.laneBurst).hSet O.LaneState 2 else s
  if s.h O.LaneState ≠ 2 ∨ !s.awake 4 then s
  else if !s.ln.again.isEmpty then
    match s.replayNext with
    | some x =>
      if bad then (({ x.2 with ln := { x.2.ln with loss := setBit x.2.ln.loss x.1.1 true } } : State).heladMemError 1).sendIdle
      else x.2.laneFlit x.1.1 x.1.2
    | none => s.sendIdle
  else
    match (if s.strictRoom then [stAlarm, stControl, stTime].find? s.hasUnits else none) with
    | some t => s.sendFlit t bad
    | none =>
      match s.drrPick 101 with
      | some p => p.2.sendFlit p.1 bad
      | none => s.sendIdle

/-- FLIT_TRANSMIT. -/
def execFlitTransmit (bad : Bool) : State → Host.Outcome State Fault Refusal := run (State.flitTransmit bad)

/-! ### Slot states at the Icdon IX40 (R164, R165, R169) -/

/-- WAVELENGTH of a slot: its position, or 8 on the fibre's spare. -/
def State.slotWave (s : State) (k : Nat) : Nat := if s.i (O.SpareOwner + k / 8) = k then 8 else k % 8

/-- A SlotState change with its LaneEventRecord, which at every end of RETUNE gives the length of the outage (R165, R169); the membership engine times FAILED and MISWIRED slots (R415). A slot that is DARK again starts at step 1 of R166, with SlotAssign (R545). -/
def State.slotEvent (k new cause gap : Nat) (s : State) : State :=
  let old := s.i (O.SlotState + k)
  let gap := if old = 4 then max gap ((s.ft .icd - tgetD s.ln.lossAt k (s.ft .icd)) / 65536) else gap
  let (st, s) := s.takeStamp .icd fnRecord
  let (r, s) := s.form .icd 0x50 3 0 0
    [(128, 128, st), (256, 8, k), (264, 8, old), (272, 8, new), (280, 8, cause), (288, 8, s.slotWave k), (320, 32, tgetD s.ln.dieGid k 0), (352, 32, sat (2 ^ 32 - 1) gap)]
  let s : State := s.iSet (O.SlotState + k) new
  let s : State := if s.i (O.SpareOwner + k / 8) = k then s.iSet (O.SlotState + 64 + k / 8) new else s
  let bad := new == 5 || new == 6
  let s : State := { s with tw := { s.tw with badFrom :=
    if bad then (if (tget s.tw.badFrom k).isSome then s.tw.badFrom else tset s.tw.badFrom k (s.ft .icd)) else tdel s.tw.badFrom k } }
  let s : State := s.occur (0x010 + k) none r
  if new = 0 ∧ s.role = 1 then s.slotAssignSend k else s

/-- LIGHT_DETECT: a DARK slot trains; light on a FAILED slot is ignored; in RETUNE the time to acquire runs from it (R165, R173, R176). -/
def State.lightDetect (k : Nat) (s : State) : State :=
  if s.i (O.SlotState + k) = 0 then s.slotEvent k 1 11 0
  else if s.i (O.SlotState + k) = 4 then { s with ln := { s.ln with burstAt := tset s.ln.burstAt k (s.ft .icd) } }
  else s

/-- LIGHT_DETECT. -/
def execLightDetect (slot : Nat) : State → Host.Outcome State Fault Refusal := run (State.lightDetect slot)

/-- The last SEQUENCE of the unbroken run after `p` of flits that are held. -/
def goodRun (held : Nat → Bool) : Nat → Nat → Nat
  | 0, p => p
  | n + 1, p => if held ((p + 1) % 2 ^ 28) then goodRun held n ((p + 1) % 2 ^ 28) else p

/-- LAST_GOOD of the six types of a RetuneCommand (R171): the last flit before the first one that neither twin holds, among the last 1,024 taken, which is as far back as Helad's replay reaches. `other`: stream type and SEQUENCE of the flits that the other twin holds. -/
def State.lastGood (s : State) (k : Nat) (other : List (Nat × Nat)) : List Nat :=
  [stAlarm, stControl, stCounter, stTrace, stDigest, stEvent].map fun t =>
    let theirs := fun n => other.contains (t, n)
    match tget s.ln.rx (k * 16 + t) with
    | some x =>
      let run := goodRun (fun n => theirs n || (x.kept ++ x.held).any fun f => (flitHdr f).seq == n)
      (match x.kept.getLast? with
       | some f => run (1024 + other.length) (flitHdr f).seq
       | none => run (1024 + other.length) ((x.expect.getD 0 + 2 ^ 28 - 1) % 2 ^ 28))
    | none => goodRun theirs other.length (2 ^ 28 - 1)

/-- Sends a RetuneCommand on a slot's downstream channel and enters RETUNE; the lead sends its twin the RetuneOrder (R170, R171). Both twins know what the other holds when they agree, so their records are alike (R160). -/
def State.retuneStart (k target cause : Nat) (other : List (Nat × Nat)) (s : State) : State :=
  let g := s.lastGood k other
  let (r, s) := s.form .icd 0x52 3 0 0 ([(128, 8, target)] ++ g.zipIdx.map fun p => (192 + 32 * p.2, 32, p.1))
  let s : State := s.downSend k stControl r
  let s : State := if s.isLead ∧ target = 0 then s.xMsg 0x170 ([k, s.i (O.SpareOwner + k / 8)] ++ g) else s
  let s : State := { s with ln := { s.ln with
    retuneAt := tset s.ln.retuneAt k (s.ft .icd, target), burstAt := tdel s.ln.burstAt k, retrained := s.ln.retrained.filter (· != k) } }
  s.slotEvent k 4 cause 0

/-- R170: AutoRetune gives the fibre's free spare to a failed slot; an owned spare leaves it FAILED with SPARE_BUSY. No retune starts in observe-only mode (R472). -/
def State.slotRetune (k : Nat) (cause : Nat) (other : List (Nat × Nat)) (s : State) : State :=
  if s.i O.AutoRetune ≠ 1 ∨ s.observeOnly then (if s.i (O.SlotState + k) = 5 then s else s.slotEvent k 5 cause 0)
  else if s.i (O.SpareOwner + k / 8) = 0xFF then (s.iSet (O.SpareOwner + k / 8) k).retuneStart k 0 cause other
  else (s.slotEvent k 5 8 0).iAlarm 0x051 3 (0x0300 + k) k

/-- A slot fails at t0 (R159, R165): when one twin alone declares it, its flits are taken over the crosslink, for up to four slots, and a fifth degrades this twin, which as lead plans a handover (R413). `before`: FT units since the light was good; `other`: the flits that the other twin holds. -/
def State.slotFail (k cause before : Nat) (both : Bool) (other : List (Nat × Nat)) (s : State) : State :=
  if both then
    { s with ln := { s.ln with lossAt := tset s.ln.lossAt k (s.ft .icd - before) } }.slotRetune k cause other
  else if s.ln.viaTwin.contains k ∨ s.ln.degraded.contains k then s
  else if s.ln.viaTwin.length < 4 then { s with ln := { s.ln with viaTwin := s.ln.viaTwin ++ [k] } }.xMsg 0x159 [k]
  else
    let s : State := { s with ln := { s.ln with degraded := s.ln.degraded ++ [k] } }
    s.handoverTest

/-- LOSS_OF_LIGHT by the slot's state (R165). -/
def State.lossOfLight (k : Nat) (both : Bool) (other : List (Nat × Nat)) (s : State) : State :=
  let st := s.i (O.SlotState + k)
  if st = 1 then s.slotEvent k 0 1 0
  else if st = 2 then
    if s.ln.dozeSaid.contains k then
      let s : State := { s with ln := { s.ln with dozeSaid := s.ln.dozeSaid.filter (· != k), dozeFrom := tset s.ln.dozeFrom k (s.ft .icd) } }
      s.slotEvent k 3 4 0
    else s.slotFail k 1 (ns 500) both other
  else if st = 3 then { s with ln := { s.ln with keepLit := s.ln.keepLit.filter (· != k) } }
  else s

/-- LOSS_OF_LIGHT. -/
def execLossOfLight (slot : Nat) (both : Bool) (other : List (Nat × Nat)) : State → Host.Outcome State Fault Refusal := run (State.lossOfLight slot both other)

/-- The receiver of a slot loses light because its group is reset (R530). -/
def State.slotLightLost (k : Nat) (s : State) : State := s.lossOfLight k true []

/-- FEC_FAIL_COUNT: 32 consecutive uncorrectable codewords on an ACTIVE slot (R165). -/
def State.fecFailCount (k n : Nat) (both : Bool) (other : List (Nat × Nat)) (s : State) : State :=
  let c := tgetD s.ln.fecRun k 0 + n
  let key := O.FecUncorrectable + (if s.slotWave k = 8 then 64 + k / 8 else k)
  let s : State := { (s.addOb .icd key 64 n) with ln := { s.ln with fecRun := tset s.ln.fecRun k c } }
  if s.i (O.SlotState + k) = 2 ∧ 32 ≤ c then
    { s with ln := { s.ln with fecRun := tset s.ln.fecRun k 0 } }.slotFail k 2 (ns 778) both other
  else s

/-- FEC_FAIL_COUNT. -/
def execFecFailCount (slot n : Nat) (both : Bool) (other : List (Nat × Nat)) : State → Host.Outcome State Fault Refusal := run (State.fecFailCount slot n both other)

/-- DOZE_SILENT_TIMEOUT: no light for the die's LaneKeepalive, as the Tray's copy holds it, and 10 ms (R165); declared by one twin alone it is that twin's receive fault (R159). -/
def State.dozeSilent (k : Nat) (both : Bool) (other : List (Nat × Nat)) (s : State) : State :=
  let keep := (s.copied k O.LaneKeepalive).getD 1000
  match tget s.ln.dozeFrom k with
  | some t =>
    if s.i (O.SlotState + k) = 3 ∧ t + ms (keep + 10) ≤ s.ft .icd then
      if both then { (s.slotEvent k 5 6 0) with ln := { s.ln with lossAt := tset s.ln.lossAt k t } }.slotRetune k 6 other
      else s.slotFail k 6 0 false other
    else s
  | none => s

/-- DOZE_SILENT_TIMEOUT. -/
def execDozeSilentTimeout (slot : Nat) (both : Bool) (other : List (Nat × Nat)) : State → Host.Outcome State Fault Refusal := run (State.dozeSilent slot both other)

/-- SLOT_RESET: a FAILED or MISWIRED slot returns to DARK; any other is refused with BUSY (R165). -/
def State.slotResetOp (k : Nat) : Op := fun s =>
  if 64 ≤ k then (s, no stRange)
  else if s.i (O.SlotState + k) = 5 ∨ s.i (O.SlotState + k) = 6 then
    (({ s with ln := { s.ln with miswired := tdel s.ln.miswired k, fecRun := tdel s.ln.fecRun k } }.rxRestart k).slotEvent k 0 10 0, ok)
  else (s, no stBusy)

/-- SLOT_RESET. -/
def execSlotReset (q : Req) (slot : Nat) : State → Host.Outcome State Fault Refusal := run (State.reqWrite q O.SlotReset slot (State.slotResetOp slot))

/-- When the burst of a slot in RETUNE is due where no light shows it (R171): the pairs of the die's profile, 1.30 µs each, and RetuneSettle, as the Tray's copy holds them. -/
def State.burstDue (k : Nat) (s : State) : Nat :=
  let pairs := (((List.range 32).map fun n => s.copyOf k (O.OeRetuneProfile + n)).reverse.dropWhile (· == 0)).length
  ((tget s.ln.retuneAt k).map (·.1)).getD 0 + ns (1300 * pairs) + us (s.copyOf k O.RetuneSettle)

/-- Whether the receiver of a slot in RETUNE may still acquire (R173): 20 µs from the burst; on the spare without stored settings the receiver adapts as in training, 500 µs (R166). -/
def State.acquiring (k : Nat) (s : State) : Bool :=
  let t := (tget s.ln.burstAt k).getD (s.burstDue k)
  let trains := (tget s.ln.burstAt k).isSome && !s.ln.spareSet.contains k && decide (((tget s.ln.retuneAt k).map (·.2)).getD 0 = 0)
  decide (s.ft .icd < t + us (if trains then 500 else 20))

/-- RETUNE_ACQUIRE_TIMEOUT: FAILED with SPARE_FAILED; the spare stays assigned (R173). What one twin alone has not acquired is its receive fault (R159). -/
def State.retuneTimeout (k : Nat) (both : Bool) (s : State) : State :=
  if s.i (O.SlotState + k) = 4 ∧ !s.acquiring k then
    (if both then (s.slotEvent k 5 9 0).iAlarm 0x052 3 (0x0300 + k) k else s.slotFail k 9 0 false [])
  else s

/-- RETUNE_ACQUIRE_TIMEOUT. -/
def execRetuneAcquireTimeout (slot : Nat) (both : Bool) : State → Host.Outcome State Fault Refusal := run (State.retuneTimeout slot both)

/-- SPARE_TRAIN_SLOT: the die trains once on the spare (R173): it is retuned there, and its receiver's settings are stored when it is ACTIVE; REVERT_SLOT brings it back. DEDUCED: it needs an attached slot, ACTIVE or dozing, and a free spare, else BUSY. -/
def State.spareTrainOp (k : Nat) : Op := fun s =>
  if 64 ≤ k then (s, no stRange)
  else if (s.i (O.SlotState + k) ≠ 2 ∧ s.i (O.SlotState + k) ≠ 3) ∨ s.i (O.SpareOwner + k / 8) ≠ 0xFF then (s, no stBusy)
  else (({ (s.iSet (O.SpareOwner + k / 8) k) with ln := { s.ln with lossAt := tset s.ln.lossAt k (s.ft .icd) } }).retuneStart k 0 10 [], ok)

/-- SPARE_TRAIN_SLOT. -/
def execSpareTrainSlot (q : Req) (slot : Nat) : State → Host.Outcome State Fault Refusal := run (State.reqWrite q O.SpareTrainSlot slot (State.spareTrainOp slot))

/-- REVERT_SLOT: the retune with TARGET 1 (R174). DEDUCED: a slot that does not own the spare has nothing to return from, one in RETUNE is on its way, and FAILED and MISWIRED are left by SlotReset alone (R165): BUSY. -/
def State.revertOp (k : Nat) : Op := fun s =>
  if 64 ≤ k then (s, no stRange)
  else if s.i (O.SpareOwner + k / 8) ≠ k ∨ 4 ≤ s.i (O.SlotState + k) then (s, no stBusy)
  else ({ s with ln := { s.ln with lossAt := tset s.ln.lossAt k (s.ft .icd) } }.retuneStart k 1 10 [], ok)

/-- REVERT_SLOT. -/
def execRevertSlot (q : Req) (slot : Nat) : State → Host.Outcome State Fault Refusal := run (State.reqWrite q O.RevertSlot slot (State.revertOp slot))

/-- RECEIVER_ADAPTATION_DONE: a shadow reports its receiver's adaptation to the lead; for each twin so reported, and for itself, the lead enters a TrainDoneRecord in the slot's CONTROL stream and tells the shadow, which enters the same (R160, R166, R545). DESIGN CHOICE (log 106): at a shadow that has reported, the command is the lead's word. A slot that trains anew in RETUNE has had HMAIN_RST_N (R176). -/
def State.adaptationDone (k gid : Nat) (s : State) : State :=
  if s.i (O.SlotState + k) ≠ 1 ∧ s.i (O.SlotState + k) ≠ 4 then s
  else
    let s : State := if s.i (O.SlotState + k) = 4 then { s with ln := { s.ln with retrained := (k :: s.ln.retrained).eraseDups } } else s
    if !s.isLead && gid == s.iGid && !s.ln.adapted.contains k && s.tm.xlinkUp then
      { s with ln := { s.ln with adapted := k :: s.ln.adapted } }.xMsg 0x545 [k, gid]
    else
      let s : State := if s.isLead && s.tm.xlinkUp then s.xMsg 0x545 [k, gid] else s
      let (r, s) := s.form .icd 0x54 2 0 0 [(128, 8, k), (136, 8, s.slotWave k), (160, 32, gid)]
      s.downSend k stControl r

/-- RECEIVER_ADAPTATION_DONE. -/
def execReceiverAdaptationDone (slot twin : Nat) : State → Host.Outcome State Fault Refusal := run (State.adaptationDone slot twin)

/-- A Helad answers with its identity once after an AO power-up, at its first ACQUIRE (R60, R488); what the model's own Helad has done since, the model holds. -/
def State.knownSince (slot : Nat) (s : State) : Bool := slot == s.h O.SlotNumber && s.bd.restored

/-- The nonce that the Tray sends in CONTROL for the Helad's identity (R488). DESIGN CHOICE (log 150): the Tray learns of the first ACQUIRE when the slot has trained; the nonce is a free value that both twins hold alike (R160), and the spec gives its carrier no layout. -/
def State.identityNonce (k : Nat) (s : State) : State :=
  let n := Config.heladNonce s.pairGid k (tgetD s.tm.ohBase k (0, 0)).2 % 2 ^ 256
  s.downSend k stControl (mkRec 0x60 5 0 s.pairGid 0 0 [(128, 16, 0x488), (192, 32, tgetD s.ln.dieGid k 0), (256, 256, n)])

/-- The first valid flit takes a training or retuning slot to ACTIVE (R165, R170–R174): the die joins, stored spare settings are kept, a return to the primary frees the spare; after a training SEQUENCE starts anew (R176, R551). -/
def State.slotActive (k cause : Nat) (s : State) : State :=
  let from_ := s.i (O.SlotState + k)
  let anew := from_ == 1 || s.ln.retrained.contains k
  let gap := if from_ = 4 then (s.ft .icd - tgetD s.ln.lossAt k (s.ft .icd)) / 65536 else 0
  let target := ((tget s.ln.retuneAt k).map (·.2)).getD 0
  let s : State := if from_ = 4 ∧ target = 1 then (s.iSet (O.SpareOwner + k / 8) 0xFF).iSet (O.SlotState + 64 + k / 8) 0 else s
  let s : State := s.slotEvent k 2 cause gap
  let s : State := { s with ln := { s.ln with
    spareSet := if s.i (O.SpareOwner + k / 8) = k then (k :: s.ln.spareSet).eraseDups else s.ln.spareSet
    retuneAt := tdel s.ln.retuneAt k, burstAt := tdel s.ln.burstAt k, retrained := s.ln.retrained.filter (· != k), adapted := s.ln.adapted.filter (· != k), fecRun := tdel s.ln.fecRun k, viaTwin := s.ln.viaTwin.filter (· != k), degraded := s.ln.degraded.filter (· != k)
    keepLit := s.ln.keepLit.filter (· != k), dozeFrom := tdel s.ln.dozeFrom k, dozeSaid := s.ln.dozeSaid.filter (· != k) } }
  let s : State := if anew then s.rxRestart k else s
  let s : State := if from_ = 1 ∧ !s.knownSince k then s.identityNonce k else s
  match tget s.ln.dieGid k with | some g => s.memberJoin g | none => s

/-! ### Receivers (R25, R154, R204, R551) -/

/-- The Grist slot of a link that carries telemetry up: a die-facing slot, or above a Tray a downward link (R204). -/
def gristSlot : Link → Option Nat
  | .slot n => some n
  | .down n => some n
  | _ => none

/-- An empty receiver. -/
def rx0 : RxStream := ⟨none, [], false, [], none, none, []⟩

/-- The receiver of a link and stream type. -/
def State.rxOf (s : State) (l : Link) (st : Nat) : RxStream := tgetD s.ln.rx (linkNum l * 16 + st) rx0

/-- Replaces a receiver. -/
def State.setRx (l : Link) (st : Nat) (x : RxStream) (s : State) : State :=
  { s with ln := { s.ln with rx := tset s.ln.rx (linkNum l * 16 + st) x } }

/-- Units of the complete records at the head of a list, up to a record of LENGTH 0, which ends the count with its first unit (R14). -/
def wholeUnits : Nat → List RxUnit → Nat
  | 0, _ => 0
  | n + 1, l =>
    match l with
    | [] => 0
    | u :: _ =>
      let k := bits u.unit 16 16
      if k = 0 then 1 else if l.length < k then 0 else k + wholeUnits n (l.drop k)

/-- Whether the whole records at the head of a list end at one of LENGTH 0: the rest of what has been reassembled is discarded there (R14). -/
def zeroAhead : Nat → List RxUnit → Bool
  | 0, _ => false
  | n + 1, l =>
    match l with
    | [] => false
    | u :: _ =>
      let k := bits u.unit 16 16
      k == 0 || (decide (k ≤ l.length) && zeroAhead n (l.drop k))

/-- Records of a slot's COUNTER stream are lost, whichever keys they had: all its fining histories are incomplete (R221). -/
def State.breakStream (k st : Nat) (s : State) : State :=
  if st = stCounter then { s with gr := { s.gr with hist := tset s.gr.hist k ((tgetD s.gr.hist k []).map fun e => { e with valid := false }) } } else s

/-- A gap stands: the record in progress is discarded, reassembly waits for the next RECORD_START, the fining histories of a COUNTER stream are broken, the index takes a LINK_GAP, and the flits enter the loss set that the twins exchange (R25, R154, R209, R221). -/
def State.gapStands (l : Link) (st seq n cut : Nat) (s : State) : State :=
  let x := s.rxOf l st
  let s : State := s.setRx l st { x with units := x.units.take (wholeUnits x.units.length x.units), resync := true }
  match gristSlot l with
  | some k =>
    let s : State := s.breakStream k st
    let s : State := { s with rd := { s.rd with lost := s.rd.lost ++ [(k * 16 + st, seq, n)] } }
    s.idx 3 st k seq cut 0 false 0 n
  | none => s

/-- A flit is taken in SEQUENCE order: its markers go to the index, its units to reassembly; flits after a cut's latch may be in flight (R154, R209, R392). `lost`: flits of a gap that stood just before it. -/
def State.rxTake (l : Link) (f : List Nat) (lost : Nat) (s : State) : State :=
  let h := flitHdr f
  let x := s.rxOf l h.ty
  let units := ((f.drop 1).take h.valid).map fun u => (⟨u, h.seq, h.cutId, h.part⟩ : RxUnit)
  let units := if x.resync then (if h.start = 15 then [] else units.drop h.start) else units
  let s : State := match gristSlot l with
    | some k =>
      let s : State := if x.expect.isNone then s.idx 3 h.ty k h.seq h.cutId 0 false 0 0 else s
      let s : State := if h.mark then s.idx 1 h.ty k h.seq h.cutId 0 false 0 0 else s
      let s : State := if h.loss then s.idx 2 h.ty k h.seq h.cutId 0 false 0 lost else s
      if h.resumed then s.idx 4 h.ty k h.seq h.cutId 0 false 0 0 else s
    | none => s
  let s : State := s.kilnFlit (linkNum l) h.ty h.seq h.cutId
  let keepUnits := (gristSlot l).isSome || (l == .xlink && h.ty == stRepair)
  s.setRx l h.ty { x with expect := some ((h.seq + 1) % 2 ^ 28), units := if keepUnits then x.units ++ units else [],
                          resync := x.resync && (h.start == 15), kept := (f :: x.kept).take 1024 }

/-- How far a SEQUENCE lies ahead of the expected one, modulo 2^28. -/
def ahead (seq expect : Nat) : Nat := (seq + 2 ^ 28 - expect) % 2 ^ 28

/-- Whether a missing flit of a link may be repaired over the crosslink (R25). -/
def State.repairable (l : Link) (s : State) : Bool := s.tm.xlinkUp && (match l with | .xlink | .chan _ => false | _ => true)

/-- Wavelengths of a link: more than one needs the skew hold of R180. -/
def State.linkWaves (l : Link) (s : State) : Nat := match l with | .slot _ | .chan _ => 1 | .xlink => 8 | _ => s.pk.width

/-- Asks the twin for the flits before `seq`, or lets the gap stand and takes the flit (R25). -/
def State.rxGap (l : Link) (f : List Nat) (s : State) : State :=
  let h := flitHdr f
  let x := s.rxOf l h.ty
  let e := x.expect.getD h.seq
  if s.repairable l then
    (s.setRx l h.ty { x with asked := some (e, (h.seq + 2 ^ 28 - 1) % 2 ^ 28, s.ft .icd), held := f :: x.held, skew := none }).xMsg 0x25 [linkNum l, h.ty, e, ahead h.seq e]
  else (s.gapStands l h.ty e (ahead h.seq e) h.cutId).rxTake l f (ahead h.seq e)

/-- Places a flit among those held ahead of a gap, in SEQUENCE order. -/
def holdFlit (e : Nat) (f : List Nat) : List (List Nat) → List (List Nat)
  | [] => [f]
  | g :: t =>
    if ahead (flitHdr f).seq e < ahead (flitHdr g).seq e then f :: g :: t
    else if (flitHdr f).seq = (flitHdr g).seq then g :: t else g :: holdFlit e f t

/-- One flit in the order of R551: the expected one is taken, a duplicate discarded, one ahead held for skew or for repair. -/
def State.rxOffer (l : Link) (f : List Nat) (s : State) : State :=
  let h := flitHdr f
  let x := s.rxOf l h.ty
  match x.expect with
  | none => s.rxTake l f 0
  | some e =>
    let d := ahead h.seq e
    if 2 ^ 27 ≤ d then s
    else if x.asked.isSome then s.setRx l h.ty { x with held := holdFlit e f x.held }
    else if d = 0 then s.rxTake l f 0
    else if 1 < s.linkWaves l then
      s.setRx l h.ty { x with held := holdFlit e f x.held, skew := some (x.skew.getD (s.ft .icd)) }
    else s.rxGap l f

/-- Offers again the flits that were held, in SEQUENCE order. -/
def State.rxDrain (l : Link) (st : Nat) (s : State) : State :=
  let x := s.rxOf l st
  (x.held).foldl (fun s f => s.rxOffer l f) (s.setRx l st { x with held := [], skew := none })

/-- The end of a repair hold: each SEQUENCE asked for is taken from the answer, or its gap stands (R25). -/
def State.repairEnd (l : Link) (st : Nat) (flits : List (List Nat)) (s : State) : State :=
  let x := s.rxOf l st
  match x.asked with
  | none => s
  | some (a, b, _) =>
    let n := ahead b a + 1
    let s : State := s.setRx l st { x with asked := none }
    let ans := flits.filter fun f => (flitHdr f).ty == st && decide (ahead (flitHdr f).seq a < n)
    let order := ans.foldl (fun acc f => holdFlit a f acc) []
    let s : State := order.foldl (fun s f =>
      let e := ((s.rxOf l st).expect).getD a
      let d := ahead (flitHdr f).seq e
      if 2 ^ 27 ≤ d then s else if d = 0 then s.rxTake l f 0 else (s.gapStands l st e d (flitHdr f).cutId).rxTake l f d) s
    let e := ((s.rxOf l st).expect).getD a
    let left := ahead ((b + 1) % 2 ^ 28) e
    let cut := ((x.held.head?).map fun f => (flitHdr f).cutId).getD 0
    let s : State := if 0 < left ∧ left < 2 ^ 27 then
        let s : State := s.gapStands l st e left cut
        s.setRx l st { s.rxOf l st with expect := some ((b + 1) % 2 ^ 28) }
      else s
    s.rxDrain l st

/-- REPAIR_ANSWER. -/
def execRepairAnswer (l : Link) (st : Nat) (flits : List (List Nat)) : State → Host.Outcome State Fault Refusal := run (State.repairEnd l st flits)

/-- REPAIR_HOLD_EXPIRY: 20 µs after the request the gap stands (R25). -/
def State.repairExpiry (l : Link) (st : Nat) (s : State) : State :=
  match (s.rxOf l st).asked with
  | some (_, _, t) => if t + us 20 ≤ s.ft .icd then s.repairEnd l st [] else s
  | none => s

/-- REPAIR_HOLD_EXPIRY. -/
def execRepairHoldExpiry (l : Link) (st : Nat) : State → Host.Outcome State Fault Refusal := run (State.repairExpiry l st)

/-- REPAIR_REQUEST: the flits it has taken or holds ahead of a gap of its own, in the class of the type they repair; NOT_HELD for the rest (R25, R428). DESIGN CHOICE (log 106): a request for REPAIR itself that names no flit is the other twin's word that it has lost the slot: from then on its flits are forwarded, for up to four slots (R159). -/
def State.repairRequest (l : Link) (st : Nat) (seqs : List Nat) (s : State) : State :=
  if st = stRepair then
    match l with
    | .slot k => if s.ln.forward.length < 4 ∧ !s.ln.forward.contains k then { s with ln := { s.ln with forward := s.ln.forward ++ [k] } } else s
    | _ => s
  else
  let x := s.rxOf l st
  let held := fun n => (x.kept ++ x.held).find? fun f => (flitHdr f).seq == n
  let s : State := seqs.foldl (fun s n => match held n with | some f => s.xRepair (linkNum l) f | none => s) s
  let missing := seqs.filter fun n => (held n).isNone
  if missing.isEmpty then s else s.xMsg 0x251 (linkNum l :: st :: missing)

/-- REPAIR_REQUEST. -/
def execRepairRequest (l : Link) (st : Nat) (seqs : List Nat) : State → Host.Outcome State Fault Refusal := run (State.repairRequest l st seqs)

/-- FABRIC_SKEW_HOLD_EXPIRY: after 2 µs the gap is treated as R25 lays down (R180). -/
def State.skewExpiry (l : Link) (st : Nat) (s : State) : State :=
  let x := s.rxOf l st
  match x.skew, x.held with
  | some t, f :: rest =>
    if t + us 2 ≤ s.ft .icd then
      let s : State := (s.setRx l st { x with held := rest, skew := none }).rxGap l f
      if (s.rxOf l st).asked.isSome then s else s.rxDrain l st
    else s
  | _, _ => s

/-- FABRIC_SKEW_HOLD_EXPIRY. -/
def execFabricSkewHoldExpiry (l : Link) (st : Nat) : State → Host.Outcome State Fault Refusal := run (State.skewExpiry l st)

/-- Whether a stream type is valid for a link's direction (R151). -/
def typeValid (l : Link) (ty : Nat) : Bool :=
  match l with
  | .slot _ => ty ≤ 7
  | .chan _ => ty == 0 || ty == 2 || ty == 3 || ty == 8
  | .xlink => ty ≤ 12
  | _ => ty ≤ 11

/-- The checks of R154 but for SOURCE_PORT and SEQUENCE. -/
def flitBad (l : Link) (bad : Bool) (f : List Nat) : Bool :=
  let h := flitHdr f
  bad || bits (f.headD 0) 112 16 != flitCrc f || !typeValid l h.ty || (h.ty != 0 && h.valid == 0) ||
  (h.start != 15 && decide (h.valid ≤ h.start))

/-- A discarded flit counts in the link's error count (R154). -/
def State.rxError (l : Link) (s : State) : State := { s with ln := { s.ln with errs := tset s.ln.errs (linkNum l) (tgetD s.ln.errs (linkNum l) 0 + 1) } }

/-- Symbols corrected on a slot, per millisecond against DegradeThreshold: the alarm and the condition LANE_DEGRADED, and no retune (R175, R546). -/
def State.fecCount (k n : Nat) (s : State) : State :=
  let key := O.FecCorrected + (if s.slotWave k = 8 then 64 + k / 8 else k)
  let s : State := s.addOb .icd key 64 n
  let m := s.ft .icd / ms 1
  let old := tgetD s.ln.fecMs k (m, 0)
  let lim := s.i O.DegradeThreshold
  let s : State := if old.1 = m then s
    else { s with ln := { s.ln with overMs := if lim < old.2 ∧ old.1 + 1 = m then s.ln.overMs else s.ln.overMs.filter (· != k) } }
  let c := (if old.1 = m then old.2 else 0) + n
  let s : State := { s with ln := { s.ln with fecMs := tset s.ln.fecMs k (m, c) } }
  let s : State := if lim < c ∧ !s.ln.overMs.contains k then
      { s with ln := { s.ln with overMs := k :: s.ln.overMs } }.iAlarm 0x053 2 (0x0300 + k) k
    else s
  s.cond 0x14B (!s.ln.overMs.isEmpty)

/-- SOURCE_PORT against the slot (R154, R165): sixteen consecutive mismatches make the slot MISWIRED when both twins find it so, else they are this twin's receive fault (R159). -/
def State.slotMismatch (k : Nat) (both : Bool) (s : State) : State :=
  let n := tgetD s.ln.miswired k 0 + 1
  let s : State := { s with ln := { s.ln with miswired := tset s.ln.miswired k n } }
  if n ≠ 16 ∨ s.i (O.SlotState + k) = 6 then s
  else if both then (s.slotEvent k 6 3 0).iAlarm 0x050 3 (0x0300 + k) k
  else s.slotFail k 3 0 false []

/-! ### Helad identity (R488) -/

/-- Sends a Helad its persisted fence map and, when its identity is known, its operating hours with the cycle count incremented, at its first ACQUIRE (R60, R88, R488). -/
def State.restoreDie (slot : Nat) (known : Bool) (s : State) : State :=
  let fence := (s.si.perDie.filter fun p => p.1 / 256 == slot).map fun p => p.1 % 256 * 2 ^ 64 + p.2
  let oh := tgetD s.tm.ohBase slot (0, 0)
  let s : State := if slot = s.h O.SlotNumber ∧ !s.heladReset then
      let s : State := { s with bd := { s.bd with restored := true } }
      if known then (s.hSet O.OhSeconds oh.1).hSet O.PowerCycles oh.2 else s
    else s
  let s : State := if known then s.downSend slot stBulk [oh.1 + oh.2 * 2 ^ 64] else s
  s.downSend slot stBulk (fence.length :: fence)

/-- HELAD_IDENTITY_RESPONSE: the Tray compares the returned key with the slot's per-die state. -/
def State.heladIdentityResponse (slot key : Nat) (sigOk : Bool) (s : State) : State :=
  if s.role ≠ 1 ∨ s.knownSince slot then s
  else if !sigOk then (if s.i (O.SlotState + slot) = 6 then s else s.slotEvent slot 6 3 0).iAlarm 0x057 3 (0x0300 + slot) slot
  else
    let fresh := fun (s : State) => { s with
      sc := { s.sc with dieKey := tset s.sc.dieKey slot key },
      tm := { s.tm with ohBase := tset s.tm.ohBase slot (0, 1) },
      si := { s.si with perDie := s.si.perDie.filter fun p => p.1 / 256 != slot },
      ln := { s.ln with spareSet := s.ln.spareSet.filter (· != slot) } }
    match tget s.sc.dieKey slot with
    | none => ((fresh s).restoreDie slot false).iAlarm 0x055 0 (0x0300 + slot) slot
    | some k =>
      if k = key then
        let oh := tgetD s.tm.ohBase slot (0, 0)
        { s with tm := { s.tm with ohBase := tset s.tm.ohBase slot (oh.1, (oh.2 + 1) % 2 ^ 32) } }.restoreDie slot true
      else ((fresh s).restoreDie slot false).iAlarm 0x056 2 (0x0300 + slot) slot

/-- HELAD_IDENTITY_RESPONSE. -/
def execHeladIdentityResponse (slot key : Nat) (sigOk : Bool) : State → Host.Outcome State Fault Refusal :=
  run (State.heladIdentityResponse slot key sigOk)

/-- Whether a flit holds a LaneNoticeRecord of a kind and no other record. -/
def firstNotice (f : List Nat) (kind : Nat) : Bool :=
  let h := flitHdr f
  h.ty == stControl && h.start == 0 && h.valid == 2 && bits (f.getD 1 0) 0 8 == 0x51 && bits (f.getD 2 0) 0 8 == kind

/-- The SlotState that a valid flit finds (R165): training and retuning slots and woken dozing slots become ACTIVE. -/
def State.slotFlit (k : Nat) (f : List Nat) (s : State) : State :=
  let st := s.i (O.SlotState + k)
  let h := flitHdr f
  if st = 1 then s.slotActive k 0
  else if st = 4 then s.slotActive k 7
  else if st = 3 then
    if h.ty = 0 then s
    else if firstNotice f 1 then { s with ln := { s.ln with keepLit := (k :: s.ln.keepLit).eraseDups, dozeFrom := tset s.ln.dozeFrom k (s.ft .icd) } }
    else if s.ln.keepLit.contains k ∧ h.ty = stTime then s
    else s.slotActive k 5
  else s

/-- A DOZE notice at the end of a slot's CONTROL stream announces the squelch; any later unit withdraws it (R168). -/
def State.dozeHeard (k : Nat) (f : List Nat) (s : State) : State :=
  let h := flitHdr f
  if h.ty = 0 then s
  else
    let us := (s.rxOf (.slot k) h.ty).units
    let said := h.ty == stControl && 2 ≤ us.length && bits ((us.getD (us.length - 2) ⟨0, 0, 0, 0⟩).unit) 0 8 == 0x51 &&
      bits ((us.getD (us.length - 1) ⟨0, 0, 0, 0⟩).unit) 0 8 == 0
    { s with ln := { s.ln with dozeSaid := if said then (k :: s.ln.dozeSaid).eraseDups else s.ln.dozeSaid.filter (· != k) } }

/-- A flit on a die-facing slot. -/
def State.slotReceive (k : Nat) (f : List Nat) (bad : Bool) (n : Nat) (both : Bool) (s : State) : State :=
  let s : State := s.fecCount k n
  let h := flitHdr f
  let st := s.i (O.SlotState + k)
  let hit := s.rouseEvent 5 h.ty h.part fun t => t == k || tget s.ln.dieGid k == some t
  let s : State := hit.2
  let bad := bad || (match hit.1 with | some m => decide (16 ≤ m) | none => false)
  if st = 0 ∨ st = 5 ∨ (st = 6 ∧ h.port = k) then s
  else if flitBad (.slot k) bad f then s.rxError (.slot k)
  else
    let s : State := { s with ln := { s.ln with fecRun := tset s.ln.fecRun k 0 } }
    if h.port ≠ k then (s.rxError (.slot k)).slotMismatch k both
    else
      let s : State := { s with ln := { s.ln with miswired := tset s.ln.miswired k 0 } }
      let s : State := s.slotFlit k f
      let s : State := s.earlyLatch .icd k h.cutId
      let s : State := if s.ln.forward.contains k ∧ h.ty ≠ 0 then s.xRepair k f else s
      if h.ty = 0 then s else (s.rxOffer (.slot k) f).dozeHeard k f

/-! ### Helad's downstream channels (R161) -/

/-- Helad moves to a channel and reports it, and with LEAD 1 there its FT master changes at once (R44, R161): CONTROL and BULK go on with the SEQUENCE after the last one acted on, from the flits kept of that channel. -/
def State.channelSwitch (c : Nat) (lead : Bool) (s : State) : State :=
  let s : State := s.hSet O.SelectedChannel c
  let next := fun (s : State) (f : List Nat) =>
    let h := flitHdr f
    if ahead h.seq ((tgetD s.ln.acted h.ty h.seq + 1) % 2 ^ 28) < 2 ^ 27 then { s with ln := { s.ln with acted := tset s.ln.acted h.ty h.seq } } else s
  let s : State := s.ln.other.reverse.foldl next s
  let s : State := { s with ln := { s.ln with other := [] } }.laneNotice 3 c
  if lead then s.masterMoved .hel else s

/-- Reassembly on a downstream channel (R154, R551): in SEQUENCE order, a duplicate is discarded, a gap discards the record in progress and waits for the next RECORD_START. What stays is the record in progress: whole records are acted on as they complete, a replica group here (R361) and the others by the commands of their kinds (log 134). A record of LENGTH 0 discards the rest (R14). -/
def State.chanTake (c : Nat) (f : List Nat) (s : State) : State :=
  let h := flitHdr f
  let x := s.rxOf (.chan c) h.ty
  let d := match x.expect with | none => 0 | some e => ahead h.seq e
  if 2 ^ 27 ≤ d then s
  else
    let resync := x.resync || d != 0
    let us := ((f.drop 1).take h.valid).map fun u => (⟨u, h.seq, h.cutId, h.part⟩ : RxUnit)
    let us := if resync then (if h.start = 15 then [] else us.drop h.start) else us
    let all := (if d = 0 then x.units else []) ++ us
    let zero := zeroAhead all.length all
    let s : State := if h.ty = stControl ∧ s.h O.SelectedChannel = c then (recordsOf all.length (all.flatMap fun u => natBytes 16 u.unit)).1.foldl (fun s r => s.groupTake r) s else s
    s.setRx (.chan c) h.ty { x with expect := some ((h.seq + 1) % 2 ^ 28), units := if zero then [] else all.drop (wholeUnits all.length all), resync := zero || (resync && h.start == 15) }

/-- A flit on a downstream channel of the Helad (R154, R161): LEAD decides the channel; each CONTROL and BULK flit wakes LANE (R74) and is acted on once; a post-c flit on the selected channel latches a pending cut (R391). -/
def State.chanReceive (c : Nat) (f : List Nat) (bad : Bool) (s : State) : State :=
  if s.heladReset then s
  else if flitBad (.chan c) bad f then s.rxError (.chan c)
  else
    let h := flitHdr f
    let s : State := if tgetD s.ln.chUp c 0 = 0 then s.rxRestart (linkNum (.chan c)) else s
    let s : State := { s with ln := { s.ln with chLead := tset s.ln.chLead c (b2n h.lead), chUp := tset s.ln.chUp c 1 } }
    let s : State := if h.ty = 2 ∨ h.ty = 8 then (s.chanTake c f).wake 4 else s
    let sel := s.h O.SelectedChannel
    let selGood := tgetD s.ln.chUp sel 0 == 1 && tgetD s.ln.chLead sel 0 == 1
    let s : State := if sel ≠ 0xFF ∧ sel ≠ c ∧ h.lead ∧ !selGood then s.channelSwitch c true else s
    if h.ty = 2 ∨ h.ty = 8 then
      if s.h O.SelectedChannel = c then
        let fresh := match tget s.ln.acted h.ty with | some a => decide (ahead h.seq ((a + 1) % 2 ^ 28) < 2 ^ 27) | none => true
        let s : State := if fresh then { s with ln := { s.ln with acted := tset s.ln.acted h.ty h.seq } } else s
        s.earlyLatch .hel (linkNum (.chan c)) h.cutId
      else { s with ln := { s.ln with other := (f :: s.ln.other).take 256 } }
    else if s.h O.SelectedChannel = c then s.earlyLatch .hel (linkNum (.chan c)) h.cutId else s

/-- DOWNSTREAM_CHANNEL_LOST (R161, R176): CONTROL and BULK come from the other channel at once; with LEAD 0 there the FT master changes only after HoldoverTimeout; with both lost a notice. -/
def State.channelLost (c : Nat) (s : State) : State :=
  if s.heladReset then s
  else
  let s : State := { s with ln := { s.ln with chUp := tset s.ln.chUp c 0 } }
  let o := 1 - c
  let s : State := if tgetD s.ln.chUp o 0 = 0 then { (s.laneNotice 4 c) with ln := { (s.laneNotice 4 c).ln with acted := [], ctlSeen := [] } } else s
  if s.h O.SelectedChannel = c ∧ tgetD s.ln.chUp o 0 = 1 then
    let s : State := if tgetD s.ln.chLead o 0 = 1 then { s with ln := { s.ln with timeHold := none } }
      else { s with ln := { s.ln with timeHold := some (s.tm.hc.lastTag + us (s.h O.HoldoverTimeout)) } }
    s.channelSwitch o (tgetD s.ln.chLead o 0 == 1)
  else s

/-- DOWNSTREAM_CHANNEL_LOST. -/
def execDownstreamChannelLost (ch : Nat) : State → Host.Outcome State Fault Refusal := run (State.channelLost ch)

/-- The flits that have come whole as records of REPAIR: one of a slot whose reception this twin has lost joins the slot's receiver as the type and slot it carries (R159, R204). What answers a request comes with REPAIR_ANSWER. -/
def State.repairTake : Nat → State → State
  | 0, s => s
  | n + 1, s =>
    let x := s.rxOf .xlink stRepair
    if x.units.length < 18 then s
    else
      let us := x.units.map (·.unit)
      let k := bits (us.getD 1 0) 32 32
      let f := (us.drop 2).take 16
      let s : State := s.setRx .xlink stRepair { x with units := x.units.drop 18 }
      State.repairTake n (if s.ln.viaTwin.contains k ∧ (flitHdr f).ty ≠ 0 then s.rxOffer (.slot k) f else s)

/-- FLIT_RECEIVE by the kind of link (R154). -/
def State.flitReceive (l : Link) (f : List Nat) (bad : Bool) (n : Nat) (both : Bool) (s : State) : State :=
  match l with
  | .slot k => if k < 64 then s.slotReceive k f bad n both else s
  | .chan c => s.chanReceive c f bad
  | _ =>
    if flitBad l bad f then s.rxError l
    else
      let h := flitHdr f
      let s : State := s.earlyLatch .icd (linkNum l) h.cutId
      if h.ty = 0 then s
      else
        let s : State := s.rxOffer l f
        let s : State := if (s.rxOf l h.ty).asked.isNone ∧ !(s.rxOf l h.ty).held.isEmpty then s.rxDrain l h.ty else s
        if h.ty = stRepair then s.repairTake 64 else s

/-- FLIT_RECEIVE. -/
def execFlitReceive (l : Link) (flit : List Nat) (bad : Bool) (corrected : Nat) (both : Bool) : State → Host.Outcome State Fault Refusal :=
  run (State.flitReceive l flit bad corrected both)

/-! ### Training and doze at Helad (R166–R168) -/

/-- With SlotAssign the Tray gives the Helad its values of 0x2001.02–.06 and the asymmetries of its slot and of its fibre's spare (R543). -/
def State.trayTimes (slot : Nat) (s : State) : State :=
  if s.role ≠ 1 then s
  else
    let s : State := (List.range 5).foldl (fun s j => s.hSet (O.FtStartValue + 1 + j) (s.i (O.FtStartValue + 1 + j))) s
    { s with bd := { s.bd with asym := toS 32 (s.i (O.DieLinkAsymmetry + slot)), asymSpare := toS 32 (s.i (O.DieLinkAsymmetry + 64 + slot / 8)) } }

/-- Training begins on light: LANE_TX is squelched while LANE is not awake (R73, R166). -/
def State.laneLight (s : State) : State := { s with ln := { s.ln with litAt := s.ft .hel } }.put .pin 0x701 [1]

/-- Whether Helad acts on a CONTROL record of a channel (R161): not in reset; from the selected channel, or from any before one is selected or when the selected one is lost; and once, since both channels carry the same records. -/
def State.actsOn (ch : Nat) (r : Rec) (s : State) : Bool :=
  !s.heladReset && (s.h O.SelectedChannel == 0xFF || s.h O.SelectedChannel == ch || tgetD s.ln.chUp (s.h O.SelectedChannel) 0 != 1) &&
    tget s.ln.ctlSeen (rType r) != some (rSeq r)

/-- A CONTROL record has been acted on. -/
def State.ctlDone (r : Rec) (s : State) : State := { s with ln := { s.ln with ctlSeen := tset s.ln.ctlSeen (rType r) (rSeq r) } }

/-- SLOT_ASSIGN on the selected channel, or on any before one is selected (R161): LANE wakes fully, Helad takes slot and GID, selects its channel and lights its transmitter for training (R166). It enters ACQUIRE at its first servo update, which loads FT and SEGMENT (R44; DEDUCED, log 107). -/
def State.slotAssign (ch : Nat) (r : Rec) (s : State) : State :=
  if !s.actsOn ch r then s
  else
  let s : State := s.ctlDone r
  let s : State := { (s.hSet O.SlotNumber (recFld r 128 8)) with bd := { s.bd with gid := recFld r 160 32 } }
  let s : State := s.trayTimes (recFld r 128 8)
  if s.h O.LaneState ≠ 0 then s
  else
    let s : State := s.wake 4
    let lead := (List.range 2).find? fun c => tgetD s.ln.chLead c 0 == 1 && tgetD s.ln.chUp c 0 == 1
    let s : State := if s.h O.SelectedChannel = 0xFF then s.hSet O.SelectedChannel (lead.getD ch) else s
    let s : State := { (s.hSet O.LaneState 1) with ln := { s.ln with trainDone := [] } }
    if s.awake 4 then s.laneLight else s

/-- SLOT_ASSIGN. -/
def execSlotAssign (ch : Nat) (r : Rec) : State → Host.Outcome State Fault Refusal := run (State.slotAssign ch r)

/-- Helad ends training: alignment burst, then flits (R166, R167). -/
def State.laneActive (s : State) : State := ((s.laneBurst).hSet O.LaneState 2).aoFlush

/-- TRAIN_DONE: TrainDoneRecords that name both twins (R166). -/
def State.trainDone (ch : Nat) (r : Rec) (s : State) : State :=
  if !s.actsOn ch r then s
  else
  let s : State := s.ctlDone r
  let l := (recFld r 160 32 :: s.ln.trainDone).eraseDups
  let s : State := { s with ln := { s.ln with trainDone := l } }
  if s.h O.LaneState = 1 ∧ s.awake 4 ∧ 2 ≤ l.length then s.laneActive else s

/-- TRAIN_DONE. -/
def execTrainDone (ch : Nat) (r : Rec) : State → Host.Outcome State Fault Refusal := run (State.trainDone ch r)

/-- TRAIN_DONE_WAIT_EXPIRY: 2 ms since lighting with one twin named (R166). -/
def State.trainWait (s : State) : State :=
  if s.h O.LaneState = 1 ∧ s.awake 4 ∧ !s.ln.trainDone.isEmpty ∧ s.ln.litAt + ms 2 ≤ s.ft .hel then s.laneActive else s

/-- TRAIN_DONE_WAIT_EXPIRY. -/
def execTrainDoneWaitExpiry : State → Host.Outcome State Fault Refusal := run State.trainWait

/-- LANE squelches after a DOZE notice behind its last flit (R168); an untrained lane has nothing to announce. -/
def State.laneDoze (s : State) : State :=
  if s.h O.LaneState = 2 then
    let s : State := ((s.laneNotice 0 (s.h O.SelectedChannel)).idleUntilRoom 1024).sendFlit stControl false
    ((s.hSet O.LaneState 3).laneDark)
  else s

/-- Whether work holds LANE awake: training, something queued, a replay, a block that waits in TRACE, a retune, a sync wake-up (R50, R75, R168). -/
def State.domainHeld4 (s : State) : Bool :=
  (List.range 16).any s.hasUnits || !s.ln.again.isEmpty || !s.tr.closed.isEmpty || s.ln.retune.isSome || s.bd.syncLeft != 0 || s.h O.LaneState == 1

/-- Whether LANE has been without work for 10 µs: nothing queued, no block waiting in TRACE, no replay, retune or sync wake-up (R75, R168). -/
def State.laneIdle (s : State) : Bool :=
  !s.domainHeld4 && decide (tgetD s.bd.busyAt 4 0 + us 10 ≤ s.ft .hel)

/-- LANE_DOZE: when LANE has been idle for 10 µs, its doze is announced and the domain sleeps (R75, R168). -/
def State.laneDozeCmd (s : State) : State :=
  if s.awake 4 ∧ s.laneIdle then { s with bd := { s.bd with dom := tset s.bd.dom 4 0 } }.laneDoze else s

/-- LANE_DOZE. -/
def execLaneDoze : State → Host.Outcome State Fault Refusal := run State.laneDozeCmd

/-- LANE_KEEPALIVE: in doze Helad lights, sends the burst and a KEEPALIVE notice, and squelches again; entries that waited make LANE stay awake for them (R74, R168). -/
def State.laneKeepalive (s : State) : State :=
  if s.h O.LaneState = 3 ∧ s.ln.lastLit + ms (s.h O.LaneKeepalive) ≤ s.ft .hel then
    let waiting := (List.range 16).any s.hasUnits || s.ir.ao.any fun e => !e.2.2
    let q := s.laneQ stControl
    let s : State := { s with ln := { s.ln with q := tset s.ln.q stControl [] } }
    let s : State := ((s.laneBurst.idleUntilRoom 1024).laneNotice 1 (s.h O.SelectedChannel)).sendFlit stControl false
    let s : State := { s with ln := { s.ln with q := tset s.ln.q stControl q } }
    if waiting then { (s.hSet O.LaneState 2) with bd := { s.bd with dom := tset s.bd.dom 4 2 } }.aoFlush else s.laneDark
  else s

/-- LANE_KEEPALIVE. -/
def execLaneKeepalive : State → Host.Outcome State Fault Refusal := run State.laneKeepalive

/-! ### Retune at Helad (R100, R171, R172, R176) -/

/-- Pairs of OeRetuneProfile to be written: all up to the last that is not 0. -/
def State.retunePairs (s : State) : List Nat :=
  (((List.range 32).map fun n => s.h (O.OeRetuneProfile + n)).reverse.dropWhile (· == 0)).reverse

/-- RETUNE begins: squelch, the profile's serial frames, each 1.30 µs, then RetuneSettle (R171). -/
def State.retuneBegin (target : Nat) (good : List Nat) (s : State) : State :=
  let ps := s.retunePairs
  let s : State := (s.hSet O.LaneState 4).laneDark
  let s : State := ps.foldl (fun s v => s.put .pin 0x702 [v]) s
  { s with ln := { s.ln with retune := some (target, good, s.ft .hel + ns (1300 * ps.length) + us (s.h O.RetuneSettle)) } }

/-- RETUNE_COMMAND: LANE wakes, and the frames follow at once or, from sleep, when it is awake (R73, R74, R171, R176). -/
def State.retuneCommand (ch : Nat) (r : Rec) (s : State) : State :=
  if !s.actsOn ch r then s
  else
  let s : State := (s.ctlDone r).wake 4
  let good := (List.range 6).map fun i => recFld r (192 + 32 * i) 32
  if s.awake 4 then s.retuneBegin (recFld r 128 8) good
  else { (s.hSet O.LaneState 4) with ln := { s.ln with retune := some (recFld r 128 8, good, 0) } }

/-- LANE is awake: what waited in AO joins the lane, and a RetuneCommand that woke it begins (R74, R176, R478). Training starts on light (R73). A wake for sync alone leaves the transmitter dark (R163). -/
def State.laneAwake (s : State) : State :=
  let s : State := s.aoFlush
  match s.ln.retune with
  | some (target, good, 0) => s.retuneBegin target good
  | _ => if s.h O.LaneState = 1 then s.laneLight
    else if s.h O.LaneState = 3 ∧ s.bd.syncLeft = 0 then (s.laneBurst).hSet O.LaneState 2 else s

/-- RETUNE_COMMAND. -/
def execRetuneCommand (ch : Nat) (r : Rec) : State → Host.Outcome State Fault Refusal := run (State.retuneCommand ch r)

/-- Puts the flits of a type after LAST_GOOD that are still held up for replay; those no longer held are counted and LOSS is owed (R172). -/
def State.replayType (t good : Nat) (s : State) : State :=
  let next := tgetD s.ln.seq t 0
  let want := ahead next ((good + 1) % 2 ^ 28)
  let held := (s.ln.replay.filter fun e => e.1 == t && decide (ahead e.2.1 ((good + 1) % 2 ^ 28) < want)).reverse
  let want := if want < 2 ^ 27 then want else 0
  let lost := want - held.length
  let s : State := if 0 < lost then { (s.addOb .hel O.RetransmitLost 32 lost) with ln := { s.ln with loss := setBit s.ln.loss t true } } else s
  { s with ln := { s.ln with again := s.ln.again ++ held.map fun e =>
    let h := flitHdr e.2.2
    (t, mkFlit { h with retx := true, spare := s.h O.SpareActive == 1 } ((e.2.2.drop 1).take h.valid)) } }

/-- RETUNE_SETTLE_EXPIRY: light, burst, replay, resume (R171, R172); an OE_FAULT that fell inside is then reported (R176). -/
def State.retuneSettle (s : State) : State :=
  match s.ln.retune with
  | none => s
  | some (target, good, t) =>
    if s.ft .hel < t ∨ t = 0 then s
    else
      let s : State := (s.laneBurst.hSet O.LaneState 2).hSet O.SpareActive (b2n (target == 0))
      let s : State := { s with ln := { s.ln with retune := none } }
      let s : State := ([stAlarm, stControl, stCounter, stTrace, stDigest, stEvent].zip good).foldl (fun s p => s.replayType p.1 p.2) s
      let s : State := { s with ln := { s.ln with resume := 2 ^ 13 - 2 } }
      if s.ln.oeFault then { s with ln := { s.ln with oeFault := false } }.laneNotice 2 (s.h O.SelectedChannel) else s

/-- RETUNE_SETTLE_EXPIRY. -/
def execRetuneSettleExpiry : State → Host.Outcome State Fault Refusal := run State.retuneSettle

/-- OE_FAULT: reported at once, or after the retune in progress (R100, R176). -/
def State.oeFaultCmd (s : State) : State :=
  if s.heladReset then s
  else if s.ln.retune.isSome then { s with ln := { s.ln with oeFault := true } } else s.laneNotice 2 (s.h O.SelectedChannel)

/-- OE_FAULT. -/
def execOeFault : State → Host.Outcome State Fault Refusal := run State.oeFaultCmd

end Sys2Proof.Machine
end

