-- ==== Sys2Proof/Machine/Package.lean ====
section
/-! DEFINITION. The module: fabric ports, die-to-die and CXL links, thermal and power throttling, host rings and the PCIe link (R177–R203). -/

namespace Sys2Proof.Machine

/-! ### Fabric wavelengths (R180, R181) -/

/-- FABRIC_WAVELENGTH_FAIL: the first failure of a port moves to position 8, by the retune sequence with the internal laser in the optical engine's place: the failed wavelength is silent, and position 8 carries flits when the laser is tuned, at a free instant within 200 µs. A second leaves the link at reduced width with FABRIC_REDUCED (R180). A lead that thereby loses its uplink hands over (R413). A wavelength of the spare in use fails as the one it carries. -/
def State.wavelengthFail (p w : Nat) (s : State) : State :=
  let d := tgetD s.pk.dark p 0
  if s.portUse p = 0 ∨ bit d w then s
  else
    let s : State := { s with pk := { s.pk with dark := tset s.pk.dark p (setBit d w true) } }
    let s : State := if w ≠ 8 ∧ !s.pk.spareUsed.contains p ∧ !bit d 8 then
        let (f, s) := s.fresh 64
        { s with pk := { s.pk with spareUsed := p :: s.pk.spareUsed, spareFor := tset s.pk.spareFor p w, retune := tset s.pk.retune p (s.ft .icd + f % (us 200 + 1)) } }.put .pin (0x930 + p) [w]
      else s.iAlarm 0x054 2 (0x0200 + p) p
    s.handoverTest

/-- FABRIC_WAVELENGTH_FAIL. -/
def execFabricWavelengthFail (port wave : Nat) : State → Host.Outcome State Fault Refusal := run (State.wavelengthFail port wave)

/-- The ShaperConfig of a bucket of a port: port × 8 for the port, port × 8 + 1 + class for a class. -/
def State.bucketShaper (s : State) (b : Nat) : Nat :=
  if b % 8 = 0 then s.i (inst O.PortShaper (b / 8)) else s.i (inst O.ClassShaper (b / 8) + (b % 8 - 1))

/-- STANDBY_UPLINK_SWITCH: the lead lights the standby uplink when the uplink port has lost every wavelength (R181); queues, deferral and factor move with it, and its own buckets are set as R434 lays down (R444). -/
def State.standbySwitch (s : State) : State :=
  match s.portOf 3, s.portOf 4 with
  | some u, some b =>
    if s.pk.standby ∨ !s.portLost u then s
    else
      let s : State := { s with pk := { s.pk with standby := true }, up := { s.up with q := s.up.q.map (fun e => if e.1 / 8 = u then (b * 8 + e.1 % 8, e.2) else e), tokens := (List.range 6).foldl (fun t i => if bit (s.bucketShaper (b * 8 + i)) 56 then tset t (b * 8 + i) 0 else tdel t (b * 8 + i)) s.up.tokens } }
      let s : State := (s.iSet (inst O.DecimationFactor b) (s.i (inst O.DecimationFactor u))).iSet (inst O.BulkDeferred b) (s.i (inst O.BulkDeferred u))
      let s : State := (s.iSet (inst O.DecimationFactor u) 1).iSet (inst O.BulkDeferred u) 0
      if s.isLead ∧ !s.pk.dark_ then s.put .pin (0x900 + b) [1] else s
  | _, _ => s

/-- STANDBY_UPLINK_SWITCH. -/
def execStandbyUplinkSwitch : State → Host.Outcome State Fault Refusal := run (State.keepMaster State.standbySwitch)

/-- A fabric port's links go down until they come up again (R530). -/
def State.portRetrain (p : Nat) (s : State) : State :=
  let u := s.portUse p
  if u = 2 then { s.portRestart p with tm := { s.tm with xlinkUp := false } }
  else if u = 3 ∨ u = 4 then { s.portRestart p with tm := { s.tm with pairUp := false } }
  else if u = 1 then s.portRestart p
  else s

/-- The fabric transmitters stop (R177, R201): every pair link is dark. -/
def State.fabricStop (s : State) : State := { s.pairLinks false with pk := { s.pk with dark_ := true } }

/-- D2D_FATAL: privileged source 0, the alarm, and the fabric transmitters stop (R177, R467). -/
def State.d2dFatal (k : Nat) (s : State) : State := ((s.priv 0 k).iAlarm 0x044 4 0x0C00 k).fabricStop

/-- D2D_FATAL. -/
def execD2dFatal (link : Nat) : State → Host.Outcome State Fault Refusal := run (State.d2dFatal link)

/-! ### Tier 2 (R183, R184) -/

/-- The cask in transfer to a port is racked again from its start (R203). -/
def State.rackAbort (p : Nat) (s : State) : State :=
  match s.gr.racking with
  | some (_, q, _) => if q = p then { s with gr := { s.gr with racking := none } } else s
  | none => s

/-- CXL_LINK_FAIL: the port leaves racking and Tier2Present at once, and its casks are UNAVAILABLE (R184, R215). -/
def State.cxlLinkFail (p : Nat) (s : State) : State :=
  let s : State := (s.rackAbort p).iSet O.Tier2Present (setBit (s.i O.Tier2Present) p false)
  let hit := s.gr.casks.filter fun c => c.status == 2 && s.gr.tier2.any fun e => e.1 == c.id && e.2.1 == p
  let s : State := hit.foldl (fun s c => s.setCask { c with status := 8 }) s
  s.occur (0x074 + p) none [p]

/-- CXL_LINK_FAIL. -/
def execCxlLinkFail (port : Nat) : State → Host.Outcome State Fault Refusal := run (State.cxlLinkFail port)

/-- A CXL port is reset and trains again; a cask in transfer starts over (R530). -/
def State.cxlRetrain (p : Nat) (s : State) : State := s.rackAbort p

/-! ### Thermal and power (R199–R201) -/

/-- Thresholds of a sensor in 1/16 °C: warning, throttle, critical. -/
def thermalLimits (k : Nat) : Nat × Nat × Nat := if k < 16 then (95 * 16, 105 * 16, 115 * 16) else (85 * 16, 95 * 16, 105 * 16)

/-- THERMAL_THRESHOLD: the conditions of the sensor follow its reading; a rise above warning is an alarm event, and the throttle threshold is a throttle cause (R201, R546). -/
def State.thermal (k t : Nat) (s : State) : State :=
  let l := thermalLimits k
  let v := toS 16 t
  let was := decide (toS 16 (s.i (O.Temperature + k)) ≥ (l.1 : Int))
  let warn := decide (v ≥ (l.1 : Int))
  let hot := decide (v ≥ (l.2.1 : Int))
  let s : State := s.iSet (O.Temperature + k) t
  let s : State := (s.cond (0x100 + k) warn).cond (0x124 + k) hot
  let s : State := if warn ∧ !was then s.iAlarm 0x046 2 (if k < 16 then 0x0C00 else 0x0100 + (k - 16)) k else s
  { s with pk := { s.pk with hot := if hot then (k :: s.pk.hot).eraseDups else s.pk.hot.filter (· != k) } }

/-- THERMAL_THRESHOLD. -/
def execThermalThreshold (sensor temp : Nat) : State → Host.Outcome State Fault Refusal := run (State.thermal sensor temp)

/-- THROTTLE_STEP: step 1 as soon as the draw is at 95 % of PowerLimit or a sensor at its throttle threshold, a further step for every 10 ms that the cause persists; without a cause no throttling (R199). DEDUCED: throttling ends when its cause has gone. -/
def State.throttle (power : Nat) (s : State) : State :=
  let s : State := s.iSet O.InputPower power
  let cause := decide (s.i O.PowerLimit * 95 ≤ power * 10) || !s.pk.hot.isEmpty
  let step := s.i O.ThrottleStep
  let s : State := if !cause then { (s.iSet O.ThrottleStep 0) with pk := { s.pk with throttleFrom := none } }
    else match s.pk.throttleFrom with
      | none => { (s.iSet O.ThrottleStep (max 1 step)) with pk := { s.pk with throttleFrom := some (s.ft .icd) } }
      | some t =>
        if t + ms 10 ≤ s.ft .icd ∧ step < 3 then { (s.iSet O.ThrottleStep (step + 1)) with pk := { s.pk with throttleFrom := some (s.ft .icd) } } else s
  let s : State := if s.i O.ThrottleStep = 0 then s else s.localMark 3
  s.cond 0x14D (s.i O.ThrottleStep != 0)

/-- THROTTLE_STEP. -/
def execThrottleStep (power : Nat) : State → Host.Outcome State Fault Refusal := run (State.throttle power)

/-! ### Host rings (R188–R192) -/

/-- A ring that has not been read. -/
def ring0 : Ring := ⟨0, 0, 0, 0, 0, 0, 0, 0, false, false, 0⟩

/-- RING_STOPPED is true while any ring is STOPPED (R546). -/
def State.ringCond (s : State) : State := s.cond 0x14A (s.pk.rings.any fun p => p.2.stopped)

/-- The link rates of PCIe 6.0, GT/s: 2.5 reads as 2 and stands in the object's whole GT/s (DESIGN CHOICE, log 137). -/
def pcieRates : List Nat := [2, 5, 8, 16, 32, 64]

/-- The host port trains (R185): speed and width are free, within what the port supports. -/
def State.hostTrain (s : State) : State :=
  let (a, s) := s.fresh 8
  let (b, s) := s.fresh 8
  (s.iSet O.HostLinkSpeed (pcieRates.getD (a % 6) 64)).iSet O.HostLinkWidth (2 ^ (b % 5))

/-- One ring at a cadence (R189, R191): the control block is read; a producer too far ahead stops the ring; a full completion ring takes nothing; else descriptors are taken up to RingFetchMax. -/
def State.ringRead (c : RingCtl) (s : State) : State :=
  let r := tgetD s.pk.rings c.ring ring0
  let cprod := (r.cprod + tgetD s.pk.complUsed c.ring 0) % 2 ^ 32
  let stopped := r.stopped && !(c.enable && !r.enable)
  let n := (c.prod + 2 ^ 32 - r.cons) % 2 ^ 32
  let room := 2 ^ c.log2c - (cprod + 2 ^ 32 - c.ccons) % 2 ^ 32
  let r := { r with base := c.base, log2e := c.log2e, prod := c.prod, cbase := c.cbase, log2c := c.log2c, cprod := cprod, ccons := c.ccons, enable := c.enable, stopped := stopped, block := c.block }
  let s : State := { s with pk := { s.pk with complUsed := tdel s.pk.complUsed c.ring } }
  if c.enable ∧ !stopped ∧ 2 ^ c.log2e < n then
    let s : State := { s with pk := { s.pk with rings := tset s.pk.rings c.ring { r with stopped := true } } }.ringPost c.ring
    s.iAlarm 0x04B 2 0x0900 (if 1024 ≤ c.ring then c.ring - 1024 + 2 ^ 15 else c.ring)
  else
    let take := if c.enable ∧ !stopped then min n (min (s.i O.RingFetchMax) room) else 0
    let cleared := (tgetD s.pk.rings c.ring ring0).stopped && !stopped
    let r := { r with cons := (r.cons + take) % 2 ^ 32 }
    let s : State := { s with pk := { s.pk with rings := tset s.pk.rings c.ring r, ackPos := if s.tm.xlinkUp then s.pk.ackPos else tset s.pk.ackPos c.ring r.cons } }
    if 0 < take ∨ cleared then s.ringPost c.ring else s

/-- A ring's control block as the shadow reads it; its CONSUMER is the position that it has acknowledged (R192). -/
def State.ringShadow (c : RingCtl) (s : State) : State :=
  let r := tgetD s.pk.rings c.ring ring0
  { s with pk := { s.pk with rings := tset s.pk.rings c.ring { r with base := c.base, log2e := c.log2e, prod := c.prod, cbase := c.cbase, log2c := c.log2c, ccons := c.ccons, enable := c.enable, block := c.block,
                                                                      cons := tgetD s.pk.ackPos c.ring r.cons } } }

/-- RING_FETCH, once for each FT multiple of RingCadence (R189): the lead reads the whole PF ring table in one request and the VF blocks, and serves the rings in ascending order, PF rings first; the new positions go to the shadow, which reads the same blocks (R192). A fetch shows the PCIe link up: it has trained, and what waited is posted (R185, R203). Away from service no ring is read. -/
def State.ringFetch (ctls : List RingCtl) (s : State) : State :=
  let k := s.ft .icd / ns (max 1 (s.i O.RingCadence))
  let ok := fun (c : RingCtl) => if c.ring < 1024 then decide (c.ring < s.i O.PfRingCount) else decide (c.ring - 1024 ≤ s.i O.VfCount ∧ 1025 ≤ c.ring)
  let cs := sortBy (·.ring) (ctls.filter ok)
  if !s.serving || s.pk.fetchAt == some k then s
  else
    let w := s.pk.waiting
    let up := s.pk.pcieUp && s.i O.HostLinkSpeed != 0
    let s : State := { s with pk := { s.pk with pcieUp := true, waiting := [], fetchAt := some k } }
    let s : State := if up then s else s.hostTrain
    if !s.isLead then cs.foldl (fun s c => s.ringShadow c) s
    else
      let s : State := w.foldl (fun s r => s.hostPost r) s
      let s : State := s.put .host 0x700 [s.i O.PfRingTable, 64 * s.i O.PfRingCount]
      let blocks := (cs.filter fun c => decide (1024 ≤ c.ring)).map (·.block)
      let s : State := if blocks.isEmpty then s else s.put .host 0x701 blocks
      let s : State := (cs.foldl (fun s c => s.ringRead c) s).ringCond
      if s.tm.xlinkUp then s.xMsg 0x192 (s.pk.rings.flatMap fun p => [p.1, p.2.cons]) else s

/-- RING_FETCH. -/
def execRingFetch (ctls : List RingCtl) : State → Host.Outcome State Fault Refusal := run (State.ringFetch ctls)

/-- The opcodes that the chapters define (R521). -/
def opcodes : List Nat :=
  [0x01, 0x02, 0x03, 0x10, 0x20, 0x21, 0x30, 0x31, 0x32, 0x40, 0x41, 0x50, 0x51, 0x60, 0x61, 0x62, 0x63, 0x64, 0x70]

/-- The completion of a descriptor that is no action: MALFORMED or UNKNOWN_OPCODE (R190, R191). A descriptor is malformed when a header field or a reserved field differs from what R190 fixes; `part`: the issuer's partition, the operator's being 0. -/
def descBad (part : Nat) (d : Rec) : Option Nat :=
  if rType d ≠ 0x60 ∨ rLen d ≠ 4 ∨ rSrc d ≠ 0 ∨ rPart d ≠ part ∨ recFld d 146 14 ≠ 0 ∨ recFld d 224 32 ≠ 0 ∨ 1048576 < recFld d 448 32 then some stMalformed
  else if !opcodes.contains (recFld d 128 16) then some stUnknown else none

/-- Whether a descriptor's SEQUENCE is a position between the last acknowledged one and the new one (R190). -/
def descAt (old pos : Nat) (d : Rec) : Bool := decide ((rSeq d + 2 ^ 32 - old % 2 ^ 32) % 2 ^ 32 < (pos + 2 ^ 32 - old % 2 ^ 32) % 2 ^ 32)

/-- The opcodes that any device accepts and whose rules pass nothing down themselves (R521). -/
def forwardable : List Nat := [0x20, 0x21, 0x30, 0x31, 0x32, 0x41, 0x64]

/-- A descriptor with FORWARD goes to the level below, toward TARGET_GID or to every device for the null GID (R190). -/
def State.forwardDesc (d : Rec) (s : State) : State :=
  let gid := recFld d 192 32
  if recFld d 145 1 = 0 ∨ !forwardable.contains (recFld d 128 16) ∨ s.role ≤ 1 then s
  else if gid = 0 then s.childSend stControl d
  else match s.routeDown gid with
    | some l => if s.isLead then s.linkSend l stControl d else s
    | none => s

/-- CONSUMER_ACK: the acknowledged position; the lead acts on the descriptors up to it, of which those that are no action complete here and those with FORWARD go down (R190–R192). At the shadow the completions of the positions before are written by now, and those of the new ones are owed. -/
def State.consumerAck (ring pos : Nat) (descs : List Rec) (s : State) : State :=
  let old := tgetD s.pk.ackPos ring 0
  let part := if 1024 ≤ ring then s.vfPart (ring - 1024) else 0
  let s : State := { s with pk := { s.pk with ackPos := tset s.pk.ackPos ring pos, unsaid := s.pk.unsaid.filter fun u => u.1 != ring, replay := false } }
  descs.foldl (fun s d =>
    match (if descAt old pos d then descBad part d else some stMalformed) with
    | some st => s.complete ring (recFld d 160 32) false (no st)
    | none => s.forwardDesc d) s

/-- CONSUMER_ACK. -/
def execConsumerAck (ring pos : Nat) (descs : List Rec) : State → Host.Outcome State Fault Refusal := run (State.consumerAck ring pos descs)

/-- PCIE_LINK_DOWN: no rings are fetched and results wait in the heap (R203). -/
def State.pcieDown (s : State) : State :=
  ({ s with pk := { s.pk with pcieUp := false } }.iSet O.HostLinkSpeed 0).iSet O.HostLinkWidth 0

/-- PCIE_LINK_DOWN: the port is also a source of the interrupt controller (R459). -/
def State.pcieLinkDown (s : State) : State := if s.pk.pcieUp then (s.occur 0x078 none []).pcieDown else s

/-- PCIE_LINK_DOWN. -/
def execPcieLinkDown : State → Host.Outcome State Fault Refusal := run State.pcieLinkDown

end Sys2Proof.Machine
end

