-- ==== Sys2Proof/Machine/Steep.lean ====
section
/-! DEFINITION. The Steep cores: registers, areas, bundles, loops, and every operation (R322–R345, R349). A bundle's two slots execute by one command each; their results become visible together when both have executed (R328). -/

namespace Sys2Proof.Machine

/-! ### Registers (R327, R334) -/

/-- Register number of P n. -/
abbrev rP (n : Nat) : Nat := 64 + n
/-- Register number of N n. -/
abbrev rN (n : Nat) : Nat := 72 + n
/-- Register number of ACC n. -/
abbrev rAcc (n : Nat) : Nat := 80 + n
/-- Register number of G n. -/
abbrev rG (n : Nat) : Nat := 84 + n
/-- Register number of C n. -/
abbrev rC (n : Nat) : Nat := 100 + n

/-- A register's value. -/
def SCore.reg (c : SCore) (n : Nat) : Nat := tgetD c.regs n 0
/-- RB. -/
abbrev SCore.rb (c : SCore) : Nat := c.reg (rC 6)
/-- Physical number of a logical data register (R334). -/
def physX (rb l : Nat) : Nat := if l < 16 then l else 16 + (l - 16 + rb) % 48
/-- The physical register that a logical name stands for. -/
abbrev SCore.px (c : SCore) (l : Nat) : Nat := physX c.rb l
/-- Value of a logical data register. -/
def SCore.x (c : SCore) (l : Nat) : Nat := c.reg (c.px l)
/-- Value of an accumulator. -/
def SCore.acc (c : SCore) (n : Nat) : Int := toS 56 (c.reg (rAcc n))
/-- MODE.JUESH. -/
abbrev SCore.juesh (c : SCore) : Bool := bit (c.reg (rC 1)) 0
/-- MODE.ACC_SAT. -/
abbrev SCore.accSat (c : SCore) : Bool := bit (c.reg (rC 1)) 1
/-- A guard: G0 reads 1, G8–G15 read SV. -/
def SCore.guard (c : SCore) (g : Nat) : Bool :=
  if g = 0 then true else if g < 8 then c.reg (rG g) == 1 else bit (c.reg (rC 7)) (g - 8)

/-- Results that write registers. -/
def effRegs (l : List (Nat × Nat)) : SEff := { slot := 0, regs := l, set_ := 0, store := none, br := none, loop := none, strm := 0, words := [] }

/-! ### Local memory (R325, R326) -/

/-- CODE_BYTES of a SteepHeader. -/
abbrev shCode (h : Rec) : Nat := recFld h 192 32
/-- DATA_BYTES. -/
abbrev shData (h : Rec) : Nat := recFld h 224 32
/-- CTX_BYTES. -/
abbrev shCtx (h : Rec) : Nat := recFld h 168 16
/-- IN_RING_BYTES. -/
abbrev shRing (h : Rec) : Nat := recFld h 256 32
/-- First byte of the data area. -/
def dataBase (h : Rec) : Nat := padTo 64 (shCode h)
/-- First byte of the context window. -/
def ctxBase (h : Rec) : Nat := dataBase h + padTo 64 (shData h)
/-- First byte of the input ring. -/
def ringBase (h : Rec) : Nat := ctxBase h + 16 * shCtx h
/-- First byte of scratch. -/
def scratchBase (h : Rec) : Nat := ringBase h + shRing h
/-- Bytes of local memory. -/
abbrev localBytes : Nat := 262144

/-- Whether `n` bytes from `a` lie in [lo, lo + len). -/
def inside (a n lo len : Nat) : Bool := decide (lo ≤ a ∧ a + n ≤ lo + len)

/-- Whether the bytes lie in the current context's area or in scratch, which may be read and written. -/
def SCore.canWrite (c : SCore) (h : Rec) (a n : Nat) : Bool :=
  (c.held.isSome && inside a n (c.reg (rC 8)) (shCtx h)) || inside a n (scratchBase h) (localBytes - scratchBase h)

/-- Whether the bytes may be read. -/
def SCore.canRead (c : SCore) (h : Rec) (a n : Nat) : Bool :=
  c.canWrite h a n || inside a n (dataBase h) (shData h) ||
    (match c.held with | some e => inside a n e.1.addr e.1.len | none => false)

/-- Bytes of local memory as a number. -/
def SCore.load (c : SCore) (a n : Nat) : Nat := bytesNat (memRead c.mem a n)

/-- The fault of an access of `n` bytes, in the order ALIGN, AREA, LOCAL_MEMORY of R349; none when it is allowed. -/
def accessFault (a n : Nat) (ok bad : Bool) : Option Nat := if a % n ≠ 0 then some 3 else if !ok then some 4 else if bad then some 1 else none

/-- Post-modification of a P register (R333). -/
def SCore.post (c : SCore) (p n : Nat) : Nat × Nat := (rP p, (c.reg (rP p) + c.reg (rN n)) % 2 ^ 18)

/-! ### Operations (R329–R333, R338–R345) -/

/-- What an operation answers: an exception's cause, or its results. Cause 0: NEXT waits. -/
abbrev SSem := SCore → Rec → Nat → Nat → Except Nat SEff

/-- Bits read signed or unsigned. -/
def signedIf (sg : Bool) (w x : Nat) : Int := if sg then toS w x else (x : Int)

/-- One accumulation (R330): the value kept, and whether the exact result left the range. -/
def accumulate (juesh sat_ : Bool) (exact : Int) : Int × Bool :=
  let w := if juesh then 56 else 48
  let lim : Int := 2 ^ (w - 1)
  if -lim ≤ exact ∧ exact < lim then (exact, false)
  else if sat_ then (clampI (-lim) (lim - 1) exact, true)
  else (toS w (ofS w exact), true)

/-- The multiply–accumulate group: how 0 adds, 1 subtracts, 2 sets; `dual` is the native dual form (R329). -/
def semMac (how : Nat) (dual : Bool) : SSem := fun c _ w _ =>
  let xa := c.x (bits w 12 6)
  let xb := c.x (bits w 18 6)
  let hb := bits w 24 2
  let la : List Nat × Nat :=
    if c.juesh then ([bits xa 0 24, bits xa 32 24], 24)
    else if dual then ([bits xa 0 32, bits xa 32 32], 32)
    else ([bits xa 0 16, bits xa 16 16, bits xa 32 16, bits xa 48 16], 16)
  let b : Int := if c.juesh then signedIf (bit w 27) 24 (if bit hb 0 then bits xb 32 24 else bits xb 0 24) else signedIf (bit w 27) 16 (bits xb (16 * hb) 16)
  let rs := la.1.mapIdx fun i a =>
    let p : Int := signedIf (bit w 26) la.2 a * b * (if bit w 28 then 2 else 1)
    let exact := if how = 0 then c.acc i + p else if how = 1 then c.acc i - p else p
    accumulate c.juesh c.accSat exact
  .ok { effRegs (rs.mapIdx fun i r => (rAcc i, ofS 56 r.1)) with set_ := b2n (rs.any fun r => r.2) }

/-- Narrowing to a width of 16, 24 or 32 bits (R332). -/
def semNarrow (width : Nat) : SSem := fun c _ w _ =>
  let a := bits w 12 2
  let xd := bits w 14 6
  let lane := bits w 20 2
  let sh := bits w 22 6
  let v := c.acc a
  let y : Int := if sh = 0 then v else (v + 2 ^ (sh - 1)) / 2 ^ sh
  let lim : Int := 2 ^ (width - 1)
  let z := if bit w 28 then clampI (-lim) (lim - 1) y else y
  let x := c.x xd
  let out := if width = 16 then setBits x (16 * lane) 16 (ofS 16 z) else setBits x (32 * (lane % 2)) 32 (ofS 32 (toS width (ofS width z)))
  .ok { effRegs ((c.px xd, out) :: if bit w 29 then [(rAcc a, 0)] else []) with set_ := 2 * b2n (bit w 28 && z != y) }

/-- MOVA. -/
def semMova : SSem := fun c _ w _ =>
  .ok (effRegs ((c.px (bits w 14 6), ofS 64 (c.acc (bits w 12 2))) :: if bit w 29 then [(rAcc (bits w 12 2), 0)] else []))

/-- MOVXA (R341). -/
def semMovxa : SSem := fun c _ w _ =>
  let x := c.x (bits w 14 6)
  .ok (effRegs [(rAcc (bits w 12 2), if c.juesh then x % 2 ^ 56 else ofS 56 (toS 48 (x % 2 ^ 48)))])

/-- CLRA (R341). -/
def semClra : SSem := fun _ _ w _ => .ok (effRegs ((setBitsOf 4 (bits w 12 4)).map fun i => (rAcc i, 0)))

/-- One load of `n` bytes through PA with post-modification by NA, and what it writes. -/
def semLoad (n : Nat) (bad : Bool) (out : SCore → Nat → Nat → Nat) : SSem := fun c h w _ =>
  let p := bits w 18 3
  let a := c.reg (rP p)
  match accessFault a n (c.canRead h a n) bad with
  | some e => .error e
  | none => .ok (effRegs ((c.px (bits w 12 6), out c w (c.load a n)) :: if bit w 24 then [c.post p (bits w 21 3)] else []))

/-- LD16 inserts into lane LANE. -/
def semLd16 (bad : Bool) : SSem := semLoad 2 bad fun c w v => setBits (c.x (bits w 12 6)) (16 * bits w 25 2) 16 v
/-- LD16X. -/
def semLd16x (bad : Bool) : SSem := semLoad 2 bad fun _ _ v => ofS 64 (toS 16 v)
/-- LD32X. -/
def semLd32x (bad : Bool) : SSem := semLoad 4 bad fun _ _ v => ofS 64 (toS 32 v)
/-- LD64. -/
def semLd64 (bad : Bool) : SSem := semLoad 8 bad fun _ _ v => v
/-- LD24X sign-extends bits [23:0] of its container. -/
def semLd24x (bad : Bool) : SSem := semLoad 4 bad fun _ _ v => ofS 64 (toS 24 (v % 2 ^ 24))

/-- LDD: 64 bits from PA into XD and SIZE_B from PB into XD + 1, each P register modified by the N register of its own number (R333, R342). -/
def semLdd (bad : Bool) : SSem := fun c h w fv =>
  let pa := bits w 18 3
  let pb := bits w 21 3
  let a := c.reg (rP pa)
  let b := c.reg (rP pb)
  let sz := bits w 25 2
  let n := if sz = 0 then 2 else if sz = 1 then 4 else 8
  let xd := bits w 12 6
  match accessFault a 8 (c.canRead h a 8) bad, accessFault b n (c.canRead h b n) bad with
  | some e, _ => .error e
  | _, some e => .error e
  | none, none =>
    let v := c.load b n
    let vb := if sz = 0 then ofS 64 (toS 16 v) else if sz = 1 then ofS 64 (toS 32 v) else if sz = 2 then v else fv
    .ok (effRegs ([(c.px xd, c.load a 8), (c.px (xd + 1), vb)] ++
      if bit w 24 then (if pa = pb then [c.post pa pa] else [c.post pa pa, c.post pb pb]) else []))

/-- A store of `n` bytes (R342). -/
def semStore (n : Nat) (val : Nat → Nat → Nat) : SSem := fun c h w _ =>
  let p := bits w 18 3
  let a := c.reg (rP p)
  match accessFault a n (c.canWrite h a n) false with
  | some e => .error e
  | none => .ok { effRegs (if bit w 24 then [c.post p (bits w 21 3)] else []) with store := some (a, natBytes n (val (c.x (bits w 12 6)) (bits w 25 2))) }

/-- BR. -/
def semBr : SSem := fun c _ w _ => .ok { effRegs [] with br := some (ofS 15 ((c.pc : Int) + toS 20 (bits w 12 20))) }

/-- LOOP and LOOPS open a level (R335, R336). -/
def semLoop (staged : Bool) : SSem := fun c _ w _ =>
  let n := c.x (bits w 12 6) % 2 ^ 32
  let stages := if staged then bits w 28 3 + 1 else 1
  if 2 ≤ c.loops.length || (staged && c.loops.any fun l => l.staged) then .error 7
  else if n = 0 then .ok { effRegs [] with loop := some (bits w 18 10 + 1, staged, 0) }
  else .ok { effRegs ((rC (3 + c.loops.length), (n + stages - 1) % 2 ^ 32) :: if staged then [(rC 5, n - 1), (rC 7, 1)] else []) with
             loop := some (bits w 18 10 + 1, staged, stages) }

/-- NEXT (R338). -/
def semNext : SSem := fun c h w _ =>
  if c.held.isSome then .error 8
  else match c.ring with
    | [] => .error 0
    | e :: _ =>
      let ctx := bits e.head 0 6
      .ok { effRegs [(rC 9, e.addr), (rC 10, ctx), (rC 8, ctxBase h + ctx / 4 * shCtx h), (rP (bits w 18 3), e.addr), (c.px (bits w 12 6), e.head % 2 ^ 64)]
            with strm := 1 }

/-- DONE. -/
def semDone : SSem := fun c _ _ _ =>
  match c.held with
  | none => .error 8
  | some e => if bit e.1.head 8 && !e.2.2 then .error 9 else .ok { effRegs [(rC 10, 0x40)] with strm := 2 }

/-- EMIT copies the words from scratch (R338). An EPOCH image emits for EPOCH_END entries alone. -/
def semEmit (bad : Bool) : SSem := fun c h w _ =>
  let a := c.reg (rP (bits w 18 3))
  let f := hdrFeatures h
  let n := f + (f + 31) / 32
  match c.held with
  | none => .error 8
  | some e =>
    if e.2.2 || (hdrEpoch h && !bit e.1.head 8) then .error 10
    else match accessFault a 4 (inside a (4 * n) (scratchBase h) (localBytes - scratchBase h)) bad with
      | some x => .error x
      | none => .ok { effRegs [] with strm := 3, words := (List.range n).map fun i => c.load (a + 4 * i) 4 }

/-- Lanes of a W: offset, width, and the width of the container that is written. -/
def lanesOf (w : Nat) : List (Nat × Nat × Nat) :=
  if w = 0 then [(0, 64, 64)] else if w = 1 then [(0, 32, 32), (32, 32, 32)]
  else if w = 2 then [(0, 16, 16), (16, 16, 16), (32, 16, 16), (48, 16, 16)] else [(0, 24, 32), (32, 24, 32)]

/-- An operation on the lanes of two operands; a 24-bit result stands sign-extended in its container (R331, R345). -/
def laneOp (w : Nat) (f : Nat → Nat → Nat → Nat) (a b : Nat) : Nat :=
  (lanesOf w).foldl (fun acc l => setBits acc l.1 l.2.2 (ofS l.2.2 (toS l.2.1 (f l.2.1 (bits a l.1 l.2.1) (bits b l.1 l.2.1) % 2 ^ l.2.1)))) 0

/-- Lane addition. -/
def opAdd (w x y : Nat) : Nat := (x + y) % 2 ^ w
/-- Lane subtraction. -/
def opSub (w x y : Nat) : Nat := (x + 2 ^ w - y) % 2 ^ w
/-- A saturating signed result. -/
def opSat (w : Nat) (v : Int) : Nat := ofS w (clampI (-(2 ^ (w - 1))) (2 ^ (w - 1) - 1) v)
/-- Saturating lane addition. -/
def opAdds (w x y : Nat) : Nat := opSat w (toS w x + toS w y)
/-- Saturating lane subtraction. -/
def opSubs (w x y : Nat) : Nat := opSat w (toS w x - toS w y)
/-- Signed minimum. -/
def opMin (w x y : Nat) : Nat := if toS w x ≤ toS w y then x else y
/-- Signed maximum. -/
def opMax (w x y : Nat) : Nat := if toS w x ≤ toS w y then y else x
/-- Low half of a product. -/
def opMul (w x y : Nat) : Nat := x * y % 2 ^ w
/-- Shift left. -/
def opShl (n w x _y : Nat) : Nat := x * 2 ^ n % 2 ^ w
/-- Logical shift right. -/
def opShr (n _w x _y : Nat) : Nat := x / 2 ^ n
/-- Arithmetic shift right. -/
def opSar (n w x _y : Nat) : Nat := ofS w (toS w x / 2 ^ n)
/-- Absolute value, wrapping. -/
def opAbs (w x _y : Nat) : Nat := (toS w x).natAbs % 2 ^ w

/-- A register–register operation of the ALU group. -/
def semAlu (f : Nat → Nat → Nat → Nat) : SSem := fun c _ w _ =>
  .ok (effRegs [(c.px (bits w 12 6), laneOp (bits w 30 2) f (c.x (bits w 18 6)) (c.x (bits w 24 6)))])

/-- A shift of the ALU group, by XB[5:0]. -/
def semShift (f : Nat → Nat → Nat → Nat → Nat) : SSem := fun c h w v => semAlu (f (c.x (bits w 24 6) % 64)) c h w v

/-- MOV. -/
def semMov : SSem := fun c _ w _ => .ok (effRegs [(c.px (bits w 12 6), c.x (bits w 18 6))])

/-- CVTF: two int32 lanes to binary32; another W has no stated result, a free value. -/
def semCvtf : SSem := fun c _ w fv =>
  let x := c.x (bits w 18 6)
  .ok (effRegs [(c.px (bits w 12 6), if bits w 30 2 = 1 then laneOp 1 (fun n v _ => fofInt f32 (toS n v)) x 0 else fv)])

/-- IMM8, sign-extended to 64 bits. -/
def imm8 (w : Nat) : Nat := ofS 64 (toS 8 (bits w 24 8))

/-- An operation of the ALUI group. -/
def semAlui (f : Nat → Nat → Nat → Nat) : SSem := fun c _ w _ =>
  .ok (effRegs [(c.px (bits w 12 6), laneOp 0 f (c.x (bits w 18 6)) (imm8 w))])

/-- A shift of the ALUI group. -/
def semAluiShift (f : Nat → Nat → Nat → Nat → Nat) : SSem := fun c h w v => semAlui (f (imm8 w % 64)) c h w v

/-- PSET. -/
def semPset : SSem := fun _ _ w _ => .ok (effRegs [(rP (bits w 12 3), bits w 16 16)])
/-- NSET. -/
def semNset : SSem := fun _ _ w _ => .ok (effRegs [(rN (bits w 12 3), ofS 32 (toS 16 (bits w 16 16)))])
/-- PADD. -/
def semPadd : SSem := fun c _ w _ => .ok (effRegs [c.post (bits w 12 3) (bits w 12 3)])
/-- MOVP. -/
def semMovp : SSem := fun c _ w _ => .ok (effRegs [(c.px (bits w 15 6), c.reg (rP (bits w 12 3)))])
/-- MOVXP. -/
def semMovxp : SSem := fun c _ w _ => .ok (effRegs [(rP (bits w 12 3), c.x (bits w 15 6) % 2 ^ 18)])
/-- MOVXN. -/
def semMovxn : SSem := fun c _ w _ => .ok (effRegs [(rN (bits w 12 3), c.x (bits w 15 6) % 2 ^ 32)])

/-- CMP: GD gets a comparison of two 64-bit registers; a write of G0 is ignored. -/
def semCmp (f : Nat → Nat → Bool) : SSem := fun c _ w _ =>
  let g := bits w 12 4
  .ok (effRegs (if 1 ≤ g ∧ g < 8 then [(rG g, b2n (f (c.x (bits w 16 6)) (c.x (bits w 22 6))))] else []))

/-- NOP. -/
def semNop : SSem := fun _ _ _ _ => .ok (effRegs [])

/-- A control register as MOVC reads it. -/
def SCore.ctl (c : SCore) (k n : Nat) : Nat := if n = 0 then c.pc else if n = 11 then k else c.reg (rC n)

/-- MOVC; for a number above C11, which names no register, the spec states no value: a free value. -/
def semMovc (k : Nat) : SSem := fun c _ w fv => .ok (effRegs [(c.px (bits w 12 6), if bits w 18 4 ≤ 11 then c.ctl k (bits w 18 4) else fv)])

/-- MOVTC: writes to read-only registers are ignored; a write of MODE clears the accumulators; an RB above 47 has no stated value (R327). -/
def semMovtc : SSem := fun c _ w fv =>
  let x := c.x (bits w 12 6)
  let n := bits w 18 4
  .ok (effRegs (
    if n = 1 then [(rC 1, x % 4), (rAcc 0, 0), (rAcc 1, 0), (rAcc 2, 0), (rAcc 3, 0)]
    else if n = 2 then [(rC 2, c.reg (rC 2) &&& (3 - x % 4))]
    else if n = 3 ∨ n = 4 ∨ n = 5 then [(rC n, x % 2 ^ 32)]
    else if n = 6 then [(rC 6, if x % 64 < 48 then x % 64 else fv % 48)]
    else if n = 7 then [(rC 7, x % 256)]
    else []))

/-- LIMM: the immediate stands in slot 1. -/
def semLimm (high : Bool) (imm : Nat) : SSem := fun c _ w _ =>
  let xd := bits w 12 6
  .ok (effRegs [(c.px xd, if high then setBits (c.x xd) 32 32 imm else ofS 64 (toS 32 imm))])

/-! ### Bundles (R328, R335, R336) -/

/-- Closes the passes that end at the present bundle, innermost level first; the core goes on at a body's first bundle or at the next bundle. -/
def closePass (c : SCore) : List SLoop → SCore
  | [] => { c with pc := (c.pc + 1) % 2 ^ 15, loops := [] }
  | l :: rest =>
    if c.pc ≠ l.last then { c with pc := (c.pc + 1) % 2 ^ 15, loops := l :: rest }
    else
      let r := rC (3 + rest.length)
      let p := (c.reg r + 2 ^ 32 - 1) % 2 ^ 32
      let c := { c with regs := tset c.regs r p }
      if p = 0 then closePass c rest
      else if !l.staged then { c with pc := l.first, loops := l :: rest }
      else
        let sv := c.reg (rC 7)
        let it := c.reg (rC 5)
        let m := 2 ^ l.stages
        { c with pc := l.first, loops := l :: rest,
                 regs := tset (tset (tset c.regs (rC 6) ((c.rb + 1) % 48)) (rC 7) (if 0 < it then (2 * sv + 1) % m else 2 * sv % m)) (rC 5) (it - 1) }

/-- Whether a bundle lies in a loop's body. -/
def SLoop.holds (l : SLoop) (pc : Nat) : Bool := decide (l.first ≤ pc ∧ pc ≤ l.last)

/-- Writes a bundle's results and moves the PC. A taken branch out of the innermost open loop's body closes that level alone (R336). -/
def SCore.finish (c : SCore) (es : List SEff) : SCore :=
  let regs := es.foldl (fun t e => e.regs.foldl (fun t p => tset t p.1 p.2) t) c.regs
  let st := es.foldl (fun v e => v ||| e.set_) (tgetD regs (rC 2) 0)
  let mem := es.foldl (fun m e => match e.store with | some p => memWrite p.1 p.2 m | none => m) c.mem
  let c := { c with regs := tset regs (rC 2) st, mem := mem, effs := [], wait := none }
  match es.findSome? (fun e => e.br), es.findSome? (fun e => e.loop) with
  | some t, _ => { c with pc := t, loops := if c.loops.head?.any fun l => !l.holds t then c.loops.drop 1 else c.loops }
  | none, some (body, _, 0) => { c with pc := (c.pc + 1 + body) % 2 ^ 15 }
  | none, some (body, staged, stages) =>
    { c with pc := (c.pc + 1) % 2 ^ 15, loops := ⟨c.pc + 1, c.pc + body, staged, stages⟩ :: c.loops }
  | none, none => closePass c c.loops

/-- Whether two slots write one register. -/
def conflict (es : List SEff) : Bool :=
  match es with
  | [a, b] => a.regs.any fun p => b.regs.any fun q => p.1 == q.1
  | _ => false

/-- A core. -/
def State.core_ (s : State) (k : Nat) : Option SCore := tget s.sp.cores k
/-- Replaces a core. -/
def State.setCore (k : Nat) (c : SCore) (s : State) : State := { s with sp := { s.sp with cores := tset s.sp.cores k c } }

/-- An exception stops the core at the faulting bundle: none of its results are written and the group is FAULTED; an uncorrectable local memory read is logged (R349, R447). -/
def State.steepFault (k cause : Nat) (s : State) : State :=
  match s.core_ k with
  | some c =>
    let s : State := if cause = 1 then s.sramError (0x0500 + k / 4) else s
    (s.setCore k { c with effs := [], wait := none }).unitFault (16 + k / 4) cause k c.pc
  | none => s

/-- The group writes its epoch vectors in ascending context order once every context's EPOCH_END is done (R338). -/
def State.groupFlush (u : Nat) (s : State) : State :=
  let f := s.feed u
  let due := s.epochContexts u
  if !hdrEpoch f.img || !s.epochConsumed u || !(due.all f.ended.contains) || (f.phase == 1 && decide (s.epochAt f.from_ ≤ f.epoch)) then s
  else
    let n := f.epoch
    let s : State := due.foldl (fun s c =>
      let q := tget f.cons c
      let hold := match q with | some q => q.2.2 | none => false
      s.emitVector u (match q with | some q => q.2.1 | none => s.ctxGid c) (hdrPart f.img) (s.epochStamp n hold) (tgetD f.vecs c [])) s
    s.setFeed u { s.feed u with cons := [], vecs := [], ends := [], ended := [], epoch := n + 1 }

/-- The stream operation of a bundle (R338). -/
def State.strmDo (k : Nat) (e : SEff) (s : State) : State :=
  let u := 16 + k / 4
  match s.core_ k with
  | none => s
  | some c =>
    if e.strm = 1 then
      match c.ring with
      | x :: _ => s.setCore k { c with held := some (x, s.ft .icd, false) }
      | [] => s
    else if e.strm = 2 then
      match c.held with
      | none => s
      | some x =>
        let ctx := bits x.1.head 0 6
        let end_ := bit x.1.head 8
        let h := (s.feed u).img
        let init := memRead s.me.t1 (s.imageAddr true (s.i (kActive u)) + 128 + padTo 64 (shCode h) + padTo 64 (shData h)) (shCtx h)
        let mem := if end_ then memWrite (ctxBase h + ctx / 4 * shCtx h) init c.mem else c.mem
        let s : State := (s.setCore k { c with held := none, ring := c.ring.drop 1, mem := mem }).domainUse (68 + k / 4)
        if end_ then (s.setFeed u { s.feed u with ended := ctx :: (s.feed u).ended }).groupFlush u else s
    else if e.strm = 3 then
      match c.held with
      | none => s
      | some x =>
        let s : State := s.setCore k { c with held := some (x.1, x.2.1, true) }
        let f := s.feed u
        if hdrEpoch f.img then s.setFeed u { f with vecs := tset f.vecs (bits x.1.head 0 6) e.words }
        else s.emitVector u (bits x.1.head 32 32) (bits x.1.head 96 16) (bits x.1.head 128 128) e.words
    else s

/-- Both slots of a bundle have executed: WRITE_CONFLICT, or the results of both. -/
def State.bundleEnd (k : Nat) (s : State) : State :=
  match s.core_ k with
  | none => s
  | some c =>
    if c.effs.length < 2 then s
    else if conflict c.effs then s.steepFault k 6
    else c.effs.foldl (fun s e => s.strmDo k e) (s.setCore k (c.finish c.effs))

/-- Whether an operation's result is a value that the spec does not state: CVTF of another width, RB above 47, MOVC of a number above C11, SIZE_B 3 of LDD. -/
def openResult (c : SCore) (w : Nat) : Bool :=
  let g := bits w 4 4
  let o := bits w 8 4
  (g == 1 && o == 15 && bits w 30 2 != 1) || (g == 0 && o == 2 && bits w 18 4 == 6 && decide (48 ≤ c.x (bits w 12 6) % 64)) ||
    (g == 0 && o == 1 && decide (11 < bits w 18 4)) || (g == 5 && o == 5 && bits w 25 2 == 3)

/-- A slot's operation ends: a wait, an exception, or results that join the bundle's. -/
def State.slotEnd (k slot : Nat) (w : Nat) (r : Except Nat SEff) (s : State) : State :=
  match s.core_ k with
  | none => s
  | some c =>
    match r with
    | .error 0 => s.setCore k { c with wait := some w }
    | .error e => s.steepFault k e
    | .ok e =>
      let es := if bits w 4 4 = 0xF then [{ e with slot := 0 }, { effRegs [] with slot := 1 }] else c.effs ++ [{ e with slot := slot }]
      (s.setCore k { c with effs := es, wait := none }).bundleEnd k

/-- The 32-bit word of a slot of the present bundle. -/
def SCore.slotWord (c : SCore) (slot : Nat) : Nat := c.load (8 * c.pc + 4 * slot) 4

/-- Whether a group's cores execute: RUNNING, or SWITCHING while the old image works. -/
def State.groupRuns (u : Nat) (s : State) : Bool :=
  let st := s.i (kState u)
  (st == 1 || (st == 2 && (s.feed u).phase == 1)) && !(s.feed u).flt

/-- A core executes the operation of one slot of its bundle, when that is the operation named by GROUP and OP; PC outside the code raises FETCH (R328, R339, R349). -/
def State.steepOp (k slot grp op : Nat) (sem : SSem) (s : State) : State :=
  let u := 16 + k / 4
  match s.core_ k with
  | none => s
  | some c =>
    let h := (s.feed u).img
    let w := c.slotWord slot
    if !s.groupRuns u || (c.effs.any fun e => e.slot == slot) || (c.wait.isSome && slot == 1) then s
    else if shCode h < 8 * c.pc + 8 then s.steepFault k 5
    else if bits w 4 4 ≠ grp ∨ bits w 8 4 ≠ op ∨ (slot = 1 ∧ bits (c.slotWord 0) 4 4 = 0xF) then s
    else
      let p := if openResult c w then s.fresh 64 else (0, s)
      p.2.slotEnd k slot w (if c.guard (bits w 0 4) then sem c h w p.1 else .ok (effRegs []))

/-- A store of a register's lane, half, or whole. -/
def stVal16 (x lane : Nat) : Nat := bits x (16 * lane) 16
/-- Low 24 bits of a half, sign-extended into the container. -/
def stVal24 (x lane : Nat) : Nat := ofS 32 (toS 24 (bits x (32 * (lane % 2)) 24))

/-- Signed 64-bit less-than. -/
def ltS (a b : Nat) : Bool := decide (toS 64 a < toS 64 b)

/-! ### The operations as commands -/

/-- MACQ (R329). -/
def execMacq (k : Nat) : State → Host.Outcome State Fault Refusal := run (State.steepOp k 0 3 0 (semMac 0 false))

/-- MSUQ (R329). -/
def execMsuq (k : Nat) : State → Host.Outcome State Fault Refusal := run (State.steepOp k 0 3 1 (semMac 1 false))

/-- MPYQ (R329). -/
def execMpyq (k : Nat) : State → Host.Outcome State Fault Refusal := run (State.steepOp k 0 3 2 (semMac 2 false))

/-- MACD (R329). -/
def execMacd (k : Nat) : State → Host.Outcome State Fault Refusal := run (State.steepOp k 0 3 3 (semMac 0 true))

/-- MSUD (R329). -/
def execMsud (k : Nat) : State → Host.Outcome State Fault Refusal := run (State.steepOp k 0 3 4 (semMac 1 true))

/-- MPYD (R329). -/
def execMpyd (k : Nat) : State → Host.Outcome State Fault Refusal := run (State.steepOp k 0 3 5 (semMac 2 true))

/-- NARROW16 (R332). -/
def execNarrow16 (k : Nat) : State → Host.Outcome State Fault Refusal := run (State.steepOp k 0 4 0 (semNarrow 16))

/-- NARROW24 (R332). -/
def execNarrow24 (k : Nat) : State → Host.Outcome State Fault Refusal := run (State.steepOp k 0 4 1 (semNarrow 24))

/-- NARROW32 (R332). -/
def execNarrow32 (k : Nat) : State → Host.Outcome State Fault Refusal := run (State.steepOp k 0 4 2 (semNarrow 32))

/-- MOVA (R332). -/
def execMova (k : Nat) : State → Host.Outcome State Fault Refusal := run (State.steepOp k 0 4 3 semMova)

/-- MOVXA (R341). -/
def execMovxa (k : Nat) : State → Host.Outcome State Fault Refusal := run (State.steepOp k 0 4 4 semMovxa)

/-- CLRA (R341). -/
def execClra (k : Nat) : State → Host.Outcome State Fault Refusal := run (State.steepOp k 0 4 5 semClra)

/-- LD16 (R333, R342). -/
def execLd16 (k : Nat) (bad : Bool) : State → Host.Outcome State Fault Refusal := run (State.steepOp k 1 5 0 (semLd16 bad))

/-- LD16X (R333, R342). -/
def execLd16x (k : Nat) (bad : Bool) : State → Host.Outcome State Fault Refusal := run (State.steepOp k 1 5 1 (semLd16x bad))

/-- LD32X (R333, R342). -/
def execLd32x (k : Nat) (bad : Bool) : State → Host.Outcome State Fault Refusal := run (State.steepOp k 1 5 2 (semLd32x bad))

/-- LD64 (R333, R342). -/
def execLd64 (k : Nat) (bad : Bool) : State → Host.Outcome State Fault Refusal := run (State.steepOp k 1 5 3 (semLd64 bad))

/-- LD24X (R333, R342). -/
def execLd24x (k : Nat) (bad : Bool) : State → Host.Outcome State Fault Refusal := run (State.steepOp k 1 5 4 (semLd24x bad))

/-- LDD (R333, R342). -/
def execLdd (k : Nat) (bad : Bool) : State → Host.Outcome State Fault Refusal := run (State.steepOp k 1 5 5 (semLdd bad))

/-- ST16 (R342). -/
def execSt16 (k : Nat) : State → Host.Outcome State Fault Refusal := run (State.steepOp k 1 6 0 (semStore 2 stVal16))

/-- ST32 (R342). -/
def execSt32 (k : Nat) : State → Host.Outcome State Fault Refusal := run (State.steepOp k 1 6 1 (semStore 4 (fun x _ => x % 2 ^ 32)))

/-- ST64 (R342). -/
def execSt64 (k : Nat) : State → Host.Outcome State Fault Refusal := run (State.steepOp k 1 6 2 (semStore 8 (fun x _ => x)))

/-- ST24 (R342). -/
def execSt24 (k : Nat) : State → Host.Outcome State Fault Refusal := run (State.steepOp k 1 6 3 (semStore 4 stVal24))

/-- BR (R343). -/
def execBr (k : Nat) : State → Host.Outcome State Fault Refusal := run (State.steepOp k 0 8 0 semBr)

/-- LOOP (R335). -/
def execLoop (k : Nat) : State → Host.Outcome State Fault Refusal := run (State.steepOp k 0 8 1 (semLoop false))

/-- LOOPS (R335). -/
def execLoops (k : Nat) : State → Host.Outcome State Fault Refusal := run (State.steepOp k 0 8 2 (semLoop true))

/-- NEXT (R338). -/
def execNext (k : Nat) : State → Host.Outcome State Fault Refusal := run (State.steepOp k 1 9 0 semNext)

/-- DONE (R338). -/
def execDone (k : Nat) : State → Host.Outcome State Fault Refusal := run (State.steepOp k 1 9 1 semDone)

/-- EMIT (R338). -/
def execEmit (k : Nat) (bad : Bool) : State → Host.Outcome State Fault Refusal := run (State.steepOp k 1 9 2 (semEmit bad))

/-- ADD (R345). -/
def execAdd (k slot : Nat) : State → Host.Outcome State Fault Refusal := run (State.steepOp k slot 1 0 (semAlu opAdd))

/-- SUB (R345). -/
def execSub (k slot : Nat) : State → Host.Outcome State Fault Refusal := run (State.steepOp k slot 1 1 (semAlu opSub))

/-- ADDS (R345). -/
def execAdds (k slot : Nat) : State → Host.Outcome State Fault Refusal := run (State.steepOp k slot 1 2 (semAlu opAdds))

/-- SUBS (R345). -/
def execSubs (k slot : Nat) : State → Host.Outcome State Fault Refusal := run (State.steepOp k slot 1 3 (semAlu opSubs))

/-- AND (R345). -/
def execAndX (k slot : Nat) : State → Host.Outcome State Fault Refusal := run (State.steepOp k slot 1 4 (semAlu fun _ x y => x &&& y))

/-- OR (R345). -/
def execOrX (k slot : Nat) : State → Host.Outcome State Fault Refusal := run (State.steepOp k slot 1 5 (semAlu fun _ x y => x ||| y))

/-- XOR (R345). -/
def execXor (k slot : Nat) : State → Host.Outcome State Fault Refusal := run (State.steepOp k slot 1 6 (semAlu fun _ x y => x ^^^ y))

/-- SHL (R345). -/
def execShl (k slot : Nat) : State → Host.Outcome State Fault Refusal := run (State.steepOp k slot 1 7 (semShift opShl))

/-- SHR (R345). -/
def execShr (k slot : Nat) : State → Host.Outcome State Fault Refusal := run (State.steepOp k slot 1 8 (semShift opShr))

/-- SAR (R345). -/
def execSar (k slot : Nat) : State → Host.Outcome State Fault Refusal := run (State.steepOp k slot 1 9 (semShift opSar))

/-- MIN (R345). -/
def execMin (k slot : Nat) : State → Host.Outcome State Fault Refusal := run (State.steepOp k slot 1 10 (semAlu opMin))

/-- MAX (R345). -/
def execMax (k slot : Nat) : State → Host.Outcome State Fault Refusal := run (State.steepOp k slot 1 11 (semAlu opMax))

/-- MUL (R345). -/
def execMul (k slot : Nat) : State → Host.Outcome State Fault Refusal := run (State.steepOp k slot 1 12 (semAlu opMul))

/-- ABS (R345). -/
def execAbs (k slot : Nat) : State → Host.Outcome State Fault Refusal := run (State.steepOp k slot 1 13 (semAlu opAbs))

/-- MOV (R345). -/
def execMov (k slot : Nat) : State → Host.Outcome State Fault Refusal := run (State.steepOp k slot 1 14 semMov)

/-- CVTF (R345). -/
def execCvtf (k slot : Nat) : State → Host.Outcome State Fault Refusal := run (State.steepOp k slot 1 15 semCvtf)

/-- ALUI_ADD (R345). -/
def execAluiAdd (k slot : Nat) : State → Host.Outcome State Fault Refusal := run (State.steepOp k slot 2 0 (semAlui opAdd))

/-- ALUI_SUB (R345). -/
def execAluiSub (k slot : Nat) : State → Host.Outcome State Fault Refusal := run (State.steepOp k slot 2 1 (semAlui opSub))

/-- ALUI_ADDS (R345). -/
def execAluiAdds (k slot : Nat) : State → Host.Outcome State Fault Refusal := run (State.steepOp k slot 2 2 (semAlui opAdds))

/-- ALUI_SUBS (R345). -/
def execAluiSubs (k slot : Nat) : State → Host.Outcome State Fault Refusal := run (State.steepOp k slot 2 3 (semAlui opSubs))

/-- ALUI_AND (R345). -/
def execAluiAnd (k slot : Nat) : State → Host.Outcome State Fault Refusal := run (State.steepOp k slot 2 4 (semAlui fun _ x y => x &&& y))

/-- ALUI_OR (R345). -/
def execAluiOr (k slot : Nat) : State → Host.Outcome State Fault Refusal := run (State.steepOp k slot 2 5 (semAlui fun _ x y => x ||| y))

/-- ALUI_XOR (R345). -/
def execAluiXor (k slot : Nat) : State → Host.Outcome State Fault Refusal := run (State.steepOp k slot 2 6 (semAlui fun _ x y => x ^^^ y))

/-- ALUI_SHL (R345). -/
def execAluiShl (k slot : Nat) : State → Host.Outcome State Fault Refusal := run (State.steepOp k slot 2 7 (semAluiShift opShl))

/-- ALUI_SHR (R345). -/
def execAluiShr (k slot : Nat) : State → Host.Outcome State Fault Refusal := run (State.steepOp k slot 2 8 (semAluiShift opShr))

/-- ALUI_SAR (R345). -/
def execAluiSar (k slot : Nat) : State → Host.Outcome State Fault Refusal := run (State.steepOp k slot 2 9 (semAluiShift opSar))

/-- ALUI_MIN (R345). -/
def execAluiMin (k slot : Nat) : State → Host.Outcome State Fault Refusal := run (State.steepOp k slot 2 10 (semAlui opMin))

/-- ALUI_MAX (R345). -/
def execAluiMax (k slot : Nat) : State → Host.Outcome State Fault Refusal := run (State.steepOp k slot 2 11 (semAlui opMax))

/-- PSET (R345). -/
def execPset (k slot : Nat) : State → Host.Outcome State Fault Refusal := run (State.steepOp k slot 7 0 semPset)

/-- NSET (R345). -/
def execNset (k slot : Nat) : State → Host.Outcome State Fault Refusal := run (State.steepOp k slot 7 1 semNset)

/-- PADD (R345). -/
def execPadd (k slot : Nat) : State → Host.Outcome State Fault Refusal := run (State.steepOp k slot 7 2 semPadd)

/-- MOVP (R345). -/
def execMovp (k slot : Nat) : State → Host.Outcome State Fault Refusal := run (State.steepOp k slot 7 3 semMovp)

/-- MOVXP (R345). -/
def execMovxp (k slot : Nat) : State → Host.Outcome State Fault Refusal := run (State.steepOp k slot 7 4 semMovxp)

/-- MOVXN (R345). -/
def execMovxn (k slot : Nat) : State → Host.Outcome State Fault Refusal := run (State.steepOp k slot 7 5 semMovxn)

/-- CMP_EQ (R345). -/
def execCmpEq (k slot : Nat) : State → Host.Outcome State Fault Refusal := run (State.steepOp k slot 10 0 (semCmp (fun a b => a == b)))

/-- CMP_NE (R345). -/
def execCmpNe (k slot : Nat) : State → Host.Outcome State Fault Refusal := run (State.steepOp k slot 10 1 (semCmp (fun a b => a != b)))

/-- CMP_LT (R345). -/
def execCmpLt (k slot : Nat) : State → Host.Outcome State Fault Refusal := run (State.steepOp k slot 10 2 (semCmp ltS))

/-- CMP_GE (R345). -/
def execCmpGe (k slot : Nat) : State → Host.Outcome State Fault Refusal := run (State.steepOp k slot 10 3 (semCmp (fun a b => !ltS a b)))

/-- CMP_LTU (R345). -/
def execCmpLtu (k slot : Nat) : State → Host.Outcome State Fault Refusal := run (State.steepOp k slot 10 4 (semCmp (fun a b => decide (a < b))))

/-- CMP_GEU (R345). -/
def execCmpGeu (k slot : Nat) : State → Host.Outcome State Fault Refusal := run (State.steepOp k slot 10 5 (semCmp (fun a b => decide (b ≤ a))))

/-- NOP (R339). -/
def execNop (k slot : Nat) : State → Host.Outcome State Fault Refusal := run (State.steepOp k slot 0 0 semNop)

/-- MOVC (R345). -/
def execMovc (k slot : Nat) : State → Host.Outcome State Fault Refusal := run (State.steepOp k slot 0 1 (semMovc k))

/-- MOVTC (R327, R345). -/
def execMovtc (k slot : Nat) : State → Host.Outcome State Fault Refusal := run (State.steepOp k slot 0 2 semMovtc)

/-- LIMM_LOW (R345). -/
def execLimmLow (k : Nat) : State → Host.Outcome State Fault Refusal := run (State.steepOp k 0 15 0 (fun c h w v => semLimm false (c.slotWord 1) c h w v))

/-- LIMM_HIGH (R345). -/
def execLimmHigh (k : Nat) : State → Host.Outcome State Fault Refusal := run (State.steepOp k 0 15 1 (fun c h w v => semLimm true (c.slotWord 1) c h w v))

end Sys2Proof.Machine
end

