-- ==== Sys2Proof/Machine/SteepCtl.lean ====
section
/-! DEFINITION. Steep groups: delivery of records, images and their validation, loads, switches, timeouts (R323–R325, R337, R346–R350). -/

namespace Sys2Proof.Machine

/-! ### Loads (R325, R327, R348) -/

/-- A core as an image of the header and bytes loads it: code, data, sixteen context areas, MODE, and the starting bundle. -/
def coreOf (h : Rec) (img : List Nat) : SCore :=
  let code := (img.drop 128).take (shCode h)
  let o := 128 + padTo 64 (shCode h)
  let data := (img.drop o).take (shData h)
  let ctx := (img.drop (o + padTo 64 (shData h))).take (shCtx h)
  let mem := memWrite 0 code []
  let mem := memWrite (dataBase h) data mem
  let mem := (List.range 16).foldl (fun m i => memWrite (ctxBase h + i * shCtx h) ctx m) mem
  { pc := recFld h 320 16 % 2 ^ 15, regs := [(rC 1, recFld h 138 2), (rC 10, 0x40)], mem := mem, loops := [], effs := [], wait := none, ring := [], wp := 0, held := none }

/-- Copies the group's image into its four cores. -/
def State.coresLoad (g : Nat) (s : State) : State :=
  let a := s.i (kActive (16 + g))
  let h := (s.feed (16 + g)).img
  let c := coreOf h (memRead s.me.t1 (s.imageAddr true a) (recFld h 288 32))
  (List.range 4).foldl (fun s j => s.setCore (4 * g + j) c) s

/-- The cores of a group hold nothing. -/
def State.coresClear (g : Nat) (s : State) : State :=
  { s with sp := { s.sp with cores := s.sp.cores.filter fun p => p.1 / 4 != g } }

/-- Whether a group's cores hold no entry. -/
def State.groupIdle (g : Nat) (s : State) : Bool :=
  (List.range 4).all fun j => match s.core_ (4 * g + j) with | some c => c.ring.isEmpty | none => true

/-- GROUP_LOAD_DONE: the image has been copied into all four cores; OFF after an unload, FAULTED by a poisoned read (R348, R349). -/
def State.groupLoadDone (g : Nat) (s : State) : State :=
  let u := 16 + g
  let f := s.feed u
  if !s.feedDrained u || !(f.flt || s.groupIdle g) then s
  else if f.to_ < 64 && s.imagePoisoned true f.to_ then ((s.imageErrors u).feedLoadFault u 11).coresClear g
  else
    let s : State := ((s.imageErrors u).coresClear g).feedInstall u
    if f.to_ < 64 then (s.coresLoad g).domainUse (68 + g) else s

/-- GROUP_LOAD_DONE. -/
def execGroupLoadDone (g : Nat) : State → Host.Outcome State Fault Refusal := run (State.groupLoadDone g)

/-- A domain reset of a group (R530). -/
def State.steepDomainReset (g : Nat) (s : State) : State :=
  let st := s.i (kState (16 + g))
  if st = 0 ∨ 64 ≤ s.i (kActive (16 + g)) then s else (s.feedReset (16 + g)).coresLoad g

/-! ### Switches (R348) -/

/-- STEEP_SWITCH: a descriptor, or a GroupSwitchIssue write at GroupSwitchInstant. -/
def State.steepSwitch (q : Req) (reg : Bool) (g i at_ : Nat) (s : State) : State :=
  if reg then s.reqWrite q O.GroupSwitchIssue (g + 8 * i) (fun s => s.feedSwitchOp (16 + g) i (s.i O.GroupSwitchInstant))
  else s.descriptor q (State.feedSwitchOp (16 + g) i at_)

/-- STEEP_SWITCH. -/
def execSteepSwitch (q : Req) (reg : Bool) (g i at_ : Nat) : State → Host.Outcome State Fault Refusal := run (State.steepSwitch q reg g i at_)

/-- GROUP_SWITCH_LAUNCH. -/
def State.groupSwitchLaunch (s : State) : State :=
  match s.dueOf .icd fun a => a.kind == 3 with
  | some a => (s.takeAct .icd a).stepping a.stepped (State.feedLaunch (16 + a.a) a.b a.at_)
  | none => s

/-- GROUP_SWITCH_LAUNCH. -/
def execGroupSwitchLaunch : State → Host.Outcome State Fault Refusal := run State.groupSwitchLaunch

/-! ### Delivery (R337) -/

/-- Where an entry of `n` bytes goes in a core's ring: after the last one, or at the ring's start, clear of entries not released. DEDUCED: an entry is contiguous. -/
def SCore.place (c : SCore) (h : Rec) (n : Nat) : Option Nat :=
  let base := ringBase h
  let o := if c.wp + n ≤ shRing h then c.wp else 0
  let free := c.ring.all fun e => decide (base + o + n ≤ e.addr ∨ e.addr + e.len ≤ base + o)
  if n ≤ shRing h ∧ free then some o else none

/-- Writes an entry into a core's ring; a core that waits in NEXT goes on. Answers whether there was room. -/
def State.deliver (k : Nat) (head : Nat) (words : List Nat) (s : State) : State × Bool :=
  match s.core_ k with
  | none => (s, false)
  | some c =>
    let h := (s.feed (16 + k / 4)).img
    let n := padTo 16 (32 + 4 * words.length)
    match c.place h n with
    | none => (s, false)
    | some o =>
      let a := ringBase h + o
      let bytes := natBytes 32 head ++ words.flatMap (natBytes 4) ++ List.replicate (n - 32 - 4 * words.length) 0
      let c := { c with mem := memWrite a bytes c.mem, ring := c.ring ++ [⟨a, n, head⟩], wp := o + n }
      let s : State := (s.setCore k c).domainUse (68 + k / 4)
      match c.wait with
      | some w => (s.slotEnd k 1 w (semNext c h w 0), true)
      | none => (s, true)

/-- ABSENT bits in words. -/
def absentWords (l : List Bool) : List Nat :=
  (List.range ((l.length + 31) / 32)).map fun i => ((l.drop (32 * i)).take 32).foldr (fun b acc => b2n b + 2 * acc) 0

/-- STEEP_DELIVERY_ENTRY: the next record of a context, or its EPOCH_END entry, enters the serving core's ring; with no room the record waits (R337). -/
def State.steepDelivery (g c : Nat) (end_ : Bool) (s : State) : State :=
  let u := 16 + g
  let k := 4 * g + c % 4
  let f := s.feed u
  if !s.groupRuns u then s
  else if end_ then
    if !hdrEpoch f.img || !s.epochConsumed u || (f.phase == 1 && decide (s.epochAt f.from_ ≤ f.epoch)) then s
    else if (s.epochContexts u).isEmpty then s.groupFlush u
    else if !(s.epochContexts u).contains c || f.ends.contains c then s
    else
      let q := tget f.cons c
      let hold := match q with | some q => q.2.2 | none => false
      let head := packFields [(0, 6, c), (8, 1, 1), (32, 32, match q with | some q => q.2.1 | none => s.ctxGid c), (96, 16, hdrPart f.img),
        (128, 128, s.epochStamp f.epoch hold)]
      let p := s.deliver k head []
      if p.2 then p.1.setFeed u { p.1.feed u with ends := c :: (p.1.feed u).ends } else s
  else
    match s.feedNext u c with
    | none => s
    | some ((e, j, x), cl) =>
      if cl ≠ 1 then s.feedPass u e cl
      else
        match s.stagedRead (0x0500 + g) e.slot e.rec_ with
        | (none, s) => s.feedPass u e 2
        | (some r, s) =>
        let whole := bit x 87
        let w := window x r
        let words := if whole then (List.range (4 * r.length - 4)).map fun i => (recWord r (16 + 4 * i)).1 else w.map (·.1)
        let all := if whole then words else words ++ absentWords (w.map (·.2))
        let head := packFields [(0, 6, c), (6, 2, j), (9, 1, b2n whole), (16, 16, words.length), (32, 32, rSrc r), (64, 32, rSeq r), (96, 16, rPart r),
          (128, 128, selStamp x r)]
        let p := (s.feedTake u e x).deliver k head all
        if p.2 then p.1 else s

/-- STEEP_DELIVERY_ENTRY. -/
def execSteepDeliveryEntry (g c : Nat) (end_ : Bool) : State → Host.Outcome State Fault Refusal := run (State.steepDelivery g c end_)

/-- STEEP_ENTRY_TIMEOUT: an entry held longer than EntryTimeout: FAULTED with HANG (R349). -/
def State.steepEntryTimeout (k : Nat) (s : State) : State :=
  match s.core_ k with
  | none => s
  | some c =>
    match c.held with
    | some e => if s.ft .icd ≤ e.2.1 + us (s.i O.EntryTimeout) ∨ !s.groupRuns (16 + k / 4) then s else s.steepFault k 2
    | none => s

/-- STEEP_ENTRY_TIMEOUT. -/
def execSteepEntryTimeout (k : Nat) : State → Host.Outcome State Fault Refusal := run (State.steepEntryTimeout k)

/-! ### Images (R346, R347) -/

/-- Whether a slot's operation word is one that R339–R345 allow in that slot. -/
def opOk (slot w : Nat) : Bool :=
  let g := bits w 4 4
  let o := bits w 8 4
  if g = 0 then decide (o ≤ 2)
  else if g = 1 then true
  else if g = 2 then decide (o ≤ 11)
  else if g = 3 then slot == 0 && decide (o ≤ 5)
  else if g = 4 then slot == 0 && decide (o ≤ 5)
  else if g = 5 then slot == 1 && decide (o ≤ 5) && !(o == 5 && bits w 12 6 == 63)
  else if g = 6 then slot == 1 && decide (o ≤ 3)
  else if g = 7 then decide (o ≤ 5)
  else if g = 8 then slot == 0 && decide (o ≤ 2)
  else if g = 9 then slot == 1 && decide (o ≤ 2)
  else if g = 10 then decide (o ≤ 5) && decide (1 ≤ bits w 12 4 ∧ bits w 12 4 ≤ 7)
  else if g = 15 then slot == 0 && decide (o ≤ 1)
  else false

/-- Whether a bundle's encoding passes cause 4 of R347; slot 1 of a LIMM is not an operation. -/
def bundleOk (b : Nat) : Bool := opOk 0 (bits b 0 32) && (bits b 4 4 == 15 || opOk 1 (bits b 32 32))

/-- The first failing check of R347, 0 when the image passes. -/
def steepCheck (img : List Nat) (written : Nat) : Nat :=
  let h := bytesRec (img.take 128)
  let f := recFld h
  let feats := hdrFeatures h
  if rType h ≠ 0xB2 ∨ hdrBad h ∨ f 128 8 ≠ 1 ∨ f 141 3 ≠ 0 ∨ feats < 1 ∨ 4096 < feats ∨ f 160 4 < 1 ∨ 4 < f 160 4 ∨ f 164 4 ≠ 0 ∨ 4096 < shCtx h ∨ shCtx h % 64 ≠ 0 ∨
      f 184 8 ≠ 0 ∨ shCode h < 8 ∨ 131072 < shCode h ∨ shCode h % 8 ≠ 0 ∨ shData h % 64 ≠ 0 ∨ shRing h < 4096 ∨ 65536 < shRing h ∨ shRing h % 64 ≠ 0 ∨
      f 288 32 ≠ written ∨ f 336 48 ≠ 0 ∨ f 448 64 ≠ 0 ∨ selReserved h true ∨ selLong h true then 1
  else if !selectorsOk h true then 2
  else if localBytes < scratchBase h + (4 * feats + 4 * ((feats + 31) / 32)) then 3
  else if !((List.range (shCode h / 8)).all fun i => bundleOk (bytesNat ((img.drop (128 + 8 * i)).take 8))) || decide (shCode h ≤ 8 * f 320 16) then 4
  else if f 140 1 = 0 then 5
  else 0

/-- STEEP_IMAGE_VALIDATE: the digest stands whether or not the image passes; the slot becomes VALID or INVALID. -/
def State.steepImageValidate (i : Nat) (s : State) : State :=
  match tget s.tw.landed (768 + i) with
  | none => s
  | some n =>
    let s : State := { s with tw := { s.tw with landed := tdel s.tw.landed (768 + i) } }
    let img := memRead s.me.t1 (s.imageAddr true i) n
    let h := bytesRec (img.take 128)
    let c := steepCheck img n
    let dig := Config.blake3 (memRead s.me.t1 (s.imageAddr true i) (min 8388608 (recFld h 288 32))) % 2 ^ 128
    let s : State := ((s.iSet (imageKey true i 2) dig).iSet (imageKey true i 3) c).iSet (imageKey true i 5) (recFld h 384 64)
    (s.iSet (imageKey true i 1) (if c = 0 then 2 else 4)).imageUses true

/-- STEEP_IMAGE_VALIDATE. -/
def execSteepImageValidate (i : Nat) : State → Host.Outcome State Fault Refusal := run (State.steepImageValidate i)

end Sys2Proof.Machine
end

