-- ==== Sys2Proof/Machine/Uplink.lean ====
section
/-! DEFINITION. Uplink scheduling and shaping: classes, deficits, ceilings, shapers, queue samples, bulk deferral and decimation (R428–R444). -/

namespace Sys2Proof.Machine

/-! ### Rates and shapers (R431–R434) -/

/-- Payload rate of a port's active wavelengths in bytes per millisecond: 24.8 GB/s each (R17). -/
def State.linkRate (s : State) (p : Nat) : Nat :=
  24800000 * (s.portWaves p + b2n (s.waveLit p 8) - popCount 8 (tgetD s.pk.dark p 0))

/-- The ShaperConfig of a bucket: port × 8 for a port, port × 8 + 1 + class for a class, 1024 + q for a subscriber. -/
def State.shaperAt (s : State) (b : Nat) : Nat :=
  if b < 128 then s.bucketShaper b
  else s.i (inst128 O.SubscriberShaper (b - 1024))

/-- RATE of a ShaperConfig, 0 when it is not applied. -/
def shRate (v : Nat) : Nat := if bit v 57 then bits v 16 20 else 0

/-- Depth of a bucket in 10^-3 bytes. -/
def shCap (v : Nat) : Nat := bits v 36 20 * 1024000

/-- Tokens of a bucket: full when it has not been drawn on. -/
def State.bucket (s : State) (b : Nat) : Nat := (tget s.up.tokens b).getD (shCap (s.shaperAt b))

/-- A port's effective rate in bytes per millisecond (R431). -/
def State.effRate (s : State) (p : Nat) : Nat :=
  let r := shRate (s.i (inst O.PortShaper p))
  if r = 0 then s.linkRate p else min (s.linkRate p) (1000 * r)

/-- SHARE of a class. -/
def State.share (s : State) (p c : Nat) : Nat := bits (s.i (inst O.ClassShaper p + c)) 0 8

/-- The subscriber shaper of a queue, if one is configured. -/
def State.subShaper (s : State) (p c sub : Nat) : Option Nat :=
  let want := p + c * 256 + sub * 2 ^ 32
  (s.cd.find? fun e => decide (0x5432 ≤ keyIdx e.1 ∧ keyIdx e.1 ≤ 0x5433) && s.i e.1 == want).map fun e => (keyIdx e.1 - 0x5432) * 128 + keySub e.1 - 1

/-- The buckets on a record's path (R430). -/
def State.path (s : State) (p c sub : Nat) : List Nat :=
  ([p * 8, p * 8 + 1 + c] ++ (match s.subShaper p c sub with | some q => [1024 + q] | none => [])).filter fun b => shRate (s.shaperAt b) != 0

/-- Whether the tokens of every shaper on the path cover a record. -/
def State.eligible (s : State) (p c : Nat) (e : UpEnt) : Bool :=
  (s.path p c e.sub).all fun b => decide (1000 * s.charged p e.rec_ ≤ s.bucket b)

/-- The growth of the buckets over 20 ns (R434). -/
def State.uplinkTick (s : State) : State :=
  let grown := s.up.tokens.filterMap fun t =>
    let v := s.shaperAt t.1
    let n := t.2 + 20 * shRate v
    if shCap v ≤ n then none else some (t.1, n)
  { s with up := { s.up with tokens := grown } }

/-- What R433 refuses: a SHARE of 0, ceilings above 90 %, or above 80 % on a downward port; reserved bits, among them SHARE of a port shaper, and RATE and BURST outside their ranges. -/
def State.shaperBad (s : State) (k v : Nat) : Bool :=
  let cls := decide (0x5400 ≤ keyIdx k ∧ keyIdx k ≤ 0x540F ∧ 3 ≤ keySub k)
  let p := keyIdx k - 0x5400
  let c := keySub k - 3
  let sh := bits v 0 8
  bits v 8 8 != 0 || bits v 58 6 != 0 || decide (1000000 < bits v 16 20) || bits v 36 20 == 0 ||
  (decide (keyIdx k ≤ 0x540F) && keySub k == 1 && sh != 0) || (cls && (sh == 0 || (decide (c < 2) && decide (100 < sh)) ||
    (decide (c < 2) && decide ((if s.portUse p = 1 then 80 else 90) < sh + s.share p (1 - c)))))

/-- The bucket of a ShaperConfig object. -/
def shaperBucket (k : Nat) : Nat :=
  let i := keyIdx k
  if i < 0x5410 then (i - 0x5400) * 8 + (if keySub k = 1 then 0 else keySub k - 2) else 1024 + (i - 0x5430) * 128 + keySub k - 1

/-- Whether an object is a ShaperConfig. -/
def isShaper (k : Nat) : Bool :=
  let i := keyIdx k
  let j := keySub k
  (decide (0x5400 ≤ i ∧ i ≤ 0x540F) && (j == 1 || decide (3 ≤ j ∧ j ≤ 7))) || (decide (0x5430 ≤ i ∧ i ≤ 0x5431 ∧ 1 ≤ j ∧ j ≤ 128))

/-- A write of a ShaperConfig: checked by R433; it sets the bucket full or empty, and recovery counting starts again (R434, R444). -/
def State.shaperOp (k v : Nat) : Op := fun s =>
  if s.shaperBad k v then (s, no stRange)
  else
    let s : State := s.iSet k v
    let b := shaperBucket k
    ({ s with up := { s.up with tokens := if bit v 56 then tset s.up.tokens b 0 else tdel s.up.tokens b, spare := [] } }, ok)

/-- SHAPER_WRITE. -/
def execShaperWrite (q : Req) (k v : Nat) : State → Host.Outcome State Fault Refusal :=
  run (fun s => if isShaper k then s.reqWrite q k v (State.shaperOp k v) else s.answer q k true (no stNoObject) [])

/-! ### The choice of a record (R430) -/

/-- Heads of the subscriber queues of a class that may leave now: of each stream type only what was queued before a latch while such records wait (R390), and only what its shapers cover. -/
def State.heads (s : State) (p c : Nat) : List UpEnt :=
  let q := s.portQ p c
  let firsts := q.foldl (fun (l : List UpEnt) e => if l.any fun x => x.sub == e.sub then l else l ++ [e]) []
  firsts.filter fun e => (q.all fun x => x.stream != e.stream || decide (e.cut ≤ x.cut)) && s.eligible p c e

/-- Deficit of a subscriber queue. -/
def State.subDeficit (s : State) (p c sub : Nat) : Nat :=
  ((s.up.subDef.find? fun d => d.1 == p && d.2.1 == c && d.2.2.1 == sub).map (·.2.2.2)).getD 0

/-- Rounds of a quantum that a deficit needs to cover a cost. -/
def roundsFor (quantum cost deficit : Nat) : Nat := (cost - deficit + quantum - 1) / max 1 quantum

/-- Deficit round robin among a class's subscriber queues with quanta of 4,096 bytes: the record, and the rounds it took. -/
def State.classPick (s : State) (p c : Nat) : Option (UpEnt × Nat) :=
  let l := (s.heads p c).map fun e => (e, roundsFor 4096 (s.charged p e.rec_) (s.subDeficit p c e.sub))
  (l.find? fun x => l.all fun y => decide (x.2 ≤ y.2))

/-- Bytes a strict class has used in the present millisecond. DESIGN CHOICE: the spec gives no window over which the use is measured. -/
def State.strictUsed (s : State) (p c : Nat) : Nat :=
  if tgetD s.up.used (p * 8 + 7) 0 = s.ft .icd / ms 1 then tgetD s.up.used (p * 8 + c) 0 else 0

/-- Whether a strict class's use with one more record stays within its CEILING (R431). -/
def State.underCeiling (s : State) (p c : Nat) (e : UpEnt) : Bool :=
  decide ((s.strictUsed p c + s.charged p e.rec_) * 100 ≤ s.share p c * s.effRate p)

/-- The next record of a port: class, record, rounds of its class's quantum and of its queue's. -/
def State.portPick (s : State) (p : Nat) : Option (Nat × UpEnt × Nat × Nat) :=
  let strict := fun (c : Nat) (inside : Bool) => (s.classPick p c).bind fun x => if !inside || s.underCeiling p c x.1 then some (c, x.1, 0, x.2) else none
  let drr := [2, 3, 4].filterMap fun c => (s.classPick p c).map fun x =>
    (c, x.1, roundsFor (1024 * s.share p c) (s.charged p x.1.rec_) (tgetD s.up.deficit (p * 8 + c) 0), x.2)
  (strict 0 true).or ((strict 1 true).or ((drr.find? fun x => drr.all fun y => decide (x.2.2.1 ≤ y.2.2.1)).or ((strict 0 false).or (strict 1 false))))

/-- Takes a record from its queue: deficits, tokens and use are charged; a class or a queue that empties loses its deficit. -/
def State.portTake (p c : Nat) (e : UpEnt) (rounds subRounds : Nat) (s : State) : State :=
  let cost := s.charged p e.rec_
  let q := removeFirst (fun x => x == e) (s.portQ p c)
  let subs := ((s.portQ p c).map (·.sub)).eraseDups
  let sd := subs.filterMap fun u =>
    let d := s.subDeficit p c u + 4096 * subRounds
    if u = e.sub then (if q.any fun x => x.sub == u then some (p, c, u, d - cost) else none) else some (p, c, u, d)
  let dl := [2, 3, 4].foldl (fun t k =>
    let left := if k = c then q else s.portQ p k
    let d := tgetD s.up.deficit (p * 8 + k) 0 + rounds * (1024 * s.share p k)
    if left.isEmpty then tdel t (p * 8 + k) else tset t (p * 8 + k) (if k = c then d - cost else d)) s.up.deficit
  let ms_ := s.ft .icd / ms 1
  let used := if c < 2 then tset (tset (tset s.up.used (p * 8 + (1 - c)) (s.strictUsed p (1 - c))) (p * 8 + c) (s.strictUsed p c + cost)) (p * 8 + 7) ms_ else s.up.used
  let tok := (s.path p c e.sub).foldl (fun t b => tset t b (s.bucket b - 1000 * cost)) s.up.tokens
  { s with up := { s.up with
      q := tset s.up.q (p * 8 + c) q, subDef := (s.up.subDef.filter fun d => !(d.1 == p && d.2.1 == c)) ++ sd,
      deficit := if 2 ≤ c then dl else s.up.deficit, used := used, tokens := tok,
      sentMs := if s.upPort = some p then s.up.sentMs + cost else s.up.sentMs } }

/-- Whether a record may follow another in one flit (R152). -/
def sameFlit (a b : UpEnt) : Bool := a.stream == b.stream && rPart a.rec_ == rPart b.rec_ && a.link == b.link && a.cut == b.cut

/-- Fills a flit from the record in progress, and from further records of its stream type and partition that the same service allows: units, place of the first record start. -/
def State.flitFill : Nat → Nat → UpEnt → Nat → Nat → State → List Nat × Option Nat × State
  | 0, _, _, _, _, s => ([], none, s)
  | n + 1, p, e, sent, room, s =>
    let us_ := (e.rec_.drop sent).take room
    let start := if sent = 0 then some (15 - room) else none
    if sent + us_.length < e.rec_.length then (us_, start, { s with up := { s.up with prog := tset s.up.prog p (e, sent + us_.length) } })
    else
      let s : State := { s with up := { s.up with prog := tdel s.up.prog p } }
      let c := entClass e.stream e.rec_
      match (if us_.length < room then s.classPick p c else none) with
      | none => (us_, start, s)
      | some (x, r) =>
        let room_ := if c < 2 then s.underCeiling p c x else decide (s.charged p x.rec_ ≤ tgetD s.up.deficit (p * 8 + c) 0)
        if !sameFlit e x || !room_ then (us_, start, s)
        else
          let g := State.flitFill n p x 0 (room - us_.length) (s.portTake p c x 0 r)
          (us_ ++ g.1, (match start with | some a => some a | none => g.2.1), g.2.2)

/-- Whether a port transmits: the crosslink always, the pair links at the lead alone (R21); none after a fatal error. -/
def State.portLit (s : State) (p : Nat) : Bool :=
  !s.pk.dark_ && (s.portUse p == 2 || (s.isLead && (s.portUse p == 1 || s.upPort == some p)))

/-- The cut fields, stream, SEQUENCE and units of a flit of the Icdon IX40 as it leaves on a source port (R150). -/
def outFlit (st src part seq cut : Nat) (marked loss spare lead : Bool) (g : List Nat × Option Nat) : List Nat :=
  mkFlit ⟨st, src, part, seq, cut % 2, marked, cut % 256, loss, spare, false, lead, false, g.2.getD 15, g.1.length⟩ g.1

/-- The stream type that a downstream channel sends next (R160): TIME, then CONTROL, then BULK, which has one flit in five while it waits. -/
def State.downPick (s : State) (k : Nat) : Option Nat :=
  let has := fun st => !(s.downQ k st).isEmpty
  if has stBulk && decide (4 ≤ tgetD s.ln.dbulk k 0) then some stBulk else [stTime, stControl, stBulk].find? has

/-- A flit leaves on a downstream channel; before the first of each superframe of 1,285 flits an alignment codeword with the superframe count (R149). -/
def State.downOut (k st : Nat) (f : List Nat) (s : State) : State :=
  let fr := tgetD s.ln.dframe k (0, 0)
  let s : State := if fr.1 = 0 then s.put .down (k * 16 + 15) [fr.2] else s
  let fr' := if fr.1 + 1 = 1285 then (0, (fr.2 + 1) % 2 ^ 32) else (fr.1 + 1, fr.2)
  { s with ln := { s.ln with dframe := tset s.ln.dframe k fr', dbulk := tset s.ln.dbulk k (if st = stBulk then 0 else tgetD s.ln.dbulk k 0 + 1) } }.put .down (k * 16 + st) f

/-- One flit of a slot's downstream channel (R150, R156, R160): SEQUENCE, LEAD, the cut fields of its records' queuing; IDLE when nothing waits. DESIGN CHOICE (log 108): SOURCE_PORT is the fibre as port and the position as wavelength. -/
def State.downFlit (k : Nat) (s : State) : State :=
  let src := k / 8 * 16 + k % 8
  match s.downPick k with
  | none => s.downOut k 0 (outFlit 0 src 0 0 s.ki.number false false false s.isLead ([], none))
  | some st =>
    let key := k * 16 + st
    match s.downQ k st with
    | [] => s
    | (tag, r) :: _ =>
      let stm := s.takeStamp .icd fnSync
      let s : State := if rType r = 0x23 then stm.2 else s
      let q := if st = stTime then (s.downQ k st).map fun p => (p.1, stampOut stm.1 p.2) else s.downQ k st
      let g := gather (rPart r) tag q (tgetD s.ln.dsent key 0) 15
      let marked := owes s.ln.dmark key tag
      let seq := tgetD s.ln.dseq key 0
      let f := outFlit st src (rPart r) seq tag marked false false s.isLead (g.1, g.2.1)
      { s with ln := { s.ln with
        dq := tset s.ln.dq key g.2.2.1, dsent := tset s.ln.dsent key g.2.2.2, dseq := tset s.ln.dseq key ((seq + 1) % 2 ^ 28),
        dmark := if marked then paid s.ln.dmark key tag else s.ln.dmark } }.downOut k st f

/-- The wavelength on which a record's flit leaves: the one whose flit position begins, when it belongs to the record's link; else the lowest one of the link that carries flits (R180). -/
def State.waveOf (p wave : Nat) (link : Option Nat) (s : State) : Nat :=
  match link with
  | none => wave
  | some d =>
    let ws := s.downWaves p d
    if ws.contains wave then wave else ws.headD wave

/-- Whether a TIME record of a port leaves on a wavelength: its own, or the lowest active one of its link when its own has failed (R180). -/
def State.timeOn (p wave : Nat) (e : UpEnt) (s : State) : Bool :=
  if s.waveLit p e.sub then e.sub == wave else s.waveOf p wave e.link == wave

/-- A flit leaves a fabric port on a wavelength, in its place of the superframe of 1,285 flits (R149). -/
def State.portOut (p wave : Nat) (f : List Nat) (s : State) : State :=
  { s with up := { s.up with frame := tset s.up.frame (p * 16 + wave) ((tgetD s.up.frame (p * 16 + wave) 0 + 1) % 1285) } }.put .port p f

/-- A TIME flit of a port (R155, R430): it goes before every class and is charged to no shaper; T1 or t3 is taken here (R41). -/
def State.timeFlit (p wave : Nat) (e : UpEnt) (s : State) : State :=
  let key := flitKey p e.link stTime
  let seq := tgetD s.up.seq key 0
  let marked := owes s.ki.mark key e.cut
  let stm := s.takeStamp .icd fnSync
  let s : State := if rType e.rec_ = 0x23 then stm.2 else s
  let f := outFlit stTime (p * 16 + wave) 0 seq e.cut marked false (wave == 8) (s.portUse p == 1 && s.isLead) (stampOut stm.1 e.rec_, some 0)
  ({ s with ki := { s.ki with mark := if marked then paid s.ki.mark key e.cut else s.ki.mark },
            up := { s.up with q := tset s.up.q (p * 8 + timeClass) ((s.portQ p timeClass).erase e), seq := tset s.up.seq key ((seq + 1) % 2 ^ 28) } }.portOut p wave f).delayLeaves .icd e.rec_

/-- FLIT_SCHEDULE: TIME first, then the record in progress goes on, else the next record is chosen; one flit leaves on wavelength `wave`, IDLE when no class is eligible (R428, R430). DESIGN CHOICE (log 108): ports 16–79 are the die-facing channels of slots 0–63 at a Tray (R160), for which the spec names no command of their own. -/
def State.flitSchedule (p wave : Nat) (s : State) : State :=
  if 16 ≤ p then (if s.role = 1 ∧ p < 80 ∧ !s.pk.dark_ then s.downFlit (p - 16) else s)
  else if !s.portLit p ∨ !s.waveLit p wave then s
  else
    match (s.portQ p timeClass).find? fun e => s.timeOn p wave e with
    | some e => s.timeFlit p wave e
    | none =>
    let pick : Option (UpEnt × Nat × State) := match tget s.up.prog p with
      | some x => some (x.1, x.2, s)
      | none => (s.portPick p).map fun x => (x.2.1, 0, s.portTake p x.1 x.2.1 x.2.2.1 x.2.2.2)
    match pick with
    | none => s.portOut p wave (mkFlit ⟨0, p * 16 + wave, 0, 0, s.ki.number % 2, false, s.ki.number % 256, false, wave == 8, false, s.portUse p == 1 && s.isLead, false, 15, 0⟩ [])
    | some (e, sent, s) =>
      let g := s.flitFill 15 p e sent 15
      let s : State := g.2.2
      let wave := s.waveOf p wave e.link
      let st := e.stream
      let key := flitKey p e.link st
      let seq := tgetD s.up.seq key 0
      let marked := owes s.ki.mark key e.cut
      let loss := entClass st e.rec_ == 4 && s.up.bulkLoss.contains p
      let f := mkFlit ⟨st, p * 16 + wave, rPart e.rec_, seq, e.cut % 2, marked, e.cut % 256, loss, wave == 8, false, s.portUse p == 1 && s.isLead, false, g.2.1.getD 15, g.1.length⟩ g.1
      let s : State := { s with ki := { s.ki with mark := if marked then paid s.ki.mark key e.cut else s.ki.mark },
                                up := { s.up with seq := tset s.up.seq key ((seq + 1) % 2 ^ 28), bulkLoss := if loss then s.up.bulkLoss.filter (· != p) else s.up.bulkLoss } }
      s.portOut p wave f

/-- FLIT_SCHEDULE. -/
def execFlitSchedule (p wave : Nat) : State → Host.Outcome State Fault Refusal := run (State.flitSchedule p wave)

/-! ### Samples and histograms (R435, R436) -/

/-- Depth bucket. -/
def depthBucket (d : Nat) : Nat := if d = 0 then 0 else if d < 128 then 1 else min 15 (Nat.log2 (d / 64) + 1)
/-- Delay bucket of a queue that holds data. -/
def delayBucket (t : Nat) : Nat := if t < 512 then 1 else min 15 (Nat.log2 t - 7)

/-- Sampled queues: number, port, class, subscriber; 0–79 are port × 5 + class, 100 and above the named subscribers. -/
def State.sampledQueues (s : State) : List (Nat × Nat × Nat × Nat) :=
  (List.range 80).map (fun n => (n, n / 5, n % 5, 0)) ++
  (List.range 64).filterMap fun n =>
    let v := s.i (O.SampledSubscriber + n)
    if bits v 32 32 = 0 then none else some (100 + n, bits v 0 8, bits v 8 8, bits v 32 32)

/-- Records of a sampled queue. -/
def State.sampledQ (s : State) (x : Nat × Nat × Nat × Nat) : List UpEnt :=
  let q := s.portQ x.2.1 x.2.2.1
  if x.1 < 100 then q else q.filter fun e => e.sub == x.2.2.2

/-- Delay of a queue's head in ns. -/
def State.headDelay (s : State) (q : List UpEnt) : Nat := match q with | [] => 0 | e :: _ => (s.ft .icd - e.at_) / 65536

/-- Adds one to a count of a list. -/
def countAt (l : List Nat) (b : Nat) : List Nat := (List.range 16).map fun i => (l.getD i 0 + (if i = b then 1 else 0)) % 2 ^ 32

/-- Sends the lead's saturation decision to the shadow (R437). -/
def State.twinDecision (w : List Nat) (s : State) : State := if s.isLead then s.xMsg 0x437 w else s

/-- Issues a BulkDeferRecord on every downward link and to the shadow (R437). -/
def State.deferIssue (state : Nat) (s : State) : State :=
  let eff := s.ft .icd + us 50
  let (r, s) := s.form .icd 0x57 3 0 0 [(128, 8, state), (192, 32, s.iGid), (256, 128, s.stampAt .icd eff)]
  let s : State := (s.childSend stControl r).twinDecision [state, eff]
  let p := s.upPort.getD 0
  let s : State := s.iSet (inst O.BulkDeferred p) state
  let s : State := { s with up := { s.up with spare := [], ownDefer := if state = 1 then some (eff, s.up.bulkRate) else none } }
  if s.role = 1 then { s with up := { s.up with sched := s.up.sched ++ [(s.iGid, state, eff)] } } else s

/-- A change of the decimation factor, told to the shadow (R437, R439, R441). -/
def State.setFactor (p d : Nat) (s : State) : State :=
  let old := s.i (inst O.DecimationFactor p)
  let s : State := (s.iSet (inst O.DecimationFactor p) d).twinDecision [2, d]
  { s with up := { s.up with decAt := s.ft .icd, decOwed := some (s.up.decOwed.getD old), spare := [] } }

/-- What a sample of the uplink may start at the lead: DEFER when bulk's head delay exceeds DeferDelay; a doubled factor when, under the own deferral, that of series exceeds ForwardInterval (R437, R439). -/
def State.saturation (s : State) : State :=
  match s.upPort with
  | none => s
  | some p =>
    if !s.isLead then s
    else
      let s : State := if s.up.ownDefer.isNone ∧ s.i O.DeferDelay * 1000 < s.headDelay (s.portQ p 4) then s.deferIssue 1 else s
      let inForce := match s.up.ownDefer with | some x => decide (x.1 ≤ s.ft .icd) | none => false
      let d := s.i (inst O.DecimationFactor p)
      if inForce = true ∧ s.i O.ForwardInterval * 1000000 < s.headDelay (s.portQ p 2) ∧ d < 64 ∧ (s.up.decAt = 0 ∨ s.up.decAt + ms (s.i O.DecimateHold) ≤ s.ft .icd) then
        s.setFactor p (2 * d)
      else s

/-- QUEUE_SAMPLE: every 1 µs. -/
def State.queueSample (s : State) : State :=
  let k := s.ft .icd / us 1
  if k ≤ s.up.sampleK then s
  else
    let h := s.sampledQueues.foldl (fun t x =>
      let q := s.sampledQ x
      let d := lsum (q.map fun e => s.charged x.2.1 e.rec_)
      let w := s.headDelay q
      let o := (tget t x.1).getD ([], [], 0, 0)
      tset t x.1 (countAt o.1 (depthBucket d), countAt o.2.1 (if q.isEmpty then 0 else delayBucket w), max o.2.2.1 d, max o.2.2.2 w)) s.up.hist
    { s with up := { s.up with hist := h, sampleK := k } }.saturation

/-- QUEUE_SAMPLE. -/
def execQueueSample : State → Host.Outcome State Fault Refusal := run State.queueSample

/-- QUEUE_HISTOGRAM: at each multiple of HistogramPeriod, a record per sampled queue; then the histograms are cleared. -/
def State.queueHistogram (s : State) : State :=
  let per := ms (max 1 (s.i O.HistogramPeriod))
  let k := s.ft .icd / per
  if k ≤ s.up.histK then s
  else
    let from_ := s.up.histFrom
    let s : State := s.sampledQueues.foldl (fun s x =>
      let h := (tget s.up.hist x.1).getD ([], [], 0, 0)
      let cap := sat (2 ^ 32 - 1)
      let (r, s) := s.form .icd 0x56 11 0 0 ([(128, 128, s.stampAt .icd from_), (256, 8, x.2.1), (264, 8, x.2.2.1), (288, 32, x.2.2.2),
          (320, 32, cap h.2.2.1), (352, 32, cap h.2.2.2)] ++
        (List.range 16).map (fun b => (384 + 32 * b, 32, h.1.getD b 0)) ++ (List.range 16).map fun b => (896 + 32 * b, 32, h.2.1.getD b 0))
      s.occur srcUplink none r) s
    { s with up := { s.up with hist := [], histK := k, histFrom := k * per } }

/-- QUEUE_HISTOGRAM. -/
def execQueueHistogram : State → Host.Outcome State Fault Refusal := run State.queueHistogram

/-! ### Deferral (R437, R438, R441) -/

/-- BULK_DEFER: passed to every downward link; a Tray schedules the change at EFFECTIVE; the shadow takes its lead's decision. -/
def State.bulkDefer (r : Rec) (s : State) : State :=
  let state := recFld r 128 8
  let origin := recFld r 192 32
  let eff := recFld r 256 80
  if s.role = 0 ∨ 1 < state then s
  else if origin = s.tw.twinGid ∧ origin ≠ 0 ∧ !s.isLead then
    let s : State := s.iSet (inst O.BulkDeferred (s.upPort.getD 0)) state
    let s : State := { s with up := { s.up with ownDefer := if state = 1 then some (eff, s.up.bulkRate) else none } }
    if s.role = 1 then { s with up := { s.up with sched := s.up.sched ++ [(origin, state, eff)] } } else s
  else if s.role = 1 then { s with up := { s.up with sched := s.up.sched ++ [(origin, state, eff)] } }
  else s.childSend stControl r

/-- BULK_DEFER. -/
def execBulkDefer (r : Rec) : State → Host.Outcome State Fault Refusal := run (State.bulkDefer r)

/-- BULK_DEFER_EFFECTIVE: from EFFECTIVE a Tray defers for every origin that holds DEFER; with the last RESUME its range is racked, in ascending source GID and the order of arrival within one (R217), for resending. -/
def State.bulkDeferEffective (s : State) : State :=
  let due := s.up.sched.filter fun x => decide (x.2.2 ≤ s.ft .icd)
  let org := due.foldl (fun (l : List (Nat × Nat)) x => if x.2.1 = 1 then (x.1, x.2.2) :: l.filter (fun o => o.1 != x.1) else l.filter fun o => o.1 != x.1) s.up.origins
  let s : State := { s with up := { s.up with sched := s.up.sched.filter fun x => decide (s.ft .icd < x.2.2), origins := org } }
  if !due.isEmpty ∧ org.isEmpty then { s with up := { s.up with resend := s.up.resend ++ sortBy rSrc s.up.range, range := [] } } else s

/-- BULK_DEFER_EFFECTIVE. -/
def execBulkDeferEffective : State → Host.Outcome State Fault Refusal := run State.bulkDeferEffective

/-- The stamp of a partition's record by which R420 places it, where its TYPE has one. -/
def recStamp (r : Rec) : Nat :=
  let ty := rType r
  if ty = 0x30 then recFld r 320 128
  else if ty = 0x82 then recFld r 320 64 * 65536
  else if ty = 0xC1 ∨ ty = 0xC2 then recFld r 384 128
  else if [0x31, 0x33, 0x35, 0x42].contains ty then recFld r 128 128
  else 0

/-- DEFER_RANGE_RESEND: after live bulk, the next record of the range goes upward at DeferResendRate and is freed; one of a partition torn down since, stamped at or after its end, is discarded (R420, R438, R444). -/
def State.deferRangeResend (s : State) : State :=
  match s.up.resend, s.upPort with
  | r :: rest, some p =>
    if !s.up.origins.isEmpty ∨ s.ft .icd < s.up.resendAt ∨ !(s.portQ p 4).isEmpty then s
    else if s.staleRecord (rPart r) (recStamp r) then { s with up := { s.up with resend := rest } }.addOb .icd O.StalePartitionRecords 32 1
    else
      let next := s.ft .icd + 16 * r.length * 65536 * 1000 / max 1 (s.i O.DeferResendRate)
      { s with up := { s.up with resend := rest, resendAt := next } }.upSend stBulk r
  | _, _ => s

/-- DEFER_RANGE_RESEND. -/
def execDeferRangeResend : State → Host.Outcome State Fault Refusal := run State.deferRangeResend

/-- RESUME_WINDOW: each millisecond's spare; over ResumeWindows of them the lead halves the factor, or at factor 1 issues RESUME (R441). -/
def State.resumeWindow (s : State) : State :=
  let k := s.ft .icd / ms 1
  match s.upPort with
  | none => s
  | some p =>
    if k ≤ s.up.windowK then s
    else
      let n := max 1 (s.i O.ResumeWindows)
      let sp := ((s.effRate p - s.up.sentMs) :: s.up.spare).take n
      let s : State := { s with up := { s.up with windowK := k, spare := sp, sentMs := 0, bulkRate := s.up.bulkWindow, bulkWindow := 0 } }
      if !s.isLead ∨ sp.length < n then s
      else
        let d := s.i (inst O.DecimationFactor p)
        if 1 < d then
          if s.up.lastSet * n ≤ lsum sp * (d * s.i O.ForwardInterval) then s.setFactor p (d / 2) else s
        else match s.up.ownDefer with
          | some x => if x.2 * n ≤ lsum sp then s.deferIssue 0 else s
          | none => s

/-- RESUME_WINDOW. -/
def execResumeWindow : State → Host.Outcome State Fault Refusal := run State.resumeWindow

/-- DECIMATION_RECEIVE: every DELTA entry of the dies below the sender starts a new baseline, as Rebaseline lays down (R440). Over the crosslink the shadow takes the lead's factor, and owes its own record at the change (R437). -/
def State.decimationReceive (link : Nat) (r : Rec) (s : State) : State :=
  if link = xLinkNo then
    (match s.upPort with
     | some p => if s.isLead then s else s.setFactor p (recFld r 136 8)
     | none => s)
  else
  let keys := (s.se.ents.map (·.2.key)).filter fun k => spTransform (s.i (serParam (k % 4096))) == 2 && s.dieLink (2 ^ 24 + k / 4096) == some link
  { s with se := { s.se with rebase := keys ++ s.se.rebase } }

/-- DECIMATION_RECEIVE. -/
def execDecimationReceive (link : Nat) (r : Rec) : State → Host.Outcome State Fault Refusal := run (State.decimationReceive link r)

end Sys2Proof.Machine
end

