-- ==== Sys2Proof/Machine/Power.lean ====
section
/-! DEFINITION. Power-up, resets, domains, recovery, firmware update and rouse registers (R69, R73–R76, R198–R201, R452, R524–R540). -/

namespace Sys2Proof.Machine

/-! ### Starts and resets of the Icdon IX40 -/

/-- The objects that survive a cold reset: those held in MRAM (R505, R529), the provisioned ones and the operating counts. -/
def keptAtCold (k : Nat) : Bool :=
  (match objSpec k with | some o => o.pers | none => false) || k == O.OhSeconds || k == O.PowerCycles || k == O.MeasEpoch ||
  k == O.RecorderFirst || k == O.RecorderLast || k == O.TrialState || k == O.SiliconRevision

/-- The measurement of the persisted-object area (R195, R492): SHA-384 of the objects held there, keys ascending. DESIGN CHOICE: the spec gives the area no byte form. -/
def State.persistedDigest (s : State) : Nat :=
  Config.sha384 ((s.cd.filter fun p => match objSpec p.1 with | some o => o.pers | none => false).flatMap fun p => natBytes 4 p.1 ++ natBytes 32 p.2)

/-- The MRAM page of an item of an area that begins at page `base` and holds `size` pages (R195). -/
def mramAt (base size item : Nat) : Nat := base + Config.mramPage item % size

/-- What a failed MRAM page held is lost at a cold reset (R195, R457): persisted objects of the page take their defaults, rows leave the retirement map, the recorder loses entries, the dies their state, the time area FT and hours. Areas: recorder pages 0–3071, persisted objects 3072–3583, per-die state 3584–3839, time and hours 3840–3855. -/
def State.mramLose (bad : List Nat) (s : State) : State :=
  if bad.isEmpty then s
  else
    let ok := fun (base size item : Nat) => !bad.contains (mramAt base size item)
    let time := bad.any fun p => decide (3840 ≤ p ∧ p < 3856)
    { s with
      cd := s.cd.filter fun p => (match objSpec p.1 with | some o => !o.pers | none => true) || ok 3072 512 p.1
      me := { s.me with map := s.me.map.filter fun r => ok 3072 512 (2 ^ 32 + r) }
      ir := { s.ir with log := s.ir.log.filter fun e => ok 0 3072 e.1 }
      si := { s.si with perDie := s.si.perDie.filter fun p => ok 3584 256 (p.1 / 256) }
      tm := { s.tm with ohBase := s.tm.ohBase.filter (fun p => ok 3584 256 p.1), savedFt := if time then none else s.tm.savedFt, savedOh := if time then (0, 0) else s.tm.savedOh } }

/-- A failed MRAM page is reported (R450, R457, R467): a MemoryErrorRecord with MEMORY 4 and KIND 4; one of the recorder area is the privileged source RECORDER_FAULT. DEDUCED (log 124): the spec names no alarm code of its own. -/
def State.mramReport (bad : List Nat) (s : State) : State :=
  (bad.filter fun p => decide (p < 4096)).foldl (fun s p =>
    let s : State := (s.addOb .icd O.UncorrectableCount 64 1).memRecord 0x079 4 4 0 1 0 0xFF 0 p 0
    if p < 3072 then s.priv 9 p else s) (s.iSet O.MapEntries s.me.map.length)

/-- A cold reset clears everything but MRAM: the Icdon IX40's engines and objects return to reset, the Helad is untouched. -/
def State.clearIcdon (s : State) : State :=
  let z := State.reset
  { s with
    cd := s.cd.filter fun p => keptAtCold p.1
    iSeq := z.iSeq
    tm := { s.tm with ic := z.tm.ic, dreq := [], tagAt := [], iActs := [], iHandle := z.tm.iHandle, iDone := [], rootOn := false,
                      pairUp := false, xlinkUp := false, utRef := 0,
                      pulseK := s.tm.pulseK.filter fun p => p.1 < 16, pulseOn := s.tm.pulseOn.filter (· < 16), caps := s.tm.caps.filter fun p => p.1 < 16 }
    ln := { s.ln with rx := [], miswired := [], fecRun := [], lossAt := [], dozeSaid := [], dieGid := [], dozeFrom := [], degraded := [],
                      fecMs := [], overMs := [], errs := [], keepLit := [], retuneAt := [], viaTwin := [], copies := [], copyDue := [],
                      dq := [], dsent := [], dseq := [], dmark := [], dbulk := [], dframe := [], burstAt := [], retrained := [], forward := [], adapted := [] }
    ir := { z.ir with log := s.ir.log, tail := [], recSeq := s.ir.recSeq, ao := s.ir.ao, aoSeq := s.ir.aoSeq }
    up := z.up
    pk := { z.pk with inputLow := s.pk.inputLow }
    gr := { z.gr with t2 := s.gr.t2 }, se := z.se, rd := z.rd, la := z.la, ma := z.ma, sp := z.sp, si := { z.si with hel := s.si.hel, perDie := s.si.perDie }
    ki := { z.ki with hel := s.ki.hel }
    tw := z.tw, me := { z.me with map := s.me.map, taken := s.me.map, banks := s.me.banks }
    sc := { z.sc with secret := s.sc.secret, identity := s.sc.identity, alias_ := s.sc.alias_, dieKey := s.sc.dieKey, persistDig := s.sc.persistDig, slots := s.sc.slots, leaves := s.sc.leaves }
    mo := { z.mo with hvFt := s.mo.hvFt, hvRt := s.mo.hvRt, hvOh := s.mo.hvOh }
    pw := { z.pw with atCold := s.pw.atCold, prevImg := s.pw.prevImg, trialFrom := s.pw.trialFrom, injectors := s.pw.injectors, imgDigest := s.pw.imgDigest, imgs := s.pw.imgs, recs := s.pw.recs, recOk := s.pw.recOk, trialKeep := s.pw.trialKeep } }

/-- The FW_VERSION and digest of image `n` when its signature passes: the image that staging or a recovery wrote to the device, else what the root of trust reports of it (R194). -/
def State.imageOf (pu : PowerUp) (n : Nat) (s : State) : Option (Nat × Nat) :=
  match tget s.pw.imgs n with | some i => some i | none => if n = 0 then pu.imgA else pu.imgB

/-- Serial number and PROV_VERSION of the record copy in device `n`, when it verifies (R194). -/
def State.recordOf (pu : PowerUp) (n : Nat) (s : State) : Option (Nat × Nat) :=
  match tget s.pw.recs n with
  | some r => some r
  | none => if n = 0 then (if pu.provA then some (pu.serial, pu.provVer) else none) else (if pu.provB then some (pu.serialB, pu.provVerB) else none)

/-- The record that the root of trust takes: the copy in the device that ImageSelect names, else the other (R194). -/
def State.provision (pu : PowerUp) (s : State) : Option (Nat × Nat) :=
  (s.recordOf pu (s.i O.ImageSelect)).or (s.recordOf pu (1 - s.i O.ImageSelect))

/-- MEAS_EPOCH advances and a new Alias key is derived (R492, R524). -/
def State.newMeasurement (s : State) : State :=
  { (s.addOb .icd O.MeasEpoch 32 1) with sc := { s.sc with alias_ := s.sc.alias_ + 1 } }

/-- The bootstrap-free path (R526): only the root of trust, the management ports and the PCIe port's mailbox serve. -/
def State.bootstrap (s : State) : State := { s with pw := { s.pw with phase := 1 }, pk := { s.pk with domOn := [92, 94] } }

/-- From the 180 ms row of R524: the image named by ImageSelect, or the other one with IMAGE_FALLBACK, or the bootstrap-free path (R525); then the stacks. A trial does not survive a reset (R533), but a power-up after the input fell away during the switch runs the trial image (R540). -/
def State.loadImage (warm : Bool) (pu : PowerUp) (s : State) : State :=
  let s : State := if s.pw.trialKeep then { s with pw := { s.pw with trialKeep := false, trialFrom := some (s.ft .icd), prevImg := s.imageOf pu (1 - s.i O.ImageSelect % 2) } }
    else if s.i O.TrialState = 1 then
      { ((s.iSet O.ImageSelect (1 - s.i O.ImageSelect % 2)).iSet O.TrialState 0) with pw := { s.pw with trialFrom := none } }
    else s
  let sel := s.i O.ImageSelect
  let go := fun (n : Nat) (img : Nat × Nat) (s : State) =>
    let same := warm && decide (s.pw.imgDigest = img.2)
    let s : State := if same then s else s.newMeasurement
    let s : State := (s.iSet O.ImageSelect n).iSet O.FirmwareVersion img.1
    { s with pw := { s.pw with imgDigest := img.2, phase := 2, warm := warm, initDone := false }
             pk := { s.pk with domOn := (List.range 20).map (4 + ·) ++ [92, 93, 94] } }
  match s.imageOf pu sel, s.imageOf pu (1 - sel) with
  | none, none => s.bootstrap
  | some i, _ =>
    let s : State := go sel i s
    match (if warm then none else pu.badStack) with
    | some k => { s with pw := { s.pw with stackBad := true } }.iAlarm 0x043 4 0x0C00 k
    | none => s
  | none, some i =>
    let s : State := (go (1 - sel) i s).iAlarm 0x048 2 0x0C00 (1 - sel)
    match (if warm then none else pu.badStack) with
    | some k => { s with pw := { s.pw with stackBad := true } }.iAlarm 0x043 4 0x0C00 k
    | none => s

/-- The cold sequence of R524 up to the release of the management cores: identity, provisioning, image, stacks, expanders. -/
def State.coldStart (cause : Nat) (pu : PowerUp) (s : State) : State :=
  let rouse := (List.range 16).filterMap fun n =>
    let v := s.i (inst O.RouseConfig n)
    if bit v 4 then some (n, v, s.i (inst O.RouseTarget n), s.i (inst O.RouseCount n)) else none
  let s : State := (s.mramLose pu.badPages).clearIcdon
  let s : State := { s with pw := { s.pw with rouseOwed := rouse, atCold := dictCanon .icd (s.cd.filter fun p => match objSpec p.1 with | some o => o.pers | none => false) }, sc := { s.sc with first := true, persistDig := s.persistedDigest } }
  let s : State := (s.iSet O.LastResetCause cause).iSet O.DeviceGid (0x02000000 + s.i O.IcdonNumber % 2 ^ 24)
  let s : State := s.iSet O.SiliconRevision (Config.siliconRevision % 2 ^ 16)
  let s : State := s.iSet O.Tier2Present (pu.cxl % 16)
  let s : State := (List.range 4).foldl (fun s p => s.iSet (O.Tier2Capacity + p) (if bit pu.cxl p then min 512 (pu.cxlCap.getD p 0) else 0)) s
  let s : State := (setBitsOf 4 (pu.cxl &&& pu.cxlSlow)).foldl (fun s p => s.iAlarm 0x04A 2 (0x0800 + p) p) s
  let s : State := { s with pw := { s.pw with recOk := (s.provision pu).isSome } }
  match s.provision pu with
  | none => s.bootstrap.mramReport pu.badPages
  | some r => (((s.iSet O.SerialNumber r.1).iSet O.ProvVersion r.2).loadImage false pu).mramReport pu.badPages

/-- POWER_ON: an AO power-up takes OH and PowerCycles from MRAM, as far as its pages hold them, counts PowerCycles and runs the cold sequence (R60, R524). -/
def State.powerOn (pu : PowerUp) (s : State) : State :=
  let s : State := s.mramLose pu.badPages
  let s : State := { s with pk := { s.pk with inputLow := false }, tm := { s.tm with savedOh := (s.tm.savedOh.1, (s.tm.savedOh.2 + 1) % 2 ^ 32) } }
  ((s.iSet O.OhSeconds s.tm.savedOh.1).iSet O.PowerCycles s.tm.savedOh.2).coldStart 0 pu

/-- POWER_ON. -/
def execPowerOn (pu : PowerUp) : State → Host.Outcome State Fault Refusal := run (State.powerOn pu)

/-- Root FT, OH and the recorder tail are persisted (R198 step 3). -/
def State.persistAll (s : State) : State :=
  { s with tm := { s.tm with savedFt := if s.apexLead then some (s.ft .icd, s.i O.FtSegment) else s.tm.savedFt,
                             savedOh := (s.i O.OhSeconds, s.i O.PowerCycles) },
           ir := { s.ir with tail := [] } }

/-- INPUT_LOW: the level source and the alarm, sealing stops, state is persisted, and a departing membership message leaves (R198). -/
def State.inputLow (volt : Nat) (s : State) : State :=
  let s : State := (s.iSet O.InputVoltage volt).privLevel 2 true volt
  let s : State := s.iAlarm 0x045 3 0x0C00 volt
  let s : State := { s with pk := { s.pk with inputLow := true } }
  s.persistAll.departing

/-- INPUT_LOW. -/
def execInputLow (volt : Nat) : State → Host.Outcome State Fault Refusal := run (State.inputLow volt)

/-- INPUT_RESTORED: INPUT_LOW clears, sealing resumes, and heartbeats no longer name the device departing (R198). -/
def State.inputRestored (volt : Nat) (s : State) : State :=
  let s : State := (s.iSet O.InputVoltage volt).privLevel 2 false 0
  { s with pk := { s.pk with inputLow := false }, tw := { s.tw with departing := false } }

/-- INPUT_RESTORED. -/
def execInputRestored (volt : Nat) : State → Host.Outcome State Fault Refusal := run (State.inputRestored volt)

/-- THERMAL_CRITICAL: persist, stop the fabric transmitters, power off every switched domain, which loses their state, and stay in AO, with its clock and OH, until a cold reset (R201, R467). -/
def State.thermalCritical (k : Nat) (s : State) : State :=
  let s : State := (s.privLevel 1 true k).iAlarm 0x047 4 (if k < 16 then 0x0C00 else 0x0100 + (k - 16)) k
  let s : State := s.persistAll.fabricStop
  let clk := s.tm.ic
  let z := s.clearIcdon
  { z with tm := { z.tm with ic := clk }, pk := { z.pk with dark_ := true, domOn := [] }, pw := { z.pw with phase := 4 } }

/-- THERMAL_CRITICAL. -/
def execThermalCritical (sensor : Nat) : State → Host.Outcome State Fault Refusal := run (State.thermalCritical sensor)

/-- INPUT_TURN_OFF: service or the sequence ends; the module is off until the next rise (R525). MRAM keeps its contents, and the trial image that an activation switch was starting runs next (R540). -/
def State.inputTurnOff (s : State) : State :=
  let keep := s.pw.trialKeep || (s.pw.switching && !s.pw.reverting)
  let s : State := s.clearIcdon
  { s with pw := { s.pw with phase := 0, trialKeep := keep } }

/-- INPUT_TURN_OFF. -/
def execInputTurnOff : State → Host.Outcome State Fault Refusal := run State.inputTurnOff

/-- One record that waits at a fabric port leaves in a flit of its own, on the lowest active wavelength of its link (R150). -/
def State.leaveNow (p : Nat) (e : UpEnt) (s : State) : State :=
  let w? := match e.link with | none => (s.activeWaves p (List.range 8)).head? | some d => (s.downWaves p d).head?
  match w? with
  | none => s
  | some w =>
    if !s.portLit p then s
    else
      let key := flitKey p e.link e.stream
      let seq := tgetD s.up.seq key 0
      let marked := owes s.ki.mark key e.cut
      ({ s with ki := { s.ki with mark := if marked then paid s.ki.mark key e.cut else s.ki.mark }
                up := { s.up with seq := tset s.up.seq key ((seq + 1) % 2 ^ 28) } }).portOut p w
        (outFlit e.stream (p * 16 + w) (rPart e.rec_) seq e.cut marked false (w == 8) (s.portUse p == 1 && s.isLead) (e.rec_, some 0))

/-- What a device does before a cold or warm reset that a write requests (R529): its heartbeat with DEPARTING leaves on every link that carries heartbeats, ahead of what waits there, which the reset loses. -/
def State.lastWord (s : State) : State :=
  let r := (s.heartbeat true).1
  let s : State := s.departing
  (List.range 16).foldl (fun s p => ((s.portQ p 1).filter fun e => e.rec_ == r).foldl (fun s e => s.leaveNow p e) s) s

/-- COLD_RESET (R529): a write acts at the twin it names, after a departing heartbeat; a critical-temperature stop ends by cold reset. -/
def State.coldReset (q : Req) (gid : Nat) (crit : Bool) (pu : PowerUp) (s : State) : State :=
  if crit then (if s.pw.phase = 4 then s.coldStart 2 pu else s)
  else s.reqWrite q O.ColdReset gid (fun s =>
    if gid = s.iGid then (s.lastWord.coldStart 1 pu, ok) else (s, ok))

/-- COLD_RESET. -/
def execColdReset (q : Req) (gid : Nat) (crit : Bool) (pu : PowerUp) : State → Host.Outcome State Fault Refusal :=
  run (State.coldReset q gid crit pu)

/-- What a warm reset keeps beyond MRAM (R529): FT, OH, the AO domain, MEAS_EPOCH, trained stacks and expanders, the rouse entries that still owe a record, and the values in force of objects taken at cold reset. One before InitDone leaves the cold start's role and layout still to be taken (R2, R524). -/
def State.warmStart (cause : Nat) (pu : PowerUp) (s : State) : State :=
  let role := s.role
  let clk := s.tm.ic
  let root := s.tm.rootOn
  let use := s.pk.use
  let width := s.pk.width
  let lay := s.pw.layout
  let gid := s.iGid
  let serial := s.i O.SerialNumber
  let prov := s.i O.ProvVersion
  let seg := s.i O.FtSegment
  let st := s.i O.FtState
  let rate := s.i O.RateCorrection
  let t2 := s.i O.Tier2Present
  let caps := (List.range 4).map fun p => s.i (O.Tier2Capacity + p)
  let taken := s.pw.initDone || s.pw.warm
  let stack := s.pw.stackBad
  let owed := s.pw.rouseOwed
  let chain := (s.sc.first, s.sc.prevRoot)
  let s : State := s.clearIcdon
  let s : State := { s with sc := { s.sc with first := chain.1, prevRoot := chain.2 }, tm := { s.tm with ic := clk, rootOn := root }, pk := { s.pk with use := use, width := width }, pw := { s.pw with layout := lay, stackBad := stack, rouseOwed := owed } }
  let s : State := (((((((s.iSet O.LastResetCause cause).iSet O.DeviceGid gid).iSet O.SerialNumber serial).iSet O.ProvVersion prov).iSet O.FtSegment seg).iSet O.FtState st).iSet O.RateCorrection rate).iSet O.Tier2Present t2
  let s : State := caps.zipIdx.foldl (fun s c => s.iSet (O.Tier2Capacity + c.2) c.1) s
  let s : State := (s.iSet O.RoleActive role).loadImage true pu
  if taken then s else { s with pw := { s.pw with warm := false } }

/-- WARM_RESET (R529). -/
def State.warmReset (q : Req) (gid : Nat) (pu : PowerUp) (s : State) : State :=
  s.reqWrite q O.WarmReset gid (fun s => if gid = s.iGid then (s.lastWord.warmStart 3 pu, ok) else (s, ok))

/-- WARM_RESET. -/
def execWarmReset (q : Req) (gid : Nat) (pu : PowerUp) : State → Host.Outcome State Fault Refusal := run (State.warmReset q gid pu)

/-- WATCHDOG_EXPIRY: the privileged source WATCHDOG; all four cores cause a warm reset (R467, R529). -/
def State.watchdogExpiry (cores : Nat) (pu : PowerUp) (s : State) : State :=
  if cores % 16 = 15 then (s.priv 10 cores).warmStart 4 pu
  else if cores % 16 = 0 then s else s.priv 10 cores

/-- WATCHDOG_EXPIRY. -/
def execWatchdogExpiry (cores : Nat) (pu : PowerUp) : State → Host.Outcome State Fault Refusal := run (State.watchdogExpiry cores pu)

/-- The effect of a domain reset on the domain's engine (R530). -/
def State.domainResetDo (d : Nat) (s : State) : State :=
  if 52 ≤ d ∧ d ≤ 67 then s.mashDomainReset (d - 52)
  else if 68 ≤ d ∧ d ≤ 75 then s.steepDomainReset (d - 68)
  else if 76 ≤ d ∧ d ≤ 79 then s.lauterDomainReset (d - 76)
  else if 80 ≤ d ∧ d ≤ 83 then s.finingDomainReset (d - 80)
  else if 24 ≤ d ∧ d ≤ 39 then s.portRetrain (d - 24)
  else if 40 ≤ d ∧ d ≤ 47 then (List.range 8).foldl (fun s k => s.slotLightLost (8 * (d - 40) + k)) s
  else if 88 ≤ d ∧ d ≤ 91 then s.cxlRetrain (d - 88)
  else s.pcieKeysLost.pcieDown

/-- Domains that cannot be reset alone (R530): fabric core, Tier 1, Grist, analysis, management. -/
def domainFixed (d : Nat) : Bool := d < 24 || (48 ≤ d && d ≤ 51) || (84 ≤ d && d ≤ 87) || 93 ≤ d

/-- How long a domain stays in reset: within 32 µs for a Mash region or a Steep group, else a time that the spec leaves open (R530). -/
def State.resetBegin (d : Nat) (s : State) : State :=
  let (f, s) := s.fresh 64
  let n := if 52 ≤ d ∧ d ≤ 75 then f % (us 32 + 1) else f
  { s with pk := { s.pk with domReset := tset s.pk.domReset d (s.ft .icd + n) } }

/-- DOMAIN_RESET (R530): refused with BUSY for fixed domains; at one twin only it reports ENGINE_FAULT and resyncs. -/
def State.domainResetOp (v : Nat) : Op := fun s =>
  let gid := bits v 0 32
  let d := bits v 32 7
  if d ≥ 96 then (s, no stRange)
  else if domainFixed d then (s, no stBusy)
  else if gid = 0 then ((s.resetBegin d).domainResetDo d, ok)
  else if gid = s.iGid then
    let s : State := (s.resetBegin d).domainResetDo d
    ({ s.localMark 2 with tw := { (s.localMark 2).tw with resync := true } }, ok)
  else (s, ok)

/-- DOMAIN_RESET. -/
def execDomainReset (q : Req) (v : Nat) : State → Host.Outcome State Fault Refusal :=
  run (State.keepMaster (State.reqWrite q O.DomainReset v (State.domainResetOp v)))

/-- Domains marked "on demand" in R200: Mash, Steep, Lauter, fining. -/
def onDemand (d : Nat) : Bool := 52 ≤ d && d ≤ 83

/-- Whether an on-demand domain has work at hand: a region or group that loads or holds a record, a cluster that walks a batch, a fining instance with jobs. -/
def State.domainBusy (d : Nat) (s : State) : Bool :=
  if d < 68 then (s.feed (d - 52)).phase == 2 || (s.feed (d - 52)).shown.isSome
  else if d < 76 then (s.feed (16 + (d - 68))).phase == 2 || (List.range 4).any fun k => match tget s.sp.cores ((d - 68) * 4 + k) with
    | some c => c.held.isSome || !c.ring.isEmpty
    | none => false
  else if d < 80 then (tget s.la.running (d - 76)).isSome
  else !(tgetD s.gr.jobs (d - 80) []).isEmpty

/-- DOMAIN_IDLE_OFF: an on-demand domain is powered off after 1 ms without work (R200). -/
def State.domainIdleOff (d : Nat) (s : State) : State :=
  if onDemand d ∧ s.pk.domOn.contains d ∧ !s.domainBusy d ∧ tgetD s.pk.domWork d 0 + ms 1 ≤ s.ft .icd then
    { s with pk := { s.pk with domOn := s.pk.domOn.filter (· != d) } }
  else s

/-- DOMAIN_IDLE_OFF. -/
def execDomainIdleOff (d : Nat) : State → Host.Outcome State Fault Refusal := run (State.domainIdleOff d)

/-- The default plan of a role (R20): downward ports first, then the crosslink, then the uplink. -/
def defaultPlan (role : Nat) : Tbl Nat :=
  if role = 1 then [(0, 2), (1, 3)]
  else if role = 2 then [(0, 1), (1, 1), (2, 1), (3, 1), (4, 1), (5, 1), (6, 1), (7, 1), (8, 2), (9, 3)]
  else if role = 3 then [(0, 1), (1, 1), (2, 1), (3, 1), (4, 1), (5, 1), (6, 1), (7, 1), (8, 2)]
  else []

/-- Default link width of a role (R20). -/
def defaultWidth (role : Nat) : Nat := if role = 2 ∨ role = 1 then 2 else 1

/-- Whether a plan has one of the faults of R181; a Row reaches at most 32 children, an Apex 64 (R2). -/
def planBad (role width : Nat) (plan : Tbl Nat) : Bool :=
  let n := fun u => (plan.filter fun p => p.2 == u).length
  let reach := n 1 * (8 / max 1 width)
  n 2 != 1 || ((role == 1 || role == 2) && n 3 != 1) || (role == 3 && n 3 != 0) ||
  (role == 2 && decide (reach < 32)) || (role == 3 && decide (reach < 64)) || (n 4 != 0 && n 3 == 0)

/-- The plan that PortUse gives: a port that has not been written has its role's default use (R20, R202). -/
def State.writtenPlan (s : State) : Tbl Nat :=
  (List.range 16).filterMap fun p =>
    let v := s.coldVal (O.PortUse + p)
    let u := if v = 0xFF then tgetD (defaultPlan s.role) p 0 else v
    if u = 0 then none else some (p, u)

/-- The link width that LinkWidth gives, or the role's default. -/
def State.writtenWidth (s : State) : Nat := if s.coldVal O.LinkWidth = 0 then defaultWidth s.role else s.coldVal O.LinkWidth

/-- The port plan taken at cold reset: the written one, or on a fault the role's default (R181). -/
def State.takePlan (s : State) : State :=
  let role := s.role
  let written := (List.range 17).any fun p => (tget s.pw.atCold (O.PortUse + p)).isSome
  if !written || !planBad role s.writtenWidth s.writtenPlan then
    { (s.iSet O.PlanStatus 0) with pk := { s.pk with use := s.writtenPlan, width := s.writtenWidth } }
  else
    let s : State := { s with pk := { s.pk with use := defaultPlan role, width := defaultWidth role } }
    (s.iSet O.PlanStatus 1).iAlarm 0x042 2 0x0C00 0

/-- The memory layout taken at cold reset (R22): fixed regions take 31 GiB. -/
def State.takeLayout (s : State) : State :=
  let r := s.coldVal O.RingSize
  let p := s.coldVal O.PostReserveSize
  let f := s.coldVal O.FeatureStagingSize
  if r + p + f + 31 + 16 ≤ 960 then { s with pw := { s.pw with layout := (r, p, f) } }
  else { s with pw := { s.pw with layout := (768, 64, 16) } }.iAlarm 0x041 2 0x0C00 0

/-- The switched domains powered for the role (R200). -/
def State.powerDomains (s : State) : State :=
  let ports := ((List.range 16).filter fun p => s.portUse p != 0).map (24 + ·)
  let die := if s.role = 1 then (List.range 8).map (40 + ·) else []
  let cxl := ((List.range 4).filter fun p => bit (s.i O.Tier2Present) p).map (88 + ·)
  let l := List.range 24 ++ ports ++ die ++ [48, 49, 50, 51, 84, 85, 86, 87] ++ cxl ++ [92, 93, 94] ++
    (if s.i O.BenchEnable = 1 then [95] else [])
  { s with pk := { s.pk with domOn := l } }

/-- Memory is usable and the role is taken (R452, R524, R2): RoleActive, the layout of R22, the port plan, domains; role 0 and failed stacks stop at the management ports. -/
def State.initDoneOp : Op := fun s =>
  if s.pw.initDone ∨ s.pw.phase ≠ 2 then (s, no stBusy)
  else
    let s : State := { s with pw := { s.pw with initDone := true }, me := { s.me with patrol := 0, patrolAt := s.ft .icd } }
    if s.pw.stackBad then ({ s with pw := { s.pw with phase := 5 } }, ok)
    else
      let s : State := if s.pw.warm then s else (s.iSet O.RoleActive (s.coldVal O.IcdonRole))
      let s : State := if s.pw.warm then s else s.takeLayout
      if s.role = 0 then ({ s with pw := { s.pw with phase := 5 } }, ok)
      else
        let s : State := if s.pw.warm then s else s.takePlan
        let s : State := s.powerDomains.hostTrain
        let owed := s.pw.rouseOwed
        let s : State := { s with pw := { s.pw with phase := 3, rouseOwed := [] } }
        let s : State := s.slotAssignAll
        (owed.foldl (fun s e => s.rouseRecord e.1 3 e.2.1 e.2.2.1 e.2.2.2 0) s, ok)

/-- INIT_DONE. -/
def execInitDone (q : Req) (v : Nat) : State → Host.Outcome State Fault Refusal :=
  run (State.reqWrite q O.InitDone v (fun s => if v ≠ 1 then (s, no stRange) else s.initDoneOp))

/-! ### Recovery (R526, R527) -/

/-- RECOVERY_DATA: 128 bytes at RecoveryOffset, which advances by 128; the answer leaves on the management port of the request (R193), and is ACCESS_DENIED outside the bootstrap-free path (R526). -/
def State.recoveryData (port : Nat) (data : List Nat) (s : State) : State :=
  if s.pw.phase ≠ 1 then s.put .eth port [stDenied]
  else
    let o := s.i O.RecoveryOffset
    let s : State := { s with pw := { s.pw with recov := tset s.pw.recov o (data.take 128) } }
    (s.iSet O.RecoveryOffset ((o + 128) % 2 ^ 32)).put .eth port [stOk]

/-- RECOVERY_DATA. -/
def execRecoveryData (data : RecoveryChunk) : State → Host.Outcome State Fault Refusal := run (State.recoveryData data.port data.data)

/-- The bytes received for recovery, by ascending offset (R527). -/
def State.recovBytes (s : State) : List Nat := s.pw.recov.flatMap (·.2)

/-- What an accepted commit writes to flash (R527): a provisioning record to both devices, a firmware image to the device that ImageSelect does not name, which it names from then on. The spec gives the record no layout: its serial number and PROV_VERSION are free values. -/
def State.recoveryWrite (kind : Nat) (s : State) : State :=
  if kind = 1 then
    let (a, s) := s.fresh 64
    let (b, s) := s.fresh 32
    { s with pw := { s.pw with recs := [(0, a, b), (1, a, b)] } }
  else
    let n := 1 - s.i O.ImageSelect % 2
    { s with pw := { s.pw with imgs := tset s.pw.imgs n (bits (bytesNat (s.recovBytes.take 8)) 32 32, Config.sha384 s.recovBytes) } }.iSet O.ImageSelect n

/-- RECOVERY_COMMIT: 1 a provisioning record, 2 a firmware image; an accepted commit is followed by a cold reset, a refused one leaves the cause in RecoveryStatus; the answer leaves on the port of the request (R193, R527). -/
def State.recoveryCommit (port kind : Nat) (sigOk flashOk : Bool) (pu : PowerUp) (s : State) : State :=
  if s.pw.phase ≠ 1 then s.put .eth port [stDenied]
  else if kind ≠ 1 ∧ kind ≠ 2 then s.put .eth port [stRange]
  else if !sigOk then (s.iSet O.RecoveryStatus 2).put .eth port [stOk]
  else if !flashOk then (s.iSet O.RecoveryStatus 3).put .eth port [stOk]
  else
    let s : State := (s.iSet O.RecoveryStatus 1).put .eth port [stOk]
    ((s.recoveryWrite kind).coldStart 5 pu).iSet O.RecoveryStatus 1

/-- RECOVERY_COMMIT. -/
def execRecoveryCommit (kind : RecoveryEnd) (sigOk flashOk : Bool) (pu : PowerUp) : State → Host.Outcome State Fault Refusal :=
  run (State.recoveryCommit kind.port kind.kind sigOk flashOk pu)

/-! ### The Helad's resets, clock and domains (R69, R73–R76) -/

/-- The Helad's part of the state as HAO_RST_N leaves it: everything lost, FT FREE at 0, fence and halt requests 0 (R76). -/
def State.clearHelad (s : State) : State :=
  let z := State.reset
  { s with
    hd := []
    hSeq := []
    mo := { s.mo with hvFt := 0, hvRt := 0, hvOh := 0 }
    tm := { s.tm with hc := z.tm.hc, hStep := z.tm.hStep, hActs := [], hHandle := z.tm.hHandle, hDone := [], rt := z.tm.rt, guardHold := false,
                      pulseK := s.tm.pulseK.filter fun p => 16 ≤ p.1, pulseOn := s.tm.pulseOn.filter (16 ≤ ·), caps := s.tm.caps.filter fun p => 16 ≤ p.1 }
    pins := []
    bd := { z.bd with grpActive := s.bd.grpActive, fAck := s.bd.fAck, hAck := s.bd.hAck, radio := s.bd.radio }
    ct := { z.ct with power := s.ct.power, powerK := s.ct.powerK, copySets := s.ct.copySets }
    tr := { z.tr with bench := s.tr.bench, gapRecs := s.tr.gapRecs, gapBytes := s.tr.gapBytes }
    ln := { s.ln with q := [], sent := [], seq := [], mark := [], loss := 0, resume := 0, deficit := [], window := [], replay := [], alarmLost := 0,
                      again := [], frame := 0, chLead := [], chUp := [], acted := [], ctlSeen := [], other := [], timeHold := none, coded := 0, retune := none, trainDone := [], litAt := 0, lastLit := 0, oeFault := false }
    ir := { s.ir with ao := [], aoSeq := 0 }
    gr := { s.gr with hHist := [] }
    si := { s.si with hel := z.si.hel }
    ki := { s.ki with hel := z.ki.hel }
    pw := { s.pw with injectors := [], jitter := [] } }

/-- HAO_RESET. -/
def State.haoReset (s : State) : State :=
  let s : State := s.clearHelad
  { s with bd := { s.bd with haoReset := true, hmainReset := true } }

/-- HAO_RESET: HAO_RST_N asserts (R76). -/
def execHaoReset : State → Host.Outcome State Fault Refusal := run State.haoReset

/-- HAO_RESET_RELEASE: the AO domain starts (R528); an HMAIN_RST_N released earlier is taken as released now. -/
def State.haoResetRelease (s : State) : State :=
  if s.bd.haoReset then
    { (s.addOb .hel O.PowerCycles 32 1) with bd := { s.bd with haoReset := false, hmainReset := s.bd.hmainReset && !s.bd.hmainEarly, hmainEarly := false } }
  else s

/-- HAO_RESET_RELEASE. -/
def execHaoResetRelease : State → Host.Outcome State Fault Refusal := run State.haoResetRelease

/-- HMAIN_RESET (R76, R547): the non-AO domains lose their state; open command records close with RESET, trace sources receive a loss packet, pitch requests end as PITCH_RESET; AO objects, fences, the AO ring, pending actions and FT stay; the snapshot buffer and the fining history are lost. During a retune SpareActive becomes the wavelength that the engine is tuned to (R176). The read tags, outstanding and retired, are forgotten (DESIGN CHOICE, log 113). -/
def State.hmainReset (s : State) : State :=
  let s : State := { s with ln := { s.ln with q := (s.ln.q.filter fun p => p.1 == stEvent).map fun p => (p.1, p.2.filter fun e => rType e.2 != 0xD1) }, gr := { s.gr with hHist := [] } }
  let s : State := s.countersReset
  let s : State := s.traceReset
  let s : State := s.pitchReset
  let s : State := s.kilnHeladReset
  let s : State := match s.ln.retune with
    | some (target, _, t) => if t = 0 then s else s.hSet O.SpareActive (b2n (target == 0))
    | none => s
  let s : State := { s with
    bd := { s.bd with hmainReset := true, dom := [], wakeAt := [], busyAt := [], reads := [], retired := [], syncLeft := 0 }
    ln := { s.ln with seq := [], sent := [], coded := 0, replay := [], again := [], frame := 0, deficit := [], window := [], mark := [], loss := 0, resume := 0,
                      retune := none, chLead := [], chUp := [], acted := [], ctlSeen := [], other := [] }
    pw := { s.pw with injectors := [] } }
  let s : State := (s.hSet O.RetransmitLost 0).hSet O.AlarmOverflow 0
  s.hSet O.LaneState 0

/-- HMAIN_RESET. -/
def execHmainReset : State → Host.Outcome State Fault Refusal := run State.hmainReset

/-- HMAIN_RESET_RELEASE: the domains start asleep (R76); before HAO_RST_N it waits for that release (R528). -/
def State.hmainResetRelease (s : State) : State :=
  if s.bd.haoReset then { s with bd := { s.bd with hmainEarly := true } }
  else { s with bd := { s.bd with hmainReset := false, dom := [] } }

/-- HMAIN_RESET_RELEASE. -/
def execHmainResetRelease : State → Host.Outcome State Fault Refusal := run State.hmainResetRelease

/-- AO_CLK_ABSENT: FREE from the last FT value (R69). -/
def State.aoClkAbsent (s : State) : State :=
  let s : State := { s with bd := { s.bd with clkLost := true } }
  if s.h O.FtState = 0 then s else s.ftChange .hel 0 0 0 false

/-- AO_CLK_ABSENT. -/
def execAoClkAbsent : State → Host.Outcome State Fault Refusal := run State.aoClkAbsent

/-- AO_CLK_RETURN: CLOCK_LOST with the absence in µs, saturating (R69, R546). -/
def State.aoClkReturn (us_ : Nat) (s : State) : State :=
  if s.bd.haoReset then { s with bd := { s.bd with clkLost := false } }
  else if s.bd.clkLost then { s with bd := { s.bd with clkLost := false } }.hAlarm 0x002 2 (sat (2 ^ 64 - 1) us_) else s

/-- AO_CLK_RETURN. -/
def execAoClkReturn (absentUs : Nat) : State → Host.Outcome State Fault Refusal := run (State.aoClkReturn absentUs)

/-- DOMAIN_WAKE_REQUEST: latched in AO (R74); not while HMAIN_RST_N is asserted. -/
def State.domainWakeRequest (d groups : Nat) (s : State) : State :=
  let s : State := { s with bd := { s.bd with grpActive := groups } }
  if s.bd.hmainReset || (d == 2 && (groups &&& s.wiredGroups) == 0 && s.ct.cbFill == 0 && groups != 0) then s else s.wake d

/-- DOMAIN_WAKE_REQUEST. -/
def execDomainWakeRequest (d groups : Nat) : State → Host.Outcome State Fault Refusal := run (State.domainWakeRequest d groups)

/-- DOMAIN_READY: the waking domain is ready (R74); TIME loads FT from AO plus the measured phase of HCLK against the last AO tick, which is below 20 ns and otherwise free (R51); LANE sends what waited; COUNT takes deferred pitch runs. -/
def State.domainReady (d : Nat) (s : State) : State :=
  if s.domState d ≠ 1 ∨ d = 0 ∨ s.heladReset then s
  else
    let s : State := { s with bd := { s.bd with dom := tset s.bd.dom d 2, busyAt := tset s.bd.busyAt d (s.ft .hel) } }
    let s : State := if d = 1 then
        let (p, s) := s.fresh 32
        { s with tm := { s.tm with hc := { s.tm.hc with ft := s.tm.hc.ft + p % ns 20 } } }
      else s
    if d = 4 then s.laneAwake
    else if d = 2 then { s with ct := { s.ct with lastAt := max s.ct.lastAt (s.ft .hel) } }.pitchRetest
    else s

/-- DOMAIN_READY. -/
def execDomainReady (d : Nat) : State → Host.Outcome State Fault Refusal := run (State.domainReady d)

/-- Whether a wake input or work holds a Helad domain awake (R50, R75, R141). -/
def State.domainHeld (d : Nat) (s : State) : Bool :=
  if d = 1 then s.bd.syncLeft != 0
  else if d = 2 then (s.bd.grpActive &&& s.wiredGroups) != 0 || s.ct.cbFill != 0 || !s.si.hel.requests.isEmpty || s.ct.fifo.any fun p => p.2 != 0
  else if d = 3 then s.bd.hReq != 0 || s.kilnShifting || bit (s.h O.SeqControl) 0 || s.tr.fifo.any (fun p => p.2 != 0) || !s.tr.closed.isEmpty || !(s.laneQ stTrace).isEmpty
  else if d = 4 then s.domainHeld4
  else !s.bd.reads.isEmpty || !s.si.hel.jobs.isEmpty

/-- The ten idle microseconds of R75 count from the last instant at which a domain was held. -/
def State.tickBusy (s : State) : State :=
  [1, 2, 3, 4, 5].foldl (fun s d =>
    if s.awake d && s.domainHeld d then { s with bd := { s.bd with busyAt := tset s.bd.busyAt d (s.ft .hel) } } else s) s

/-- Sources with an open block. -/
def State.openBlocks (s : State) : List Nat := (s.tr.srcs.filter fun p => p.2.block.isSome).map (·.1)

/-- DOMAIN_SLEEP: idle for 10 µs with no wake input active (R75). TRACE that is about to sleep first closes its open blocks, which have to leave on the lane (R125, R141). LANE announces DOZE after its last flit and squelches (R168); TIME hands FT to AO (R49). -/
def State.domainSleep (d groups : Nat) (s : State) : State :=
  let s : State := { s with bd := { s.bd with grpActive := groups } }
  if !s.awake d || d == 0 || s.domainHeld d || decide (s.ft .hel < tgetD s.bd.busyAt d 0 + us 10) then s
  else if d = 3 ∧ !s.openBlocks.isEmpty then s.openBlocks.foldl (fun s k => s.closeBlock k) s
  else
    let s : State := { s with bd := { s.bd with dom := tset s.bd.dom d 0 } }
    if d = 4 then s.laneDoze
    else if d = 2 then { s with ct := { s.ct with slept := some (s.ft .hel / 65536) } }
    else s

/-- DOMAIN_SLEEP. -/
def execDomainSleep (d groups : Nat) : State → Host.Outcome State Fault Refusal := run (State.domainSleep d groups)

/-! ### Firmware update (R531–R533) -/

/-- The bytes of the image to be staged: StageLength bytes at StageSource, in the management heap when bit 63 is set, else in PF host memory, whose bytes the command brings (R531). -/
def State.stageBytes (host : List Nat) (s : State) : List Nat :=
  let src := s.i O.StageSource
  if bit src 63 then s.t1Read (src % 2 ^ 63) (s.i O.StageLength) else host.take (s.i O.StageLength)

/-- Whether a firmware image may be staged: KIND 0, its bytes there and of the digest that the manifest holds, and a signature of an entry that permits firmware (R489, R490, R549). -/
def State.firmwareOk (image : List Nat) (sigOk : Bool) (s : State) : Bool :=
  let m := bytesNat (image.take 128)
  let body := (image.drop 384).take (bits m 64 64)
  s.signed 0 sigOk (sigBlock image) && bits m 0 8 == 0 && decide (bits m 64 64 ≤ 16776832) && body.length == bits m 64 64 && Config.blake3 body % 2 ^ 128 == bits m 128 128

/-- STAGE_START: the image that StageSource and StageLength name is read and its signature checked; an address outside the management heap is not read (R23, R531). -/
def State.stageStartOp (host : List Nat) (sigOk : Bool) : Op := fun s =>
  let src := s.i O.StageSource
  let heap := bit src 63 && !s.inRegion [12] (src % 2 ^ 63) (s.i O.StageLength)
  if s.pw.staging.isSome then (s, no stBusy)
  else if s.i O.StageLength < 4096 then (s, no stRange)
  else
    let im := s.stageBytes host
    let stage := (!heap && s.firmwareOk im sigOk, bits (bytesNat (im.take 8)) 32 32, Config.sha384 im)
    let s : State := { (s.iSet O.StageStatus 1) with pw := { s.pw with staging := some stage, staged := none } }
    (if heap then s.accessEvent 0x0B0 0x0C00 (src % 2 ^ 63) else if bit src 63 then s.t1ReadErrors 0x0C00 (src % 2 ^ 63) (s.i O.StageLength) else s, ok)

/-- STAGE_START. -/
def execStageStart (q : Req) (v : Nat) (image : List Nat) (sigOk : Bool) : State → Host.Outcome State Fault Refusal :=
  run (State.reqWrite q O.StageStart v (State.stageStartOp image sigOk))

/-- STAGE_COMPLETE: STAGED, BAD_SIGNATURE or FLASH_ERROR; on success the image stands in the device that ImageSelect does not name and STAGING is 1 in the attestation flags (R531). -/
def State.stageComplete (flashOk : Bool) (s : State) : State :=
  match s.pw.staging with
  | none => s
  | some (sg, v, d) =>
    let s : State := { s with pw := { s.pw with staging := none } }
    if !sg then s.iSet O.StageStatus 4
    else if !flashOk then s.iSet O.StageStatus 5
    else { (s.iSet O.StageStatus 3) with pw := { s.pw with staged := some (v, d), staging := none, imgs := tset s.pw.imgs (1 - s.i O.ImageSelect % 2) (v, d) } }

/-- STAGE_COMPLETE. -/
def execStageComplete (flashOk : Bool) : State → Host.Outcome State Fault Refusal := run (State.stageComplete flashOk)

/-- ACTIVATE: accepted when the image is STAGED and both twins serve with a shadow (R532); the switch starts at the first epoch boundary at least 1 ms ahead, a lead handing over first. -/
def State.activateOp (gid : Nat) : Op := fun s =>
  if gid ≠ s.iGid then (s, ok)
  else
    let t := s.i O.TwinState
    let o := s.tw.twinState
    let fine := (t == 2 && o == 3) || (t == 3 && (o == 2 || o == 6)) || (t == 6 && o == 3)
    if s.i O.StageStatus ≠ 3 ∨ !fine ∨ s.pw.switching ∨ s.pw.switchAt.isSome then (s, no stBusy)
    else
      let b := s.boundaryAfter (s.ft .icd + ms 1)
      let s : State := { s with pw := { s.pw with switchAt := some b } }
      (if t = 3 then s else s.planHandover, ok)

/-- ACTIVATE. -/
def execActivate (q : Req) (gid : Nat) : State → Host.Outcome State Fault Refusal :=
  run (State.reqWrite q O.FwActivate gid (State.activateOp gid))

/-- ACTIVATION_SWITCH: SYNCING, the privileged source ACTIVATION, the cores restart from the staged image, on trial, and ImageSelect names it; a reversion restarts the previous one (R532, R533). A lead waits until it has handed over (R540; DEDUCED, log 151). -/
def State.activationSwitch (s : State) : State :=
  match s.pw.switchAt with
  | none => s
  | some b =>
    if s.ft .icd < b ∨ s.isLead then s
    else
      let s : State := (s.setTwinState 4).priv 12 0
      let s : State := (s.iSet O.ImageSelect (1 - s.i O.ImageSelect % 2)).iSet O.TrialState (b2n (!s.pw.reverting))
      { s with pw := { s.pw with switchAt := none, switching := true } }

/-- ACTIVATION_SWITCH. -/
def execActivationSwitch : State → Host.Outcome State Fault Refusal := run (State.keepMaster State.activationSwitch)

/-- ACTIVATION_DONE: a new MEAS_EPOCH and Alias key, the image of the device that ImageSelect names is in force and its trial begins (or the reversion ends), and the device resyncs (R532, R533, R414). An image that a stage has replaced meanwhile stays staged. One whose twin has failed meanwhile takes the lead, with TWIN_LOST (R540). -/
def State.activationDone (s : State) : State :=
  if !s.pw.switching then s
  else
    let s : State := s.newMeasurement
    let prev := (s.i O.FirmwareVersion, s.pw.imgDigest)
    let s : State := if s.pw.reverting then
        let p := s.pw.prevImg.getD (0, 0)
        { ((s.iSet O.FirmwareVersion p.1).iSet O.TrialState 0) with pw := { s.pw with imgDigest := p.2, reverting := false, trialFrom := none, prevImg := none } }
      else
        let n := (tget s.pw.imgs (s.i O.ImageSelect)).getD (s.pw.staged.getD (0, 0))
        let done := s.pw.staged == some n
        let s : State := if done && s.pw.staging.isNone then s.iSet O.StageStatus 0 else s
        { ((s.iSet O.FirmwareVersion n.1).iSet O.TrialState 1) with
          pw := { s.pw with imgDigest := n.2, trialFrom := some (s.ft .icd), prevImg := some prev, staged := if done then none else s.pw.staged } }
    let p := s.fresh 128
    let s : State := ({ p.2 with pw := { p.2.pw with switching := false }, tw := { p.2.tw with resync := true }, sc := { p.2.sc with sess := [] } } : State).auditAppend [p.1]
    if s.tw.silent.contains xLinkNo ∧ s.i O.TwinState = 4 then ({ s with tw := { s.tw with resync := false } } : State).takeLead 6 |>.iAlarm 0x060 3 0x0C00 s.tw.twinGid else s

/-- ACTIVATION_DONE. -/
def execActivationDone : State → Host.Outcome State Fault Refusal := run State.activationDone

/-- IMAGE_CONFIRM: ends the trial (R533). -/
def State.imageConfirmOp (gid : Nat) : Op := fun s =>
  if gid ≠ s.iGid then (s, ok)
  else ({ (s.iSet O.TrialState 0) with pw := { s.pw with trialFrom := none, prevImg := none } }, ok)

/-- IMAGE_CONFIRM. -/
def execImageConfirm (q : Req) (gid : Nat) : State → Host.Outcome State Fault Refusal :=
  run (State.reqWrite q O.ImageConfirm gid (State.imageConfirmOp gid))

/-- CONFIRM_TIMEOUT: unconfirmed for ConfirmTimeout, the device switches back by the same steps and raises IMAGE_REVERTED; a lead hands over first (R533, R540). -/
def State.confirmTimeout (s : State) : State :=
  match s.pw.trialFrom with
  | none => s
  | some t =>
    if s.ft .icd < t + s.i O.ConfirmTimeout * ns 1000000000 then s
    else
      let s : State := s.iAlarm 0x049 2 0x0C00 0
      let s : State := { s with pw := { s.pw with trialFrom := none, reverting := true, switchAt := some (s.boundaryAfter (s.ft .icd + ms 1)) } }
      if s.isLead then s.planHandover else s

/-- CONFIRM_TIMEOUT. -/
def execConfirmTimeout : State → Host.Outcome State Fault Refusal := run State.confirmTimeout

/-! ### Rouse registers (R535–R538) -/

/-- ROUSE_ARM: a RouseConfig write. Setting ENABLE needs the maintainer, a partition in TEST and a member die of it that belongs to no ACTIVE partition (R537); each arming and disarming writes a RouseRecord (R538). -/
def State.rouseArmOp (n v cred : Nat) : Op := fun s =>
  let k := inst O.RouseConfig n
  let old := s.i k
  let tgt := s.i (inst O.RouseTarget n)
  let part := bits v 16 16
  if bits v 5 3 ≠ 0 ∨ bits v 12 4 ≠ 0 ∨ bits v 49 15 ≠ 0 ∨ bits v 0 4 > 5 ∨ bits v 44 5 > 16 then (s, no stRange)
  else if bit v 4 then
    if !(s.partState part == partTest) || !s.partMember part (s.rouseDie n) || s.dieInActive (s.rouseDie n) then (s, no stRange)
    else
      let s : State := ((s.iSet k v).iSet (inst O.RouseCount n) 0)
      let s : State := { s with pw := { s.pw with rouseCred := tset s.pw.rouseCred n cred, rouseSeen := tset s.pw.rouseSeen n 0 } }
      let s : State := { s with pw := { s.pw with injectors := tdel s.pw.injectors n } }
      let s : State := if s.role = 1 ∧ (bits v 0 4 = 1 ∨ bits v 0 4 = 3 ∨ (bits v 0 4 = 4 ∧ 64 ≤ tgt)) ∧ s.pw.injectors.length < 4 then
          { s with pw := { s.pw with injectors := tset s.pw.injectors n v } }
        else s
      (s.rouseRecord n 0 v tgt 0 cred, ok)
  else
    let s : State := { (s.iSet k v) with pw := { s.pw with injectors := tdel s.pw.injectors n } }
    (if bit old 4 then s.rouseRecord n 1 v tgt (s.i (inst O.RouseCount n)) cred else s, ok)

/-- ROUSE_ARM. -/
def execRouseArm (q : Req) (n v cred : Nat) : State → Host.Outcome State Fault Refusal :=
  run (State.reqWrite q (inst O.RouseConfig n) v (State.rouseArmOp n v cred))

end Sys2Proof.Machine
end

