-- ==== Sys2Proof/Machine/Write.lean ====
section
/-! DEFINITION. One write and one read of any object: the checks of R504 and of the owning chapters, the behaviour of an object that has its own, and the twin order of R508; the writes of control space, timed writes and the shadow's copy of a write. -/

namespace Sys2Proof.Machine

/-! ### What a plain write is checked for (R504) -/

/-- Any of a list of reserved fields (low bit, width) that a value sets. -/
def rsvSet (v : Nat) (l : List (Nat × Nat)) : Bool := l.any fun f => bits v f.1 f.2 != 0

/-- A value of a list of subs 1–n of a Helad index, with one replaced. -/
def State.withSub (sd : Side) (s : State) (k v first n : Nat) : List Nat :=
  (List.range n).map fun i => let kk := k / 256 * 256 + first + i; if kk = k then v else s.ob sd kk

/-- Whether a list of thresholds never rises. -/
def nonRising : List Nat → Bool
  | a :: b :: t => decide (b ≤ a) && nonRising (b :: t)
  | _ => true

/-- Whether a port field of UnitConfig is none or in its range (R353). -/
def portIn (x lo hi : Nat) : Bool := x == 0xFF || decide (lo ≤ x ∧ x ≤ hi)

/-- Refusals of a plain write at the Helad beyond type and range. -/
def State.heladBad (s : State) (k v : Nat) : Bool :=
  let i := keyIdx k
  let j := keySub k
  if i = 0x3400 then rsvSet v [(4, 12)]
  else if 0x3410 ≤ i ∧ i ≤ 0x3417 ∧ j = 1 then bit v 31 || decide (8 ≤ bits v 0 4)
  else if 0x3420 ≤ i ∧ i ≤ 0x3423 ∧ j = 1 then rsvSet v [(33, 31)]
  else if i = 0x3401 ∧ 4 ≤ j then !nonRising (s.withSub .hel k v 4 4)
  else if i = 0x3800 ∧ j ≤ 4 then lsum (s.withSub .hel k v 1 4) != 100
  else if i = 0x3059 then decide (8 ≤ v) && v != 0xFF
  else if 0x3050 ≤ i ∧ i ≤ 0x3057 ∧ j = 1 then v != 0 && (decide (v < 16) || v % 16 != 0)
  else if 0x3050 ≤ i ∧ i ≤ 0x3057 then rsvSet v [(48, 16)]
  else if i = 0x2804 then v != 0 && (decide (v < 64) || decide (4194304 < v) || v % 8 != 0)
  else if i = 0x2803 then (List.range 4).any fun n => decide (64 ≤ bits v (8 * n) 8)
  else if i = 0x4E04 ∨ i = 0x4E05 then
    rsvSet v [(20, 4), (48, 16)] || !portIn (bits v 24 8) 176 191 || !portIn (bits v 32 8) 192 199 || !portIn (bits v 40 8) 200 207
  else false

/-- StepConfig and StepLimits (R239): fields past bit 63 of CMDID, m above n, reserved bits, ranges, a PARTITION of another entry, which an entry that nobody has written does not have (DEDUCED, log 175). -/
def State.stepBad (s : State) (k v : Nat) : Bool :=
  if keySub k = 1 then
    let sb := bits v 38 6
    let hb := bits v 50 6
    sb == 0 || decide (32 < sb) || decide (32 < hb) || decide (64 < bits v 32 6 + sb) ||
    (hb != 0 && decide (64 < bits v 44 6 + hb)) || decide (bits v 56 4 < bits v 60 4) ||
    (s.cd.any fun p => decide (0x4100 ≤ keyIdx p.1 ∧ keyIdx p.1 ≤ 0x44FF ∧ keySub p.1 = 1 ∧ p.1 ≠ k) && bits (s.i p.1) 0 16 == bits v 0 16)
  else rsvSet v [(8, 8), (48, 16)] || bits v 0 8 == 0 || decide (bits v 16 32 < 100) || decide (10000000 < bits v 16 32)

/-- Refusals of a plain write at the Icdon IX40 beyond type and range. -/
def State.icdonBad (s : State) (k v : Nat) : Option Res :=
  let i := keyIdx k
  let j := keySub k
  let range := fun (b : Bool) => if b then some (no stRange) else none
  if 0x4010 ≤ i ∧ i ≤ 0x402F then range (rsvSet v [(5, 3), (13, 3)] || bits v 8 5 == 0 || decide (16 < bits v 8 5))
  else if 0x4100 ≤ i ∧ i ≤ 0x44FF then range (s.stepBad k v)
  else if 0x4800 ≤ i ∧ i ≤ 0x48FF ∧ j = 1 then range (rsvSet v [(20, 44)] || decide (5 ≤ bits v 4 3) || decide (5 ≤ bits v 8 3))
  else if 0x4800 ≤ i ∧ i ≤ 0x48FF then range (rsvSet v [(24, 40)])
  else if 0x5900 ≤ i ∧ i ≤ 0x591F then range (rsvSet v [(3, 5), (14, 2), (35, 29)] || decide (4 < bits v 32 3))
  else if i = 0x3C01 then range (!nonRising (s.withSub .icd k v 1 4))
  else if 0x3C10 ≤ i ∧ i ≤ 0x3C1F ∧ j = 1 then range (decide (7 < v))
  else if i = 0x4A21 ∧ !s.ki.opened.isEmpty then some (no stBusy 14)
  else if O.ApexWitness ≤ k ∧ k ≤ O.ApexWitness + 2 then range (v != 0 && v / 2 ^ 24 != 2)
  else if O.SpareOwner ≤ k ∧ k < O.SpareOwner + 8 then range (decide (64 ≤ v) && v != 0xFF)
  else if k = O.LinkWidth then range (v != 1 && v != 2 && v != 4 && v != 8)
  else if k = O.PfRingTable then range (v % 4096 != 0)
  else if 0x5100 ≤ i ∧ i ≤ 0x51FF ∧ j = 1 then range (bit v 48 && (decide (bits v 32 16 < 10) || decide (60000 < bits v 32 16)))
  else if 0x5100 ≤ i ∧ i ≤ 0x51FF then range (v % 64 != 0)
  else if i = 0x5A01 ∨ i = 0x5A02 then (if j = 1 then some (no stDenied) else range (i == 0x5A02 && bit v 6))
  else if k = O.AuditExported then range (decide (v < s.i k))
  else if k = O.GracePerLevel then range (!epochFits (s.i O.EpochLength) v (s.i O.ResultBudget))
  else if k = O.ResultBudget then range (!epochFits (s.i O.EpochLength) (s.i O.GracePerLevel) v)
  else none

/-! ### What a plain write does besides storing -/

/-- The value that a write leaves in an object: W1C clears the written bits (R9), the RO bit of a SourceConfig stays. -/
def State.written (sd : Side) (s : State) (k v : Nat) : Nat :=
  let old := s.ob sd k
  let w1c : Bool := match objSpec k with | some o => o.op == .w1c || o.mt == .w1c | none => false
  if w1c then old - (old &&& v)
  else if 0x5900 ≤ keyIdx k ∧ keyIdx k ≤ 0x591F then setBit v 1 (bit old 1)
  else v

/-- What follows a plain write at the Helad: duty and class changes wait for the boundary (R357), comparators re-arm (R134), a source's block closes at a change of PARTITION or CLASS (R121), sources enabled anew owe RESTART (R136). -/
def State.heladAfter (k old v : Nat) (s : State) : State :=
  let i := keyIdx k
  if k = O.PitchDuty ∨ ((i = 0x4E04 ∨ i = 0x4E05) ∧ bits old 16 4 ≠ bits v 16 4) then s.pitchChange
  else if 0x3410 ≤ i ∧ i ≤ 0x3417 then
    { s with tr := { s.tr with above := setBit s.tr.above (i - 0x3410) false, fired5 := setBit s.tr.fired5 (i - 0x3410) false } }
  else if i = 0x3400 ∧ (bits old 0 2 ≠ bits v 0 2 ∨ bits old 16 16 ≠ bits v 16 16) then s.closeBlock (keySub k - 1)
  else if (k = O.TraceEnable ∧ !bit (s.h O.SeqControl) 0) ∨ (bit (s.h O.SeqControl) 0 ∧ k = inst O.SourceMask s.seqState) then s.maskMoved old
  else s

/-- A proxied request on its way down (R190, R514): a forwarded OBJECT_READ or OBJECT_WRITE descriptor under the request's handle, with the items behind it, three units each. DESIGN CHOICE, log 119: the spec gives the request no record. -/
def proxyRec (id gid : Nat) (wr : Bool) (items : List Item) (timed : Option Nat) : Rec :=
  mkRec 0x60 (4 + 3 * items.length) 0 0 0 0
    ([(128, 16, if wr then 2 else 1), (144, 1, b2n timed.isSome), (145, 1, 1), (160, 32, id), (192, 32, gid), (256, 80, timed.getD 0)] ++
      items.zipIdx.flatMap fun p => [(512 + 384 * p.2, 32, p.1.key), (640 + 384 * p.2, 256, p.1.val)])

/-- A slot whose Helad can be reached: not FAILED, MISWIRED or DARK (R514). -/
def State.slotReach (slot : Nat) (s : State) : Bool := let st := s.i (O.SlotState + slot); st != 0 && st != 5 && st != 6

/-- A time setting of the Tray goes to a slot's Helad as a proxied write under the object's key (R543, R514; DESIGN CHOICE, log 119), an asymmetry as a record of its own; the modelled Helad takes it while it can be reached and is not in reset. -/
def State.timeToSlot (k v : Nat) (slot : Nat) (s : State) : State :=
  let s : State := s.downSend slot stControl
    (if keyIdx k = 0x2001 then proxyRec k (tgetD s.ln.dieGid slot 0) true [⟨k, 0, 0, v⟩] none else fwdRec 2 0 0 v k)
  let s : State := if slot = s.h O.SlotNumber ∨ keyIdx k ≠ 0x2001 then s.copySet slot k v else s
  if slot ≠ s.h O.SlotNumber ∨ !s.heladReach ∨ s.heladReset then s
  else if keyIdx k = 0x2001 then s.hSet k v
  else if keySub k = slot + 1 then { s with bd := { s.bd with asym := toS 32 v } }
  else { s with bd := { s.bd with asymSpare := toS 32 v } }

/-- The slots that a time setting of the Tray concerns: all, a slot for its asymmetry, a fibre's for its spare's (R543). -/
def timeSlots (k : Nat) : List Nat :=
  (List.range 64).filter fun n => keyIdx k == 0x2001 || keySub k == n + 1 || keySub k == 0x41 + n / 8

/-- The Tray applies a time setting to all of its Helads (R543): the modelled one takes it here, and of the others that can be reached it awaits the answers. -/
def State.timeApply (k v : Nat) (s : State) : State :=
  let s : State := (timeSlots k).foldl (fun s n => s.timeToSlot k v n) s
  let left := if keyIdx k = 0x2001 then ((s.ln.dieGid.filter fun p => p.1 < 64 && p.1 != s.h O.SlotNumber && p.2 != 0 && s.slotReach p.1).map (·.2)).eraseDups else []
  let ans : List HeldAnswer := match tget s.mo.applying k with | some w => w.ans | none => []
  if left.isEmpty && ans.isEmpty then s else { s with mo := { s.mo with applying := tset s.mo.applying k (⟨v, left, s.ft .icd, false, ans⟩ : TimeWait) } }

/-- What follows a plain write at the Icdon IX40: series settings wait for the boundary (R233), a step entry shows the home of its partition (R241), a replica group's members learn its settings (R361), the Tray hands time settings to its Helads (R543), PartitionQuery names what PartitionState shows. -/
def State.icdonAfter (k v : Nat) (s : State) : State :=
  let i := keyIdx k
  if 0x4010 ≤ i ∧ i ≤ 0x402F then { s with se := { s.se with changed := ((i - 0x4010) * 128 + keySub k - 1) :: s.se.changed } }
  else if k = O.SeriesWindow then { s with se := { s.se with winChanged := true } }
  else if 0x4100 ≤ i ∧ i ≤ 0x44FF ∧ keySub k = 1 then s.iSet (inst O.StepHome (i - 0x4100)) (match tget s.tw.parts (bits v 0 16) with | some x => x.home | none => 0)
  else if k = O.PartitionQuery then s.partObjects
  else if 0x5100 ≤ i ∧ i ≤ 0x51FF ∧ keySub k ≤ 2 then s.groupSend (i - 0x5100)
  else if i = 0x2010 then s.spreadUt
  else if k = O.BenchEnable ∧ s.pw.phase = 3 then
    { s with pk := { s.pk with domOn := if v = 1 then s.pk.domOn.filter (· != 95) ++ [95] else s.pk.domOn.filter (· != 95) } }
  else if ((i = 0x2001 ∧ 2 ≤ keySub k) ∨ i = 0x2002) ∧ s.role = 1 then s.timeApply k v
  else s

/-- A write of an object without behaviour of its own (R504, R505, R506, R537). -/
def State.plainOp (sd : Side) (k v : Nat) (env : WriteEnv) : Op := fun s =>
  let pers := match objSpec k with | some o => o.pers | none => false
  match sd with
  | .hel =>
    if s.heladBad k v then (s, no stRange)
    else
      let old := s.h k
      (((s.hSet k (s.written .hel k v)).heladAfter k old v), ok)
  | .icd =>
    match s.icdonBad k v with
    | some r => (s, r)
    | none =>
      if pers && env.mramFail then (s, no stBusy 9)
      else if k = O.GracePerLevel ∨ k = O.ResultBudget ∨ k = O.SupplementHold then
        (s.spread [(k, v)] (s.boundaryAfter (s.ft .icd + ms 1)), ok)
      else ((s.iSet k (s.written .icd k v)).icdonAfter k v, ok)

/-! ### Objects with behaviour of their own -/

/-- The operation that a write of a Helad object is. -/
def State.heladOp (k v : Nat) (env : WriteEnv) : Op :=
  let i := keyIdx k
  let j := keySub k
  if 0x3000 ≤ i ∧ i ≤ 0x301F then State.counterConfigOp ((i - 0x3000) * 128 + j - 1) v
  else if i = 0x305C then State.counterClearOp j v
  else if k = O.SetCommit then State.setCommitOp v
  else if k = O.ActionCancel then State.cancelOp .hel v
  else if 0x2100 ≤ i ∧ i ≤ 0x2103 ∧ j = 1 then State.pulseArmOp .hel (i - 0x2100) v
  else if k = O.TraceCadence then State.traceCadenceOp v
  else if k = O.SeqControl then State.seqEnableOp v
  else if i = 0x4E10 ∨ i = 0x4E11 then State.fenceEntryOp ((i - 0x4E10) * 128 + j - 1) v
  else State.plainOp .hel k v env

/-- Time, twin, membership, ingest and cut objects of the Icdon IX40 whose write is an operation. -/
def State.icdonOpA (k v : Nat) (env : WriteEnv) : Option Op :=
  let i := keyIdx k
  let j := keySub k
  if k = O.ActionCancel then some (State.cancelOp .icd v)
  else if 0x2100 ≤ i ∧ i ≤ 0x2107 ∧ j = 1 then some (State.pulseArmOp .icd (i - 0x2100) v)
  else if k = O.SlotReset then some (State.slotResetOp v)
  else if k = O.SpareTrainSlot then some (State.spareTrainOp v)
  else if k = O.RevertSlot then some (State.revertOp v)
  else if k = O.CaskSeal then some (State.caskSealOp v true false 0)
  else if k = O.CaskRelease then some (State.caskReleaseOp v)
  else if k = O.Tier2Free then some (State.tier2FreeOp v)
  else if k = O.FiningSubmit then some (State.finingSubmitOp v)
  else if k = O.FiningAbort then some (State.finingAbortOp v env.records)
  else if k = O.Rebaseline then some (State.rebaselineOp v)
  else if k = O.CutIssue then some (fun s => if v ≠ 1 then (s, no stRange) else
    s.cutOp (s.i O.CutTime) (packFields [(0, 32, s.i O.CutKind), (32, 32, s.i O.CutHaltHold), (64, 64, s.i O.CutGroups)]) (s.i O.CutScope))
  else if k = O.CutRelease then some (State.cutReleaseOp false 0 v)
  else if k = O.LeadHandover then some State.leadHandoverOp
  else if k = O.DieRemove then some (State.dieRemoveOp v)
  else none

/-- Analysis, scheduling and silent-error objects whose write is an operation. -/
def State.icdonOpB (k v : Nat) : Option Op :=
  let i := keyIdx k
  let j := keySub k
  if k = O.EpochLength then some (State.epochLengthOp v)
  else if k = O.ReductionCommit then some State.reductionCommitOp
  else if 0x4900 ≤ i ∧ i ≤ 0x4907 ∧ j = 5 then some (State.slotClearOp (i - 0x4900) v)
  else if 0x4910 ≤ i ∧ i ≤ 0x491F ∧ j = 1 then some (State.lauterBindingOp (i - 0x4910) v)
  else if k = O.SwitchIssue then some (fun s => if 128 ≤ v then (s, no stRange) else s.modelSwitchOp (v % 16) (v / 16) (s.i O.SwitchInstant))
  else if k = O.RegionSwitchIssue then some (fun s => if 4096 ≤ v then (s, no stRange) else s.feedSwitchOp (v % 16) (v / 16) (s.i O.RegionSwitchInstant))
  else if k = O.GroupSwitchIssue then some (fun s => if 2048 ≤ v then (s, no stRange) else s.feedSwitchOp (16 + v % 8) (v / 8) (s.i O.GroupSwitchInstant))
  else if 0x4B40 ≤ i ∧ i ≤ 0x4B7F ∧ j = 4 then some (State.imageClearOp false (i - 0x4B40) v)
  else if 0x4C40 ≤ i ∧ i ≤ 0x4C7F ∧ j = 4 then some (State.imageClearOp true (i - 0x4C40) v)
  else if k = O.LibraryActivate then some (State.libraryActivateOp v)
  else if isShaper k then some (State.shaperOp k v)
  else none

/-- Memory, interrupt, security, power and perturbation objects whose write is an operation. -/
def State.icdonOpC (q : Req) (k v : Nat) (env : WriteEnv) : Option Op :=
  let i := keyIdx k
  let j := keySub k
  if k = O.InitDone then some (fun s => if v ≠ 1 then (s, no stRange) else s.initDoneOp)
  else if k = O.RowRetire then some (State.rowRetireOp v)
  else if k = O.BankRetire then some (State.bankRetireOp v)
  else if k = O.FillSubmit then some (State.fillOp v)
  else if k = O.IrqCompletion then some (State.completionOp v)
  else if k = O.SoftPost then some (fun s => if v < 0xF00 ∨ 0xFFF < v then (s, no stRange) else (s.occur v none [], ok))
  else if k = O.SoftPriv then some (fun s => if v ≠ 14 ∧ v ≠ 15 then (s, no stRange) else (s.priv v 0, ok))
  else if 0x5950 ≤ i ∧ i ≤ 0x598F ∧ j = 4 then some (State.consumerOp (i - 0x5950) v)
  else if 0x5950 ≤ i ∧ i ≤ 0x598F ∧ j ≤ 2 then some (State.queueControlOp (i - 0x5950) (j == 2) v)
  else if k = O.ErrorClose then some (State.errorCloseOp v)
  else if k = O.ObserveOnlyExit then some (State.observeExitOp v)
  else if k = O.RecorderCursor then some (State.recorderCursorOp v)
  else if k = O.RecorderWrite then some (State.recorderWriteOp v)
  else if k = O.RecorderClearArm then some (fun s => (s.setArm (some (v, s.ft .icd, s.i O.RecorderLast)), ok))
  else if k = O.RecorderClear then some (State.recorderClearOp q v)
  else if 0x5A10 ≤ i ∧ i ≤ 0x5A12 then some (State.credentialOp k v)
  else if i = 0x5A20 ∨ i = 0x5A21 then some (State.vfBindOp ((i - 0x5A20) * 128 + j) v)
  else if k = O.StageStart then some (State.stageStartOp env.image env.sigOk)
  else if k = O.FwActivate then some (State.activateOp v)
  else if k = O.ImageConfirm then some (State.imageConfirmOp v)
  else if k = O.ColdReset then some (fun s => if v = s.iGid then (s.lastWord.coldStart 1 env.pu, ok) else (s, ok))
  else if k = O.WarmReset then some (fun s => if v = s.iGid then (s.lastWord.warmStart 3 env.pu, ok) else (s, ok))
  else if k = O.DomainReset then some (State.domainResetOp v)
  else if 0x5C20 ≤ i ∧ i ≤ 0x5C2F ∧ j = 1 then some (State.rouseArmOp (i - 0x5C20) v env.cred)
  else none

/-- Whether a tenant's write would change the PARTITION of its step entry (R248). -/
def State.tenantMoves (q : Req) (k v : Nat) (s : State) : Bool :=
  (s.judged q).role == .tp && decide (0x4100 ≤ keyIdx k ∧ keyIdx k ≤ 0x44FF ∧ keySub k = 1) && bits v 0 16 != bits (s.i k) 0 16

/-- The operation that a write of any object is: its own, or the plain write. -/
def State.objectOp (sd : Side) (q : Req) (k v : Nat) (env : WriteEnv) : Op :=
  match sd with
  | .hel => State.heladOp k v env
  | .icd =>
    match State.icdonOpA k v env with
    | some f => f
    | none =>
      match State.icdonOpB k v with
      | some f => f
      | none =>
        match State.icdonOpC q k v env with
        | some f => f
        | none => fun s => if s.tenantMoves q k v then (s, no stDenied) else State.plainOp .icd k v env s

/-! ### Reads -/

/-- A setting whose change waits for an epoch boundary (R253, R274) shows the accepted value at once at the Apex that accepted it; its object holds the value in force (R504). -/
def State.accepted (k : Nat) (s : State) : Option Nat :=
  if s.role = 3 ∧ (k = O.EpochLength ∨ k = O.GracePerLevel ∨ k = O.ResultBudget ∨ k = O.SupplementHold) then
    ((s.tm.iActs.filter fun a => a.kind == 6 && a.fwd && a.key == k).getLast?).map (·.val)
  else none

/-- The value that a read of an object returns (R9, R503, R504): 0 for a write-only one, the clocks as they stand, entries that another object names. -/
def State.readValue (sd : Side) (k : Nat) (s : State) : Nat :=
  let wo : Bool := match objSpec k with | some o => (o.op == .wo || o.mt == .wo) | none => false
  if wo then 0
  else if k = O.FtNow then s.stamp sd
  else if k = O.RtNow then (match sd with | .hel => s.rtWord (s.ft .hel) | .icd => packFields [(47, 2, s.i O.RtReportMu), (51, 1, 1)])
  else if k = O.MapEntry then s.me.map.getD (s.i O.MapQuery) 0
  else if k = O.ContextState then
    (match tget s.ir.ctxs (s.i O.ContextQuery) with
     | some c => joinUnits (mkRec 0xF2 4 0 s.iGid (s.seqOf .icd 0xF2) 0 (ctxFields (s.i O.ContextQuery) 0 c))
     | none => 0)
  else if k = O.SessionsOpen then s.mo.sessions.length
  else if k = O.AttestFlags then s.attestFlags
  else if k = O.DomainsInReset then s.resetBits
  else if O.PortUse ≤ k ∧ k < O.PortUse + 16 ∧ s.i k = 0xFF then tgetD (defaultPlan s.role) (k - O.PortUse) 0
  else if k = O.LinkWidth then (if s.i k = 0 then defaultWidth s.role else s.i k)
  else
    match sd with
    | .hel => s.ob sd k
    | .icd => (s.accepted k).getD (s.ob sd k)

/-! ### Writes through control space (R504–R508, R512) -/

/-- REGISTER_WRITE: a write of one object, at the Icdon IX40 or by proxy at the Helad. -/
def State.registerWrite (q : Req) (sd : Side) (k v : Nat) (env : WriteEnv) (s : State) : State :=
  if !holds sd k then s.answer q k true (no stNoObject) []
  else
    match sd with
    | .icd => s.reqWrite q k v (State.objectOp .icd q k v env)
    | .hel => s.proxyWrite q k v (State.objectOp .hel q k v env)

/-- REGISTER_WRITE. -/
def execRegisterWrite (q : Req) (u : Side) (key v : Nat) (env : WriteEnv) : State → Host.Outcome State Fault Refusal :=
  run (State.registerWrite q u key v env)

/-- A requester's wide block: 0 the PF's, 1 + n that of core n (R512). -/
def wideBlock (q : Req) : Option Nat := match q.who with | .pf => some 0 | .core n => some (1 + n % 4) | _ => none

/-- WIDE_READ: bits [31:0] of a wide object, its whole value copied into the requester's WIDE_DATA. -/
def State.wideRead (q : Req) (k : Nat) (s : State) : State :=
  match wideBlock q with
  | none => s.answer q k false (no stNoObject) []
  | some w =>
    match (if holds .icd k then s.readRight q k else some (no stNoObject)) with
    | some r => s.answer q k false r []
    | none =>
      let v := s.readValue .icd k
      ({ s with mo := { s.mo with wide := tset s.mo.wide w v } } : State).answer q k false ok [v % 2 ^ 32]

/-- WIDE_READ. -/
def execWideRead (q : Req) (key : Nat) : State → Host.Outcome State Fault Refusal := run (State.wideRead q key)

/-- WIDE_WRITE_COMMIT: bytes 4 onward lie in WIDE_DATA; the low word commits the whole value as one write. -/
def State.wideWriteCommit (q : Req) (k lo hi : Nat) (env : WriteEnv) (s : State) : State :=
  match wideBlock q with
  | none => s.answer q k true (no stNoObject) []
  | some w =>
    let s : State := { s with mo := { s.mo with wide := tset s.mo.wide w (tgetD s.mo.wide w 0 % 2 ^ 32 + hi % 2 ^ 992 * 2 ^ 32) } }
    let n := match objSpec k with | some o => o.bits | none => 0
    let v := (lo + hi * 2 ^ 32) % 2 ^ n
    if !holds .icd k then s.answer q k true (no stNoObject) []
    else s.reqWrite q k v (State.objectOp .icd q k v env)

/-- WIDE_WRITE_COMMIT. -/
def execWideWriteCommit (q : Req) (key lo hi : Nat) (env : WriteEnv) : State → Host.Outcome State Fault Refusal :=
  run (State.wideWriteCommit q key lo hi env)

/-! ### The shadow's copy of a write, and timed writes (R62, R63, R508) -/

/-- A requester for writes whose rights were checked before. -/
def checkedReq : Req := ⟨.mt, 0, .device 0, 0⟩

/-- TWIN_WRITE_APPLY: the shadow applies the write at its position and acknowledges; of a write for a Helad it transmits the lead's record in its own CONTROL stream (R508, R514). -/
def State.twinWriteApply (pos k v : Nat) (down : Option (Nat × Rec)) (env : WriteEnv) (s : State) : State :=
  if s.isLead || decide (pos < s.mo.pos) then s
  else
    let s : State := { s with mo := { s.mo with pos := pos } }
    let s : State :=
      if holds .icd k then (State.objectOp .icd checkedReq k v env s).1
      else match down with
        | some d => (match s.dieLink d.1 with | some l => if s.role = 1 then s.downSend l stControl d.2 else s | none => s)
        | none => s
    s.xMsg 0x5081 [pos]

/-- TWIN_WRITE_APPLY. -/
def execTwinWriteApply (pos key v : Nat) (down : Option (Nat × Rec)) (env : WriteEnv) : State → Host.Outcome State Fault Refusal := run (State.twinWriteApply pos key v down env)

/-- An environment in which nothing outside the dictionary is found: a launched write names RW objects only. -/
def noEnv : WriteEnv := ⟨⟨false, false, 0, 0, 0, 0, none, none, none, 0, 0, [], []⟩, false, [], 0, 0, false⟩

/-- A launched object write: the value is stored, in force at once where a boundary has carried it here (R63, R253, R255, R356). -/
def State.applyWrite (sd : Side) (k v : Nat) (s : State) : State :=
  match sd with
  | .hel => (State.objectOp .hel checkedReq k v noEnv s).1
  | .icd =>
    if k = O.ReductionCommit then s.commitDefs
    else if k = O.LibraryActivate then { (s.iSet O.LibraryActive v) with si := { s.si with lib := if s.i O.LibraryStaged = v then s.si.libNew else s.si.lib } }
    else if k = O.EpochLength ∨ k = O.GracePerLevel ∨ k = O.ResultBudget ∨ k = O.SupplementHold then s.iSet k v
    else (State.objectOp .icd checkedReq k v noEnv s).1

/-- TIMED_OBJECT_WRITE: the write launches after every other action at its instant; a dozing Helad wakes for it; FT_JITTER may hold it there; a launch past the bound after a late wake writes LATE_LAUNCH; the Tray's copy follows (R29, R62, R63, R536, R548). The issuing Icdon IX40's own copy of a proxied write stores nothing here (R64). -/
def State.timedObjectWrite (sd : Side) (s : State) : State :=
  match s.dueOf sd (fun a => a.kind == 6) with
  | none => s
  | some a =>
    match sd with
    | .icd => if a.fwd ∧ a.a = 1 then s.takeAct .icd a else (s.takeAct .icd a).stepping a.stepped (State.applyWrite .icd a.key a.val)
    | .hel =>
      if s.pitchFirst a.at_ then s
      else if a.key = O.LibraryActivate then s.librarySwap
      else
        if !s.awakeFor a then s.wakeAct a
        else
        let held := s.jitterHold (a.handle * 16 + 6)
        if held.1 then held.2
        else
          let s : State := held.2.takeAct .hel a
          let s : State := if s.launchLate a then s.lateRecord a else s
          s.stepping a.stepped fun s =>
            let p := State.objectOp .hel checkedReq a.key a.val noEnv s
            if p.2.st = 0 then p.1.copySet (p.1.h O.SlotNumber) a.key a.val else p.1

/-- TIMED_OBJECT_WRITE. -/
def execTimedObjectWrite (u : Side) : State → Host.Outcome State Fault Refusal := run (State.timedObjectWrite u)

end Sys2Proof.Machine
end

