-- ==== Sys2Proof/Machine/EpochTick.lean ====
section
/-! DEFINITION. EPOCH_BOUNDARY: one epoch ends, the next begins, and the changes deferred to it take effect (R231, R233, R250, R253, R255, R291, R304, R323, R357, R405, R415, R418). -/

namespace Sys2Proof.Machine

/-- Objects whose timed writes govern epochs: they are in force in the epoch that begins at their instant (R253, R255). -/
def epochKey (k : Nat) : Bool :=
  k == O.EpochLength || k == O.GracePerLevel || k == O.ResultBudget || k == O.SupplementHold || k == O.ReductionCommit || keyIdx k / 256 == 0x48

/-- Applies the timed writes of epoch settings that are due at a boundary, in the order of their instants and handles (R29, R253, R255). -/
def State.epochWrites (b : Nat) (s : State) : State :=
  (sortBy (fun a => a.at_ * 2 ^ 32 + a.handle) (s.tm.iActs.filter fun a => a.kind == 6 && epochKey a.key && decide (a.at_ ≤ b))).foldl
    (fun s a => (s.takeAct .icd a).applyWrite .icd a.key a.val) s

/-- The pair that the epoch at a boundary takes, in ns: the master's after EPOCH_SLIP, else the next number (R250, R251). -/
def State.nextPair (b : Nat) (s : State) : Nat × Nat × Nat :=
  match s.rd.slip with
  | some (n, st, len) =>
    let l := max 1 len
    if st ≤ b then ((n + (b - st) / l) % 2 ^ 48, st + (b - st) / l * l, len)
    else (n - (st - b + l - 1) / l, st - (st - b + l - 1) / l * l, len)
  | none => ((s.i O.EpochNow + 1) % 2 ^ 48, b, s.rd.len)

/-- The closing epoch keeps the LOCAL causes of its time, and whether a forward step passed its end or it closed in HOLDOVER (R28); throttling goes on into the next (R199, R275, R408). -/
def State.closeLocal (s : State) : State :=
  let s : State := match tget s.rd.epochs (s.i O.EpochNow) with
    | some e => s.setEpoch { e with localMain := s.tw.local_, held := s.holdoverFlag .icd || decide (s.rd.stepTo.1 < ns (e.start + e.len) ∧ ns (e.start + e.len) ≤ s.rd.stepTo.2) }
    | none => s
  { s with tw := { s.tw with local_ := if s.i O.ThrottleStep = 0 then 0 else 8 } }

/-- Takes over a change of EpochLength, of which an anchor is owed (R251, R253). -/
def State.adoptLength (len : Nat) (s : State) : State :=
  let new := if s.rd.slip.isSome then len else s.i O.EpochLength * 1000
  let s : State := if s.rd.slip.isSome then s.iSet O.EpochLength (len / 1000) else s
  { s with rd := { s.rd with len := new, changes := s.rd.changes + b2n (new != s.rd.len), slip := none } }

/-- What waits for the boundary at `b`, FT units, where epoch `n` begins: membership, partitions, parameters of the engines, a pair's fresh start. -/
def State.deferred (n b : Nat) (s : State) : State :=
  let t := b / 65536
  let s : State := ((s.memberBoundary b).partBoundary n t).seriesBoundary t
  let s : State := (s.lauterBoundary t).feedBoundary t
  match s.tw.freshAt with
  | some f => if f ≤ b then { s with tw := { s.tw with freshAt := none } }.emptyAnalysis else s
  | none => s

/-- Reads the records and vectors that waited for their epoch to begin (R252). -/
def State.retakeEarly (s : State) : State :=
  s.rd.early.foldl (fun s e => if rType e.2.2.2 = 0x30 ∨ rType e.2.2.2 = 0x31 then s.reduceRecord e.1 e.2.1 e.2.2.1 e.2.2.2
    else s.reduceVector e.1 e.2.1 e.2.2.1 e.2.2.2) { s with rd := { s.rd with early := [] } }

/-- Flits still asked for at an epoch's close are not repaired by then: their gaps stand, and they enter the loss set (R25). -/
def State.repairsStand (s : State) : State :=
  s.ln.rx.foldl (fun s p => match linkOfNum (p.1 / 16) with
    | some l => if p.2.asked.isSome then s.repairEnd l (p.1 % 16) [] else s
    | none => s) s

/-- EPOCH_CLOSE with the end of the repairs that have not come (R25, R26, R263, R264). -/
def State.epochEnds (n : Nat) (agreed : Option (Tbl Nat × List Nat)) (fetched : List (Nat × Nat × Nat × Rec)) (lost : List (Nat × Nat × Nat)) (s : State) : State :=
  match tget s.rd.epochs n with
  | none => s
  | some e => (if e.closed ∨ s.ft .icd < s.closeAt e then s else s.repairsStand).epochClose n agreed fetched lost

/-- EPOCH_CLOSE. -/
def execEpochClose (n : Nat) (agreed : Option (Tbl Nat × List Nat)) (fetched : Fetched) :
    State → Host.Outcome State Fault Refusal :=
  run (State.epochEnds n agreed fetched.recs fetched.lost)

/-- EPOCH_BOUNDARY: when FT reaches the end of the present epoch, after every action of an earlier instant and a cut at this one (R29); writes due at the boundary are applied after the other changes of it; a commit spread from the Apex shows the epoch it governs (R255). -/
def State.epochBoundary (s : State) : State :=
  let b := ns (s.i O.EpochStartNs) + s.epochLen
  if !s.rd.has ∨ s.ft .icd < b ∨ ((s.tm.iActs.any fun a => a.beforeClose b) = true) then s
  else
    let s : State := s.closeLocal
    let p := s.nextPair (b / 65536)
    let commit := s.role != 3 && s.tm.iActs.any fun a => a.kind == 6 && a.key == O.ReductionCommit && decide (a.at_ ≤ b)
    let s : State := ((s.deferred p.1 b).epochWrites b).adoptLength p.2.2
    let s : State := if commit then s.iSet O.CommitEpoch p.1 else s
    let s : State := ((s.beginEpoch p.1 p.2.1).retakeEarly).rouseCheck
    s.pitchRoll

/-- EPOCH_BOUNDARY. -/
def execEpochBoundary : State → Host.Outcome State Fault Refusal := run State.epochBoundary

end Sys2Proof.Machine
end

