-- ==== Sys2Proof/Machine/Ingest.lean ====
section
/-! DEFINITION. Grist ingress: reassembled records are restored, checked and routed to staging, the ring and the units that take them (R151, R204–R206, R221). Units whose step the opcode table gives a row of its own take the record at that command. -/

namespace Sys2Proof.Machine

/-! ### Checks (R151, R204) -/

/-- The stream type whose row of R151 names a TYPE; none where no row does. -/
def carrierOf (ty : Nat) : Option Nat :=
  if [0xF3, 0xC5].contains ty then some stAlarm
  else if [0x41, 0x51, 0x52, 0xD0, 0xD3, 0xD4, 0xE0, 0xE1, 0x57, 0x25, 0xE5].contains ty then some stControl
  else if [0x23, 0x24].contains ty then some stTime
  else if [0x30, 0x31, 0x32, 0x34, 0x42, 0x21, 0x22, 0x33, 0x35].contains ty then some stCounter
  else if ty = 0x40 then some stTrace
  else if [0xC0, 0xC1, 0xC2].contains ty then some stDigest
  else if [0xF4, 0x20, 0x26, 0xD1, 0xD2].contains ty then some stEvent
  else if ty = 0xE4 then some stBulk
  else if [0x80, 0x82, 0x83, 0x84, 0x55].contains ty then some stSeries
  else if ty = 0xF6 then some stAudit
  else if [0x90, 0x92].contains ty then some stContrib
  else none

/-- Whether a TYPE is allowed in a stream type (R151): BULK and REPAIR carry any; a TYPE that no row names goes in CONTROL. -/
def typeAllowed (st ty : Nat) : Bool := st == stBulk || st == stRepair || (carrierOf ty).getD stControl == st

/-- A malformed record: counted, and marked in the index (R204, R209). -/
def State.malformed (st slot seq cutNum bytes : Nat) (s : State) : State :=
  (s.iCount O.MalformedRecords).idx 9 st slot seq cutNum 0 false 0 bytes

/-- Whether a restored record fails a check of R204. -/
def State.badRecord (st slot : Nat) (us : List RxUnit) (r : Rec) (s : State) : Bool :=
  us.any (fun u => u.part != rPart r) || (s.role == 1 && tget s.ln.dieGid slot != some (rSrc r)) || !typeAllowed st (rType r)

/-! ### Restoration (R221) -/

/-- Ends the undecodable run of a key: one index entry with its bytes (R209, R221). -/
def State.endUndec (slot st : Nat) (k : List Nat) (s : State) : State :=
  match s.gr.undec.find? fun u => u.1 == slot * 16 + st && u.2.1 == k with
  | some u => { s with gr := { s.gr with undec := s.gr.undec.filter fun v => v != u } }.idx 7 st slot u.2.2.1 u.2.2.2.1 0 false 0 u.2.2.2.2
  | none => s

/-- A FinedRecord that cannot be restored is discarded: counted, in its key's run, and noted by the casks whose post-window holds the slot (R221, R226). -/
def State.undecodable (slot st seq cutNum : Nat) (k : List Nat) (n : Nat) (s : State) : State :=
  let s : State := s.iCount O.UndecodableRecords
  let l := s.gr.undec
  let l := match l.find? fun u => u.1 == slot * 16 + st && u.2.1 == k with
    | some u => (u.1, k, u.2.2.1, u.2.2.2.1, u.2.2.2.2 + n) :: l.filter fun v => v != u
    | none => (slot * 16 + st, k, seq, cutNum, n) :: l
  { s with gr := { s.gr with undec := l, hist := tset s.gr.hist slot (histBreak (tgetD s.gr.hist slot []) k),
                             casks := s.gr.casks.map fun c => if c.status = 0 ∧ bit c.scope slot then { c with flags := setBit c.flags 4 true } else c } }

/-- Restores a FinedRecord, and keeps the history of the records that came uncoded (R219, R221). -/
def State.restore (slot st seq cutNum : Nat) (r : Rec) (s : State) : Option Rec × State :=
  let h := tgetD s.gr.hist slot []
  if rType r = 0x34 then
    let k := finedKey r
    match finDecode h r with
    | some (o, h) => (some o, { s with gr := { s.gr with hist := tset s.gr.hist slot h } }.endUndec slot st k)
    | none => (none, s.undecodable slot st seq cutNum k (16 * r.length))
  else if rType r = 0x30 ∨ rType r = 0x31 then
    let k := finKey r
    let broken := match histOf h k with | some e => !e.valid | none => false
    let h := histPut h k (finWords r) false
    (some r, { s with gr := { s.gr with hist := tset s.gr.hist slot (if broken then histBreak h k else h) } })
  else (some r, s)

/-! ### Delivery to the units (R205) -/

/-- The event source of a slot, or above a Tray of the fabric port of a link (R459). -/
def State.slotSource (slot : Nat) (s : State) : Nat :=
  if s.role = 1 then 0x010 + slot else 0x050 + (s.linkPort slot).getD 0

/-- PITCH_STARVED is true while a unit that raised it has completed no run since (R546). -/
def State.starveSet (l : List Nat) (s : State) : State := { s with si := { s.si with starved := l } }.cond 0x14C (!l.isEmpty)

/-- ALARM: an alarm event; the trigger rules of kind 3; a taint alert (R205, R211, R372, R459, R546). -/
def State.takeAlarm (slot : Nat) (r : Rec) (s : State) : State :=
  if rType r = 0xF3 then
    let code := recFld r 256 10
    let s : State := (s.occur (0x200 + code) (some (recFld r 272 8 % 8)) r).fireRules 3 (fun m => m % 65536 == 0xFFFF || m % 65536 == code) (some slot) (rSrc r) (rSeq r) (recFld r 128 128) 0
    if code = 6 then s.starveSet ((slot * 256 + recFld r 320 8) :: s.si.starved).eraseDups else s
  else if rType r = 0xC5 ∧ s.role = 1 then s.taintAlert slot r
  else s

/-- CONTROL: triggers, cut reports and membership changes from below; the other records are taken at their own commands (R205, R211, R399, R415). -/
def State.takeControl (slot : Nat) (r : Rec) (s : State) : State :=
  let ty := rType r
  if ty = 0x41 then
    s.fireRules 2 (fun m => m % 256 == 0xFF || m % 256 == recFld r 264 8) (some slot) (rSrc r) (rSeq r) (recFld r 128 128) 0
  else if ty = 0xD0 ∨ ty = 0xD3 ∨ ty = 0xD4 then s.kilnArrive slot r
  else if ty = 0xE2 then s.memberBelow slot r
  else s

/-- The tenant's view of a COUNTER, TRACE or DIGEST record (R117, R118, R142, R482). -/
def State.tenantView (slot : Nat) (r : Rec) (s : State) : Option Rec :=
  let ty := rType r
  if rPart r = 0 then none
  else if ty = 0x30 then some (s.coarsen slot r)
  else if ty = 0x42 then some (recSet r 128 128 (coarsenStamp (recFld r 128 128)))
  else if ty = 0x40 ∨ ty = 0x33 ∨ ty = 0x35 then some r
  else if ty = 0xC1 then some (tenantForm r)
  else none

/-- Delivers a record to the tenant of its partition. -/
def State.tenantTake (slot : Nat) (r : Rec) (s : State) : State :=
  match s.tenantView slot r with
  | some v => s.vfPost (rPart r) v
  | none => s

/-- COUNTER: the reduction engine reads at once; power and steps of commands; SAMPLE maps; the tenant's view (R115, R119, R240, R257, R482). -/
def State.takeCounter (slot st fseq : Nat) (r : Rec) (s : State) : State :=
  let s : State := match s.stagedRead 0x0D03 slot r with
    | (some r, s) => s.reduceRecord slot st fseq r
    | (none, s) => s
  let s : State :=
    if rType r = 0x30 then (s.powerTake slot r).stepTimeOf r
    else if rType r = 0x32 then { s with se := { s.se with maps := tset s.se.maps (slot * 2 ^ 16 + recFld r 128 16) (recFld r 256 4096) } }
    else s
  s.tenantTake slot r

/-- DIGEST: the pitch controller's results, provenance, replica digests (R205, R363, R369, R546). -/
def State.takeDigest (slot : Nat) (r : Rec) (s : State) : State :=
  let ty := rType r
  if ty = 0xC0 then
    let s : State := if recFld r 136 8 = 1 then s.auditAppend r else s
    if recFld r 136 8 ≤ 1 ∧ s.si.starved.contains (slot * 256 + recFld r 128 8) then s.starveSet (s.si.starved.filter (· != slot * 256 + recFld r 128 8)) else s
  else if ty = 0xC1 then ((if s.role = 1 then s.keepOutput r else s).auditAppend r).tenantTake slot r
  else if ty = 0xC2 then s.replicaArrive r
  else s

/-- A FenceEventRecord mirrored from a Helad: an audit entry; the Tray persists the MODE and keeps its copy (R195, R369, R378). -/
def State.fenceMirror (slot : Nat) (b : Rec) (s : State) : State :=
  let s : State := s.auditAppend b
  if recFld b 136 2 = recFld b 138 2 then s
  else
    let u := recFld b 128 8
    let s : State := s.persistFence slot u (setBits (tgetD s.si.perDie (slot * 256 + u) (32 * 2 ^ 48)) 0 2 (recFld b 138 2))
    let k := slot * 2 ^ 24 + fenceKey u
    { s with ln := { s.ln with copies := tset s.ln.copies k (setBits (s.copyOf slot (fenceKey u)) 0 2 (recFld b 138 2)) } }

/-- The record that a recorder entry wraps (R474). -/
def entryBody (e : Rec) : Rec := (e.drop 3).take (e.length - 4)

/-- EVENT: the AO-ring mirror, and the event queues; MissedAction records pass upward, and Kiln takes them at a Tray (R205, R399, R478, R541). -/
def State.takeEvent (slot : Nat) (r : Rec) (s : State) : State :=
  let ty := rType r
  if ty = 0xF4 then
    let base := tgetD s.tm.ohBase slot (0, 0)
    let s : State := s.aoMirror slot base r
    let held := recFld r 128 40
    let s : State := if recFld r 168 32 = base.2 then { s with tm := { s.tm with ohBase := tset s.tm.ohBase slot (max base.1 held, base.2) } } else s
    if rType (entryBody r) = 0xC7 then s.fenceMirror slot (entryBody r) else s
  else if ty = 0x20 ∨ ty = 0x26 then
    let s : State := s.occur (s.slotSource slot) none r
    if ty = 0x26 then
      let s : State := if s.role = 1 then s.kilnArrive slot r else s
      if s.role = 3 then s else s.upSend stEvent r
    else s
  else s

/-- SERIES: step times go on to their home, closes and advisories to the Apex, which posts them (R240, R246). -/
def State.takeSeries (r : Rec) (s : State) : State :=
  let ty := rType r
  if ty = 0x82 then
    match s.stepEntry (rPart r) with
    | some e => if s.i (inst O.StepHome e.1) = s.role then s else s.upSend stSeries r
    | none => s.upSend stSeries r
  else if ty = 0x83 ∨ ty = 0x84 then
    if s.role = 3 then (s.hostPost r).stepVf (rPart r) (if ty = 0x83 then [256, 320, 384, 448] else [256, 320, 384]) r else s.upSend stSeries r
  else s

/-- Upward BULK (R205): posted at the level that a subscription of its own names, else forwarded; the Apex posts all. -/
def State.takeBulk (r : Rec) (s : State) : State :=
  if s.role = 3 then s.hostPost r
  else if (List.range 64).any fun e => s.exportNames e r && s.i (inst O.ExportTarget e) == 2 then s.hostPost r
  else s.upSend stBulk r

/-! ### Routing (R205, R420) -/

/-- Ring priority of a stored record (R205): a trace block's by its CLASS. -/
def ringPri (st : Nat) (r : Rec) : Nat :=
  if st = stTrace then (if recFld r 134 2 ≤ 1 then 2 else 3)
  else if st = stCounter ∨ st = stSeries then 1 else 0

/-- Engines that read a staged record: the series engine, and the Mash regions and Steep groups whose images select it (R206, R227, R305). -/
def State.readers (slot : Nat) (r : Rec) (s : State) : Nat :=
  s.feedNeed slot r ||| (if (rType r = 0x31 ∧ s.role = 1) ∨ rType r = 0x80 then 2 else 0)

/-- Stages a record and admits it to the ring (R205–R207). -/
def State.storeRecord (slot st fseq cutNum : Nat) (r : Rec) (s : State) : State :=
  (s.stage slot st fseq (s.readers slot r) r).admitExport slot (ringPri st r) st fseq cutNum r

/-- Routes a record that passes the checks (R205). -/
def State.routeRecord (slot st fseq cutNum : Nat) (r : Rec) (s : State) : State :=
  let s : State := { s with gr := { s.gr with taken := tset s.gr.taken (slot * 16 + st) fseq } }
  let s : State := s.benchCopy r
  if st = stBulk then s.takeBulk r
  else
    if st = stTime then s
    else if s.staleRecord (rPart r) (recStamp r) then s.addOb .icd O.StalePartitionRecords 32 1
    else if st = stAudit then s.childSealTake slot r
    else
      let s : State := s.storeRecord slot st fseq cutNum r
      if st = stAlarm then s.takeAlarm slot r
      else if st = stControl then s.takeControl slot r
      else if st = stCounter then s.takeCounter slot st fseq r
      else if st = stTrace then s.tenantTake slot r
      else if st = stDigest then s.takeDigest slot r
      else if st = stEvent then s.takeEvent slot r
      else if st = stSeries then s.takeSeries r
      else s

/-- INGRESS_BACKPRESSURE: after a counted record, reassembly of the slot is paused for MAGNITUDE µs (R536). -/
def State.ingressPause (slot st : Nat) (r : Rec) (s : State) : State :=
  let hit := s.rouseEvent 2 st (rPart r) fun t => t == slot || tget s.ln.dieGid slot == some t
  match hit.1 with
  | some m => { hit.2 with pw := { hit.2.pw with paused := tset hit.2.pw.paused slot (s.ft .icd + us m) } }
  | none => hit.2

/-- A discarded record leaves the history of its key incomplete until the key's next HIST_RESET (R221). -/
def State.breakKey (slot st : Nat) (k : List Nat) (s : State) : State :=
  if st = stCounter then { s with gr := { s.gr with hist := tset s.gr.hist slot (histBreak (tgetD s.gr.hist slot []) k) } } else s

/-- Takes one reassembled record: restoration, checks, routing (R204). -/
def State.ingestRecord (slot st : Nat) (us : List RxUnit) (s : State) : State :=
  let seq := (us.head?.map (·.seq)).getD 0
  let cutNum := (us.head?.map (·.cut)).getD 0
  let p := s.restore slot st seq cutNum (us.map (·.unit))
  match p.1 with
  | none => p.2
  | some r =>
    if p.2.badRecord st slot us r then (p.2.breakKey slot st (finKey r)).malformed st slot seq cutNum (16 * us.length)
    else (p.2.routeRecord slot st seq cutNum r).ingressPause slot st r

/-- Whether a link carries telemetry up to this device: a die-facing slot of a Tray, a downward link above (R204). -/
def State.ingressLink (l : Link) (s : State) : Bool :=
  match l with
  | .slot n => s.role == 1 && decide (n < 64)
  | .down _ => decide (2 ≤ s.role)
  | _ => false

/-- RECORD_INGEST: the oldest whole record of a link and stream type. A LENGTH of 0 discards the rest of what has been reassembled, and the stream goes on at the next RECORD_START, with the fining histories of a COUNTER stream broken (R14, R204, R221). -/
def State.recordIngest (l : Link) (st : Nat) (s : State) : State :=
  let slot := (gristSlot l).getD 0
  let x := s.rxOf l st
  match x.units with
  | [] => s
  | u :: _ =>
    let n := bits u.unit 16 16
    if !s.ingressLink l ∨ s.ft .icd < tgetD s.pw.paused slot 0 ∨ x.units.length < n then s
    else if n = 0 then ((s.setRx l st { x with units := [], resync := true }).breakStream slot st).malformed st slot u.seq u.cut 16
    else (s.setRx l st { x with units := x.units.drop n }).ingestRecord slot st (x.units.take n)

/-- RECORD_INGEST. -/
def execRecordIngest (l : Link) (st : Nat) : State → Host.Outcome State Fault Refusal := run (State.recordIngest l st)

end Sys2Proof.Machine
end

