-- ==== Sys2Proof/Machine/Mop.lean ====
section
/-! DEFINITION. Requests of several items: the Melhild Object Protocol and the OBJECT_READ and OBJECT_WRITE descriptors, proxy access to a Helad, subscriptions (R514–R521). -/

namespace Sys2Proof.Machine

/-! ### Items -/

/-- STATUS, CAUSE and value of an item that has been processed. -/
abbrev ItemRes := Nat × Nat × Nat

/-- Why an item is refused before anything is done: no such object here, rights, TYPE or SIZE, range (R504, R506, R510, R517). -/
def State.itemWhy (sd : Side) (q : Req) (wr timed : Bool) (it : Item) (s : State) : Option Res :=
  match objSpec it.key with
  | none => some (no stNoObject)
  | some o =>
    if !holds sd it.key then some (no stNoObject)
    else
      match (if wr then s.writeRight q it.key else s.readRight q it.key) with
      | some r => some r
      | none =>
        if it.ty ≠ o.ty ∨ it.size ≠ o.bits / 8 then some (no stMalformed)
        else if wr && sd == .hel && trayOnly it.key then some (no stDenied)
        else if timed && o.acc q.role != .rw then some (no stDenied)
        else if wr && s.tenantMoves q it.key it.val then some (no stDenied)
        else if wr && !inRange it.key it.val then some (no stRange)
        else none

/-- One item of a write at this device. -/
def State.writeItem (q : Req) (env : WriteEnv) (it : Item) : Op := fun s =>
  match s.itemWhy .icd q true false it with
  | some r => (s, r)
  | none =>
    if !s.twinReach it.key || s.observeBlocks q then (s, no stBusy)
    else s.writeThrough it.key it.val (State.objectOp .icd q it.key it.val env)

/-- One item of a timed write at this device: rights now, the value at its instant (R19, R63). -/
def State.timedItem (q : Req) (t : Nat) (it : Item) : Op := fun s =>
  match s.itemWhy .icd q true true it with
  | some r => (s, r)
  | none =>
    if !s.twinReach it.key || s.observeBlocks q then (s, no stBusy)
    else if !s.leadOk t then (s, no stLead)
    else
      let h := s.newHandle
      let p := h.2.queueAct .icd ⟨h.1, 6, t, 0, 0, 0, it.key, it.val, false, false, s.ft .icd⟩
      if p.2 then (p.1, okH h.1) else (p.1, no stQueueFull)

/-- Runs operations in order, gathering how each ended. -/
def runOps : List Op → State → State × List Res
  | [], s => (s, [])
  | f :: t, s => let p := f s; let r := runOps t p.1; (r.1, p.2 :: r.2)

/-- The write of a list of items: with ATOMIC none is applied unless all pass (R519). -/
def State.writeItems (q : Req) (timed : Option Nat) (atomic : Bool) (env : WriteEnv) (items : List Item) (s : State) : State × List Res :=
  let p := runOps (items.map fun it => match timed with | some t => State.timedItem q t it | none => State.writeItem q env it) s
  if atomic && p.2.any (fun r => r.st != 0) then (s, p.2) else p

/-- The STATUS of a request with several items: that of the first that failed (R518). -/
def overall (l : List Res) : Res := (l.find? fun r => r.st != 0).getD ⟨0, 0, ((l.find? fun r => r.handle != 0).map (·.handle)).getD 0⟩

/-- The answer to a request of items: a MOP response with the items and a FanoutSummary, or the items written back to the argument and a completion (R517, R515, R521). -/
def State.finishItems (q : Req) (desc wr : Bool) (items : List Item) (res : List (Res × Nat)) (st : Option Nat) (fan : List Nat) (s : State) : State :=
  let body := (items.zip res).flatMap fun p => [p.1.key, p.2.1.st, p.2.1.cause] ++ (if wr then [] else [p.2.2])
  let r := overall (res.map (·.1))
  let r : Res := match st with | some x => { r with st := x, cause := 0 } | none => r
  if desc then
    let ring := match q.who with | .ring n => n | _ => 0
    let s : State := if s.isLead then s.put .host ring (0x521 :: body) else s
    s.answer q 0 true r []
  else
    match q.who with
    | .session n => s.reply n q.tag ([r.st, 0] ++ body ++ fan)
    | _ => s.answer q 0 wr r body

/-! ### Proxy access to Helads (R514, R515) -/

/-- Whether a die can be reached: at its Tray the slot is not FAILED, MISWIRED or DARK, above the die stands in the route table (R514). -/
def State.dieReach (gid : Nat) (s : State) : Bool :=
  if s.role ≤ 1 then
    (s.ln.dieGid.any fun p => p.2 == gid && s.slotReach p.1)
  else s.routeKnown gid

/-- Forwards a proxied request down the route table in CONTROL; the Tray lead orders it at its shadow (R514). -/
def State.proxyForward (id : Nat) (gid : Nat) (wr : Bool) (items : List Item) (timed : Option Nat) (s : State) : State :=
  let r := proxyRec id gid wr items timed
  match s.dieLink gid with
  | none => s
  | some l =>
    if s.role = 1 then
      let s : State := if wr && s.isLead && s.tm.xlinkUp then { s with mo := { s.mo with pos := s.mo.pos + 1 } }.xMsg 0x514 (s.mo.pos :: gid :: r) else s
      s.downSend l stControl r
    else if s.isLead then s.linkSend l stControl r else s

/-- A timed write that finds the queue of the Icdon IX40 full: refused, counted, and answered with a MissedAction record (R61, R541). -/
def State.refusedWrite (t : Nat) (it : Item) (s : State) : State :=
  let (stm, s) := (s.addOb .icd O.ActionRefused 32 1).takeStamp .icd fnRecord
  s.missed .icd ⟨0, 6, t, 0, 0, 0, it.key, it.val, false, false, s.ft .icd⟩ 1 stm

/-- A request on items of a die, or of every Helad below: checked here first, then forwarded; of a timed write this device keeps a copy under the handle, by which it can be cancelled (R64, R514, R515). -/
def State.proxyStart (q : Req) (desc wr below atomic : Bool) (targets : List Nat) (items : List Item) (timed : Option Nat) (env : WriteEnv) (s : State) : State :=
  let pre := items.map fun it =>
    match s.itemWhy .hel q wr timed.isSome it with
    | some r => r
    | none =>
      if wr && s.observeBlocks q then no stBusy
      else match timed with | some t => if s.leadOk t then ok else no stLead | none => ok
  let bad := pre.all (fun r => r.st != 0) || (atomic && pre.any (fun r => r.st != 0))
  if bad then s.finishItems q desc wr items (pre.map fun r => (r, 0)) none []
  else if below && targets.isEmpty then s.finishItems q desc wr items (pre.map fun r => (r, 0)) none [0, 0, 0, 0]
  else if !below && !targets.all (fun g => s.dieReach g) then
    s.finishItems q desc wr items (pre.map fun r => (if r.st = 0 then no stUnreachable else r, 0)) none []
  else if wr && timed.isSome && decide (1024 < (s.acts .icd).length + items.length) then
    let s : State := (items.zip pre).foldl (fun s x => if x.2.st = 0 then s.refusedWrite (timed.getD 0) x.1 else s) s
    s.finishItems q desc wr items (pre.map fun r => (if r.st = 0 then no stQueueFull else r, 0)) none []
  else
    let live := targets.filter fun g => s.dieReach g
    let dead := targets.filter fun g => !s.dieReach g
    let h := s.newHandle
    let p : Proxy := ⟨q, desc, wr, items, pre.map fun r => (r.st, r.cause, 0), timed, env, s.ft .icd, below, live, 0, dead.length, dead.headD 0, targets.length, atomic⟩
    let s : State := { h.2 with mo := { h.2.mo with proxies := tset h.2.mo.proxies h.1 p } }
    let fwd := (items.zip pre).filterMap fun x => if x.2.st = 0 then some x.1 else none
    let s : State := match wr, timed with
      | true, some t => s.setActs .icd (s.acts .icd ++ fwd.map fun it => ⟨h.1, 6, t, 1, 0, 0, it.key, it.val, true, false, s.ft .icd⟩)
      | _, _ => s
    let s : State := live.foldl (fun s g => s.proxyForward h.1 g wr fwd timed) s
    if live.isEmpty then
      ({ s with mo := { s.mo with proxies := tdel s.mo.proxies h.1 } } : State).finishItems q desc wr items (pre.map fun r => (r, 0)) (some stPartial)
        [targets.length, 0, targets.length, dead.headD 0]
    else s

/-- One item at the Helad: a read, a write, or a timed write under the handle of the request (R63, R514). -/
def State.heladItem (q : Req) (handle : Nat) (wr : Bool) (timed : Option Nat) (env : WriteEnv) (it : Item) (s : State) : State × ItemRes :=
  if !holds .hel it.key then (s, (stNoObject, 0, 0))
  else
    let s : State := s.wakeFor it.key
    if !wr then (s, (0, 0, s.readValue .hel it.key))
    else if trayOnly it.key then (s, (stDenied, 0, 0))
    else
      match timed with
      | some t =>
        let p := s.queueAct .hel ⟨handle, 6, t, 0, 0, 0, it.key, it.val, true, false, s.ft .hel⟩
        (p.1, (if p.2 then 0 else stQueueFull, 0, 0))
      | none =>
        let p := State.objectOp .hel q it.key it.val env s
        (if p.2.st = 0 then p.1.copySet (p.1.h O.SlotNumber) it.key it.val else p.1, (p.2.st, p.2.cause, 0))

/-- The items of a proxied request at the Helad, those refused before skipped. -/
def State.heladItems (q : Req) (handle : Nat) (wr : Bool) (timed : Option Nat) (env : WriteEnv) : List (Item × ItemRes) → State → State × List ItemRes
  | [], s => (s, [])
  | x :: t, s =>
    let p := if x.2.1 ≠ 0 then (s, x.2) else s.heladItem q handle wr timed env x.1
    let r := State.heladItems q handle wr timed env t p.1
    (r.1, p.2 :: r.2)

/-- Results in the form the answer takes. -/
def itemRes (l : List ItemRes) : List (Res × Nat) := l.map fun r => (⟨r.1, r.2.1, 0⟩, r.2.2)

/-- The Tray's copy follows the writes that a Helad has accepted, a timed one at its instant (R63, R548). -/
def State.copyAccepted (id gid : Nat) (items : List Item) (timed : Option Nat) (res : List ItemRes) (s : State) : State :=
  match s.ln.dieGid.find? fun d => d.2 == gid with
  | some d =>
    (items.zip res).foldl (fun s x =>
      if x.2.1 ≠ 0 then s
      else match timed with
        | some t => s.copyLater id t d.1 x.1.key x.1.val
        | none => if gid = s.hGid then s else s.copyWrite d.1 x.1.key x.1.val) s
  | none => s

/-- The answers held for a time setting leave: OK, or PARTIAL where a Helad has not taken it (R515, R543). -/
def State.timeDone (k : Nat) (w : TimeWait) (s : State) : State :=
  w.ans.foldl (fun s a =>
      if a.items then s.finishItems a.req a.desc true a.list (itemRes a.res) (if w.bad then some stPartial else none) []
      else s.answer a.req k true (if w.bad then no stPartial else ok) [])
    { s with mo := { s.mo with applying := tdel s.mo.applying k } }

/-- A Helad of another slot has answered a time setting: the copy follows, and after the last one the write is answered (R543, R548). -/
def State.timeAnswered (k gid : Nat) (good : Bool) (w : TimeWait) (s : State) : State :=
  if !w.left.contains gid then s
  else
    let s : State := match s.ln.dieGid.find? fun d => d.2 == gid with
      | some d => if good then s.copySet d.1 k w.v else s
      | none => s
    let w : TimeWait := { w with left := w.left.filter (· != gid), bad := w.bad || !good }
    if w.left.isEmpty then s.timeDone k w else { s with mo := { s.mo with applying := tset s.mo.applying k w } }

/-- An answer reaches the receiving Icdon IX40: at a Tray the copy of the die's objects follows the writes accepted (R548); the response leaves, for ALL_BELOW when every target has answered (R514, R515). -/
def State.proxyAnswer (id gid : Nat) (res : List ItemRes) (s : State) : State :=
  match tget s.mo.proxies id with
  | none => s
  | some p =>
    if !p.left.contains gid then s
    else
      let s : State := if s.role = 1 ∧ p.write then s.copyAccepted id gid p.items p.timed res else s
      let good := res.all fun r => r.1 == 0
      let left := p.left.filter (· != gid)
      let p : Proxy := { p with left := left, ok := p.ok + b2n good, failed := p.failed + b2n (!good), first := if good || p.first ≠ 0 then p.first else gid }
      if !p.below then
        ({ s with mo := { s.mo with proxies := tdel s.mo.proxies id } } : State).finishItems p.req p.desc p.write p.items (itemRes res) none []
      else if left.isEmpty then
        let fan := [p.total, p.ok, p.failed, p.first]
        ({ s with mo := { s.mo with proxies := tdel s.mo.proxies id } } : State).finishItems p.req p.desc p.write p.items (itemRes p.pre) (if p.failed = 0 then none else some stPartial) fan
      else { s with mo := { s.mo with proxies := tset s.mo.proxies id p } }

/-- PROXY_REQUEST: the Helad wakes what holds the object, acts once and answers in CONTROL, with ATOMIC only when every item passes; not while it is in reset or in retune (R514, R519, R523, R547). The answers of another die's Helad are those given: to a request of this device, to a time setting of the Tray (R543), or to a request from above, which the Tray passes upward. -/
def State.proxyRequest (id gid : Nat) (role : Role) (wr : Bool) (timed : Option Nat) (items : List Item) (env : WriteEnv) (answers : List ItemRes) (s : State) : State :=
  let held := tget s.mo.proxies id
  if gid ≠ s.hGid ∨ gid = 0 then
    (match held with
     | some p => s.proxyAnswer id gid (p.pre.zipIdx.map fun x => if x.1.1 ≠ 0 then x.1 else answers.getD x.2 (stTimeout, 0, 0))
     | none =>
      (match tget s.mo.applying id with
       | some w => s.timeAnswered id gid ((answers.headD (stTimeout, 0, 0)).1 == 0) w
       | none => if s.role = 1 ∧ s.ln.dieGid.any (fun d => d.2 == gid && d.2 != 0) then
           (if wr then s.copyAccepted id gid items timed answers else s).put .reply 0x4000 ([id, gid] ++ answers.flatMap fun x => [x.1, x.2.1, x.2.2])
         else s))
  else if s.heladReset || s.h O.LaneState == 4 then s
  else
    match held with
    | some p =>
      if !p.left.contains gid then s
      else
        let r := State.heladItems p.req id p.write p.timed p.env (p.items.zip p.pre) s
        (if p.atomic && r.2.any (fun x => x.1 != 0) then s else r.1).proxyAnswer id gid r.2
    | none =>
      let r := State.heladItems ⟨role, 0, .device 0, 0⟩ id wr timed env (items.map fun it => (it, (0, 0, 0))) s
      let t : State := if wr && timed.isSome then r.1.copyAccepted id gid items timed r.2 else r.1
      t.put .reply 0x4000 ([id, gid] ++ r.2.flatMap fun x => [x.1, x.2.1, x.2.2])

/-- PROXY_REQUEST. -/
def execProxyRequest (id gid : Nat) (role : Role) (write : Bool) (timed : Option Nat) (items : List Item) (env : WriteEnv) (answers : List (Nat × Nat × Nat)) :
    State → Host.Outcome State Fault Refusal := run (State.proxyRequest id gid role write timed items env answers)

/-- PROXY_TIMEOUT: no answer within ProxyTimeout; TIMEOUT, or for ALL_BELOW PARTIAL with the silent dies counted as failed. -/
def State.proxyTimeout (id : Nat) (s : State) : State :=
  match tget s.mo.proxies id with
  | none =>
    (match tget s.mo.applying id with
     | some w => if s.ft .icd < w.since + ms (s.i O.ProxyTimeout) then s else s.timeDone id { w with bad := true }
     | none => s)
  | some p =>
    if s.ft .icd < p.since + ms (s.i O.ProxyTimeout) then s
    else
      let s : State := { s with mo := { s.mo with proxies := tdel s.mo.proxies id } }
      let n := p.left.length
      if p.below then
        s.finishItems p.req p.desc p.write p.items (itemRes p.pre) (some stPartial)
          [p.total, p.ok, p.failed + n, if p.first ≠ 0 then p.first else p.left.headD 0]
      else s.finishItems p.req p.desc p.write p.items (itemRes (p.pre.map fun r => if r.1 = 0 then (stTimeout, 0, 0) else r)) none []

/-- PROXY_TIMEOUT. -/
def execProxyTimeout (id : Nat) : State → Host.Outcome State Fault Refusal := run (State.proxyTimeout id)

/-! ### Requests of items -/

/-- Whether a target is this device, or its pair for a twinned object (R509, R516). -/
def State.here (gid : Nat) (s : State) : Bool := gid == 0 || gid == s.iGid

/-- A read of items at a target (R514, R517). -/
def State.itemsRead (q : Req) (desc : Bool) (gid : Nat) (items : List Item) (s : State) : State :=
  if s.here gid then
    let res := items.map fun it =>
      match s.itemWhy .icd q false false it with
      | some r => (r, 0)
      | none => (ok, s.readValue .icd it.key)
    s.finishItems q desc false items res none []
  else if gid / 2 ^ 24 = 1 then s.proxyStart q desc false false false [gid] items none noEnv
  else s.finishItems q desc false items (items.map fun _ => (no stUnreachable, 0)) (some stUnreachable) []

/-- A write of items at a target (R509, R514, R515, R519). -/
def State.itemsWrite (q : Req) (desc below atomic : Bool) (gid : Nat) (items : List Item) (timed : Option Nat) (env : WriteEnv) (s : State) : State :=
  if below then
    if s.here gid ∨ gid = s.tw.twinGid then s.proxyStart q desc true true atomic (wordsDies s.tw.members) items timed env
    else if gid / 2 ^ 24 = 1 then s.finishItems q desc true items (items.map fun _ => (no stMalformed, 0)) (some stMalformed) []
    else
      match s.routeDown gid with
      | some l => s.proxyStart q desc true true atomic ((s.membersBelow l).filter (s.inScope gid)) items timed env
      | none => s.finishItems q desc true items (items.map fun _ => (no stUnreachable, 0)) (some stUnreachable) []
  else if s.here gid ∨ (gid = s.tw.twinGid ∧ items.all fun it => !localKey it.key) then
    let p := s.writeItems q timed atomic env items
    match (items.zip p.2).reverse.find? fun x => x.2.st == 0 && (tget p.1.mo.applying x.1.key).isSome with
    | some x => if timed.isNone then p.1.holdAnswer x.1.key ⟨q, true, desc, items, p.2.map fun r => (r.st, r.cause, 0)⟩ else p.1.finishItems q desc true items (p.2.map fun r => (r, 0)) none []
    | none => p.1.finishItems q desc true items (p.2.map fun r => (r, 0)) none []
  else if gid / 2 ^ 24 = 1 then s.proxyStart q desc true false atomic [gid] items timed env
  else s.finishItems q desc true items (items.map fun _ => (no stUnreachable, 0)) (some stUnreachable) []

/-- OBJECT_READ: results go back to the argument before the completion; an argument that cannot be read is ARG_FAULT (R521). -/
def State.objectRead (q : Req) (gid : Nat) (items : Option (List Item)) (s : State) : State :=
  if !s.acked q then s
  else match items with
  | none => s.answer q 0 false (no stArg) []
  | some l => s.itemsRead q true gid l

/-- OBJECT_READ. -/
def execObjectRead (q : Req) (gid : Nat) (items : Option (List Item)) : State → Host.Outcome State Fault Refusal := run (State.objectRead q gid items)

/-- OBJECT_WRITE: as OBJECT_READ, timed when TIMED is set (R63, R521). -/
def State.objectWrite (q : Req) (gid : Nat) (items : Option (List Item)) (timed : Option Nat) (env : WriteEnv) (s : State) : State :=
  if !s.acked q then s
  else match items with
  | none => s.answer q 0 true (no stArg) []
  | some l => s.itemsWrite q true false false gid l timed env

/-- OBJECT_WRITE. -/
def execObjectWrite (q : Req) (gid : Nat) (items : Option (List Item)) (timed : Option Nat) (env : WriteEnv) : State → Host.Outcome State Fault Refusal :=
  run (State.objectWrite q gid items timed env)

/-! ### The protocol (R516–R520) -/

/-- Requests of a session in progress: proxied ones and partition operations that wait. -/
def State.sessionBusy (n : Nat) (s : State) : Nat :=
  (s.mo.proxies.filter fun p => p.2.req.who == .session n).length + (s.mo.applying.flatMap fun p => p.2.ans.filter fun a => a.req.who == .session n).length + (s.tw.ops.filter fun o => o.req.who == .session n).length

/-- A READ in the bootstrap-free path, which has no sessions: 0x1000.01–.06 alone, else ACCESS_DENIED (R526). -/
def State.bootRead (h : MopHdr) (items : List Item) (s : State) : State :=
  if h.ver ≠ 1 ∨ h.rsv ≠ 0 ∨ h.below ∨ h.timed.isSome then s.put .reply h.sess [h.tag, stMalformed, 0]
  else if !(s.here h.gid && items.all fun it => keyIdx it.key == 0x1000 && 1 ≤ keySub it.key && keySub it.key ≤ 6) then s.put .reply h.sess [h.tag, stDenied, 0]
  else
    let res := items.map fun it => (s.itemWhy .icd ⟨.mt, 0, .device 0, h.tag⟩ false false it).getD ok
    s.put .reply h.sess ([h.tag, (overall res).st, 0] ++ (items.zip res).flatMap fun p => [p.1.key, p.2.st, p.2.cause, if p.2.st = 0 then s.readValue .icd p.1.key else 0])

/-- A WRITE in the bootstrap-free path (R526): RecoveryOffset; RecoveryData and RecoveryCommit are commands of their own; else ACCESS_DENIED. -/
def State.bootWrite (h : MopHdr) (items : List Item) (s : State) : State :=
  if h.ver ≠ 1 ∨ h.rsv ≠ 0 ∨ h.below ∨ h.timed.isSome then s.put .reply h.sess [h.tag, stMalformed, 0]
  else if !(s.here h.gid && items.all fun it => it.key == O.RecoveryOffset) then s.put .reply h.sess [h.tag, stDenied, 0]
  else if !(items.all fun it => it.ty == 3 && it.size == 4 && decide (it.val < 2 ^ 32)) then s.put .reply h.sess [h.tag, stMalformed, 0]
  else (items.foldl (fun s it => s.iSet O.RecoveryOffset it.val) s).put .reply h.sess ([h.tag, stOk, 0] ++ items.flatMap fun it => [it.key, 0, 0])

/-- A MOP request: NOT_READY during an activation switch, the stored response for a repeated TAG, BUSY beyond 16 in progress, MALFORMED for a bad header, else the request with the session's role (R506, R516, R519, R523). Without a session only the bootstrap-free path answers, with ACCESS_DENIED (R526). -/
def State.mopRequest (h : MopHdr) (f : Req → State → State) (s : State) : State :=
  match tget s.mo.sessions h.sess with
  | none => if s.pw.phase = 1 then s.put .reply h.sess [h.tag, stDenied, 0] else s
  | some se =>
    if s.pw.switching then s.put .reply h.sess [h.tag, stNotReady, 66]
    else
      match se.tags.find? fun t => t.1 == h.tag && decide (s.ft .icd < t.2.1 + ms 1000) with
      | some t => if t.2.2.isEmpty then s else s.put .reply h.sess t.2.2
      | none =>
        if 16 ≤ s.sessionBusy h.sess then s.put .reply h.sess [h.tag, stBusy, 0]
        else
          let s : State := { s with mo := { s.mo with sessions := tset s.mo.sessions h.sess (se.keep h.tag (s.ft .icd) []) } }
          if h.ver ≠ 1 ∨ h.rsv ≠ 0 then s.reply h.sess h.tag [stMalformed, 0]
          else f ⟨se.role, se.part, .session h.sess, h.tag⟩ s

/-- READ. Reads cannot use ALL_BELOW, and TIMED is for WRITE only. -/
def State.mopRead (h : MopHdr) (items : List Item) (s : State) : State :=
  if s.pw.phase = 1 ∧ (tget s.mo.sessions h.sess).isNone then s.bootRead h items
  else s.mopRequest h fun q s =>
    if h.below ∨ h.timed.isSome then s.reply h.sess h.tag [stMalformed, 0]
    else s.itemsRead q false h.gid items

/-- READ. -/
def execRead (h : MopHdr) (items : List Item) : State → Host.Outcome State Fault Refusal := run (State.mopRead h items)

/-- WRITE. -/
def State.mopWrite (h : MopHdr) (items : List Item) (env : WriteEnv) (s : State) : State :=
  if s.pw.phase = 1 ∧ (tget s.mo.sessions h.sess).isNone then s.bootWrite h items
  else s.mopRequest h fun q s => s.itemsWrite q false h.below h.atomic h.gid items h.timed env

/-- WRITE. -/
def execWrite (h : MopHdr) (items : List Item) (env : WriteEnv) : State → Host.Outcome State Fault Refusal := run (State.mopWrite h items env)

/-- WINDOW_READ: bytes of the frozen window; the roles that read the recorder (R476, R495, R517). -/
def State.windowRead (h : MopHdr) (off len : Nat) (s : State) : State :=
  s.mopRequest h fun q s =>
    if q.role = .tp then s.reply h.sess h.tag [stDenied, 0]
    else if h.below ∨ h.timed.isSome ∨ len < 16 ∨ 1024 < len ∨ len % 16 ≠ 0 ∨ 4096 < off + len then s.reply h.sess h.tag [stMalformed, 0]
    else
      let w := recBytes s.ir.window
      s.reply h.sess h.tag ([stOk, 0] ++ (List.range len).map fun i => w.getD (off + i) 0)

/-- WINDOW_READ. -/
def execWindowRead (h : MopHdr) (off len : Nat) : State → Host.Outcome State Fault Refusal := run (State.windowRead h off len)

/-- A descriptor of a session, as if taken from PF ring 0 with the session's role (R517, R521). -/
def State.sessionDesc (q : Req) (d : DescIn) (s : State) : State :=
  match d with
  | .raw d => s.answer q 0 true (no ((descBad q.part d).getD stArg)) []
  | .objectRead gid items => s.objectRead q gid (some items)
  | .objectWrite gid items timed env => s.objectWrite q gid (some items) timed env
  | .actionCancel hd => s.descriptor q (State.cancelOp .icd hd)
  | .utSample utc ft => s.descriptor q (State.utSampleOp utc ft)
  | .caskSeal timed at_ => s.descriptor q (State.caskSealOp q.tag false timed at_)
  | .finingJob arg => s.finingJob q false 0 arg
  | .modelSwitch b c at_ => s.modelSwitch q false b c at_
  | .mashSwitch r i at_ => s.mashSwitch q false r i at_
  | .steepSwitch g i at_ => s.steepSwitch q false g i at_
  | .patternStage image sigOk => s.descriptor q (State.patternStageOp image sigOk)
  | .replicaDefine g m => s.descriptor q (State.replicaDefineOp g m)
  | .cut at_ arg scope => s.descriptor q (State.cutOp at_ arg scope)
  | .cutRelease timed at_ n => s.descriptor q (State.cutReleaseOp timed at_ n)
  | .partitionCreate part test set => s.partAccept q 0 part test set
  | .partitionAdd part set => s.partAccept q 1 part false set
  | .partitionRemove part set => s.partAccept q 2 part false set
  | .partitionTeardown part => s.partAccept q 3 part false []
  | .dieRemove gid => s.descriptor q (State.dieRemoveOp gid)
  | .broadcast image sigOk => s.descriptor q (State.broadcastOp image sigOk)

/-- DESCRIPTOR. -/
def State.mopDescriptor (h : MopHdr) (d : DescIn) (s : State) : State :=
  s.mopRequest h fun q s =>
    if h.below ∨ h.timed.isSome then s.reply h.sess h.tag [stMalformed, 0] else s.sessionDesc q d

/-- DESCRIPTOR. -/
def execDescriptor (h : MopHdr) (d : DescIn) : State → Host.Outcome State Fault Refusal := run (State.mopDescriptor h d)

/-- SUBSCRIBE: opens or closes one of the session's four subscriptions (R520). -/
def State.subscribe (h : MopHdr) (id : Nat) (enable : Bool) (mask : Nat) (s : State) : State :=
  s.mopRequest h fun _ s =>
    if h.below ∨ h.timed.isSome ∨ 4 ≤ id then s.reply h.sess h.tag [stMalformed, 0]
    else
      match tget s.mo.sessions h.sess with
      | none => s
      | some se =>
        ({ s with mo := { s.mo with sessions := tset s.mo.sessions h.sess { se with subs := tset se.subs id ⟨enable, mask, 0, 0⟩ } } } : State).reply h.sess h.tag [stOk, 0]

/-- SUBSCRIBE. -/
def execSubscribe (h : MopHdr) (id : Nat) (enable : Bool) (mask : Nat) : State → Host.Outcome State Fault Refusal := run (State.subscribe h id enable mask)

end Sys2Proof.Machine
end

