-- ==== Sys2Proof/Machine/Dispatch.lean ====
section
/-! DEFINITION. One arm per command: each is one direct call of its meaning. -/

namespace Sys2Proof.Machine

/-- A command's effect on everything but the queue of waiting commands. -/
def exec (i : Instr) (s : State) : Host.Outcome State Fault Refusal :=
  match i with
  | .powerOn pu => Sys2Proof.Machine.execPowerOn pu s
  | .inputLow volt => Sys2Proof.Machine.execInputLow volt s
  | .inputRestored volt => Sys2Proof.Machine.execInputRestored volt s
  | .inputTurnOff => Sys2Proof.Machine.execInputTurnOff s
  | .coldReset q gid crit pu => Sys2Proof.Machine.execColdReset q gid crit pu s
  | .warmReset q gid pu => Sys2Proof.Machine.execWarmReset q gid pu s
  | .watchdogExpiry cores pu => Sys2Proof.Machine.execWatchdogExpiry cores pu s
  | .domainReset q v => Sys2Proof.Machine.execDomainReset q v s
  | .domainIdleOff d => Sys2Proof.Machine.execDomainIdleOff d s
  | .initDone q v => Sys2Proof.Machine.execInitDone q v s
  | .fillSubmit q v => Sys2Proof.Machine.execFillSubmit q v s
  | .fillDone => Sys2Proof.Machine.execFillDone s
  | .recoveryData data => Sys2Proof.Machine.execRecoveryData data s
  | .recoveryCommit kind sigOk flashOk pu => Sys2Proof.Machine.execRecoveryCommit kind sigOk flashOk pu s
  | .haoReset => Sys2Proof.Machine.execHaoReset s
  | .haoResetRelease => Sys2Proof.Machine.execHaoResetRelease s
  | .hmainReset => Sys2Proof.Machine.execHmainReset s
  | .hmainResetRelease => Sys2Proof.Machine.execHmainResetRelease s
  | .aoClkAbsent => Sys2Proof.Machine.execAoClkAbsent s
  | .aoClkReturn absentUs => Sys2Proof.Machine.execAoClkReturn absentUs s
  | .domainWakeRequest d groups => Sys2Proof.Machine.execDomainWakeRequest d groups s
  | .domainReady d => Sys2Proof.Machine.execDomainReady d s
  | .domainSleep d groups => Sys2Proof.Machine.execDomainSleep d groups s
  | .syncTagSend l w => Sys2Proof.Machine.execSyncTagSend l w s
  | .syncTag u l w r => Sys2Proof.Machine.execSyncTag u l w r s
  | .delayReq l w r => Sys2Proof.Machine.execDelayReq l w r s
  | .servoUpdate u => Sys2Proof.Machine.execServoUpdate u s
  | .holdoverTimeout u => Sys2Proof.Machine.execHoldoverTimeout u s
  | .rootFtStart collected => Sys2Proof.Machine.execRootFtStart collected s
  | .rootFtPersist => Sys2Proof.Machine.execRootFtPersist s
  | .ohSecondTick u => Sys2Proof.Machine.execOhSecondTick u s
  | .dozeSyncWake => Sys2Proof.Machine.execDozeSyncWake s
  | .rtPulse => Sys2Proof.Machine.execRtPulse s
  | .rtTodSample tod => Sys2Proof.Machine.execRtTodSample tod s
  | .rtPulseTimeout => Sys2Proof.Machine.execRtPulseTimeout s
  | .rtHoldoverLimit => Sys2Proof.Machine.execRtHoldoverLimit s
  | .guardDrainStart => Sys2Proof.Machine.execGuardDrainStart s
  | .guardRegionEnd => Sys2Proof.Machine.execGuardRegionEnd s
  | .utSample q utc ft => Sys2Proof.Machine.execUtSample q utc ft s
  | .timedActionReceive u a => Sys2Proof.Machine.execTimedActionReceive u a s
  | .actionCancel q handle => Sys2Proof.Machine.execActionCancel q handle s
  | .cancelReceive u handle => Sys2Proof.Machine.execCancelReceive u handle s
  | .timedObjectWrite u => Sys2Proof.Machine.execTimedObjectWrite u s
  | .pulseArm q u n v => Sys2Proof.Machine.execPulseArm q u n v s
  | .pulseStart u n => Sys2Proof.Machine.execPulseStart u n s
  | .pulseEdge u n => Sys2Proof.Machine.execPulseEdge u n s
  | .captureEdge u n rising => Sys2Proof.Machine.execCaptureEdge u n rising s
  | .epochBoundary => Sys2Proof.Machine.execEpochBoundary s
  | .epochAnchorSend l => Sys2Proof.Machine.execEpochAnchorSend l s
  | .epochAnchor r => Sys2Proof.Machine.execEpochAnchor r s
  | .epochClose n agreed fetched => Sys2Proof.Machine.execEpochClose n agreed fetched s
  | .contributionReceive port r => Sys2Proof.Machine.execContributionReceive port r s
  | .resultPost n => Sys2Proof.Machine.execResultPost n s
  | .supplementClose n agreed => Sys2Proof.Machine.execSupplementClose n agreed s
  | .epochLengthWrite q v => Sys2Proof.Machine.execEpochLengthWrite q v s
  | .reductionCommit q => Sys2Proof.Machine.execReductionCommit q s
  | .twinDigestSend n kind => Sys2Proof.Machine.execTwinDigestSend n kind s
  | .twinDigestCompare r => Sys2Proof.Machine.execTwinDigestCompare r s
  | .twinDigestAbsent n kind => Sys2Proof.Machine.execTwinDigestAbsent n kind s
  | .repairRequest l st seqs => Sys2Proof.Machine.execRepairRequest l st seqs s
  | .repairAnswer l st flits => Sys2Proof.Machine.execRepairAnswer l st flits s
  | .repairHoldExpiry l st => Sys2Proof.Machine.execRepairHoldExpiry l st s
  | .tapIncrement port inc tag evt bad => Sys2Proof.Machine.execTapIncrement port inc tag evt bad s
  | .conditionHoldExpiry u => Sys2Proof.Machine.execConditionHoldExpiry u s
  | .commandStart stream cmdid part => Sys2Proof.Machine.execCommandStart stream cmdid part s
  | .commandEnd stream cmdid part bad => Sys2Proof.Machine.execCommandEnd stream cmdid part bad s
  | .counterConfigWrite q n v => Sys2Proof.Machine.execCounterConfigWrite q n v s
  | .counterClear q k mask => Sys2Proof.Machine.execCounterClear q k mask s
  | .setCommit q mask => Sys2Proof.Machine.execSetCommit q mask s
  | .counterSample => Sys2Proof.Machine.execCounterSample s
  | .partitionPowerTick => Sys2Proof.Machine.execPartitionPowerTick s
  | .configCopyReadback slot objs sets => Sys2Proof.Machine.execConfigCopyReadback slot objs sets s
  | .tracePacket src data bad => Sys2Proof.Machine.execTracePacket src data bad s
  | .traceCadenceBoundary => Sys2Proof.Machine.execTraceCadenceBoundary s
  | .traceCadenceWrite q v => Sys2Proof.Machine.execTraceCadenceWrite q v s
  | .traceBlockFlush src => Sys2Proof.Machine.execTraceBlockFlush src s
  | .tfDozeRise src cut => Sys2Proof.Machine.execTfDozeRise src cut s
  | .tfDozeFall src => Sys2Proof.Machine.execTfDozeFall src s
  | .seqEnable q v => Sys2Proof.Machine.execSeqEnable q v s
  | .seqCounterTarget => Sys2Proof.Machine.execSeqCounterTarget s
  | .compFtInstant k => Sys2Proof.Machine.execCompFtInstant k s
  | .triggerCode code => Sys2Proof.Machine.execTriggerCode code s
  | .readRequestIssue => Sys2Proof.Machine.execReadRequestIssue s
  | .readResponse tag data last err => Sys2Proof.Machine.execReadResponse tag data last err s
  | .readTimeout tag => Sys2Proof.Machine.execReadTimeout tag s
  | .fenceRequest u => Sys2Proof.Machine.execFenceRequest u s
  | .fenceAckRise u => Sys2Proof.Machine.execFenceAckRise u s
  | .fenceRelease u => Sys2Proof.Machine.execFenceRelease u s
  | .fenceAckFall u => Sys2Proof.Machine.execFenceAckFall u s
  | .fenceAckTimeout u => Sys2Proof.Machine.execFenceAckTimeout u s
  | .fenceMapLoad => Sys2Proof.Machine.execFenceMapLoad s
  | .fenceEntryWrite q u v => Sys2Proof.Machine.execFenceEntryWrite q u v s
  | .haltAckRise g => Sys2Proof.Machine.execHaltAckRise g s
  | .haltAckTimeout g => Sys2Proof.Machine.execHaltAckTimeout g s
  | .radioGroupRise g => Sys2Proof.Machine.execRadioGroupRise g s
  | .pitchRunStart u => Sys2Proof.Machine.execPitchRunStart u s
  | .pitchResponse tag status cmdid => Sys2Proof.Machine.execPitchResponse tag status cmdid s
  | .pitchTimeout u => Sys2Proof.Machine.execPitchTimeout u s
  | .pitchOutputChecked u => Sys2Proof.Machine.execPitchOutputChecked u s
  | .snapshotShiftResume data => Sys2Proof.Machine.execSnapshotShiftResume data s
  | .snapshotShiftComplete data reset => Sys2Proof.Machine.execSnapshotShiftComplete data reset s
  | .hvFtnowLatch => Sys2Proof.Machine.execHvFtnowLatch s
  | .hvHoursLatch => Sys2Proof.Machine.execHvHoursLatch s
  | .oeFault => Sys2Proof.Machine.execOeFault s
  | .flitTransmit bad => Sys2Proof.Machine.execFlitTransmit bad s
  | .flitSchedule port wave => Sys2Proof.Machine.execFlitSchedule port wave s
  | .flitReceive l flit bad corrected both => Sys2Proof.Machine.execFlitReceive l flit bad corrected both s
  | .downstreamChannelLost ch => Sys2Proof.Machine.execDownstreamChannelLost ch s
  | .fabricSkewHoldExpiry l st => Sys2Proof.Machine.execFabricSkewHoldExpiry l st s
  | .recordIngest l st => Sys2Proof.Machine.execRecordIngest l st s
  | .lightDetect slot => Sys2Proof.Machine.execLightDetect slot s
  | .lossOfLight slot both held => Sys2Proof.Machine.execLossOfLight slot both held s
  | .fecFailCount slot n both held => Sys2Proof.Machine.execFecFailCount slot n both held s
  | .slotAssign ch r => Sys2Proof.Machine.execSlotAssign ch r s
  | .trainDone ch r => Sys2Proof.Machine.execTrainDone ch r s
  | .trainDoneWaitExpiry => Sys2Proof.Machine.execTrainDoneWaitExpiry s
  | .laneDoze => Sys2Proof.Machine.execLaneDoze s
  | .laneKeepalive => Sys2Proof.Machine.execLaneKeepalive s
  | .dozeSilentTimeout slot both held => Sys2Proof.Machine.execDozeSilentTimeout slot both held s
  | .slotReset q slot => Sys2Proof.Machine.execSlotReset q slot s
  | .retuneCommand ch r => Sys2Proof.Machine.execRetuneCommand ch r s
  | .retuneSettleExpiry => Sys2Proof.Machine.execRetuneSettleExpiry s
  | .retuneAcquireTimeout slot both => Sys2Proof.Machine.execRetuneAcquireTimeout slot both s
  | .spareTrainSlot q slot => Sys2Proof.Machine.execSpareTrainSlot q slot s
  | .revertSlot q slot => Sys2Proof.Machine.execRevertSlot q slot s
  | .fabricWavelengthFail port wave => Sys2Proof.Machine.execFabricWavelengthFail port wave s
  | .standbyUplinkSwitch => Sys2Proof.Machine.execStandbyUplinkSwitch s
  | .d2dFatal link => Sys2Proof.Machine.execD2dFatal link s
  | .cxlLinkFail port => Sys2Proof.Machine.execCxlLinkFail port s
  | .thermalThreshold sensor temp => Sys2Proof.Machine.execThermalThreshold sensor temp s
  | .thermalCritical sensor => Sys2Proof.Machine.execThermalCritical sensor s
  | .throttleStep power => Sys2Proof.Machine.execThrottleStep power s
  | .ringFetch ctls => Sys2Proof.Machine.execRingFetch ctls s
  | .consumerAck ring pos descs => Sys2Proof.Machine.execConsumerAck ring pos descs s
  | .objectRead q gid items => Sys2Proof.Machine.execObjectRead q gid items s
  | .objectWrite q gid items timed env => Sys2Proof.Machine.execObjectWrite q gid items timed env s
  | .caskSeal q reg timed at_ => Sys2Proof.Machine.execCaskSeal q reg timed at_ s
  | .finingJob q reg v arg => Sys2Proof.Machine.execFiningJob q reg v arg s
  | .modelSwitch q reg b c at_ => Sys2Proof.Machine.execModelSwitch q reg b c at_ s
  | .mashSwitch q reg r ix at_ => Sys2Proof.Machine.execMashSwitch q reg r ix at_ s
  | .steepSwitch q reg g ix at_ => Sys2Proof.Machine.execSteepSwitch q reg g ix at_ s
  | .patternStage q image sigOk => Sys2Proof.Machine.execPatternStage q image sigOk s
  | .replicaDefine q g members => Sys2Proof.Machine.execReplicaDefine q g members s
  | .cut q reg at_ arg scope => Sys2Proof.Machine.execCut q reg at_ arg scope s
  | .cutRelease q reg timed at_ n => Sys2Proof.Machine.execCutRelease q reg timed at_ n s
  | .partitionCreate q part test set => Sys2Proof.Machine.execPartitionCreate q part test set s
  | .partitionAdd q part set => Sys2Proof.Machine.execPartitionAdd q part set s
  | .partitionRemove q part set => Sys2Proof.Machine.execPartitionRemove q part set s
  | .partitionTeardown q part => Sys2Proof.Machine.execPartitionTeardown q part s
  | .dieRemove q reg gid => Sys2Proof.Machine.execDieRemove q reg gid s
  | .broadcast q image sigOk => Sys2Proof.Machine.execBroadcast q image sigOk s
  | .ringDropRunEnd slot pri => Sys2Proof.Machine.execRingDropRunEnd slot pri s
  | .chunkMaxAge slot pri => Sys2Proof.Machine.execChunkMaxAge slot pri s
  | .chunkFined num => Sys2Proof.Machine.execChunkFined num s
  | .indexAnchor => Sys2Proof.Machine.execIndexAnchor s
  | .caskTrigger => Sys2Proof.Machine.execCaskTrigger s
  | .caskOpenReceive c last fetched => Sys2Proof.Machine.execCaskOpenReceive c last fetched s
  | .postWindowEnd id => Sys2Proof.Machine.execPostWindowEnd id s
  | .rackCask => Sys2Proof.Machine.execRackCask s
  | .rackComplete => Sys2Proof.Machine.execRackComplete s
  | .caskRelease q id => Sys2Proof.Machine.execCaskRelease q id s
  | .tier2Free q id => Sys2Proof.Machine.execTier2Free q id s
  | .finingJobDone inst => Sys2Proof.Machine.execFiningJobDone inst s
  | .finingAbort q tag records => Sys2Proof.Machine.execFiningAbort q tag records s
  | .seriesSample => Sys2Proof.Machine.execSeriesSample s
  | .seriesForward => Sys2Proof.Machine.execSeriesForward s
  | .rebaseline q v => Sys2Proof.Machine.execRebaseline q v s
  | .stepRecord r => Sys2Proof.Machine.execStepRecord r s
  | .stepTimeout part step agreed => Sys2Proof.Machine.execStepTimeout part step agreed s
  | .modelImageComplete slot => Sys2Proof.Machine.execModelImageComplete slot s
  | .modelValidationDone slot => Sys2Proof.Machine.execModelValidationDone slot s
  | .slotClear q slot v => Sys2Proof.Machine.execSlotClear q slot v s
  | .lauterBindingWrite q b v => Sys2Proof.Machine.execLauterBindingWrite q b v s
  | .vectorEnqueue b => Sys2Proof.Machine.execVectorEnqueue b s
  | .batchClose b slot => Sys2Proof.Machine.execBatchClose b slot s
  | .batchStart c bad => Sys2Proof.Machine.execBatchStart c bad s
  | .batchDone c => Sys2Proof.Machine.execBatchDone c s
  | .stopEpochReceive slot tree epoch => Sys2Proof.Machine.execStopEpochReceive slot tree epoch s
  | .modelSwitchLaunch => Sys2Proof.Machine.execModelSwitchLaunch s
  | .slotRetireEnd slot => Sys2Proof.Machine.execSlotRetireEnd slot s
  | .mashRecord r c what => Sys2Proof.Machine.execMashRecord r c what s
  | .mashEpochEmit r => Sys2Proof.Machine.execMashEpochEmit r s
  | .graphImageValidate ix => Sys2Proof.Machine.execGraphImageValidate ix s
  | .imageClear q steep ix v => Sys2Proof.Machine.execImageClear q steep ix v s
  | .regionSwitchLaunch => Sys2Proof.Machine.execRegionSwitchLaunch s
  | .regionLoadStart r => Sys2Proof.Machine.execRegionLoadStart r s
  | .regionLoadDone r => Sys2Proof.Machine.execRegionLoadDone r s
  | .regionRecordTimeout r => Sys2Proof.Machine.execRegionRecordTimeout r s
  | .groupSwitchLaunch => Sys2Proof.Machine.execGroupSwitchLaunch s
  | .groupLoadDone g => Sys2Proof.Machine.execGroupLoadDone g s
  | .steepImageValidate ix => Sys2Proof.Machine.execSteepImageValidate ix s
  | .steepEntryTimeout k => Sys2Proof.Machine.execSteepEntryTimeout k s
  | .macq k => Sys2Proof.Machine.execMacq k s
  | .msuq k => Sys2Proof.Machine.execMsuq k s
  | .mpyq k => Sys2Proof.Machine.execMpyq k s
  | .macd k => Sys2Proof.Machine.execMacd k s
  | .msud k => Sys2Proof.Machine.execMsud k s
  | .mpyd k => Sys2Proof.Machine.execMpyd k s
  | .narrow16 k => Sys2Proof.Machine.execNarrow16 k s
  | .narrow24 k => Sys2Proof.Machine.execNarrow24 k s
  | .narrow32 k => Sys2Proof.Machine.execNarrow32 k s
  | .mova k => Sys2Proof.Machine.execMova k s
  | .movxa k => Sys2Proof.Machine.execMovxa k s
  | .clra k => Sys2Proof.Machine.execClra k s
  | .ld16 k bad => Sys2Proof.Machine.execLd16 k bad s
  | .ld16x k bad => Sys2Proof.Machine.execLd16x k bad s
  | .ld32x k bad => Sys2Proof.Machine.execLd32x k bad s
  | .ld64 k bad => Sys2Proof.Machine.execLd64 k bad s
  | .ld24x k bad => Sys2Proof.Machine.execLd24x k bad s
  | .ldd k bad => Sys2Proof.Machine.execLdd k bad s
  | .st16 k => Sys2Proof.Machine.execSt16 k s
  | .st32 k => Sys2Proof.Machine.execSt32 k s
  | .st64 k => Sys2Proof.Machine.execSt64 k s
  | .st24 k => Sys2Proof.Machine.execSt24 k s
  | .br k => Sys2Proof.Machine.execBr k s
  | .loop k => Sys2Proof.Machine.execLoop k s
  | .loops k => Sys2Proof.Machine.execLoops k s
  | .next k => Sys2Proof.Machine.execNext k s
  | .done k => Sys2Proof.Machine.execDone k s
  | .emit k bad => Sys2Proof.Machine.execEmit k bad s
  | .add k slot => Sys2Proof.Machine.execAdd k slot s
  | .sub k slot => Sys2Proof.Machine.execSub k slot s
  | .adds k slot => Sys2Proof.Machine.execAdds k slot s
  | .subs k slot => Sys2Proof.Machine.execSubs k slot s
  | .andX k slot => Sys2Proof.Machine.execAndX k slot s
  | .orX k slot => Sys2Proof.Machine.execOrX k slot s
  | .xor k slot => Sys2Proof.Machine.execXor k slot s
  | .shl k slot => Sys2Proof.Machine.execShl k slot s
  | .shr k slot => Sys2Proof.Machine.execShr k slot s
  | .sar k slot => Sys2Proof.Machine.execSar k slot s
  | .min k slot => Sys2Proof.Machine.execMin k slot s
  | .max k slot => Sys2Proof.Machine.execMax k slot s
  | .mul k slot => Sys2Proof.Machine.execMul k slot s
  | .abs k slot => Sys2Proof.Machine.execAbs k slot s
  | .mov k slot => Sys2Proof.Machine.execMov k slot s
  | .cvtf k slot => Sys2Proof.Machine.execCvtf k slot s
  | .aluiAdd k slot => Sys2Proof.Machine.execAluiAdd k slot s
  | .aluiSub k slot => Sys2Proof.Machine.execAluiSub k slot s
  | .aluiAdds k slot => Sys2Proof.Machine.execAluiAdds k slot s
  | .aluiSubs k slot => Sys2Proof.Machine.execAluiSubs k slot s
  | .aluiAnd k slot => Sys2Proof.Machine.execAluiAnd k slot s
  | .aluiOr k slot => Sys2Proof.Machine.execAluiOr k slot s
  | .aluiXor k slot => Sys2Proof.Machine.execAluiXor k slot s
  | .aluiShl k slot => Sys2Proof.Machine.execAluiShl k slot s
  | .aluiShr k slot => Sys2Proof.Machine.execAluiShr k slot s
  | .aluiSar k slot => Sys2Proof.Machine.execAluiSar k slot s
  | .aluiMin k slot => Sys2Proof.Machine.execAluiMin k slot s
  | .aluiMax k slot => Sys2Proof.Machine.execAluiMax k slot s
  | .pset k slot => Sys2Proof.Machine.execPset k slot s
  | .nset k slot => Sys2Proof.Machine.execNset k slot s
  | .padd k slot => Sys2Proof.Machine.execPadd k slot s
  | .movp k slot => Sys2Proof.Machine.execMovp k slot s
  | .movxp k slot => Sys2Proof.Machine.execMovxp k slot s
  | .movxn k slot => Sys2Proof.Machine.execMovxn k slot s
  | .cmpEq k slot => Sys2Proof.Machine.execCmpEq k slot s
  | .cmpNe k slot => Sys2Proof.Machine.execCmpNe k slot s
  | .cmpLt k slot => Sys2Proof.Machine.execCmpLt k slot s
  | .cmpGe k slot => Sys2Proof.Machine.execCmpGe k slot s
  | .cmpLtu k slot => Sys2Proof.Machine.execCmpLtu k slot s
  | .cmpGeu k slot => Sys2Proof.Machine.execCmpGeu k slot s
  | .nop k slot => Sys2Proof.Machine.execNop k slot s
  | .movc k slot => Sys2Proof.Machine.execMovc k slot s
  | .movtc k slot => Sys2Proof.Machine.execMovtc k slot s
  | .limmLow k => Sys2Proof.Machine.execLimmLow k s
  | .limmHigh k => Sys2Proof.Machine.execLimmHigh k s
  | .patternDescriptorReceive slot r last => Sys2Proof.Machine.execPatternDescriptorReceive slot r last s
  | .patternVerify slot => Sys2Proof.Machine.execPatternVerify slot s
  | .libraryActivate q v => Sys2Proof.Machine.execLibraryActivate q v s
  | .librarySwap => Sys2Proof.Machine.execLibrarySwap s
  | .replicaSweep g => Sys2Proof.Machine.execReplicaSweep g s
  | .replicaSweepDone g => Sys2Proof.Machine.execReplicaSweepDone g s
  | .replicaCompare g n => Sys2Proof.Machine.execReplicaCompare g n s
  | .replicaCompareDeadline g n => Sys2Proof.Machine.execReplicaCompareDeadline g n s
  | .provenanceComplete stream cmdid => Sys2Proof.Machine.execProvenanceComplete stream cmdid s
  | .provenanceTimeout stream cmdid => Sys2Proof.Machine.execProvenanceTimeout stream cmdid s
  | .taintOrder gid group sweep cause streams clean detect => Sys2Proof.Machine.execTaintOrder gid group sweep cause streams clean detect s
  | .taintNoticeForm n => Sys2Proof.Machine.execTaintNoticeForm n s
  | .taintFollowUp n => Sys2Proof.Machine.execTaintFollowUp n s
  | .cutLatch => Sys2Proof.Machine.execCutLatch s
  | .icdonCutLatch => Sys2Proof.Machine.execIcdonCutLatch s
  | .cutHaltHoldEnd n => Sys2Proof.Machine.execCutHaltHoldEnd n s
  | .cutSummary n => Sys2Proof.Machine.execCutSummary n s
  | .heartbeatSend => Sys2Proof.Machine.execHeartbeatSend s
  | .heartbeatReceive link r => Sys2Proof.Machine.execHeartbeatReceive link r s
  | .heartbeatSilence link => Sys2Proof.Machine.execHeartbeatSilence link s
  | .quorumQuery asker lead term => Sys2Proof.Machine.execQuorumQuery asker lead term s
  | .quorumVote witness yes => Sys2Proof.Machine.execQuorumVote witness yes s
  | .quorumRetry => Sys2Proof.Machine.execQuorumRetry s
  | .quorumDeadline => Sys2Proof.Machine.execQuorumDeadline s
  | .leadHandover q => Sys2Proof.Machine.execLeadHandover q s
  | .handoverBoundary msg => Sys2Proof.Machine.execHandoverBoundary msg s
  | .resyncStart => Sys2Proof.Machine.execResyncStart s
  | .resyncCopyDone => Sys2Proof.Machine.execResyncCopyDone s
  | .resyncReceiveDone st => Sys2Proof.Machine.execResyncReceiveDone st s
  | .resyncOverrun => Sys2Proof.Machine.execResyncOverrun s
  | .twinWriteApply pos key v down env => Sys2Proof.Machine.execTwinWriteApply pos key v down env s
  | .twinWriteAckTimeout pos => Sys2Proof.Machine.execTwinWriteAckTimeout pos s
  | .failedRemoveHold slot => Sys2Proof.Machine.execFailedRemoveHold slot s
  | .childRemoveHold port => Sys2Proof.Machine.execChildRemoveHold port s
  | .partitionOpProcess => Sys2Proof.Machine.execPartitionOpProcess s
  | .partitionOpApply r test => Sys2Proof.Machine.execPartitionOpApply r test s
  | .partitionDrainEnd part => Sys2Proof.Machine.execPartitionDrainEnd part s
  | .partitionSealed part gid => Sys2Proof.Machine.execPartitionSealed part gid s
  | .partitionQuarantineEnd part => Sys2Proof.Machine.execPartitionQuarantineEnd part s
  | .broadcastChunk r sigOk => Sys2Proof.Machine.execBroadcastChunk r sigOk s
  | .broadcastResendRequest port id offsets => Sys2Proof.Machine.execBroadcastResendRequest port id offsets s
  | .broadcastStatus port r => Sys2Proof.Machine.execBroadcastStatus port r s
  | .broadcastTimeout id => Sys2Proof.Machine.execBroadcastTimeout id s
  | .queueSample => Sys2Proof.Machine.execQueueSample s
  | .queueHistogram => Sys2Proof.Machine.execQueueHistogram s
  | .bulkDefer r => Sys2Proof.Machine.execBulkDefer r s
  | .bulkDeferEffective => Sys2Proof.Machine.execBulkDeferEffective s
  | .deferRangeResend => Sys2Proof.Machine.execDeferRangeResend s
  | .resumeWindow => Sys2Proof.Machine.execResumeWindow s
  | .decimationReceive link r => Sys2Proof.Machine.execDecimationReceive link r s
  | .shaperWrite q k v => Sys2Proof.Machine.execShaperWrite q k v s
  | .patrolRead verdict symbol => Sys2Proof.Machine.execPatrolRead verdict symbol s
  | .rowRetire q v => Sys2Proof.Machine.execRowRetire q v s
  | .bankRetire q v => Sys2Proof.Machine.execBankRetire q v s
  | .bankCopyDone stack => Sys2Proof.Machine.execBankCopyDone stack s
  | .eventPost src r => Sys2Proof.Machine.execEventPost src r s
  | .levelSourceRise src => Sys2Proof.Machine.execLevelSourceRise src s
  | .completion q v => Sys2Proof.Machine.execCompletion q v s
  | .softPost q v => Sys2Proof.Machine.execSoftPost q v s
  | .softPriv q v => Sys2Proof.Machine.execSoftPriv q v s
  | .privilegedSource p detail => Sys2Proof.Machine.execPrivilegedSource p detail s
  | .consumerWrite q n v => Sys2Proof.Machine.execConsumerWrite q n v s
  | .queueControlWrite q n base v => Sys2Proof.Machine.execQueueControlWrite q n base v s
  | .errorClose q v => Sys2Proof.Machine.execErrorClose q v s
  | .observeOnlyExit q v => Sys2Proof.Machine.execObserveOnlyExit q v s
  | .recorderWrite q v => Sys2Proof.Machine.execRecorderWrite q v s
  | .recorderSummary => Sys2Proof.Machine.execRecorderSummary s
  | .recorderCursor q v => Sys2Proof.Machine.execRecorderCursor q v s
  | .recorderClearArm q v => Sys2Proof.Machine.execRecorderClearArm q v s
  | .recorderClear q v => Sys2Proof.Machine.execRecorderClear q v s
  | .recorderClearArmExpiry => Sys2Proof.Machine.execRecorderClearArmExpiry s
  | .vfBind q vf part => Sys2Proof.Machine.execVfBind q vf part s
  | .ideQuery sess vf => Sys2Proof.Machine.execIdeQuery sess vf s
  | .keyProg sess vf set half key => Sys2Proof.Machine.execKeyProg sess vf set half key s
  | .kSetGo sess vf set => Sys2Proof.Machine.execKSetGo sess vf set s
  | .kSetStop sess vf set => Sys2Proof.Machine.execKSetStop sess vf set s
  | .ideIntegrityFail vf => Sys2Proof.Machine.execIdeIntegrityFail vf s
  | .getTdispVersion vf => Sys2Proof.Machine.execGetTdispVersion vf s
  | .getTdispCapabilities vf => Sys2Proof.Machine.execGetTdispCapabilities vf s
  | .lockInterfaceRequest vf => Sys2Proof.Machine.execLockInterfaceRequest vf s
  | .getDeviceInterfaceReport vf => Sys2Proof.Machine.execGetDeviceInterfaceReport vf s
  | .getDeviceInterfaceState vf => Sys2Proof.Machine.execGetDeviceInterfaceState vf s
  | .startInterfaceRequest vf => Sys2Proof.Machine.execStartInterfaceRequest vf s
  | .stopInterfaceRequest vf => Sys2Proof.Machine.execStopInterfaceRequest vf s
  | .getVersion b => Sys2Proof.Machine.execGetVersion b s
  | .getCapabilities b => Sys2Proof.Machine.execGetCapabilities b s
  | .negotiateAlgorithms b common => Sys2Proof.Machine.execNegotiateAlgorithms b common s
  | .getDigests b => Sys2Proof.Machine.execGetDigests b s
  | .getCertificate b slot off len => Sys2Proof.Machine.execGetCertificate b slot off len s
  | .challenge b slot nonce => Sys2Proof.Machine.execChallenge b slot nonce s
  | .getMeasurements b index signed nonce => Sys2Proof.Machine.execGetMeasurements b index signed nonce s
  | .keyExchange b => Sys2Proof.Machine.execKeyExchange b s
  | .finish b sess good => Sys2Proof.Machine.execFinish b sess good s
  | .spdmHeartbeat b sess => Sys2Proof.Machine.execSpdmHeartbeat b sess s
  | .keyUpdate b sess => Sys2Proof.Machine.execKeyUpdate b sess s
  | .endSession b sess => Sys2Proof.Machine.execEndSession b sess s
  | .respondIfReady b token => Sys2Proof.Machine.execRespondIfReady b token s
  | .heladIdentityResponse slot key sigOk => Sys2Proof.Machine.execHeladIdentityResponse slot key sigOk s
  | .credentialWrite q key v => Sys2Proof.Machine.execCredentialWrite q key v s
  | .auditSealAgree k lead => Sys2Proof.Machine.execAuditSealAgree k lead s
  | .auditSealForm k => Sys2Proof.Machine.execAuditSealForm k s
  | .auditRack k => Sys2Proof.Machine.execAuditRack k s
  | .read h items => Sys2Proof.Machine.execRead h items s
  | .write h items env => Sys2Proof.Machine.execWrite h items env s
  | .windowRead h off len => Sys2Proof.Machine.execWindowRead h off len s
  | .descriptor h d => Sys2Proof.Machine.execDescriptor h d s
  | .subscribe h id enable mask => Sys2Proof.Machine.execSubscribe h id enable mask s
  | .registerWrite q u key v env => Sys2Proof.Machine.execRegisterWrite q u key v env s
  | .wideRead q key => Sys2Proof.Machine.execWideRead q key s
  | .wideWriteCommit q key lo hi env => Sys2Proof.Machine.execWideWriteCommit q key lo hi env s
  | .proxyRequest id gid role write timed items env answers => Sys2Proof.Machine.execProxyRequest id gid role write timed items env answers s
  | .proxyTimeout id => Sys2Proof.Machine.execProxyTimeout id s
  | .stageStart q v image sigOk => Sys2Proof.Machine.execStageStart q v image sigOk s
  | .stageComplete flashOk => Sys2Proof.Machine.execStageComplete flashOk s
  | .activate q gid => Sys2Proof.Machine.execActivate q gid s
  | .activationSwitch => Sys2Proof.Machine.execActivationSwitch s
  | .activationDone => Sys2Proof.Machine.execActivationDone s
  | .imageConfirm q gid => Sys2Proof.Machine.execImageConfirm q gid s
  | .confirmTimeout => Sys2Proof.Machine.execConfirmTimeout s
  | .rouseArm q n v cred => Sys2Proof.Machine.execRouseArm q n v cred s
  | .fabricLinkUp port peer role seed state term => Sys2Proof.Machine.execFabricLinkUp port peer role seed state term s
  | .haltAckFall g => Sys2Proof.Machine.execHaltAckFall g s
  | .receiverAdaptationDone slot twin => Sys2Proof.Machine.execReceiverAdaptationDone slot twin s
  | .steepDeliveryEntry g c end_ => Sys2Proof.Machine.execSteepDeliveryEntry g c end_ s
  | .pcieLinkDown => Sys2Proof.Machine.execPcieLinkDown s
  | .dtlsHandshake port key => Sys2Proof.Machine.execDtlsHandshake port key s

end Sys2Proof.Machine
end

