-- ==== Sys2Proof/Machine/Tick.lean ====
section
/-! DEFINITION. One AO period of 20 ns: what happens with time alone while no command waits. The spec's commands name the instants at which anything else happens. -/

namespace Sys2Proof.Machine

/-- FT over 20 ns at the rate in force, the fraction kept (R36, R49). -/
def Clock.tick (rate : Int) (c : Clock) : Clock :=
  let n := 1310720 * (10 ^ 12 + rate).toNat + c.frac
  { c with ft := c.ft + n / 10 ^ 12, frac := n % 10 ^ 12 }

/-- Whether a part's FT runs: the Helad while AO_CLK is present and HAO_RST_N released (R69, R76); the Icdon IX40 while powered, at the nominal rate in FREE (R43); a root takes its start by R40 from there. -/
def State.ftRuns (sd : Side) (s : State) : Bool :=
  match sd with
  | .hel => !s.bd.clkLost && !s.bd.haoReset
  | .icd => s.pw.phase != 0

/-- One part's FT. -/
def State.tickFt (sd : Side) (s : State) : State :=
  if s.ftRuns sd then s.setClk sd ((s.clk sd).tick (s.rateOf sd)) else s

/-- The FIFOs of COUNT empty at HCLK, one tap a cycle per port (R77); latches take up to 64 boundaries a microsecond (R80). -/
def State.tickCount (s : State) : State :=
  if s.awake 2 then { s with ct := { s.ct with fifo := [], cbFill := s.ct.cbFill - 128 } } else s

/-- Beats moved from FIFOs in fair shares, the emptiest first: `n` beats, `k` FIFOs left. -/
def drainFair : List (Nat × Nat) → Nat → Nat → List (Nat × Nat)
  | [], _, _ => []
  | p :: t, n, k =>
    let m := min p.2 (n / max 1 k)
    (p.1, p.2 - m) :: drainFair t (n - m) (k - 1)

/-- The trace funnel moves 16 beats in each of the 32 HCLK cycles of a period (R122). -/
def State.tickTrace (s : State) : State :=
  if s.awake 3 then
    let l := drainFair (sortBy (·.2) s.tr.fifo) 512 s.tr.fifo.length
    { s with tr := { s.tr with fifo := sortBy (·.1) (l.filter fun p => p.2 != 0) } }
  else s

/-- Growth of the read port's tokens in 20 ns, 10^-6 byte: HostMemBandwidth × ReadBudget, at most the port's 102.4 GB/s (R83, R85). -/
def State.readGrowth (s : State) : Nat := min (s.h O.HostMemBandwidth * s.h O.ReadBudget * 2000) 2048000000

/-- The read port's bucket (R85, R86). -/
def State.tickRead (s : State) : State :=
  { s with bd := { s.bd with tokens := min (s.bd.tokens + s.readGrowth) (s.h O.ReadBurst * 1000000) } }

/-- The ring admission shaper's bucket (R207): 0.1 GB/s is two bytes in 20 ns. -/
def State.tickRing (s : State) : State :=
  { s with gr := { s.gr with tokens := min (s.gr.tokens + ((2 * s.i O.RingAdmissionRate : Nat) : Int)) s.admitDepth } }

/-- The bench port sends 96 bytes of what it holds (R143). -/
def State.tickBench (s : State) : State := { s with tr := { s.tr with bench := s.tr.bench - 96 } }

/-- The pushes of every session leave at MopSendLimit (R520), counted in hundredths of a byte. -/
def State.tickMop (s : State) : State :=
  { s with mo := { s.mo with sessions := s.mo.sessions.map fun p => (p.1, { p.2 with backlog := p.2.backlog - 2 * s.i O.MopSendLimit }) } }

/-- Entries of the tail buffer are in MRAM within 1 ms (R475): here, at each whole millisecond of FT. -/
def State.tickTail (t0 : Nat) (s : State) : State :=
  if t0 / ms 1 < s.ft .icd / ms 1 then { s with ir := { s.ir with tail := [] } } else s

/-- What one period does to the Helad; the domains that an action needs begin to wake 4 µs before its instant (R62). -/
def State.tickHel (s : State) : State := ((((((s.tickFt .hel).wakeAhead).pitchAhead).tickBusy).tickCount).tickTrace).tickRead

/-- What one period does to the Icdon IX40. -/
def State.tickIcd (s : State) : State :=
  if s.pw.phase = 0 then s
  else
    let t0 := s.ft .icd
    ((((((s.tickFt .icd).tickRing).tickBench).tickMop).uplinkTick).tickTail t0)

/-- One period of 20 ns. -/
def State.tick (s : State) : State := s.tickHel.tickIcd

end Sys2Proof.Machine
end

