-- ==== Sys2Proof/Machine/Fec.lean ====
section
/-! DEFINITION. Signalling below the flits: how the flit stream is laid in RS(544,514) codewords and superframes (R148, R149). A front end encodes what the flit commands send and decodes what they receive; the commands carry its outcome. -/

namespace Sys2Proof.Machine

/-- Twice a symbol of GF(2^10): the field polynomial x^10 + x^3 + 1 is that of IEEE 802.3 Clause 91, which R148 names and does not quote (PRESUMED, log 128). -/
def gfDouble (a : Nat) : Nat := if 512 ≤ a then (2 * a - 1024) ^^^ 9 else 2 * a

/-- Product in GF(2^10). -/
def gfMul (a b : Nat) : Nat :=
  (List.range 10).foldr (fun i r => if b.testBit i then gfDouble r ^^^ a else gfDouble r) 0

/-- The generator polynomial of the 30 parity symbols, highest power first: the product of x - α^j for j = 0–29 (R148; PRESUMED, log 128). -/
def rsGen : List Nat :=
  ((List.range 30).foldl (fun (g : List Nat × Nat) _ =>
    (List.zipWith (· ^^^ ·) (g.1 ++ [0]) (0 :: g.1.map (gfMul g.2)), gfDouble g.2)) ([1], 1)).1

/-- Parity symbols of a codeword's data symbols, the first symbol sent first: the remainder of the division by the generator. -/
def rsParity (m : List Nat) : List Nat :=
  m.foldl (fun r x => List.zipWith (fun y g => y ^^^ gfMul (x ^^^ r.headD 0) g) (r.drop 1 ++ [0]) (rsGen.drop 1)) (List.replicate 30 0)

/-- An RS(544,514) codeword: the 514 data symbols, then 30 parity symbols (R148). -/
def rsEncode (m : List Nat) : List Nat := m ++ rsParity m

/-- What a decoder makes of a codeword with so many symbol errors: it corrects up to 15 (R148). -/
def fecCorrects (errors : Nat) : Bool := decide (errors ≤ 15)

/-- The bits of the flit stream, flit byte 0 first and each byte least significant bit first: bit 0 of the number is sent first (R148). -/
def flitStream (fs : List (List Nat)) : Nat := fs.foldr (fun f r => joinUnits f % 2 ^ 2048 + r * 2 ^ 2048) 0

/-- Data symbols of data codeword `c` of a superframe: 5,140 bits of the flit stream, from bit 0 of the first flit in codeword 0 (R148, R149). -/
def dataSymbols (fs : List (List Nat)) (c : Nat) : List Nat :=
  (List.range 514).map fun i => bits (flitStream fs) (5140 * c + 10 * i) 10

/-- Data codeword `c` of a superframe (R148, R149). -/
def superframeWord (fs : List (List Nat)) (c : Nat) : List Nat := rsEncode (dataSymbols fs c)

/-- Codewords that end with the flit at a place of the superframe: at most one (R149). -/
def codewordsEnd (place : Nat) : Nat := (place + 1) * 2048 / 5140 - place * 2048 / 5140

end Sys2Proof.Machine
end

