-- ==== Sys2Proof/Safety.lean ====
section
/-! DEFINITION. The terms claims are stated in: a command that is carried out, a request that passes its checks, the canonical forms, and what stands in the way of none. -/

namespace Sys2Proof.Machine

/-- Both object dictionaries are canonical: keys strictly ascending, no default listed. -/
abbrev State.dictsWf (s : State) : Prop := Dict.wf .hel s.hd = true ∧ Dict.wf .icd s.cd = true

/-- The device memories are canonical. -/
abbrev State.memsWf (s : State) : Prop := Memory.wf s.me.t1 = true ∧ Memory.wf s.gr.t2 = true

/-- A command is carried out, and the state after it is as described. -/
def Does (c : Instr) (s : State) (P : State → Prop) : Prop := ∃ t, exec c s = .next t ∧ P t

/-- A write of an object of the Icdon IX40 that passes every check before the object's own (R504–R508): rights, range, a twin that can be reached, no observe-only block, and carried out here. -/
abbrev State.Accepts (q : Req) (k v : Nat) (s : State) : Prop :=
  s.writeRight q k = none ∧ inRange k v = true ∧ s.twinReach k = true ∧ s.observeBlocks q = false ∧ s.forwards k = false

/-- A write of a Helad object by proxy that passes every check before the object's own (R514, R543, R547). -/
abbrev State.AcceptsProxy (q : Req) (k v : Nat) (s : State) : Prop :=
  s.writeRight q k = none ∧ trayOnly k = false ∧ inRange k v = true ∧ s.observeBlocks q = false ∧ s.heladReach = true ∧ s.heladReset = false

/-- A descriptor from a requester that may submit it, at a position of its ring that the shadow has acknowledged (R192, R472, R495). -/
abbrev State.AcceptsDesc (q : Req) (s : State) : Prop := s.ringRights q = true ∧ s.observeBlocks q = false ∧ s.acked q = true

/-- Whether a request comes as a descriptor of a host ring (R472). -/
def askedByRing (q : Req) : Bool := match q.who with | .ring _ => true | _ => false

/-- No rouse entry is armed (R534). -/
abbrev State.NoRouse (s : State) : Prop := ∀ n, n < 16 → bits (s.i (inst O.RouseConfig n)) 0 5 < 16

/-- The objects in which a refusal on the mirror or on a management core's bus leaves its word and its count (R513). -/
abbrev refusalKeys : List Nat :=
  [O.LastAccessStatus, O.LastAccessStatus + 1, O.LastAccessStatus + 2, O.LastAccessStatus + 3, O.LastAccessStatus + 4, O.RefusedMirrorWrites]

/-- Counters that queueing a record at a fabric port may advance: a subscriber beyond 4,096 (R429), a bulk record beyond the queue's limit (R442). -/
abbrev queueKeys : List Nat := [O.SubscriberOverflow, O.BulkDiscarded]

/-- The objects of both parts but those listed, and the bytes of both memories, are as they were. -/
def State.Same (s t : State) (ks : List Nat) : Prop :=
  (∀ sd k, k ∉ ks → t.ob sd k = s.ob sd k) ∧ t.me = s.me ∧ t.gr.t2 = s.gr.t2

/-- The objects of both parts below those of the interrupt controller and the recorder (index 0x5900), but those listed, and the bytes of both memories, are as they were: what a command that also posts events leaves alone. -/
def State.Kept (s t : State) (ks : List Nat) : Prop :=
  (∀ sd k, k < 0x590000 → k ∉ ks → t.ob sd k = s.ob sd k) ∧ t.me = s.me ∧ t.gr.t2 = s.gr.t2

/-- The address of the next entry of the ingress index in Tier 1 (R209). -/
abbrev State.indexAt (s : State) : Nat := s.regionBase 3 + s.gr.idxCount % indexRoom * 16

/-- No poisoned line of Tier 1 holds the place of the next index entry. -/
def State.indexSound (s : State) : Bool := s.me.poison.all fun b => decide (b * 64 + 64 ≤ s.indexAt ∨ s.indexAt + 16 ≤ b * 64)

/-- One entry joins the ingress index: the list, its 16 bytes of Tier 1, and no other byte of either memory; the objects but those listed are as they were (R209). -/
def State.Indexed (s t : State) (w : Nat) (ks : List Nat) : Prop :=
  t.gr.index = s.gr.index ++ [w] ∧ t.me.t1 = memWrite s.indexAt (natBytes 16 w) s.me.t1 ∧ t.gr.t2 = s.gr.t2 ∧
    ∀ sd k, k ∉ ks → t.ob sd k = s.ob sd k

/-- The twin has been told something: its records wait in CONTROL at the crosslink port, where this device has one (R17). -/
def State.told (s t : State) (tag : Nat) (body : List Nat) : Bool :=
  match s.portOf 2 with
  | some p => (msgRecs s.iGid tag body).all fun r => (t.portQ p (entClass stControl r)).any fun e => e.rec_ == r && e.stream == stControl
  | none => true

/-- Core `k` stands at the operation of a slot of its bundle, with the guard true: its group runs, the core does not wait, the bundle lies in the code, and the word has the GROUP and OP given (R328, R339). -/
abbrev State.AtOp (k slot grp op : Nat) (c : SCore) (s : State) : Prop :=
  s.core_ k = some c ∧ slot < 2 ∧ s.groupRuns (16 + k / 4) = true ∧ c.wait = none ∧ 8 * c.pc + 8 ≤ shCode (s.feed (16 + k / 4)).img ∧
    bits (c.slotWord slot) 4 4 = grp ∧ bits (c.slotWord slot) 8 4 = op ∧ (slot = 0 ∨ bits (c.slotWord 0) 4 4 ≠ 15) ∧
    c.guard (bits (c.slotWord slot) 0 4) = true

/-- The same, where the bundle's other slot has executed without a result and no loop is open: the operation's own results become visible now. -/
abbrev State.LastOp (k slot grp op : Nat) (c : SCore) (s : State) : Prop :=
  s.AtOp k slot grp op c ∧ c.effs = [{ effRegs [] with slot := 1 - slot }] ∧ c.loops = []

/-- An SPDM responder that answers on a binding: it can be reached, and no activation switch runs (R493). -/
abbrev State.SpdmUp (b : Nat) (s : State) : Prop := s.spdmUp b = true ∧ s.pw.switching = false

/-- The same after the negotiation, outside the bootstrap-free path (R491, R526). -/
abbrev State.SpdmReady (b : Nat) (s : State) : Prop := s.SpdmUp b ∧ s.pw.phase ≠ 1 ∧ 3 ≤ tgetD s.sc.phase b 0

/-- What holds of every SPDM request of R491 but RESPOND_IF_READY: of its code, the step of the negotiation it needs, the operands that a token keeps, and the command. -/
def EachSpdm (b k o n x e : Nat) (g w c : Bool) (P : Nat → Nat → List Nat → Instr → Prop) : Prop :=
  P 0x84 0 [] (.getVersion b) ∧ P 0xE1 1 [] (.getCapabilities b) ∧ P 0xE3 2 [b2n c] (.negotiateAlgorithms b c) ∧ P 0x81 3 [] (.getDigests b) ∧
  P 0x82 3 [k, o, n] (.getCertificate b k o n) ∧ P 0x83 3 [k, x] (.challenge b k x) ∧ P 0xE0 3 [k, b2n g, x] (.getMeasurements b k g x) ∧
  P 0xE4 3 [] (.keyExchange b) ∧ P 0xE5 3 [] (.finish b e w) ∧ P 0xE8 3 [] (.spdmHeartbeat b e) ∧ P 0xE9 3 [] (.keyUpdate b e) ∧
  P 0xEC 3 [] (.endSession b e)

/-- What holds of every request inside an established session: HEARTBEAT, KEY_UPDATE, END_SESSION. -/
def EachInSession (b e : Nat) (P : Instr → Prop) : Prop := P (.spdmHeartbeat b e) ∧ P (.keyUpdate b e) ∧ P (.endSession b e)

/-- What holds of every request that a token can stand for and that needs no session, by its code and the operands that the token keeps (R493). -/
def EachRedeemed (b k o n x : Nat) (g c : Bool) (P : Nat → List Nat → Instr → Prop) : Prop :=
  P 0xE0 [k, b2n g, x] (.getMeasurements b k g x) ∧ P 0x84 [] (.getVersion b) ∧ P 0xE1 [] (.getCapabilities b) ∧
  P 0xE3 [b2n c] (.negotiateAlgorithms b c) ∧ P 0x81 [] (.getDigests b) ∧ P 0x82 [k, o, n] (.getCertificate b k o n) ∧
  P 0x83 [k, x] (.challenge b k x) ∧ P 0xE4 [] (.keyExchange b)

/-- What holds of every request of the object protocol with a header: READ, WRITE, WINDOW_READ, DESCRIPTOR, SUBSCRIBE (R517). -/
def EachMop (h : MopHdr) (l : List Item) (env : WriteEnv) (off len : Nat) (d : DescIn) (id : Nat) (en : Bool) (m : Nat) (P : Instr → Prop) : Prop :=
  P (.read h l) ∧ P (.write h l env) ∧ P (.windowRead h off len) ∧ P (.descriptor h d) ∧ P (.subscribe h id en m)

/-- The blocks of measurement that a GET_MEASUREMENTS of an index asks for: that one, or all (R492). -/
def State.measBlocks (s : State) (n : Nat) : List (Nat × Nat × Nat) :=
  let all := (List.range 9).filterMap fun k => (s.measBlock (k + 1)).map fun v => (k + 1, v)
  if n = 255 then all else all.filter fun p => p.1 == n

/-- A core after a bundle that writes the registers listed and sets STATUS bits, and does nothing else. -/
def SCore.wrote (c : SCore) (l : List (Nat × Nat)) (st : Nat) : SCore :=
  { c with regs := tset (l.foldl (fun r p => tset r p.1 p.2) c.regs) (rC 2) (c.reg (rC 2) ||| st), pc := (c.pc + 1) % 2 ^ 15, effs := [] }

/-- One core becomes as described; the other cores, the units, every object and both memories are as they were. -/
def State.CoreStep (s t : State) (k : Nat) (c : SCore) : Prop :=
  t.core_ k = some c ∧ (∀ j, j ≠ k → t.core_ j = s.core_ j) ∧ t.ma = s.ma ∧ State.Same s t []

/-- Entries of a part's queue of timed actions (R61). -/
def actCap (u : Side) : Nat := match u with | .hel => 64 | .icd => 1024

/-- A record as the Helad forms it now (R13). -/
def State.hRec (s : State) (ty len flags part : Nat) (fs : List (Nat × Nat × Nat)) : Rec :=
  mkRec ty len flags (s.srcGid .hel ty) (s.seqOf .hel ty) part fs

/-- A record as the Icdon IX40 forms it now (R13, R542). -/
def State.iRec (s : State) (ty len flags part : Nat) (fs : List (Nat × Nat × Nat)) : Rec :=
  mkRec ty len flags (s.srcGid .icd ty) (s.seqOf .icd ty) part fs

end Sys2Proof.Machine
end

