-- ==== Sys2Proof/Certificates/Slice0/Obligations.lean ====
section
/-! DEFINITION. The statements for the provers: general rules of the machine first, then one statement per family of commands. In a clause, `Does c s` says that the command is carried out and what holds of the state after it. -/

open Sys2Proof Sys2Proof.Machine

/-- A step carries out the command at the front of the queue, or one period of time (R516, R524). -/
def Obligations.StepTakesTheFrontCommand : Prop :=
  (∀ (s : State) (c : Instr) (rest : List Instr), s.pending = c :: rest → step s = exec c { s with pending := rest }) ∧
  (∀ s : State, s.pending = [] → step s = .next s.tick)

/-- Every command is carried out and leaves the waiting commands in order (R504, R513, R518). -/
def Obligations.EveryCommandCompletes : Prop :=
  (∀ (c : Instr) (s : State), ∃ t, exec c s = .next t ∧ t.pending = s.pending) ∧
  (∀ (s : State) (c : Instr) (rest : List Instr), s.pending = c :: rest → ∃ t, step s = .next t ∧ t.pending = rest) ∧
  (∀ s : State, s.pending = [] → ∃ t, step s = .next t ∧ t.pending = [])

/-- The block right after reset: canonical, every object at its default, FT free at 0, nothing waiting (R36, R43, R404, R418, R504, R524). -/
def Obligations.ResetState : Prop :=
  State.reset.dictsWf ∧ State.reset.memsWf ∧
  (∀ (sd : Side) (k : Nat), State.reset.ob sd k = objDefault sd k) ∧
  (∀ a : Nat, memByte State.reset.me.t1 a = 0#8 ∧ memByte State.reset.gr.t2 a = 0#8) ∧
  (∀ sd : Side, State.reset.ft sd = 0 ∧ State.reset.ob sd O.FtState = 0) ∧
  State.reset.i O.TwinState = 0 ∧ State.reset.i O.RoleActive = 0 ∧
  (∀ p : Nat, State.reset.partState p = 0) ∧
  State.reset.pending = [] ∧ State.reset.out = []

/-- Every step keeps the objects and the memories of both parts in canonical form (R22, R195, R446, R504, R505). -/
def Obligations.StepKeepsCanonicalForm : Prop :=
  ∀ s t : State, s.dictsWf → s.memsWf → step s = .next t → t.dictsWf ∧ t.memsWf

/-- FT never decreases at either part, but for the part's own reset to 0 (R36, R44, R47, R51, R76, R529). -/
def Obligations.FtNeverDecreases : Prop :=
  (∀ s t : State, step s = .next t → s.ft .icd ≤ t.ft .icd ∨ (t.ft .icd = 0 ∧ t.tm.rootOn = false)) ∧
  (∀ s t : State, s.pending.head? ≠ some .haoReset → step s = .next t → s.ft .hel ≤ t.ft .hel)

/-- A memory reads back what was written, elsewhere what it held, in canonical form (R8, R22, R445, R446). -/
def Obligations.MemoryReadsBackWrites : Prop :=
  (∀ (m : List Host.Cell) (a : Nat) (bs : List Nat), Memory.wf m = true → (∀ b ∈ bs, b < 256) → memRead (memWrite a bs m) a bs.length = bs) ∧
  (∀ (m : List Host.Cell) (a c : Nat) (bs : List Nat), Memory.wf m = true → (c < a ∨ a + bs.length ≤ c) → memByte (memWrite a bs m) c = memByte m c) ∧
  (∀ (m : List Host.Cell) (a n : Nat), Memory.wf m = true → memWrite a (memRead m a n) m = m)

/-- Objects marked "(Apex only)" accept writes only at the Apex lead; reads are served everywhere (R507). -/
def Obligations.ApexOnlyWrites : Prop :=
  (∀ (s : State) (q : Req) (k v : Nat) (f : Op) (o : ObjSpec), objSpec k = some o → o.apex = true →
    o.acc q.role ≠ .none → o.acc q.role ≠ .ro → (q.role = .tp → o.own = true → s.owns q.part k = true) → s.apexLead = false →
      s.reqWrite q k v f = s.answer q k true ⟨stDenied, 8, 0⟩ []) ∧
  (∀ (s : State) (q : Req) (it : Item) (o : ObjSpec), objSpec it.key = some o → o.apex = true → holds .icd it.key = true →
    o.acc q.role ≠ .none → o.acc q.role ≠ .ro → (q.role = .tp → o.own = true → s.owns q.part it.key = true) → s.apexLead = false →
      s.itemWhy .icd q true false it = some ⟨stDenied, 8, 0⟩) ∧
  (∀ (s : State) (q : Req) (k v : Nat) (env : WriteEnv) (o : ObjSpec), objSpec k = some o → o.apex = true →
    o.acc q.role ≠ .none → o.acc q.role ≠ .ro → s.apexLead = false → Does (.registerWrite q .icd k v env) s fun t => State.Same s t refusalKeys) ∧
  (∀ (s : State) (q : Req) (k : Nat) (o : ObjSpec), objSpec k = some o → o.apex = true →
    o.acc q.role ≠ .none → o.acc q.role ≠ .ro → (q.role = .tp → o.own = true → s.owns q.part k = true) → s.apexLead = true →
      s.writeRight q k = none) ∧
  (∀ (s : State) (q : Req) (k : Nat) (o : ObjSpec), objSpec k = some o → o.apex = true → o.acc q.role ≠ .none →
    (q.role = .tp → o.own = true → s.owns q.part k = true) → s.readRight q k = none) ∧
  (∀ (s : State) (q : Req) (k : Nat) (o : ObjSpec), objSpec k = some o → o.apex = true → holds .icd k = true → o.acc q.role ≠ .none →
    (q.role = .tp → o.own = true → s.owns q.part k = true) → q.who = .pf →
      Does (.wideRead q k) s fun t => t.out = ⟨.reply, 0x2000, [s.readValue .icd k % 2 ^ 32]⟩ :: s.out ∧ State.Same s t [])

/-- The guard region in RT_HOLDOVER, NONE and RT_LOST, and with no window enabled (R58). -/
def Obligations.GuardRegion : Prop :=
  objDefault .hel O.RtHoldoverMargin = 5000 ∧ (∀ v : Nat, inRange O.RtHoldoverMargin v = true ↔ v ≤ 100000) ∧
  (∀ (s : State) (x : Nat), s.dictsWf →
    (s.hSet O.RtState 2).guardIntervals x =
      ((s.hSet O.RtState 1).guardIntervals x).map fun w => (w.1 - ((ns (s.h O.RtHoldoverMargin) : Nat) : Int), w.2 + ((ns (s.h O.RtHoldoverMargin) : Nat) : Int))) ∧
  (∀ (s : State) (n x : Nat), n < 8 → s.h (inst O.GuardEnable n) = 1 → (s.h O.RtState = 1 ∨ s.h O.RtState = 2) →
    (s.inGuard x = true ↔ ∃ w ∈ s.guardIntervals x, w.1 ≤ (x : Int) ∧ (x : Int) < w.2)) ∧
  (∀ (s : State) (n x : Nat), n < 8 → s.h (inst O.GuardEnable n) = 1 → (s.h O.RtState = 0 ∨ s.h O.RtState = 3) → s.inGuard x = true) ∧
  (∀ (s : State) (x : Nat), (∀ n, n < 8 → s.h (inst O.GuardEnable n) ≠ 1) → s.inGuard x = false)

/-- Sync tags go out once per interval; a tag from the master starts a delay exchange (R41, R42, R162, R163, R164, R168). -/
def Obligations.TimeExchange : Prop :=
  (∀ (s : State) (n : Nat),
    ((tget s.tm.tagAt (waveNum (.slot n) 0)).all fun x => decide (x + ns (s.i O.SyncInterval) ≤ s.ft .icd)) = true →
    s.pk.dark_ = false →
    Does (.syncTagSend (.slot n) 0) s fun t =>
      t.downQ n stTime = [(s.ki.number, s.iRec 0x23 4 0 0 [(128, 128, s.stamp .icd), (256, 128, (tgetD s.tm.dreq (waveNum (.slot n) 0) (0, 0)).1), (384, 32, (tgetD s.tm.dreq (waveNum (.slot n) 0) (0, 0)).2), (416, 8, s.i O.FtState)])] ∧
      (∀ m ty, ty < 16 → (m ≠ n ∨ ty ≠ stTime) → t.downQ m ty = s.downQ m ty) ∧
      t.out = s.out ∧
      tget t.tm.tagAt (waveNum (.slot n) 0) = some (s.ft .icd) ∧
      State.Same s t []) ∧
  (∀ (s : State) (n p w : Nat),
    ((tget s.tm.tagAt (waveNum (.down n) w)).all fun x => decide (x + ns (s.i O.SyncInterval) ≤ s.ft .icd)) = true →
    s.isLead = true →
    s.downLinks.contains n = true →
    s.linkPort n = some p →
    (s.downWaves p n).contains w = true →
    s.pk.dark_ = false →
    Does (.syncTagSend (.down n) w) s fun t =>
      (t.portQ p timeClass).map (fun e => (e.rec_, e.stream, e.link, e.sub)) = ((s.portQ p timeClass).filter fun e => !(e.link == some n && e.sub == w)).map (fun e => (e.rec_, e.stream, e.link, e.sub)) ++
        [(s.iRec 0x23 4 0 0 [(128, 128, s.stamp .icd), (256, 128, (tgetD s.tm.dreq (waveNum (.down n) w) (0, 0)).1), (384, 32, (tgetD s.tm.dreq (waveNum (.down n) w) (0, 0)).2), (416, 8, s.i O.FtState)], stTime, some n, w)] ∧
      t.out = s.out ∧
      tget t.tm.tagAt (waveNum (.down n) w) = some (s.ft .icd) ∧
      State.Same s t []) ∧
  (∀ (s : State) (n w : Nat),
    s.isLead = false →
    Does (.syncTagSend (.down n) w) s fun t =>
      t.out = s.out ∧
      t.tm = s.tm) ∧
  (∀ (s : State) (n : Nat) (r : Rec),
    s.isMaster .hel (.chan n) = true →
    s.h O.LaneState = 2 →
    (s.tm.hc.master = 0 ∨ s.tm.hc.master = rSrc r) →
    s.tm.hc.pend = none →
    s.bd.hmainReset = false →
    Does (.syncTag .hel (.chan n) 0 r) s fun t =>
      t.tm.hc.master = rSrc r ∧
      t.tm.hc.lastTag = s.ft .hel ∧
      t.tm.hc.pend = some ((s.tm.hc.reqSeq + 1) % 2 ^ 32, stampFt (recFld r 128 128), s.ft .hel, s.ft .hel) ∧
      t.laneQ 3 = [(s.h O.HeladCutNumber, s.hRec 0x24 2 0 0 [(128, 32, (s.tm.hc.reqSeq + 1) % 2 ^ 32)])] ∧
      (∀ st, st ≠ 3 → t.laneQ st = s.laneQ st) ∧
      State.Same s t [] ∧
      t.tm.ic = s.tm.ic) ∧
  (∀ (s : State) (u : Side) (l : Link) (w : Nat) (r : Rec),
    (s.isMaster u l = false ∨ (u = .hel ∧ s.bd.hmainReset = true)) →
    Does (.syncTag u l w r) s fun t =>
      t = s.commit) ∧
  (∀ (s : State) (l : Link) (w : Nat) (r : Rec),
    s.dictsWf →
    Does (.delayReq l w r) s fun t =>
      tget t.tm.dreq (waveNum l w) = some ((s.takeStamp .icd fnReq).1, recFld r 128 32) ∧
      (∀ k, k ≠ waveNum l w → tget t.tm.dreq k = tget s.tm.dreq k) ∧
      t.tm.dreqNew = linkNum l :: s.tm.dreqNew.filter (· != linkNum l) ∧
      { t with tm := { t.tm with dreq := s.tm.dreq, dreqNew := s.tm.dreqNew, ic := s.tm.ic } } = s ∧
      t.tm.ic = { s.tm.ic with owed := setBit s.tm.ic.owed fnReq false })

/-- The servo, the states of FT, HOLDOVER, the root, operating hours and UT (R41, R44, R45, R47, R50, R40, R59, R60, R195, R250). -/
def Obligations.TimeServoAndRoot : Prop :=
  (∀ (s : State) (u : Side),
    (s.clk u).servoAt + ms 1 ≤ s.ft u →
    ((u = .icd → s.apexLead = false)) →
    (s.clk u).thetas ≠ [] →
    s.ob u O.FtState = 0 →
    Does (.servoUpdate u) s fun t =>
      t.ob u O.FtState = 1 ∧
      t.ft u = s.ft u + (if meanI (s.clk u).thetas < 0 then (Int.toNat (-meanI (s.clk u).thetas)) / 1000 else 0) ∧
      t.ob u O.MasterOffset = ofS 64 (psOf (meanI (s.clk u).thetas))) ∧
  (∀ (s : State) (u : Side),
    (s.clk u).servoAt + ms 1 ≤ s.ft u →
    ((u = .icd → s.apexLead = false)) →
    (s.clk u).thetas ≠ [] →
    s.ob u O.FtState = 2 →
    ns (s.ob u O.StepForwardThreshold) < (Int.toNat (-meanI (s.clk u).thetas)) / 1000 →
    Does (.servoUpdate u) s fun t =>
      t.ob u O.FtState = 4 ∧
      t.ft u = s.ft u + (Int.toNat (-meanI (s.clk u).thetas)) / 1000 ∧
      t.rd = (match u with | .hel => s.rd | .icd => { s.rd with stepTo := (s.ft u, s.ft u + (Int.toNat (-meanI (s.clk u).thetas)) / 1000) })) ∧
  (∀ (s : State) (u : Side),
    (s.clk u).servoAt + ms 1 ≤ s.ft u →
    ((u = .icd → s.apexLead = false)) →
    (s.clk u).thetas ≠ [] →
    s.ob u O.FtState = 2 →
    (Int.toNat (-meanI (s.clk u).thetas)) / 1000 ≤ ns (s.ob u O.StepForwardThreshold) →
    Does (.servoUpdate u) s fun t =>
      t.ob u O.FtState = 2 ∧
      t.ft u = s.ft u ∧
      State.Same s t [O.MasterOffset, O.RateCorrection]) ∧
  (∀ (s : State) (u : Side),
    (s.clk u).servoAt + ms 1 ≤ s.ft u →
    ((u = .icd → s.apexLead = false)) →
    (s.clk u).thetas ≠ [] →
    s.ob u O.FtState = 1 →
    15 ≤ (s.clk u).good →
    (psOf (meanI (s.clk u).thetas)).natAbs ≤ s.ob u O.LockThreshold →
    Does (.servoUpdate u) s fun t =>
      t.ob u O.FtState = 2 ∧
      t.ft u = s.ft u ∧
      State.Kept s t [O.FtState, O.MasterOffset, O.RateCorrection]) ∧
  (∀ (s : State) (u : Side),
    (if u = .hel ∧ s.dozing = false then max (s.clk u).lastTag (tgetD s.bd.wakeAt 1 0) else (s.clk u).lastTag) + us (s.ob u O.HoldoverTimeout) + (if u = .hel ∧ s.dozing = true then ms (s.h O.DozeSyncLimit) else 0) ≤ s.ft u →
    ((u = .icd → s.apexLead = false)) →
    (s.ob u O.FtState = 2 ∨ s.ob u O.FtState = 4) →
    Does (.holdoverTimeout u) s fun t =>
      t.ob u O.FtState = 3 ∧
      t.ob u O.RateCorrection = ofS 32 (clampI (-2 ^ 31) (2 ^ 31 - 1) (s.clk u).lockRate) ∧
      t.ft u = s.ft u ∧
      State.Kept s t [O.FtState, O.RateCorrection]) ∧
  (∀ (s : State) (u : Side),
    (if u = .hel ∧ s.dozing = false then max (s.clk u).lastTag (tgetD s.bd.wakeAt 1 0) else (s.clk u).lastTag) + us (s.ob u O.HoldoverTimeout) + (if u = .hel ∧ s.dozing = true then ms (s.h O.DozeSyncLimit) else 0) ≤ s.ft u →
    ((u = .icd → s.apexLead = false)) →
    s.ob u O.FtState = 1 →
    Does (.holdoverTimeout u) s fun t =>
      t.ob u O.FtState = 0 ∧
      t.ft u = s.ft u ∧
      State.Kept s t [O.FtState]) ∧
  (∀ (s : State),
    s.domState 1 = 0 →
    s.bd.hmainReset = false ∧ s.bd.haoReset = false →
    s.bd.syncLeft = 0 →
    (s.h O.LaneState = 0 ∨ s.tm.hc.lastTag + ms (s.h O.DozeSyncLimit) ≤ s.tm.hc.ft) →
    Does (.dozeSyncWake) s fun t =>
      t.domState 1 = 1 ∧
      t.domState 4 ≠ 0 ∧
      t.bd.syncLeft = 11 ∧
      t.tm = s.tm ∧
      State.Same s t []) ∧
  (∀ (s : State) (c : List Nat),
    s.i O.RoleActive = 3 →
    s.tm.rootOn = false →
    Does (.rootFtStart c) s fun t =>
      t.ft .icd = max (s.ft .icd) (max (ns (s.i O.FtStartValue)) (max (match s.tm.savedFt with | some p => p.1 + ns 1000000000 | none => 0) (c.foldl (fun m x => max m (x + ms 1)) 0))) ∧
      t.i O.FtState = 2 ∧
      t.tm.rootOn = true ∧
      ((s.tm.savedFt).all fun p => decide (t.i O.FtSegment = (p.2 + 1) % 2 ^ 16)) = true ∧
      ((s.rd.has = true → t.rd = s.rd ∧ State.Kept s t [O.FtState, O.FtSegment])) ∧
      ((s.rd.has = false → t.ft .icd < 2 ^ 80 → t.rd.has = true ∧ t.i O.EpochNow = t.ft .icd / 65536 / max 1 (s.i O.EpochLength * 1000) ∧ t.i O.EpochStartNs = t.ft .icd / 65536 / max 1 (s.i O.EpochLength * 1000) * (s.i O.EpochLength * 1000)))) ∧
  (∀ (s : State),
    s.apexLead = true →
    (s.tm.savedFt = none ∨ s.tm.savedAt + ns 1000000000 ≤ s.ft .icd) →
    Does (.rootFtPersist) s fun t =>
      t.tm.savedFt = some (s.ft .icd, s.i O.FtSegment) ∧
      t.tm.savedAt = s.ft .icd ∧
      t.ft .icd = s.ft .icd ∧
      State.Same s t []) ∧
  (∀ (s : State) (u : Side),
    (u = .hel → s.bd.haoReset = false) →
    Does (.ohSecondTick u) s fun t =>
      t.ob u O.OhSeconds = (s.ob u O.OhSeconds + 1) % 2 ^ 40 ∧
      ((u = .icd → t.tm.savedOh = (t.i O.OhSeconds, s.i O.PowerCycles))) ∧
      ((u = .hel → t.i O.OhSeconds = s.i O.OhSeconds)) ∧
      ((u = .icd → t.h O.OhSeconds = s.h O.OhSeconds)) ∧
      State.Same s t [O.OhSeconds]) ∧
  (∀ (s : State) (q : Req) (utc ft : Nat),
    s.AcceptsDesc q →
    s.apexLead = true →
    Does (.utSample q utc ft) s fun t =>
      t.i O.UtOffset = ofS 64 ((utc : Int) + s.iS 16 O.LeapSeconds * 1000000000 - ((ft / 65536 : Nat) : Int)) ∧
      t.i O.UtRate = Config.free s.freeCtr % 2 ^ 32 ∧
      t.i O.UtSource = 1 ∧
      t.tm.utRef = ft ∧
      State.Same s t [O.UtOffset, O.UtRate, O.UtSource, O.SubscriberOverflow, O.BulkDiscarded])

/-- Radio pulses, time-of-day samples, the states of RT and the guard hold (R31, R52, R53, R54, R55, R57, R94). -/
def Obligations.RadioTime : Prop :=
  (∀ (s : State),
    s.bd.haoReset = false →
    Does (.rtPulse) s fun t =>
      t.tm.rt.pulse = some (s.ft .hel) ∧
      t.tm.rt.prev = s.tm.rt.pulse ∧
      t.tm.rt.fresh = true ∧
      t.tm.rt.named = s.tm.rt.named ∧
      t.tm.rt.stamp = s.stampOf .hel (s.ft .hel) (s.marked .hel fnPulse) ∧
      t.ft .hel = s.ft .hel ∧
      t.out = s.out ∧
      State.Same s t []) ∧
  (∀ (s : State) (tod : Nat),
    s.tm.rt.fresh = true →
    s.tm.rt.pulse.getD 0 + ns 100 ≤ s.ft .hel →
    bit tod 21 = false →
    Does (.rtTodSample tod) s fun t =>
      t.tm.rt.pulse = s.tm.rt.prev ∧
      t.tm.rt.named = s.tm.rt.named ∧
      t.tm.rt.run = 0 ∧
      t.tm.rt.fresh = false ∧
      t.ln = s.ln ∧
      State.Same s t []) ∧
  (∀ (s : State) (tod : Nat),
    (s.tm.rt.fresh = false ∨ s.ft .hel < s.tm.rt.pulse.getD 0 + ns 100) →
    Does (.rtTodSample tod) s fun t =>
      t = s.commit) ∧
  (∀ (s : State) (tod : Nat),
    s.tm.rt.fresh = true →
    s.tm.rt.pulse.getD 0 + ns 100 ≤ s.ft .hel →
    bit tod 21 = true →
    (s.tm.rt.named = none ∨ (s.tm.rt.jumped = false ∧ bits tod 0 10 = (s.tm.rt.sfn + s.framesTo (s.tm.rt.pulse.getD 0)) % 1024)) →
    s.tm.rt.sinceMap < 100 →
    Does (.rtTodSample tod) s fun t =>
      t.tm.rt.named = some (s.tm.rt.pulse.getD 0) ∧
      t.tm.rt.sfn = bits tod 0 10 ∧
      t.tm.rt.hfn = bits tod 10 10 ∧
      t.tm.rt.traceable = bit tod 20 ∧
      t.tm.rt.run = (if s.framesTo (s.tm.rt.pulse.getD 0) = 1 then s.tm.rt.run + 1 else 1) ∧
      t.h O.RtState = (if 2 ≤ t.tm.rt.run then 1 else s.h O.RtState) ∧
      t.ln = s.ln ∧
      State.Same s t [O.RtState]) ∧
  (∀ (s : State) (tod : Nat),
    s.tm.rt.fresh = true →
    s.tm.rt.pulse.getD 0 + ns 100 ≤ s.ft .hel →
    bit tod 21 = true →
    s.tm.rt.named ≠ none →
    (s.tm.rt.jumped = true ∨ bits tod 0 10 ≠ (s.tm.rt.sfn + s.framesTo (s.tm.rt.pulse.getD 0)) % 1024) →
    Does (.rtTodSample tod) s fun t =>
      t.tm.rt.run = 1 ∧
      t.tm.rt.sinceMap = 0 ∧
      t.laneQ stCounter = s.laneQ stCounter ++ [(s.h O.HeladCutNumber, s.hRec 0x21 3 1 0 [(128, 128, s.tm.rt.stamp), (256, 64, t.rtWord (s.tm.rt.pulse.getD 0)), (320, 32, ofS 32 (match s.tm.rt.prev, s.tm.rt.pulse with | some a, some b => psOf (ftPs (((b : Int) - a) - (frameFt : Nat))) | _, _ => 0))])] ∧
      State.Same s t []) ∧
  (∀ (s : State) (p : Nat),
    s.tm.rt.pulse = some p →
    s.h O.RtState = 1 →
    p + frameFt + us 1 < s.ft .hel →
    Does (.rtPulseTimeout) s fun t =>
      t.h O.RtState = 2 ∧
      t.tm.rt.holdFrom = s.ft .hel ∧
      t.ft .hel = s.ft .hel ∧
      State.Same s t [O.RtState]) ∧
  (∀ (s : State),
    s.h O.RtState = 2 →
    s.tm.rt.holdFrom + s.h O.RtHoldoverLimit * frameFt < s.ft .hel →
    Does (.rtHoldoverLimit) s fun t =>
      t.h O.RtState = 3 ∧
      t.tm = s.tm ∧
      State.Same s t [O.RtState]) ∧
  (∀ (s : State),
    s.inDrain (s.ft .hel) = true →
    Does (.guardDrainStart) s fun t =>
      t.tm.guardHold = true ∧
      t.bd = s.bd ∧
      State.Same s t []) ∧
  (∀ (s : State),
    s.inGuard (s.ft .hel) = false →
    s.inDrain (s.ft .hel) = false →
    s.condUnits = [] →
    s.si.hel.deferred = [] →
    Does (.guardRegionEnd) s fun t =>
      t.tm.guardHold = false ∧
      t.bd = s.bd ∧
      State.Same s t [])

/-- Timed actions: receipt, refusal, cancellation, launch of a timed write (R28, R30, R61, R63, R64, R253). -/
def Obligations.TimedActions : Prop :=
  (∀ (s : State) (u : Side) (a : ActionIn),
    s.ft u ≤ a.at_ →
    (s.acts u).length < actCap u →
    Does (.timedActionReceive u a) s fun t =>
      t.acts u = s.acts u ++ [actOfIn a (s.ft u)] ∧
      t.ob u O.ActionQueueFree = actCap u - ((s.acts u).length + 1) ∧
      State.Same s t [O.ActionQueueFree, O.SubscriberOverflow, O.BulkDiscarded]) ∧
  (∀ (s : State) (a : ActionIn),
    a.at_ < s.ft .hel →
    Does (.timedActionReceive .hel a) s fun t =>
      t.laneQ stEvent = s.laneQ stEvent ++ [(s.h O.HeladCutNumber, s.hRec 0x26 4 0 0 [(128, 32, a.handle), (160, 8, a.kind), (168, 8, 0), (176, 16, if a.kind = 6 then keyIdx a.key else 0), (192, 8, if a.kind = 6 then keySub a.key else 0), (256, 128, s.stampAt .hel a.at_), (384, 128, s.stampOf .hel (s.ft .hel) (s.marked .hel fnRecord))])] ∧
      t.acts .hel = s.acts .hel ∧
      State.Same s t []) ∧
  (∀ (s : State) (a : ActionIn),
    s.ft .hel ≤ a.at_ →
    64 ≤ (s.acts .hel).length →
    Does (.timedActionReceive .hel a) s fun t =>
      t.h O.ActionRefused = (s.h O.ActionRefused + 1) % 2 ^ 32 ∧
      t.acts .hel = s.acts .hel ∧
      State.Same s t [O.ActionRefused]) ∧
  (∀ (s : State) (q : Req) (h : Nat) (a : Act),
    askedByRing q = true →
    s.AcceptsDesc q →
    (s.acts .icd).find? (fun b => b.handle == h) = some a →
    s.ft .icd < a.at_ →
    s.ft .icd + us 50 ≤ a.at_ →
    a.kind = 6 →
    Does (.actionCancel q h) s fun t =>
      t.acts .icd = (s.acts .icd).filter (fun b => !(b.handle == a.handle && b.kind == a.kind)) ∧
      State.Same s t [O.ActionQueueFree, O.SubscriberOverflow, O.BulkDiscarded]) ∧
  (∀ (s : State) (q : Req) (h : Nat) (a : Act),
    askedByRing q = false →
    s.Accepts q O.ActionCancel h →
    (s.acts .icd).find? (fun b => b.handle == h) = some a →
    s.ft .icd < a.at_ →
    s.ft .icd + us 50 ≤ a.at_ →
    a.kind = 6 →
    Does (.actionCancel q h) s fun t =>
      t.acts .icd = (s.acts .icd).filter (fun b => !(b.handle == a.handle && b.kind == a.kind)) ∧
      State.Same s t [O.ActionQueueFree, O.SubscriberOverflow, O.BulkDiscarded]) ∧
  (∀ (s : State) (h : Nat) (a : Act),
    (s.acts .hel).find? (fun b => b.handle == h) = some a →
    a.kind ≠ 5 →
    Does (.cancelReceive .hel h) s fun t =>
      t.acts .hel = (s.acts .hel).filter (fun b => !(b.handle == a.handle && b.kind == a.kind)) ∧
      State.Same s t [O.ActionQueueFree]) ∧
  (∀ (s : State) (h : Nat),
    (s.acts .hel).find? (fun b => b.handle == h) = none →
    h ∈ s.done .hel →
    Does (.cancelReceive .hel h) s fun t =>
      t = (s.hAlarm 0x04F 2 h).commit) ∧
  (∀ (s : State) (a : Act),
    s.dueAct .icd = some a →
    a.kind = 6 →
    a.key ∈ [O.EpochLength, O.GracePerLevel, O.ResultBudget, O.SupplementHold] →
    Does (.timedObjectWrite .icd) s fun t =>
      t.i a.key = a.val ∧
      a.handle ∈ t.done .icd ∧
      t.acts .icd = removeFirst (fun b => b.handle == a.handle && b.kind == a.kind) (s.acts .icd) ∧
      State.Same s t [O.ActionQueueFree, a.key])

/-- Pulse generators arm, start and repeat; capture inputs stamp edges (R65, R66, R67). -/
def Obligations.PulsesAndCapture : Prop :=
  (∀ (s : State) (q : Req) (n v : Nat),
    s.Accepts q (inst O.PulseControl n) v →
    n < 8 →
    bit v 7 = false →
    bits v 11 5 = 0 →
    bit v 0 = true →
    bits v 8 3 < 8 →
    ns 20 ≤ ns (s.i (inst O.PulseWidth n)) →
    us 1 ≤ s.i (inst O.PulsePeriod n) ∧ ns (s.i (inst O.PulseWidth n)) + ns 20 ≤ s.i (inst O.PulsePeriod n) →
    bit (s.i (inst O.PulseControl n)) 3 = false →
    s.outputTaken .icd n (bits v 8 3) = false →
    s.ft .icd ≤ s.i (inst O.PulseStartFt n) →
    s.tm.iActs.length < 1024 →
    Does (.pulseArm q .icd n v) s fun t =>
      t.tm.iActs = s.tm.iActs ++ [⟨2 ^ 31 + s.tm.iHandle % 2 ^ 30, 5, s.i (inst O.PulseStartFt n), n, 0, 0, 0, 0, false, false, s.ft .icd⟩] ∧
      t.i (inst O.PulseControl n) = setBit (packFields [(0, 3, v), (3, 1, b2n (bit (s.i (inst O.PulseControl n)) 3)), (4, 1, b2n (bit (s.i (inst O.PulseControl n)) 4 && !bit v 4)), (5, 1, b2n (bit (s.i (inst O.PulseControl n)) 5 && !bit v 5)), (6, 1, b2n (bit (s.i (inst O.PulseControl n)) 6 && !bit v 6)), (8, 3, bits v 8 3), (16, 16, bits (s.i (inst O.PulseControl n)) 16 16)]) 3 true ∧
      tgetD t.tm.pulseK (16 + n) 1 = 0 ∧
      State.Same s t [inst O.PulseControl n, O.ActionQueueFree]) ∧
  (∀ (s : State) (q : Req) (n v : Nat),
    s.AcceptsProxy q (inst O.PulseControl n) v →
    n < 4 →
    bit v 7 = false →
    bits v 11 5 = 0 →
    bit v 0 = true →
    bits v 8 3 < 4 →
    ns 20 ≤ ns (s.h (inst O.PulseWidth n)) →
    us 1 ≤ s.h (inst O.PulsePeriod n) ∧ ns (s.h (inst O.PulseWidth n)) + ns 20 ≤ s.h (inst O.PulsePeriod n) →
    bit (s.h (inst O.PulseControl n)) 3 = false →
    s.outputTaken .hel n (bits v 8 3) = false →
    s.ft .hel ≤ s.h (inst O.PulseStartFt n) →
    s.tm.hActs.length < 64 →
    Does (.pulseArm q .hel n v) s fun t =>
      t.tm.hActs = s.tm.hActs ++ [⟨3 * 2 ^ 30 + s.tm.hHandle % 2 ^ 30, 5, s.h (inst O.PulseStartFt n), n, 0, 0, 0, 0, false, false, s.ft .hel⟩] ∧
      tgetD t.tm.pulseK n 1 = 0 ∧
      State.Same s t [inst O.PulseControl n, O.ActionQueueFree]) ∧
  (∀ (s : State) (n : Nat) (a : Act),
    n < 8 →
    s.dueAct .icd = some a →
    a.kind = 5 →
    a.a = n →
    bit (s.i (inst O.PulseControl n)) 3 = true →
    Does (.pulseStart .icd n) s fun t =>
      t.out = ⟨.pin, pulsePin .icd (bits (s.i (inst O.PulseControl n)) 8 3), [s.ft .icd, s.i (inst O.PulseWidth n), b2n (bit (s.i (inst O.PulseControl n)) 2)]⟩ :: s.out ∧
      t.tm.iActs = removeFirst (fun b => b.handle == a.handle && b.kind == a.kind) s.tm.iActs ∧
      a.handle ∈ t.tm.iDone ∧
      State.Same s t [inst O.PulseControl n, O.ActionQueueFree]) ∧
  (∀ (s : State) (u : Side) (n : Nat),
    pulseNum u n ∈ s.tm.pulseOn →
    (s.ob u (inst O.PulseCount n) = 0 ∨ tgetD s.tm.pulseK (pulseNum u n) 0 < s.ob u (inst O.PulseCount n)) →
    s.ob u (inst O.PulseStartFt n) + tgetD s.tm.pulseK (pulseNum u n) 0 * s.ob u (inst O.PulsePeriod n) ≤ s.ft u →
    Does (.pulseEdge u n) s fun t =>
      t.out = ⟨.pin, pulsePin u (bits (s.ob u (inst O.PulseControl n)) 8 3), [s.ft u, s.ob u (inst O.PulseWidth n), b2n (bit (s.ob u (inst O.PulseControl n)) 2)]⟩ :: s.out ∧
      tgetD t.tm.pulseK (pulseNum u n) 0 = tgetD s.tm.pulseK (pulseNum u n) 0 + 1 ∧
      State.Same s t [inst O.PulseControl n]) ∧
  (∀ (s : State) (n : Nat),
    s.h (O.CaptureEnable + n) = 3 →
    (((tgetD s.tm.caps n ⟨none, 0⟩).last).all fun x => decide (x + us 1 ≤ s.ft .hel)) = true →
    s.bd.haoReset = false →
    Does (.captureEdge .hel n false) s fun t =>
      t.laneQ stCounter = s.laneQ stCounter ++ [(s.h O.HeladCutNumber, s.hRec 0x22 3 0 0 [(128, 128, s.stampOf .hel (s.ft .hel) (s.marked .hel fnCapture)), (256, 8, n), (264, 8, 0), (272, 16, (tgetD s.tm.caps n ⟨none, 0⟩).overrun)])] ∧
      tget t.tm.caps n = some ⟨some (s.ft .hel), 0⟩ ∧
      State.Same s t []) ∧
  (∀ (s : State) (u : Side) (n : Nat) (r : Bool) (x : Nat),
    s.ob u (O.CaptureEnable + n) = 3 →
    (tgetD s.tm.caps (pulseNum u n) ⟨none, 0⟩).last = some x →
    s.ft u < x + us 1 →
    (u = .hel → s.bd.haoReset = false) →
    Does (.captureEdge u n r) s fun t =>
      (tgetD t.tm.caps (pulseNum u n) ⟨none, 0⟩).overrun = sat 0xFFFF ((tgetD s.tm.caps (pulseNum u n) ⟨none, 0⟩).overrun + 1) ∧
      t.ln = s.ln ∧
      t.out = s.out ∧
      State.Same s t [])

/-- Host read requests, responses, stray responses and timeouts (R83, R84, R85, R57). -/
def Obligations.HostReads : Prop :=
  (∀ (s : State) (j : Job) (tag : Nat) (g : Nat × Nat),
    s.h O.HostMemBandwidth ≠ 0 →
    s.awake 5 = true →
    s.tm.guardHold = false →
    s.inDrain (s.ft .hel) = false →
    s.nextRead = some j →
    s.freeTag = some tag →
    j.segs[j.cur]? = some g →
    min 4096 (segSpan g - j.off) * 1000000 ≤ s.bd.tokens →
    Does (.readRequestIssue) s fun t =>
      t.out = ⟨.readPort, tag, [(g.1 / 64 * 64 + j.off) / 64, min 4096 (segSpan g - j.off) / 64 - 1, tag, j.part]⟩ :: s.out ∧
      t.bd.tokens = s.bd.tokens - min 4096 (segSpan g - j.off) * 1000000 ∧
      tget t.bd.reads tag = some ⟨j.id, g.1 / 64 * 64 + j.off, min 4096 (segSpan g - j.off), j.part, s.ft .hel, j.cur, j.off, []⟩ ∧
      State.Same s t []) ∧
  (∀ (s : State),
    s.h O.HostMemBandwidth = 0 →
    (∀ j ∈ s.si.hel.jobs, 4 < j.kind) →
    Does (.readRequestIssue) s fun t =>
      t.si.hel.jobs = s.si.hel.jobs.map (fun j => if j.wants then { j with fail := 2 } else j) ∧
      t.out = s.out ∧
      t.bd = s.bd ∧
      State.Same s t []) ∧
  (∀ (s : State),
    s.h O.HostMemBandwidth ≠ 0 →
    (s.tm.guardHold = true ∨ s.inDrain (s.ft .hel) = true) →
    Does (.readRequestIssue) s fun t =>
      t.out = s.out ∧
      t.bd = s.bd ∧
      t.si = s.si) ∧
  (∀ (s : State) (tag : Nat) (data : List Nat) (r : ReadReq),
    tget s.bd.reads tag = some r →
    Does (.readResponse tag data false 0) s fun t =>
      tget t.bd.reads tag = some { r with data := r.data ++ data } ∧
      (∀ x, x ≠ tag → tget t.bd.reads x = tget s.bd.reads x) ∧
      t.si = s.si ∧
      t.out = s.out ∧
      State.Same s t []) ∧
  (∀ (s : State) (tag : Nat) (data : List Nat) (r : ReadReq),
    tget s.bd.reads tag = some r →
    (∀ j ∈ s.si.hel.jobs, 4 < j.kind) →
    Does (.readResponse tag data true 0) s fun t =>
      tget t.bd.reads tag = none ∧
      (∀ x, x ≠ tag → tget t.bd.reads x = tget s.bd.reads x) ∧
      t.si.hel.jobs = s.si.hel.jobs.map (fun j => if j.id = r.job then ({ j with wait := j.wait - 1, got := j.got ++ [(r.seg, r.off, r.data ++ data)] } : Job).roll else j) ∧
      State.Same s t []) ∧
  (∀ (s : State) (tag err : Nat) (data : List Nat),
    tget s.bd.reads tag = none →
    tag ∈ s.bd.retired →
    Does (.readResponse tag data true err) s fun t =>
      t.bd.retired = s.bd.retired.filter (· != tag) ∧
      t.bd.reads = s.bd.reads ∧
      t.si = s.si ∧
      State.Same s t []) ∧
  (∀ (s : State) (tag : Nat) (r : ReadReq),
    tget s.bd.reads tag = some r →
    r.at_ + us (s.h O.ReadTimeout) ≤ s.ft .hel →
    (∀ j ∈ s.si.hel.jobs, 4 < j.kind) →
    Does (.readTimeout tag) s fun t =>
      tget t.bd.reads tag = none ∧
      t.bd.retired = s.bd.retired ++ [tag] ∧
      t.si.hel.jobs = s.si.hel.jobs.map (fun j => if j.id = r.job then ({ j with fail := if j.fail = 0 then 3 else j.fail, fAddr := r.addr, fCode := 0, wait := j.wait - 1 } : Job).roll else j) ∧
      t.si.hel.faults = (3, r.addr, r.part, 0) :: s.si.hel.faults ∧
      State.Same s t [])

/-- Fence handshakes, fence timeouts, the fence map and fence entries (R87, R88, R376, R377, R31). -/
def Obligations.Fences : Prop :=
  (∀ (s : State) (u : Nat),
    u < 256 →
    s.fenceWanted u = true →
    bit s.bd.fReq u = false →
    bit s.bd.fAck u = false →
    (s.radioUnit u && s.inGuard (s.ft .hel)) = false →
    s.bd.haoReset = false →
    Does (.fenceRequest u) s fun t =>
      t.bd.fReq = setBit s.bd.fReq u true ∧
      t.bd.fAck = s.bd.fAck ∧
      tget t.pins (0x300 + u) = some 1 ∧
      t.h (inst128 O.FenceEntry u) = setBit (s.h (inst128 O.FenceEntry u)) 57 true ∧
      t.out = s.out ∧
      State.Same s t [inst128 O.FenceEntry u]) ∧
  (∀ (s : State) (u : Nat),
    u < 256 →
    (s.fenceWanted u = false ∨ bit s.bd.fReq u = true ∨ bit s.bd.fAck u = true ∨ (s.radioUnit u && s.inGuard (s.ft .hel)) = true) →
    Does (.fenceRequest u) s fun t =>
      t = s.commit) ∧
  (∀ (s : State) (u : Nat),
    u < 256 →
    s.fenceWanted u = true →
    Does (.fenceAckRise u) s fun t =>
      t.bd = { s.bd with fAck := setBit s.bd.fAck u true } ∧
      t.pins = s.pins ∧
      State.Same s t []) ∧
  (∀ (s : State) (u : Nat),
    u < 256 →
    s.fenceWanted u = false →
    bit s.bd.fReq u = true →
    bit s.bd.fAck u = true →
    s.bd.haoReset = false →
    Does (.fenceRelease u) s fun t =>
      t.bd.fReq = setBit s.bd.fReq u false ∧
      t.bd.fAck = s.bd.fAck ∧
      tget t.pins (0x300 + u) = some 0 ∧
      t.h (inst128 O.FenceEntry u) = setBit (s.h (inst128 O.FenceEntry u)) 57 false ∧
      State.Same s t [inst128 O.FenceEntry u]) ∧
  (∀ (s : State) (u : Nat),
    u < 256 →
    s.fenceWanted u = false →
    Does (.fenceAckFall u) s fun t =>
      t.bd = { s.bd with fAck := setBit s.bd.fAck u false } ∧
      t.pins = s.pins ∧
      State.Same s t []) ∧
  (∀ (s : State) (u : Nat),
    u < 256 →
    bit s.bd.fReq u = true →
    bit s.bd.fAck u = false →
    bit s.bd.fLate u = false →
    tgetD s.bd.fAt u 0 + us (s.h O.FenceAckLimit) ≤ s.ft .hel →
    Does (.fenceAckTimeout u) s fun t =>
      t.bd.fLate = setBit s.bd.fLate u true ∧
      t.bd.fReq = s.bd.fReq ∧
      t.pins = s.pins ∧
      State.Same s t [O.AlarmOverflow]) ∧
  (∀ (s : State),
    s.si.perDie = [] →
    (∀ u, u < 256 → tget s.hd (inst128 O.FenceEntry u) = none) →
    s.bd.haoReset = false →
    Does (.fenceMapLoad) s fun t =>
      t.pins = tset s.pins 0x400 1 ∧
      t.bd = s.bd ∧
      State.Same s t []) ∧
  (∀ (s : State) (q : Req) (u v : Nat),
    u < 256 →
    s.AcceptsProxy q (inst128 O.FenceEntry u) v →
    bits v 58 6 = 0 →
    bits v 0 2 = 3 →
    bits v 2 2 = 3 →
    bit s.bd.fReq u = false →
    Does (.fenceEntryWrite q u v) s fun t =>
      bits (t.h (inst128 O.FenceEntry u)) 0 56 = bits v 0 56 ∧
      State.Same s t [inst128 O.FenceEntry u] ∧
      tget t.si.hel.metAt u = some (s.ft .hel))

/-- Halt acknowledges, radio groups, the Helad window latches, condition expiry (R90, R377, R396, R522). -/
def Obligations.HaltsAndLatches : Prop :=
  (∀ (s : State) (g : Nat),
    g < 64 →
    Does (.haltAckRise g) s fun t =>
      t.bd.hAck = setBit s.bd.hAck g true ∧
      t.bd.hReq = s.bd.hReq ∧
      t.pins = s.pins ∧
      State.Same s t []) ∧
  (∀ (s : State) (g : Nat),
    g < 64 →
    bit s.bd.hReq g = true →
    bit s.bd.hAck g = false →
    bit s.bd.hLate g = false →
    tgetD s.bd.hAt g 0 + us (s.h O.HaltAckLimit) ≤ s.ft .hel →
    Does (.haltAckTimeout g) s fun t =>
      t.bd.hLate = setBit s.bd.hLate g true ∧
      t.bd.hReq = s.bd.hReq ∧
      t.bd.hAck = s.bd.hAck ∧
      t.pins = s.pins ∧
      State.Same s t [O.AlarmOverflow]) ∧
  (∀ (s : State) (g : Nat),
    g < 64 →
    bit s.bd.hReq g = true →
    Does (.radioGroupRise g) s fun t =>
      t.bd.radio = setBit s.bd.radio g true ∧
      t.bd.hReq = setBit s.bd.hReq g false ∧
      tget t.pins (0x410 + g) = some 0 ∧
      State.Same s t [O.AlarmOverflow]) ∧
  (∀ (s : State) (g : Nat),
    g < 64 →
    bit s.bd.hReq g = false →
    Does (.radioGroupRise g) s fun t =>
      t.bd = { s.bd with radio := setBit s.bd.radio g true } ∧
      t.pins = s.pins ∧
      t.ki = s.ki ∧
      State.Same s t []) ∧
  (∀ (s : State),
    s.bd.haoReset = false →
    Does (.hvFtnowLatch) s fun t =>
      t.out = ⟨.reply, 0x522, [s.stamp .hel % 2 ^ 32]⟩ :: s.out ∧
      t.mo.hvFt = s.stamp .hel ∧
      t.mo.hvRt = s.rtWord (s.ft .hel) ∧
      State.Same s t []) ∧
  (∀ (s : State),
    s.bd.haoReset = false →
    Does (.hvHoursLatch) s fun t =>
      t.mo.hvOh = packFields [(0, 64, s.h O.OhSeconds), (64, 32, s.h O.PowerCycles)] ∧
      t.out = ⟨.reply, 0x522, [packFields [(0, 64, s.h O.OhSeconds), (64, 32, s.h O.PowerCycles)] % 2 ^ 32]⟩ :: s.out ∧
      State.Same s t []) ∧
  (∀ (s : State) (u : Nat),
    u < 256 →
    bits (s.h (inst128 O.FenceEntry u)) 0 2 = 3 →
    bits (s.h (inst128 O.FenceEntry u)) 2 2 = 3 →
    s.awake 2 = true →
    bit (s.h (inst128 O.FenceEntry u)) 56 = true →
    tgetD s.si.hel.metAt u 0 + us (s.h O.ConditionHold) ≤ s.ft .hel →
    bit s.bd.fReq u = false →
    Does (.conditionHoldExpiry u) s fun t =>
      t.h (inst128 O.FenceEntry u) = setBit (s.h (inst128 O.FenceEntry u)) 56 false ∧
      t.bd.fReq = s.bd.fReq ∧
      State.Same s t [inst128 O.FenceEntry u])

/-- Tap increments count; commands open and close (R77, R79, R102, R104, R108, R109, R110, R111, R547). -/
def Obligations.TapsAndCommands : Prop :=
  (∀ (s : State) (port inc tag evt : Nat),
    s.wired port = false →
    Does (.tapIncrement port inc tag evt none) s fun t =>
      t = s.commit) ∧
  (∀ (s : State) (port inc tag evt : Nat),
    s.wired port = true →
    s.awake 2 = false →
    s.bd.haoReset = false →
    Does (.tapIncrement port inc tag evt none) s fun t =>
      t.h O.TapEarly = setBit (s.h O.TapEarly) (port / 16) true ∧
      State.Same s t [O.TapEarly]) ∧
  (∀ (s : State) (port inc tag evt : Nat),
    s.wired port = true →
    s.awake 2 = true →
    32 ≤ tgetD s.ct.fifo port 0 →
    s.bd.haoReset = false →
    Does (.tapIncrement port inc tag evt none) s fun t =>
      t.h O.TapOverflow = setBit (s.h O.TapOverflow) port true ∧
      State.Same s t [O.TapOverflow]) ∧
  (∀ (s : State) (port inc tag evt n : Nat),
    s.wired port = true →
    s.awake 2 = true →
    tgetD s.ct.fifo port 0 < 32 →
    port < 176 →
    s.counters.filter (fun m => tapMatches (s.h (ccfg m)) port tag evt) = [n] →
    s.condUnits = [] →
    (∀ k, k < 8 → s.compKind k = 0) →
    n < 4096 →
    s.bd.haoReset = false →
    Does (.tapIncrement port inc tag evt none) s fun t =>
      t.h (cval n) = countTap (s.h (ccfg n)) (s.h (cval n)) inc ∧
      tgetD t.ct.fifo port 0 = tgetD s.ct.fifo port 0 + 1 ∧
      State.Same s t [cval n]) ∧
  (∀ (s : State) (stream cmdid part : Nat),
    s.cbReady = false →
    s.domState 2 = 0 →
    s.heladReset = false →
    Does (.commandStart stream cmdid part) s fun t =>
      t.domState 2 = 1 ∧
      t.ct = s.ct ∧
      State.Same s t []) ∧
  (∀ (s : State) (stream cmdid part : Nat),
    stream < 16 →
    s.cbReady = true →
    (s.overlap stream cmdid).ct.opens.find? (fun o => o.stream == stream && o.cmdid == cmdid) = none →
    s.h (O.StreamSet + stream) = 0xFF →
    ((s.overlap stream cmdid).ct.opens.filter fun o => o.stream == stream).length < 8 →
    (s.overlap stream cmdid).slotsUsed ≤ 16384 →
    (∀ k, k < 8 → s.compKind k = 0) →
    s.h (O.ProvTableBase + stream) = 0 →
    Does (.commandStart stream cmdid part) s fun t =>
      t.ct.opens = (s.overlap stream cmdid).ct.opens ++ [⟨stream, cmdid, part, s.stampOf .hel (s.ft .hel) (s.marked .hel fnCommand), false, 0, 0, [], [], 0⟩] ∧
      t.h O.OpenCommands = (s.overlap stream cmdid).ct.opens.length + 1 ∧
      State.Same s t [O.OpenCommands, O.LatchStoreFree]) ∧
  (∀ (s : State) (stream cmdid part : Nat) (o : OpenCmd),
    stream < 16 →
    s.cbReady = true →
    (s.overlap stream cmdid).ct.opens.find? (fun o => o.stream == stream && o.cmdid == cmdid) = some o →
    (∀ k, k < 8 → s.compKind k = 0) →
    s.si.hel.provs = [] →
    Does (.commandEnd stream cmdid part false) s fun t =>
      t.ct.opens = removeFirst (fun p => p.stream == o.stream && p.cmdid == o.cmdid) (s.overlap stream cmdid).ct.opens ∧
      t.h O.OpenCommands = t.ct.opens.length ∧
      State.Same s t [O.OpenCommands, O.LatchStoreFree, O.RecordsTruncated]) ∧
  (∀ (s : State) (stream cmdid part : Nat),
    stream < 16 →
    s.cbReady = true →
    (s.overlap stream cmdid).ct.opens.find? (fun o => o.stream == stream && o.cmdid == cmdid) = none →
    (∀ k, k < 8 → s.compKind k = 0) →
    s.si.hel.provs = [] →
    s.laneBytes stCounter + 64 * s.ct.opens.length + 64 ≤ counterQueueBytes →
    Does (.commandEnd stream cmdid part false) s fun t =>
      t.laneQ stCounter = s.laneQ stCounter ++ [(s.h O.HeladCutNumber, s.hRec 0x30 4 0 part [(128, 64, cmdid), (192, 128, 0), (320, 128, s.stampOf .hel (s.ft .hel) (s.marked .hel fnCommand)), (448, 4, stream), (452, 3, 0), (456, 10, 0), (472, 16, 0), (488, 24, 8)])] ∧
      State.Same s t [])

/-- Counter configuration, clear, set commit, samples and the copy at the Tray (R103, R104, R106, R112, R114, R548). -/
def Obligations.CounterControl : Prop :=
  (∀ (s : State) (q : Req) (n v : Nat),
    n < 4096 →
    s.AcceptsProxy q (ccfg n) v →
    bits v 35 5 = 0 →
    bits v 56 8 = 0 →
    bits v 40 16 ≠ 0 →
    ccEnable v = true →
    s.wired (ccPort v) = true →
    ccMode v ≤ 1 →
    bit v 19 = false →
    bits (s.h (ccfg n)) 0 30 ≠ bits v 0 30 →
    ccSample (s.h (ccfg n)) ≠ ccSample v →
    Does (.counterConfigWrite q n v) s fun t =>
      t.h (ccfg n) = setBit v 34 false ∧
      t.h (cval n) = 0 ∧
      t.h O.SampleVersion = (s.h O.SampleVersion + 1) % 2 ^ 16 ∧
      t.ct.mapOwed = true ∧
      State.Same s t [ccfg n, cval n, O.SampleVersion]) ∧
  (∀ (s : State) (q : Req) (n v : Nat),
    n < 4096 →
    s.AcceptsProxy q (ccfg n) v →
    bits v 35 5 = 0 →
    bits v 56 8 = 0 →
    bits v 40 16 ≠ 0 →
    bits (s.h (ccfg n)) 0 30 = bits v 0 30 →
    ccSample (s.h (ccfg n)) = ccSample v →
    ccEnable v = false →
    Does (.counterConfigWrite q n v) s fun t =>
      t.h (ccfg n) = setBit v 34 false ∧
      t.ct = s.ct ∧
      State.Same s t [ccfg n]) ∧
  (∀ (s : State) (q : Req) (k b : Nat),
    1 ≤ k →
    k ≤ 128 →
    b < 32 →
    s.AcceptsProxy q (O.CounterClear + (k - 1)) (2 ^ b) →
    setBitsOf 32 (2 ^ b) = [b] →
    ccMode (s.h (ccfg (32 * (k - 1) + b))) ≤ 1 →
    Does (.counterClear q k (2 ^ b)) s fun t =>
      t.h (cval (32 * (k - 1) + b)) = 0 ∧
      State.Same s t [cval (32 * (k - 1) + b)]) ∧
  (∀ (s : State) (q : Req) (k : Nat),
    k < 8 →
    s.AcceptsProxy q O.SetCommit (2 ^ k) →
    setBitsOf 8 (2 ^ k) = [k] →
    s.setBusy k = false →
    Does (.setCommit q (2 ^ k)) s fun t =>
      tget t.ct.active k = some (s.stagedSet k) ∧
      t.h (inst O.SetVersion k) = (s.h (inst O.SetVersion k) + 1) % 2 ^ 16 ∧
      (∀ j, j ≠ k → tget t.ct.active j = tget s.ct.active j) ∧
      State.Same s t [inst O.SetVersion k]) ∧
  (∀ (s : State) (q : Req) (k : Nat),
    k < 8 →
    s.AcceptsProxy q O.SetCommit (2 ^ k) →
    setBitsOf 8 (2 ^ k) = [k] →
    s.setBusy k = true →
    Does (.setCommit q (2 ^ k)) s fun t =>
      t.h O.SetBusy = setBit (s.h O.SetBusy) k true ∧
      t.ct = s.ct ∧
      State.Same s t [O.SetBusy]) ∧
  (∀ (s : State),
    s.ct.lastAt < s.sampleAt →
    s.awake 2 = true →
    ((s.acts .hel).any (fun a => decide (a.at_ ≤ s.sampleAt))) = false →
    s.ct.mapOwed = false →
    s.sampled = [] →
    Does (.counterSample) s fun t =>
      t.ct.lastAt = s.sampleAt ∧
      t.ct.slept = none ∧
      t.laneQ stCounter = s.laneQ stCounter ++ [(s.h O.HeladCutNumber, s.hRec 0x31 3 0 0 [(128, 128, s.stampOf .hel (s.ft .hel / us (s.h O.SampleInterval) * us (s.h O.SampleInterval)) (s.marked .hel fnSample)), (256, 16, s.h O.SampleVersion), (272, 16, 0), (288, 1, b2n s.ct.slept.isSome), (289, 1, 0), (320, 64, s.ct.slept.getD 0)])] ∧
      State.Same s t []) ∧
  (∀ (s : State) (slot k v : Nat),
    s.dictsWf →
    k < 2 ^ 24 →
    Does (.configCopyReadback slot [(k, v)] []) s fun t =>
      t.copyOf slot k = v ∧
      (∀ j, j ≠ k → j < 2 ^ 24 → tget t.ln.copies (slot * 2 ^ 24 + j) = none) ∧
      { t with ln := { t.ln with copies := s.ln.copies }, ct := s.ct } = s)

/-- Trace packets, cadence boundaries, block flushes and doze edges of the trace funnel (R121, R122, R124, R125, R126, R127, R129, R130, R131, R132, R138, R139). -/
def Obligations.TraceFunnel : Prop :=
  (∀ (s : State) (k bad : Nat) (data : List Nat) (b : TrBlock),
    k < 64 →
    s.tWired k = true →
    (s.tsrc k).dozing = false →
    s.awake 3 = true →
    tgetD s.tr.fifo k 0 ≤ 32 →
    s.traceFill * 100 < 524288 * s.h (O.ClassThreshold + bits (s.h (O.TraceSource + k)) 0 2) →
    bit s.traceMask k = true →
    (∀ j, j < 8 → s.compKind j = 0) →
    (s.tsrc k).full.isSome = true →
    (s.tsrc k).restart = false →
    (s.tsrc k).resetDue = false →
    (s.tsrc k).owed = none →
    (s.tsrc k).losses = [] →
    (s.tsrc k).marks = [] →
    (s.tsrc k).block = some b →
    b.bytes.length + 2 + data.length ≤ 4064 →
    bad = 0 →
    Does (.tracePacket k data bad) s fun t =>
      (t.tsrc k).block = some { b with bytes := b.bytes ++ entryBytes 0 data } ∧
      tgetD t.tr.fifo k 0 = tgetD s.tr.fifo k 0 + beatsOf data.length ∧
      t.h O.BufferFill = t.traceFill % 2 ^ 32 ∧
      t.tr.closed = s.tr.closed ∧
      t.ln = s.ln ∧
      State.Same s t [O.BufferFill]) ∧
  (∀ (s : State) (k bad : Nat) (data : List Nat),
    k < 64 →
    s.tWired k = true →
    (s.tsrc k).dozing = false →
    s.awake 3 = true →
    tgetD s.tr.fifo k 0 ≤ 32 →
    bit (s.h (O.TraceSource + k)) 2 = true →
    524288 * s.h (O.ClassThreshold + bits (s.h (O.TraceSource + k)) 0 2) ≤ s.traceFill * 100 →
    bit s.traceMask k = true →
    (s.tsrc k).losses = [] →
    (∀ j, j < 8 → s.compKind j = 0) →
    Does (.tracePacket k data bad) s fun t =>
      (t.tsrc k).losses = [⟨bits (s.h (O.TraceSource + k)) 0 2, 0, 1, data.length, s.cadIdx, false⟩] ∧
      (t.tsrc k).block = (s.tsrc k).block ∧
      t.h (O.LossBytes + k) = (s.h (O.LossBytes + k) + data.length) % 2 ^ 64 ∧
      t.tr.closed = s.tr.closed ∧
      t.ln = s.ln ∧
      State.Same s t [O.LossBytes + k, O.BufferFill]) ∧
  (∀ (s : State) (k bad : Nat) (data : List Nat),
    k < 64 →
    s.tWired k = true →
    (s.tsrc k).dozing = false →
    s.awake 3 = true →
    bit (s.h (O.TraceSource + k)) 2 = false →
    (32 < tgetD s.tr.fifo k 0 ∨ 524288 * s.h (O.ClassThreshold + bits (s.h (O.TraceSource + k)) 0 2) ≤ s.traceFill * 100) →
    Does (.tracePacket k data bad) s fun t =>
      t = s.commit) ∧
  (∀ (s : State) (k bad : Nat) (data : List Nat),
    k < 64 →
    s.tWired k = true →
    (s.tsrc k).dozing = false →
    s.domState 3 = 0 →
    bit (s.h (O.TraceSource + k)) 2 = false →
    s.heladReset = false →
    Does (.tracePacket k data bad) s fun t =>
      t.domState 3 = 1 ∧
      t.tr = s.tr ∧
      State.Same s t []) ∧
  (∀ (s : State),
    s.tr.cadNext = none →
    s.tr.lastK < s.cadIdx →
    Does (.traceCadenceBoundary) s fun t =>
      t.tr.lastK = s.cadIdx ∧
      (∀ k, k < 64 → t.tsrc k = (if bit s.traceMask k = true ∧ s.tWired k = true ∧ (s.tsrc k).dozing = false then { s.tsrc k with owed := some s.cadIdx } else s.tsrc k)) ∧
      State.Same s t []) ∧
  (∀ (s : State) (q : Req) (v : Nat),
    s.AcceptsProxy q O.TraceCadence v →
    Does (.traceCadenceWrite q v) s fun t =>
      t.h O.TraceCadence = v ∧
      t.tr = { s.tr with cadNext := some (v, (s.ft .hel / us (max 1 v) + 1) * us (max 1 v)) } ∧
      State.Same s t [O.TraceCadence]) ∧
  (∀ (s : State) (k : Nat) (b : TrBlock),
    k < 64 →
    (s.tsrc k).block = some b →
    b.first + us (s.h O.FlushLatency) ≤ s.ft .hel →
    Does (.traceBlockFlush k) s fun t =>
      t.tsrc k = { s.tsrc k with block := none, seq := ((s.tsrc k).seq + 1) % 2 ^ 32 } ∧
      t.tr.closed = s.tr.closed ++ [(b.cls, k, s.hRec 0x40 (2 + (b.bytes.length + 15) / 16) 0 b.part [(128, 6, k), (134, 2, b.cls), (136, 32, (s.tsrc k).seq), (168, 12, b.bytes.length), (256, 8 * b.bytes.length, bytesNat b.bytes)], s.h O.HeladCutNumber)] ∧
      State.Same s t [O.BufferFill]) ∧
  (∀ (s : State) (k : Nat) (cut : List Nat),
    k < 64 →
    s.heladReset = false →
    s.tWired k = true →
    (s.tsrc k).dozing = false →
    bit s.traceMask k = false →
    (cut = [] ∨ s.matchPacket k cut = 0) →
    Does (.tfDozeRise k cut) s fun t =>
      t.tsrc k = { s.tsrc k with dozing := true, owed := none } ∧
      t.h (O.DozeCount + k) = (s.h (O.DozeCount + k) + 1) % 2 ^ 32 ∧
      t.laneQ stCounter = s.laneQ stCounter ++ [(s.h O.HeladCutNumber, s.hRec 0x42 3 0 (bits (s.h (O.TraceSource + k)) 16 16) [(128, 128, s.stampOf .hel (s.ft .hel) (s.marked .hel fnRecord)), (256, 8, k), (264, 8, 1), (272, 8, b2n (!(s.tsrc k).lastF0))])] ∧
      State.Same s t [O.DozeCount + k]) ∧
  (∀ (s : State) (k : Nat),
    k < 64 →
    s.heladReset = false →
    s.tWired k = true →
    (s.tsrc k).dozing = false →
    bit s.traceMask k = true →
    (s.tsrc k).losses = [] →
    (s.tsrc k).block = none →
    Does (.tfDozeRise k []) s fun t =>
      (t.tsrc k).dozing = true ∧
      (t.tsrc k).owed = none ∧
      (t.tsrc k).seq = ((s.tsrc k).seq + 1) % 2 ^ 32 ∧
      t.tr.closed = s.tr.closed ++ [(bits (s.h (O.TraceSource + k)) 0 2, k, s.hRec 0x40 3 0 (bits (s.h (O.TraceSource + k)) 16 16) [(128, 6, k), (134, 2, bits (s.h (O.TraceSource + k)) 0 2), (136, 32, (s.tsrc k).seq), (168, 12, 4), (256, 32, bytesNat (entryBytes 4 (natBytes 2 (b2n (!(s.tsrc k).lastF0)))))], s.h O.HeladCutNumber)] ∧
      State.Same s t [O.BufferFill, O.DozeCount + k]) ∧
  (∀ (s : State) (k : Nat),
    k < 64 →
    s.heladReset = false →
    s.tWired k = true →
    (s.tsrc k).dozing = true →
    bit s.traceMask k = true →
    (s.tsrc k).losses = [] →
    (s.tsrc k).block = none →
    Does (.tfDozeFall k) s fun t =>
      (t.tsrc k).dozing = false ∧
      (t.tsrc k).full = some (s.cadIdx, s.boundaryFlags s.cadIdx) ∧
      ((t.tsrc k).block.map fun b => b.bytes.take 10) = some (natBytes 2 (2 + 16 * 16) ++ natBytes 8 (s.cadIdx % 2 ^ 64)) ∧
      t.laneQ stCounter = s.laneQ stCounter ++ [(s.h O.HeladCutNumber, s.hRec 0x42 3 0 (bits (s.h (O.TraceSource + k)) 16 16) [(128, 128, s.stampOf .hel (s.ft .hel) (s.marked .hel fnRecord)), (256, 8, k), (264, 8, 0), (272, 8, 0)])] ∧
      t.tr.closed = s.tr.closed ∧
      State.Same s t [O.BufferFill, O.DozeCount + k])

/-- The trace sequencer: enabling, counter targets, FT instants and trigger codes (R134, R135, R136, R137). -/
def Obligations.TraceSequencer : Prop :=
  (∀ (s : State) (q : Req) (v : Nat),
    s.AcceptsProxy q O.SeqControl v →
    bits v 5 3 = 0 →
    bit v 0 = true →
    Does (.seqEnable q v) s fun t =>
      t.h O.SeqControl = packFields [(0, 3, v), (3, 2, bits v 1 2)] ∧
      (∀ j, j < 4 → t.h (inst O.SeqCounterValue j) = (if bit (bits (s.h (inst O.StateControl (bits v 1 2))) 28 4) j then 0 else s.h (inst O.SeqCounterValue j))) ∧
      (∀ j, j < 4 → bit t.tr.cntPend j = (bit s.tr.cntPend j && !bit (bits (s.h (inst O.StateControl (bits v 1 2))) 28 4) j)) ∧
      t.domState 3 ≠ 0 ∧
      State.Same s t ([O.SeqControl] ++ (List.range 4).map (inst O.SeqCounterValue))) ∧
  (∀ (s : State) (q : Req) (v : Nat),
    s.AcceptsProxy q O.SeqControl v →
    bits v 5 3 = 0 →
    bit v 0 = false →
    Does (.seqEnable q v) s fun t =>
      t.h O.SeqControl = packFields [(0, 3, v), (3, 2, bits (s.h O.SeqControl) 3 2)] ∧
      t.tr.cntPend = s.tr.cntPend ∧
      t.tr.trans = s.tr.trans ∧
      (∀ k, k < 64 → t.tsrc k = (if bit (s.h O.TraceEnable) k ∧ bit s.traceMask k = false then { s.tsrc k with restart := true, owed := none } else s.tsrc k)) ∧
      State.Same s t [O.SeqControl]) ∧
  (∀ (s : State),
    s.tr.cntPend ≠ 0 →
    bit (s.h O.SeqControl) 0 = true →
    (bits (s.h (inst O.StateControl s.seqState)) 8 4 &&& s.tr.cntPend) ≠ 0 →
    bit (s.h (inst O.StateControl (bits (s.h (inst O.StateControl s.seqState)) 12 2))) 32 = true →
    Does (.seqCounterTarget) s fun t =>
      t.seqState = bits (s.h (inst O.StateControl s.seqState)) 12 2 ∧
      t.tr.trans = (s.tr.trans + 1) % 2 ^ 32 ∧
      t.tr.cntPend = 0 ∧
      t.laneQ stControl = s.laneQ stControl ++ [(s.h O.HeladCutNumber, s.hRec 0x41 3 0 0 [(128, 128, s.stampOf .hel (s.ft .hel) (s.marked .hel fnTrigger)), (256, 8, s.seqState), (264, 8, t.seqState), (272, 8, 0), (280, 4, bits (s.h (inst O.StateControl s.seqState)) 8 4 &&& s.tr.cntPend), (288, 32, t.tr.trans)])] ∧
      State.Same s t ([O.SeqControl] ++ (List.range 4).map (inst O.SeqCounterValue))) ∧
  (∀ (s : State) (k : Nat),
    k < 8 →
    s.compKind k = 5 →
    bit s.tr.fired5 k = false →
    s.h (inst O.CompValue k) ≤ s.ft .hel / 65536 →
    bit (s.h O.SeqControl) 0 = true →
    bit (bits (s.h (inst O.StateControl s.seqState)) 0 8) k = true →
    bit (s.h (inst O.StateControl (bits (s.h (inst O.StateControl s.seqState)) 12 2))) 32 = false →
    Does (.compFtInstant k) s fun t =>
      t.tr.fired5 = setBit s.tr.fired5 k true ∧
      t.seqState = bits (s.h (inst O.StateControl s.seqState)) 12 2 ∧
      t.tr.trans = (s.tr.trans + 1) % 2 ^ 32 ∧
      t.ln = s.ln ∧
      State.Same s t ([O.SeqControl] ++ (List.range 4).map (inst O.SeqCounterValue))) ∧
  (∀ (s : State) (k : Nat),
    k < 8 →
    (s.compKind k ≠ 5 ∨ bit s.tr.fired5 k = true ∨ s.ft .hel / 65536 < s.h (inst O.CompValue k)) →
    Does (.compFtInstant k) s fun t =>
      t = s.commit) ∧
  (∀ (s : State) (code : Nat),
    bit (s.h O.SeqControl) 0 = true →
    s.compMask 7 (fun k => bits (s.h (inst O.CompValue k)) 0 16 == code) ≠ 0 →
    bits (s.h (inst O.StateControl s.seqState)) 0 8 = 0 →
    bits (s.h (inst O.StateControl s.seqState)) 14 8 = 0 →
    Does (.triggerCode code) s fun t =>
      (∀ j, j < 4 → t.h (inst O.SeqCounterValue j) = (if (s.h (inst O.SeqCounterInc j) &&& s.compMask 7 (fun k => bits (s.h (inst O.CompValue k)) 0 16 == code)) ≠ 0 then (s.h (inst O.SeqCounterValue j) + 1) % 2 ^ 32 else s.h (inst O.SeqCounterValue j))) ∧
      t.h O.SeqControl = s.h O.SeqControl ∧
      t.ln = s.ln ∧
      State.Same s t ((List.range 4).map (inst O.SeqCounterValue))) ∧
  (∀ (s : State) (code : Nat),
    s.compMask 7 (fun k => bits (s.h (inst O.CompValue k)) 0 16 == code) = 0 →
    Does (.triggerCode code) s fun t =>
      t = s.commit)

/-- What the Helad's lane transmits: strict types first, weighted types, IDLE, doze and keepalive (R148, R149, R150, R152, R153, R155, R156, R168, R74). -/
def Obligations.LaneTransmit : Prop :=
  (∀ m : List Nat, m.length = 514 → (rsEncode m).length = 544 ∧ (rsEncode m).take 514 = m) ∧
  (∀ (fs : List (List Nat)) (c : Nat), (superframeWord fs c).length = 544 ∧ (∀ x ∈ dataSymbols fs c, x < 1024)) ∧
  (∀ place : Nat, place < 1285 → codewordsEnd place ≤ 1) ∧
  (∀ (s : State) (bad : Bool),
    s.h O.LaneState = 2 →
    s.awake 4 = true →
    s.ln.again = [] →
    (∀ ty, ty < 16 → s.hasUnits ty = false) →
    Does (.flitTransmit bad) s fun t =>
      t.out = ⟨.lane, 0, mkFlit ⟨0, s.h O.SlotNumber, 0, 0, s.h O.HeladCutNumber % 2, false, s.h O.HeladCutNumber % 256, false, s.h O.SpareActive == 1, false, false, false, 15, 0⟩ []⟩ :: s.out ∧
      t.ln.seq = s.ln.seq ∧
      t.ln.q = s.ln.q ∧
      State.Same s t []) ∧
  (∀ (s : State) (tag : Nat) (r : Rec),
    s.h O.LaneState = 2 →
    s.awake 4 = true →
    s.ln.again = [] →
    s.strictRoom = true →
    s.NoRouse →
    s.laneQ stAlarm = [(tag, r)] →
    tgetD s.ln.sent stAlarm 0 = 0 →
    0 < r.length →
    r.length ≤ 15 →
    rType r ≠ 0xF3 →
    s.ln.alarmLost = 0 →
    Does (.flitTransmit false) s fun t =>
      t.out = ⟨.lane, stAlarm, mkFlit ⟨stAlarm, s.h O.SlotNumber, rPart r, tgetD s.ln.seq stAlarm 0, tag % 2, owes s.ln.mark stAlarm tag, tag % 256, bit s.ln.loss stAlarm, s.h O.SpareActive == 1, bit s.ln.resume stAlarm, false, false, 0, r.length⟩ r⟩ :: s.out ∧
      t.laneQ stAlarm = [] ∧
      tgetD t.ln.seq stAlarm 0 = (tgetD s.ln.seq stAlarm 0 + 1) % 2 ^ 28 ∧
      (∀ ty, ty ≠ stAlarm → t.laneQ ty = s.laneQ ty) ∧
      State.Same s t []) ∧
  (∀ (s : State) (tag : Nat) (r : Rec),
    s.h O.LaneState = 2 →
    s.awake 4 = true →
    s.ln.again = [] →
    s.NoRouse →
    s.h O.HeladFining ≠ 1 →
    (∀ ty, ty < 16 → ty ≠ stCounter → s.hasUnits ty = false) →
    s.laneQ stCounter = [(tag, r)] →
    tgetD s.ln.sent stCounter 0 = 0 →
    0 < r.length →
    r.length ≤ 15 →
    Does (.flitTransmit false) s fun t =>
      t.out = ⟨.lane, stCounter, mkFlit ⟨stCounter, s.h O.SlotNumber, rPart r, tgetD s.ln.seq stCounter 0, tag % 2, owes s.ln.mark stCounter tag, tag % 256, bit s.ln.loss stCounter, s.h O.SpareActive == 1, bit s.ln.resume stCounter, false, false, 0, r.length⟩ r⟩ :: s.out ∧
      t.laneQ stCounter = [] ∧
      State.Same s t []) ∧
  (∀ (s : State) (bad : Bool),
    s.h O.LaneState ≠ 2 →
    (s.h O.LaneState ≠ 3 ∨ s.awake 4 = false) →
    Does (.flitTransmit bad) s fun t =>
      t = s.commit) ∧
  (∀ (s : State),
    s.awake 4 = true →
    s.h O.LaneState = 2 →
    s.NoRouse →
    s.laneIdle = true →
    s.strictRoom = true →
    tgetD s.ln.sent stControl 0 = 0 →
    Does (.laneDoze) s fun t =>
      t.h O.LaneState = 3 ∧
      t.domState 4 = 0 ∧
      (t.out.head?.map fun o => (o.chan, o.idx, o.body)) = some (.pin, 0x700, [0]) ∧
      (t.out.tail.head?.map fun o => (o.chan, o.idx, o.body.length)) = some (.lane, stControl, 16) ∧
      t.out.tail.tail = s.out ∧
      t.laneQ stControl = [] ∧
      State.Same s t [O.LaneState]) ∧
  (∀ (s : State),
    (s.awake 4 = false ∨ s.laneIdle = false) →
    Does (.laneDoze) s fun t =>
      t = s.commit) ∧
  (∀ (s : State),
    s.h O.LaneState = 3 →
    s.ln.lastLit + ms (s.h O.LaneKeepalive) ≤ s.ft .hel →
    s.NoRouse →
    s.ir.ao = [] →
    (∀ ty, ty < 16 → s.hasUnits ty = false) →
    s.strictRoom = true →
    tgetD s.ln.sent stControl 0 = 0 →
    Does (.laneKeepalive) s fun t =>
      t.h O.LaneState = 3 ∧
      t.ln.lastLit = s.ft .hel ∧
      (t.out.take 3).map (fun o => (o.chan, o.idx)) = [(.pin, 0x700), (.lane, stControl), (.pin, 0x700)] ∧
      t.laneQ stControl = [] ∧
      State.Same s t []) ∧
  (∀ (s : State),
    (s.h O.LaneState ≠ 3 ∨ s.ft .hel < s.ln.lastLit + ms (s.h O.LaneKeepalive)) →
    Does (.laneKeepalive) s fun t =>
      t = s.commit)

/-- Assignment, training, downstream channels and the retune at the Helad (R161, R163, R166, R167, R171, R172, R176, R100). -/
def Obligations.HeladLane : Prop :=
  (∀ (s : State) (ch : Nat) (r : Rec),
    ch < 2 →
    s.actsOn ch r = true →
    s.h O.LaneState = 0 →
    s.role ≠ 1 →
    s.h O.SelectedChannel = 0xFF →
    (∀ c, c < 2 → tgetD s.ln.chLead c 0 = 0) →
    Does (.slotAssign ch r) s fun t =>
      t.h O.SlotNumber = recFld r 128 8 ∧
      t.bd.gid = recFld r 160 32 ∧
      t.h O.SelectedChannel = ch ∧
      t.h O.LaneState = 1 ∧
      t.out = (if s.awake 4 then ⟨.pin, 0x701, [1]⟩ :: s.out else s.out) ∧
      t.ln.litAt = (if s.awake 4 then s.ft .hel else s.ln.litAt) ∧
      t.ln.trainDone = [] ∧
      t.ln.ctlSeen = tset s.ln.ctlSeen (rType r) (rSeq r) ∧
      t.domState 4 ≠ 0 ∧
      State.Kept s t [O.SlotNumber, O.SelectedChannel, O.LaneState]) ∧
  (∀ (s : State) (ch : Nat) (r : Rec),
    s.actsOn ch r = false →
    Does (.slotAssign ch r) s fun t =>
      t = s.commit) ∧
  (∀ (s : State) (ch : Nat) (r : Rec),
    s.actsOn ch r = false →
    Does (.trainDone ch r) s fun t =>
      t = s.commit) ∧
  (∀ (s : State) (ch : Nat) (r : Rec),
    s.actsOn ch r = false →
    Does (.retuneCommand ch r) s fun t =>
      t = s.commit) ∧
  (∀ (s : State) (ch : Nat) (r : Rec),
    s.actsOn ch r = true →
    s.h O.LaneState ≠ 0 →
    s.role ≠ 1 →
    Does (.slotAssign ch r) s fun t =>
      t.h O.SlotNumber = recFld r 128 8 ∧
      t.bd = { s.bd with gid := recFld r 160 32 } ∧
      t.ln = { s.ln with ctlSeen := tset s.ln.ctlSeen (rType r) (rSeq r) } ∧
      State.Same s t [O.SlotNumber]) ∧
  (∀ (s : State) (ch : Nat) (r : Rec),
    s.h O.LaneState = 1 →
    s.actsOn ch r = true →
    s.awake 4 = true →
    s.ln.trainDone ≠ [] →
    recFld r 160 32 ∉ s.ln.trainDone →
    Does (.trainDone ch r) s fun t =>
      t.h O.LaneState = 2 ∧
      t.ln.lastLit = s.ft .hel ∧
      t.out = ⟨.pin, 0x700, [1, burstCodewords]⟩ :: s.out ∧
      State.Same s t [O.LaneState]) ∧
  (∀ (s : State) (ch : Nat) (r : Rec),
    s.actsOn ch r = true →
    s.ln.trainDone = [] →
    Does (.trainDone ch r) s fun t =>
      t.ln = { s.ln with trainDone := [recFld r 160 32], ctlSeen := tset s.ln.ctlSeen (rType r) (rSeq r) } ∧
      t.out = s.out ∧
      State.Same s t []) ∧
  (∀ (s : State),
    s.h O.LaneState = 1 →
    s.awake 4 = true →
    s.ln.trainDone ≠ [] →
    s.ln.litAt + ms 2 ≤ s.ft .hel →
    Does (.trainDoneWaitExpiry) s fun t =>
      t.h O.LaneState = 2 ∧
      t.ln.lastLit = s.ft .hel ∧
      t.out = ⟨.pin, 0x700, [1, burstCodewords]⟩ :: s.out ∧
      State.Same s t [O.LaneState]) ∧
  (∀ (s : State) (ch : Nat),
    ch < 2 →
    s.heladReset = false →
    s.h O.SelectedChannel = ch →
    tgetD s.ln.chUp (1 - ch) 0 = 1 →
    tgetD s.ln.chLead (1 - ch) 0 ≠ 1 →
    s.ln.other = [] →
    Does (.downstreamChannelLost ch) s fun t =>
      t.h O.SelectedChannel = 1 - ch ∧
      t.ln.timeHold = some (s.tm.hc.lastTag + us (s.h O.HoldoverTimeout)) ∧
      t.tm.hc.master = s.tm.hc.master ∧
      t.h O.FtState = s.h O.FtState ∧
      State.Same s t [O.SelectedChannel]) ∧
  (∀ (s : State) (ch : Nat),
    ch < 2 →
    s.heladReset = false →
    s.h O.SelectedChannel = ch →
    tgetD s.ln.chUp (1 - ch) 0 = 1 →
    tgetD s.ln.chLead (1 - ch) 0 = 1 →
    s.ln.other = [] →
    Does (.downstreamChannelLost ch) s fun t =>
      t.h O.SelectedChannel = 1 - ch ∧
      tgetD t.ln.chUp ch 0 = 0 ∧
      t.ln.timeHold = none ∧
      t.laneQ stControl = s.laneQ stControl ++ [(s.h O.HeladCutNumber, s.hRec 0x51 2 0 0 [(128, 8, 3), (136, 8, 1 - ch), (192, 64, s.ft .hel / 65536)])] ∧
      t.h O.FtState = (if s.h O.FtState = 2 ∨ s.h O.FtState = 4 then 3 else s.h O.FtState) ∧
      State.Same s t [O.SelectedChannel, O.FtState, O.RateCorrection]) ∧
  (∀ (s : State) (ch : Nat),
    ch < 2 →
    s.heladReset = false →
    tgetD s.ln.chUp (1 - ch) 0 = 0 →
    Does (.downstreamChannelLost ch) s fun t =>
      tgetD t.ln.chUp ch 0 = 0 ∧
      t.ln.acted = [] ∧
      t.ln.ctlSeen = [] ∧
      t.laneQ stControl = s.laneQ stControl ++ [(s.h O.HeladCutNumber, s.hRec 0x51 2 0 0 [(128, 8, 4), (136, 8, ch), (192, 64, s.ft .hel / 65536)])] ∧
      State.Same s t []) ∧
  (∀ (s : State) (ch : Nat) (r : Rec),
    s.actsOn ch r = true →
    (s.domState 4 = 0 ∨ s.domState 4 = 1) →
    Does (.retuneCommand ch r) s fun t =>
      t.h O.LaneState = 4 ∧
      t.out = s.out ∧
      t.ln.retune = some (recFld r 128 8, (List.range 6).map (fun i => recFld r (192 + 32 * i) 32), 0) ∧
      t.domState 4 = 1 ∧
      State.Same s t [O.LaneState]) ∧
  (∀ (s : State) (ch : Nat) (r : Rec),
    s.actsOn ch r = true →
    s.awake 4 = true →
    Does (.retuneCommand ch r) s fun t =>
      t.h O.LaneState = 4 ∧
      t.out = (s.retunePairs.reverse.map fun v => ⟨.pin, 0x702, [v]⟩) ++ ⟨.pin, 0x700, [0]⟩ :: s.out ∧
      t.ln.retune = some (recFld r 128 8, (List.range 6).map (fun i => recFld r (192 + 32 * i) 32), s.ft .hel + ns (1300 * s.retunePairs.length) + us (s.h O.RetuneSettle)) ∧
      t.domState 4 ≠ 0 ∧
      State.Same s t [O.LaneState]) ∧
  (∀ (s : State) (target at_ : Nat) (good : List Nat),
    s.ln.retune = some (target, good, at_) →
    at_ ≤ s.ft .hel ∧ at_ ≠ 0 →
    s.ln.replay = [] →
    s.ln.oeFault = false →
    (∀ i, i < 6 → good[i]? = some ((tgetD s.ln.seq ([stAlarm, stControl, stCounter, stTrace, stDigest, stEvent].getD i 0) 0 + 2 ^ 28 - 1) % 2 ^ 28)) →
    (∀ i, i < 16 → tgetD s.ln.seq i 0 < 2 ^ 28) →
    Does (.retuneSettleExpiry) s fun t =>
      t.h O.LaneState = 2 ∧
      t.h O.SpareActive = b2n (target == 0) ∧
      t.ln.retune = none ∧
      t.ln.resume = 2 ^ 13 - 2 ∧
      t.ln.lastLit = s.ft .hel ∧
      t.out = ⟨.pin, 0x700, [1, burstCodewords]⟩ :: s.out ∧
      t.ln.loss = s.ln.loss ∧
      State.Same s t [O.LaneState, O.SpareActive]) ∧
  (∀ (s : State),
    s.heladReset = false →
    s.ln.retune = none →
    Does (.oeFault) s fun t =>
      t.laneQ stControl = s.laneQ stControl ++ [(s.h O.HeladCutNumber, s.hRec 0x51 2 0 0 [(128, 8, 2), (136, 8, s.h O.SelectedChannel), (192, 64, s.ft .hel / 65536)])] ∧
      t.ln.oeFault = s.ln.oeFault ∧
      State.Same s t []) ∧
  (∀ (s : State),
    s.heladReset = false →
    s.ln.retune.isSome = true →
    Does (.oeFault) s fun t =>
      t.ln = { s.ln with oeFault := true } ∧
      t.out = s.out ∧
      State.Same s t [])

/-- The slot states of the Icdon IX40 and the commands that move them (R165, R166, R169, R170, R171, R173, R174, R176, R545). -/
def Obligations.SlotStates : Prop :=
  (∀ (s : State) (k : Nat),
    k < 64 →
    s.i (O.SlotState + k) = 0 →
    Does (.lightDetect k) s fun t =>
      t.i (O.SlotState + k) = 1 ∧
      t.seqOf .icd 0x50 = (s.seqOf .icd 0x50 + 1) % 2 ^ 32 ∧
      State.Kept s t [O.SlotState + k, O.SlotState + 64 + k / 8]) ∧
  (∀ (s : State) (k : Nat),
    k < 64 →
    s.i (O.SlotState + k) ≠ 0 →
    s.i (O.SlotState + k) ≠ 4 →
    Does (.lightDetect k) s fun t =>
      t = s.commit) ∧
  (∀ (s : State) (k : Nat),
    k < 64 →
    s.i (O.SlotState + k) = 4 →
    Does (.lightDetect k) s fun t =>
      tget t.ln.burstAt k = some (s.ft .icd) ∧
      t.out = s.out ∧
      State.Same s t []) ∧
  (∀ (s : State) (k : Nat) (both : Bool) (other : List (Nat × Nat)),
    k < 64 →
    s.i (O.SlotState + k) = 1 →
    Does (.lossOfLight k both other) s fun t =>
      t.i (O.SlotState + k) = 0 ∧
      State.Kept s t [O.SlotState + k, O.SlotState + 64 + k / 8]) ∧
  (∀ (s : State) (k : Nat) (both : Bool) (other : List (Nat × Nat)),
    k < 64 →
    s.i (O.SlotState + k) = 2 →
    k ∈ s.ln.dozeSaid →
    Does (.lossOfLight k both other) s fun t =>
      t.i (O.SlotState + k) = 3 ∧
      tget t.ln.dozeFrom k = some (s.ft .icd) ∧
      k ∉ t.ln.dozeSaid ∧
      State.Kept s t [O.SlotState + k, O.SlotState + 64 + k / 8]) ∧
  (∀ (s : State) (k : Nat) (other : List (Nat × Nat)),
    k < 64 →
    s.i (O.SlotState + k) = 2 →
    k ∉ s.ln.dozeSaid →
    s.i O.AutoRetune = 1 →
    s.observeOnly = false →
    s.i (O.SpareOwner + k / 8) = 0xFF →
    Does (.lossOfLight k true other) s fun t =>
      t.i (O.SlotState + k) = 4 ∧
      t.i (O.SpareOwner + k / 8) = k ∧
      tget t.ln.retuneAt k = some (s.ft .icd, 0) ∧
      tget t.ln.lossAt k = some (s.ft .icd - ns 500) ∧
      t.downQ k stControl = s.downQ k stControl ++ [(s.ki.number, s.iRec 0x52 3 0 0 ([(128, 8, 0)] ++ (s.lastGood k other).zipIdx.map fun p => (192 + 32 * p.2, 32, p.1)))] ∧
      State.Kept s t [O.SlotState + k, O.SlotState + 64 + k / 8, O.SpareOwner + k / 8]) ∧
  (∀ (s : State) (k : Nat) (other : List (Nat × Nat)),
    k < 64 →
    s.i (O.SlotState + k) = 2 →
    k ∉ s.ln.dozeSaid →
    k ∉ s.ln.viaTwin →
    k ∉ s.ln.degraded →
    s.ln.viaTwin.length < 4 →
    Does (.lossOfLight k false other) s fun t =>
      t.ln.viaTwin = s.ln.viaTwin ++ [k] ∧
      t.up = (s.xMsg 0x159 [k]).up ∧
      t.out = s.out ∧
      State.Same s t []) ∧
  (∀ (s : State) (k n : Nat) (both : Bool) (other : List (Nat × Nat)),
    k < 64 →
    s.i (O.SlotState + k) = 2 →
    tgetD s.ln.fecRun k 0 + n < 32 →
    s.slotWave k ≠ 8 →
    Does (.fecFailCount k n both other) s fun t =>
      t.i (O.FecUncorrectable + k) = (s.i (O.FecUncorrectable + k) + n) % 2 ^ 64 ∧
      tgetD t.ln.fecRun k 0 = tgetD s.ln.fecRun k 0 + n ∧
      State.Same s t [O.FecUncorrectable + k]) ∧
  (∀ (s : State) (k n : Nat) (other : List (Nat × Nat)),
    k < 64 →
    s.i (O.SlotState + k) = 2 →
    32 ≤ tgetD s.ln.fecRun k 0 + n →
    s.slotWave k ≠ 8 →
    s.i O.AutoRetune ≠ 1 →
    Does (.fecFailCount k n true other) s fun t =>
      t.i (O.FecUncorrectable + k) = (s.i (O.FecUncorrectable + k) + n) % 2 ^ 64 ∧
      t.i (O.SlotState + k) = 5 ∧
      tgetD t.ln.fecRun k 0 = 0 ∧
      tget t.ln.lossAt k = some (s.ft .icd - ns 778) ∧
      State.Kept s t [O.FecUncorrectable + k, O.SlotState + k, O.SlotState + 64 + k / 8]) ∧
  (∀ (s : State) (k x : Nat) (other : List (Nat × Nat)),
    k < 64 →
    s.i (O.SlotState + k) = 3 →
    tget s.ln.dozeFrom k = some x →
    x + ms (((s.copied k O.LaneKeepalive).getD 1000) + 10) ≤ s.ft .icd →
    s.i O.AutoRetune ≠ 1 →
    Does (.dozeSilentTimeout k true other) s fun t =>
      t.i (O.SlotState + k) = 5 ∧
      tget t.ln.lossAt k = some x ∧
      State.Kept s t [O.SlotState + k, O.SlotState + 64 + k / 8]) ∧
  (∀ (s : State) (q : Req) (k : Nat),
    s.Accepts q O.SlotReset k →
    k < 64 →
    (s.i (O.SlotState + k) = 5 ∨ s.i (O.SlotState + k) = 6) →
    Does (.slotReset q k) s fun t =>
      t.i (O.SlotState + k) = 0 ∧
      tget t.ln.fecRun k = none ∧
      tget t.ln.miswired k = none ∧
      State.Kept s t [O.SlotState + k, O.SlotState + 64 + k / 8]) ∧
  (∀ (s : State) (q : Req) (k : Nat),
    s.Accepts q O.SlotReset k →
    k < 64 →
    s.i (O.SlotState + k) ≠ 5 →
    s.i (O.SlotState + k) ≠ 6 →
    Does (.slotReset q k) s fun t =>
      t = (s.answer q O.SlotReset true (no stBusy) []).commit) ∧
  (∀ (s : State) (k : Nat),
    k < 64 →
    (s.i (O.SlotState + k) ≠ 4 ∨ s.acquiring k = true) →
    Does (.retuneAcquireTimeout k true) s fun t =>
      t = s.commit) ∧
  (∀ (s : State) (k : Nat),
    k < 64 →
    s.i (O.SlotState + k) = 4 →
    s.acquiring k = false →
    Does (.retuneAcquireTimeout k true) s fun t =>
      t.i (O.SlotState + k) = 5 ∧
      t.seqOf .icd 0xF3 = (s.seqOf .icd 0xF3 + 1) % 2 ^ 32 ∧
      t.i (O.SpareOwner + k / 8) = s.i (O.SpareOwner + k / 8) ∧
      State.Kept s t [O.SlotState + k, O.SlotState + 64 + k / 8]) ∧
  (∀ (s : State) (q : Req) (k : Nat),
    s.Accepts q O.SpareTrainSlot k →
    k < 64 →
    (s.i (O.SlotState + k) = 2 ∨ s.i (O.SlotState + k) = 3) →
    s.i (O.SpareOwner + k / 8) = 0xFF →
    Does (.spareTrainSlot q k) s fun t =>
      t.i (O.SlotState + k) = 4 ∧
      t.i (O.SpareOwner + k / 8) = k ∧
      tget t.ln.retuneAt k = some (s.ft .icd, 0) ∧
      tget t.ln.lossAt k = some (s.ft .icd) ∧
      t.downQ k stControl = s.downQ k stControl ++ [(s.ki.number, s.iRec 0x52 3 0 0 ([(128, 8, 0)] ++ (s.lastGood k []).zipIdx.map fun p => (192 + 32 * p.2, 32, p.1)))] ∧
      t.bd = s.bd ∧
      State.Kept s t [O.SlotState + k, O.SlotState + 64 + k / 8, O.SpareOwner + k / 8]) ∧
  (∀ (s : State) (q : Req) (k : Nat),
    s.Accepts q O.RevertSlot k →
    k < 64 →
    s.i (O.SlotState + k) < 4 →
    s.i (O.SpareOwner + k / 8) = k →
    Does (.revertSlot q k) s fun t =>
      t.i (O.SlotState + k) = 4 ∧
      tget t.ln.retuneAt k = some (s.ft .icd, 1) ∧
      t.downQ k stControl = s.downQ k stControl ++ [(s.ki.number, s.iRec 0x52 3 0 0 ([(128, 8, 1)] ++ (s.lastGood k []).zipIdx.map fun p => (192 + 32 * p.2, 32, p.1)))] ∧
      State.Kept s t [O.SlotState + k, O.SlotState + 64 + k / 8]) ∧
  (∀ (s : State) (k gid : Nat),
    s.i (O.SlotState + k) = 1 →
    (s.isLead = true ∨ gid ≠ s.iGid ∨ k ∈ s.ln.adapted ∨ s.tm.xlinkUp = false) →
    Does (.receiverAdaptationDone k gid) s fun t =>
      t.downQ k stControl = s.downQ k stControl ++ [(s.ki.number, s.iRec 0x54 2 0 0 [(128, 8, k), (136, 8, s.slotWave k), (160, 32, gid)])] ∧
      t.up = (if s.isLead = true ∧ s.tm.xlinkUp = true then (s.xMsg 0x545 [k, gid]).up else s.up) ∧
      t.out = s.out ∧
      t.ln.rx = s.ln.rx ∧
      State.Same s t []) ∧
  (∀ (s : State) (k : Nat),
    s.i (O.SlotState + k) = 1 →
    s.isLead = false →
    k ∉ s.ln.adapted →
    s.tm.xlinkUp = true →
    Does (.receiverAdaptationDone k s.iGid) s fun t =>
      t.up = (s.xMsg 0x545 [k, s.iGid]).up ∧
      t.ln = { s.ln with adapted := k :: s.ln.adapted } ∧
      t.out = s.out ∧
      State.Same s t []) ∧
  (∀ (s : State) (k gid : Nat),
    s.i (O.SlotState + k) ≠ 1 →
    s.i (O.SlotState + k) ≠ 4 →
    Does (.receiverAdaptationDone k gid) s fun t =>
      t = s.commit)

/-- Receivers: flits in SEQUENCE order, errors, miswiring, repair and the skew hold (R25, R150, R153, R154, R161, R165, R180, R551). -/
def Obligations.LinkReceivers : Prop :=
  (∀ (s : State) (l : Link) (f : List Nat) (n : Nat) (both : Bool),
    flitBad l true f = true →
    (match l with | .slot _ => false | _ => true) = true →
    Does (.flitReceive l f true n both) s fun t =>
      tgetD t.ln.errs (linkNum l) 0 = tgetD s.ln.errs (linkNum l) 0 + 1 ∧
      t.ln.rx = s.ln.rx ∧
      t.gr = s.gr ∧
      t.out = s.out ∧
      State.Same s t []) ∧
  (∀ (s : State) (k : Nat) (f : List Nat) (both : Bool),
    k < 64 →
    s.i (O.SlotState + k) = 2 →
    s.NoRouse →
    s.tm.iActs = [] →
    flitBad (.slot k) false f = false →
    (flitHdr f).port = k →
    (flitHdr f).ty ≠ 0 →
    (flitHdr f).mark = false →
    (flitHdr f).loss = false →
    (flitHdr f).resumed = false →
    (s.rxOf (.slot k) (flitHdr f).ty).expect = some (flitHdr f).seq →
    (s.rxOf (.slot k) (flitHdr f).ty).asked = none →
    (s.rxOf (.slot k) (flitHdr f).ty).resync = false →
    Does (.flitReceive (.slot k) f false 0 both) s fun t =>
      (t.rxOf (.slot k) (flitHdr f).ty).expect = some (((flitHdr f).seq + 1) % 2 ^ 28) ∧
      (t.rxOf (.slot k) (flitHdr f).ty).units = (s.rxOf (.slot k) (flitHdr f).ty).units ++ ((f.drop 1).take (flitHdr f).valid).map (fun u => (⟨u, (flitHdr f).seq, (flitHdr f).cutId, (flitHdr f).part⟩ : RxUnit)) ∧
      t.gr = s.gr ∧
      t.ln.errs = s.ln.errs ∧
      State.Kept s t []) ∧
  (∀ (s : State) (k : Nat) (f : List Nat) (both : Bool),
    k < 64 →
    s.i (O.SlotState + k) = 2 →
    s.NoRouse →
    flitBad (.slot k) false f = false →
    (flitHdr f).port ≠ k →
    tgetD s.ln.miswired k 0 + 1 < 16 →
    Does (.flitReceive (.slot k) f false 0 both) s fun t =>
      tgetD t.ln.miswired k 0 = tgetD s.ln.miswired k 0 + 1 ∧
      tgetD t.ln.errs k 0 = tgetD s.ln.errs k 0 + 1 ∧
      t.ln.rx = s.ln.rx ∧
      State.Kept s t []) ∧
  (∀ (s : State) (k : Nat) (f : List Nat) (bad both : Bool),
    k < 64 →
    (s.i (O.SlotState + k) = 0 ∨ s.i (O.SlotState + k) = 5) →
    s.NoRouse →
    Does (.flitReceive (.slot k) f bad 0 both) s fun t =>
      t.ln.rx = s.ln.rx ∧
      t.ln.errs = s.ln.errs ∧
      t.gr = s.gr ∧
      State.Kept s t []) ∧
  (∀ (s : State) (c : Nat) (f : List Nat) (n : Nat) (both : Bool),
    c < 2 →
    s.heladReset = false →
    flitBad (.chan c) false f = false →
    s.h O.SelectedChannel = c →
    ((flitHdr f).ty = 2 ∨ (flitHdr f).ty = 8) →
    tget s.ln.acted (flitHdr f).ty = none →
    s.tm.hActs = [] →
    Does (.flitReceive (.chan c) f false n both) s fun t =>
      tget t.ln.acted (flitHdr f).ty = some (flitHdr f).seq ∧
      tget t.ln.chLead c = some (b2n (flitHdr f).lead) ∧
      tget t.ln.chUp c = some 1 ∧
      State.Same s t []) ∧
  (∀ (s : State) (l : Link) (ty n : Nat) (f : List Nat),
    ty ≠ stRepair →
    ((s.rxOf l ty).kept ++ (s.rxOf l ty).held).find? (fun g => (flitHdr g).seq == n) = some f →
    Does (.repairRequest l ty [n]) s fun t =>
      t.up = (s.xRepair (linkNum l) f).up ∧
      t.out = s.out ∧
      t.ln = s.ln ∧
      State.Same s t []) ∧
  (∀ (s : State) (l : Link) (ty n : Nat),
    ty ≠ stRepair →
    ((s.rxOf l ty).kept ++ (s.rxOf l ty).held).find? (fun g => (flitHdr g).seq == n) = none →
    Does (.repairRequest l ty [n]) s fun t =>
      t.up = (s.xMsg 0x251 [linkNum l, ty, n]).up ∧
      t.out = s.out ∧
      t.ln = s.ln ∧
      State.Same s t []) ∧
  (∀ (s : State) (k : Nat) (seqs : List Nat),
    s.ln.forward.length < 4 →
    k ∉ s.ln.forward →
    Does (.repairRequest (.slot k) stRepair seqs) s fun t =>
      t.ln = { s.ln with forward := s.ln.forward ++ [k] } ∧
      t.out = s.out ∧
      State.Same s t []) ∧
  (∀ (s : State) (l : Link) (f : List Nat) (at_ : Nat),
    (s.rxOf l (flitHdr f).ty).asked = some ((flitHdr f).seq, (flitHdr f).seq, at_) →
    (s.rxOf l (flitHdr f).ty).expect = some (flitHdr f).seq →
    (s.rxOf l (flitHdr f).ty).held = [] →
    (flitHdr f).mark = false →
    (flitHdr f).loss = false →
    (flitHdr f).resumed = false →
    Does (.repairAnswer l (flitHdr f).ty [f]) s fun t =>
      (t.rxOf l (flitHdr f).ty).asked = none ∧
      (t.rxOf l (flitHdr f).ty).expect = some (((flitHdr f).seq + 1) % 2 ^ 28) ∧
      t.gr = s.gr ∧
      t.out = s.out ∧
      State.Same s t []) ∧
  (∀ (s : State) (k ty a b x : Nat),
    (s.rxOf (.slot k) ty).asked = some (a, b, x) →
    (s.rxOf (.slot k) ty).expect = some a →
    (s.rxOf (.slot k) ty).held = [] →
    a ≤ b →
    b < 2 ^ 26 →
    ty ≠ stCounter →
    x + us 20 ≤ s.ft .icd →
    s.gr.index.length < indexRoom →
    s.indexSound = true →
    Does (.repairHoldExpiry (.slot k) ty) s fun t =>
      (t.rxOf (.slot k) ty).asked = none ∧
      (t.rxOf (.slot k) ty).expect = some (b + 1) ∧
      (t.rxOf (.slot k) ty).resync = true ∧
      t.gr.hist = s.gr.hist ∧
      t.out = s.out ∧
      State.Indexed s t (s.idxWord 3 ty k a 0 0 false 0 (b + 1 - a)) []) ∧
  (∀ (s : State) (l : Link) (ty : Nat),
    ((s.rxOf l ty).asked.all fun p => decide (s.ft .icd < p.2.2 + us 20)) = true →
    Does (.repairHoldExpiry l ty) s fun t =>
      t = s.commit) ∧
  (∀ (s : State) (f : List Nat) (x e : Nat),
    s.tm.xlinkUp = false →
    (s.rxOf .xlink (flitHdr f).ty).skew = some x →
    (s.rxOf .xlink (flitHdr f).ty).held = [f] →
    (s.rxOf .xlink (flitHdr f).ty).expect = some e →
    (s.rxOf .xlink (flitHdr f).ty).asked = none →
    x + us 2 ≤ s.ft .icd →
    Does (.fabricSkewHoldExpiry .xlink (flitHdr f).ty) s fun t =>
      (t.rxOf .xlink (flitHdr f).ty).expect = some (((flitHdr f).seq + 1) % 2 ^ 28) ∧
      (t.rxOf .xlink (flitHdr f).ty).held = [] ∧
      (t.rxOf .xlink (flitHdr f).ty).skew = none ∧
      (t.rxOf .xlink (flitHdr f).ty).resync = ((flitHdr f).start == 15) ∧
      t.gr = s.gr ∧
      t.out = s.out ∧
      State.Same s t [])

/-- Fabric wavelengths, die-to-die and CXL faults, thermal and power limits of the module (R177, R180, R181, R183, R184, R199, R201, R413). -/
def Obligations.ModuleFaults : Prop :=
  (∀ (s : State) (p w : Nat),
    s.portUse p ≠ 0 →
    bit (tgetD s.pk.dark p 0) w = false →
    w < 8 →
    p ∉ s.pk.spareUsed →
    bit (tgetD s.pk.dark p 0) 8 = false →
    (s.isLead = false ∨ s.tw.handover ≠ none ∨ s.tw.twinState ≠ 3) →
    Does (.fabricWavelengthFail p w) s fun t =>
      tget t.pk.dark p = some (setBit (tgetD s.pk.dark p 0) w true) ∧
      p ∈ t.pk.spareUsed ∧
      (tget t.pk.retune p).any (fun x => decide (s.ft .icd ≤ x ∧ x ≤ s.ft .icd + us 200)) = true ∧
      t.out = ⟨.pin, 0x930 + p, [w]⟩ :: s.out ∧
      State.Same s t []) ∧
  (∀ (s : State) (p w : Nat),
    s.portUse p ≠ 0 →
    bit (tgetD s.pk.dark p 0) w = false →
    (w = 8 ∨ p ∈ s.pk.spareUsed ∨ bit (tgetD s.pk.dark p 0) 8 = true) →
    Does (.fabricWavelengthFail p w) s fun t =>
      tget t.pk.dark p = some (setBit (tgetD s.pk.dark p 0) w true) ∧
      t.pk.spareUsed = s.pk.spareUsed ∧
      t.seqOf .icd 0xF3 = (s.seqOf .icd 0xF3 + 1) % 2 ^ 32 ∧
      State.Kept s t []) ∧
  (∀ (s : State) (p w : Nat),
    s.upPort = some p →
    s.pk.standby = false →
    s.portOf 4 = none →
    s.isLead = true →
    s.tw.twinState = 3 →
    s.tw.handover = none →
    w < 8 →
    bit (tgetD s.pk.dark p 0) w = false →
    bit (tgetD s.pk.dark p 0) 8 = true →
    s.portWaves p ≤ popCount 8 (setBit (tgetD s.pk.dark p 0) w true) →
    Does (.fabricWavelengthFail p w) s fun t =>
      t.tw.handover = some (s.boundaryAfter (s.ft .icd + ms 1)) ∧
      t.tw.members = s.tw.members ∧
      State.Kept s t []) ∧
  (∀ (s : State) (u b : Nat),
    s.portOf 3 = some u →
    s.portOf 4 = some b →
    u < 16 →
    b < 16 →
    s.pk.standby = false →
    s.portLost u = true →
    s.isLead = true →
    Does (.standbyUplinkSwitch) s fun t =>
      t.pk.standby = true ∧
      t.out = (if s.pk.dark_ then s.out else ⟨.pin, 0x900 + b, [1]⟩ :: s.out) ∧
      t.i (inst O.BulkDeferred b) = (if u = b then 0 else s.i (inst O.BulkDeferred u)) ∧
      State.Same s t [inst O.DecimationFactor u, inst O.DecimationFactor b, inst O.BulkDeferred u, inst O.BulkDeferred b]) ∧
  (∀ (s : State) (k : Nat),
    Does (.d2dFatal k) s fun t =>
      t.pk.dark_ = true ∧
      t.seqOf .icd 0xF3 = (s.seqOf .icd 0xF3 + 1) % 2 ^ 32 ∧
      State.Kept s t []) ∧
  (∀ (s : State) (p : Nat),
    p < 4 →
    (s.gr.casks.map (·.id)).Nodup →
    Does (.cxlLinkFail p) s fun t =>
      t.i O.Tier2Present = setBit (s.i O.Tier2Present) p false ∧
      t.gr.casks = s.gr.casks.map (fun c => if (c.status == 2 && s.gr.tier2.any fun e => e.1 == c.id && e.2.1 == p) then { c with status := 8 } else c) ∧
      State.Kept s t [O.Tier2Present, O.ReserveFill, O.CasksOpen]) ∧
  (∀ (s : State) (k v : Nat),
    k < 36 →
    v < 2 ^ 16 →
    Does (.thermalThreshold k v) s fun t =>
      t.i (O.Temperature + k) = v ∧
      ((k ∈ t.pk.hot ↔ ((thermalLimits k).2.1 : Int) ≤ toS 16 v)) ∧
      ((0x100 + k ∈ t.ir.conds ↔ ((thermalLimits k).1 : Int) ≤ toS 16 v)) ∧
      State.Kept s t [O.Temperature + k]) ∧
  (∀ (s : State) (k : Nat),
    k < 36 →
    Does (.thermalCritical k) s fun t =>
      t.pk.domOn = [] ∧
      t.pw.phase = 4 ∧
      t.pk.dark_ = true ∧
      t.tm.savedOh = (s.i O.OhSeconds, s.i O.PowerCycles) ∧
      t.ft .icd = s.ft .icd ∧
      (∀ key, keptAtCold key = false → tget t.cd key = none) ∧
      t.hd = s.hd ∧
      t.me.map = s.me.map ∧
      t.gr.t2 = s.gr.t2) ∧
  (∀ (s : State) (v : Nat),
    v < 2 ^ 32 →
    s.i O.PowerLimit * 95 ≤ v * 10 →
    s.pk.throttleFrom = none →
    s.i O.ThrottleStep < 4 →
    Does (.throttleStep v) s fun t =>
      t.i O.InputPower = v ∧
      t.i O.ThrottleStep = max 1 (s.i O.ThrottleStep) ∧
      t.pk.throttleFrom = some (s.ft .icd) ∧
      State.Kept s t [O.InputPower, O.ThrottleStep]) ∧
  (∀ (s : State) (v x : Nat),
    v < 2 ^ 32 →
    s.i O.PowerLimit * 95 ≤ v * 10 →
    s.pk.throttleFrom = some x →
    x + ms 10 ≤ s.ft .icd →
    s.i O.ThrottleStep < 3 →
    Does (.throttleStep v) s fun t =>
      t.i O.ThrottleStep = s.i O.ThrottleStep + 1 ∧
      t.pk.throttleFrom = some (s.ft .icd) ∧
      State.Kept s t [O.InputPower, O.ThrottleStep]) ∧
  (∀ (s : State) (v : Nat),
    v < 2 ^ 32 →
    v * 10 < s.i O.PowerLimit * 95 →
    s.pk.hot = [] →
    Does (.throttleStep v) s fun t =>
      t.i O.InputPower = v ∧
      t.i O.ThrottleStep = 0 ∧
      t.pk.throttleFrom = none ∧
      0x14D ∉ t.ir.conds ∧
      State.Kept s t [O.InputPower, O.ThrottleStep])

/-- Host rings: fetching descriptors, acting on acknowledged ones, the PCIe link (R189, R190, R191, R192, R203, R459). -/
def Obligations.HostRings : Prop :=
  (∀ (s : State) (ctls : List RingCtl),
    (s.serving = false ∨ s.pk.fetchAt = some (s.ft .icd / ns (max 1 (s.i O.RingCadence)))) →
    Does (.ringFetch ctls) s fun t =>
      t = s.commit) ∧
  (∀ (s : State) (c : RingCtl),
    s.serving = true →
    s.isLead = false →
    s.pk.fetchAt ≠ some (s.ft .icd / ns (max 1 (s.i O.RingCadence))) →
    s.pk.pcieUp = true →
    s.i O.HostLinkSpeed ≠ 0 →
    c.ring < 1024 →
    c.ring < s.i O.PfRingCount →
    Does (.ringFetch [c]) s fun t =>
      ((tget t.pk.rings c.ring).map fun x => (x.base, x.prod, x.cons)) = some (c.base, c.prod, tgetD s.pk.ackPos c.ring (tgetD s.pk.rings c.ring ring0).cons) ∧
      t.out = s.out ∧
      State.Same s t []) ∧
  (∀ (s : State) (c : RingCtl) (r : Ring),
    s.isLead = true →
    s.serving = true →
    s.pk.fetchAt ≠ some (s.ft .icd / ns (max 1 (s.i O.RingCadence))) →
    s.pk.waiting = [] →
    s.tm.xlinkUp = false →
    c.ring < 1024 →
    c.ring < s.i O.PfRingCount →
    tget s.pk.rings c.ring = some r →
    tget s.pk.complUsed c.ring = none →
    c.enable = true →
    r.stopped = false →
    2 ^ c.log2e < (c.prod + 2 ^ 32 - r.cons) % 2 ^ 32 →
    Does (.ringFetch [c]) s fun t =>
      ((tget t.pk.rings c.ring).map fun x => (x.stopped, x.cons)) = some (true, r.cons) ∧
      t.seqOf .icd 0xF3 = (s.seqOf .icd 0xF3 + 1) % 2 ^ 32 ∧
      0x14A ∈ t.ir.conds ∧
      State.Kept s t [O.HostLinkSpeed, O.HostLinkWidth]) ∧
  (∀ (s : State) (c : RingCtl) (r : Ring),
    s.isLead = true →
    s.serving = true →
    s.pk.fetchAt ≠ some (s.ft .icd / ns (max 1 (s.i O.RingCadence))) →
    s.pk.waiting = [] →
    s.tm.xlinkUp = false →
    c.ring < 1024 →
    c.ring < s.i O.PfRingCount →
    tget s.pk.rings c.ring = some r →
    tget s.pk.complUsed c.ring = none →
    c.enable = true →
    r.stopped = false →
    r.cprod = c.ccons →
    r.cprod < 2 ^ 32 →
    s.i O.RingFetchMax ≤ 2 ^ c.log2c →
    0 < s.i O.RingFetchMax →
    0 < (c.prod + 2 ^ 32 - r.cons) % 2 ^ 32 →
    (c.prod + 2 ^ 32 - r.cons) % 2 ^ 32 ≤ 2 ^ c.log2e →
    Does (.ringFetch [c]) s fun t =>
      ((tget t.pk.rings c.ring).map fun x => x.cons) = some ((r.cons + min ((c.prod + 2 ^ 32 - r.cons) % 2 ^ 32) (s.i O.RingFetchMax)) % 2 ^ 32) ∧
      tget t.pk.ackPos c.ring = some ((r.cons + min ((c.prod + 2 ^ 32 - r.cons) % 2 ^ 32) (s.i O.RingFetchMax)) % 2 ^ 32) ∧
      t.pk.pcieUp = true ∧
      ⟨.host, 0x800 + c.ring, [(r.cons + min ((c.prod + 2 ^ 32 - r.cons) % 2 ^ 32) (s.i O.RingFetchMax)) % 2 ^ 32, r.cprod, 0]⟩ ∈ t.out ∧
      State.Kept s t [O.HostLinkSpeed, O.HostLinkWidth]) ∧
  (∀ (s : State) (ring pos : Nat),
    Does (.consumerAck ring pos []) s fun t =>
      t.pk = { s.pk with ackPos := tset s.pk.ackPos ring pos, unsaid := s.pk.unsaid.filter fun u => u.1 != ring, replay := false } ∧
      t.out = s.out ∧
      State.Same s t []) ∧
  (∀ (s : State) (ring pos n : Nat) (d : Rec),
    s.isLead = true →
    (if descAt (tgetD s.pk.ackPos ring 0) pos d then descBad (if 1024 ≤ ring then s.vfPart (ring - 1024) else 0) d else some stMalformed) = some n →
    Does (.consumerAck ring pos [d]) s fun t =>
      t.out = (match tget s.pk.rings ring with
        | some r => [⟨.host, 0x800 + ring, [r.cons, (r.cprod + (tgetD s.pk.complUsed ring 0 + 1)) % 2 ^ 32, b2n r.stopped]⟩]
        | none => []) ++ ⟨.host, ring, s.iRec 0x61 2 0 0 [(128, 32, recFld d 160 32), (160, 16, n), (176, 1, 0), (184, 8, 0), (192, 32, 0)]⟩ :: s.out ∧
      tgetD t.pk.complUsed ring 0 = tgetD s.pk.complUsed ring 0 + 1 ∧
      tget t.pk.ackPos ring = some pos ∧
      State.Same s t []) ∧
  (∀ (s : State),
    s.pk.pcieUp = true →
    Does (.pcieLinkDown) s fun t =>
      t.pk.pcieUp = false ∧
      t.i O.HostLinkSpeed = 0 ∧
      t.i O.HostLinkWidth = 0 ∧
      t.pk.rings = s.pk.rings ∧
      State.Kept s t [O.HostLinkSpeed, O.HostLinkWidth]) ∧
  (∀ (s : State),
    s.pk.pcieUp = false →
    Does (.pcieLinkDown) s fun t =>
      t = s.commit)

/-- Grist ingress takes records; drop runs, chunk ages, fining and index anchors (R204, R205, R207, R208, R209, R210, R14). -/
def Obligations.IngressAndChunks : Prop :=
  (∀ (s : State) (k ty : Nat) (u : RxUnit) (l : List RxUnit),
    k < 64 →
    ty < 16 →
    s.role = 1 →
    s.gr.index.length < indexRoom →
    s.indexSound = true →
    (s.rxOf (.slot k) ty).units = u :: l →
    bits u.unit 16 16 = 0 →
    tget s.pw.paused k = none →
    Does (.recordIngest (.slot k) ty) s fun t =>
      t.i O.MalformedRecords = (s.i O.MalformedRecords + 1) % 2 ^ 32 ∧
      (t.rxOf (.slot k) ty).units = [] ∧
      (t.rxOf (.slot k) ty).resync = true ∧
      State.Indexed s t (packFields [(0, 4, 9), (4, 4, ty), (8, 8, k), (16, 28, u.seq), (44, 8, u.cut), (52, 1, u.cut), (53, 2, 0), (55, 1, 0), (56, 1, 0), (57, 39, 16), (96, 32, s.ft .icd / us 1)]) [O.MalformedRecords]) ∧
  (∀ (s : State) (k : Nat) (l rest : List RxUnit),
    k < 64 →
    s.role = 1 →
    s.NoRouse →
    (s.rxOf (.slot k) stTime).units = l ++ rest →
    0 < l.length →
    (l.head?.map fun u => bits u.unit 16 16) = some l.length →
    tget s.pw.paused k = none →
    s.i O.BenchEnable ≠ 1 →
    (rType (l.map (·.unit)) = 0x23 ∨ rType (l.map (·.unit)) = 0x24) →
    tget s.ln.dieGid k = some (rSrc (l.map (·.unit))) →
    (l.all fun u => u.part == rPart (l.map (·.unit))) = true →
    Does (.recordIngest (.slot k) stTime) s fun t =>
      (t.rxOf (.slot k) stTime).units = rest ∧
      tget t.gr.taken (k * 16 + stTime) = some ((l.head?.map (·.seq)).getD 0) ∧
      t.gr.nextPos = s.gr.nextPos ∧
      t.gr.staging = s.gr.staging ∧
      State.Same s t []) ∧
  (∀ (s : State) (k : Nat) (l rest : List RxUnit),
    k < 64 →
    s.role = 1 →
    s.NoRouse →
    (s.rxOf (.slot k) stDigest).units = l ++ rest →
    0 < l.length →
    (l.head?.map fun u => bits u.unit 16 16) = some l.length →
    tget s.pw.paused k = none →
    s.i O.BenchEnable ≠ 1 →
    rType (l.map (·.unit)) = 0xC0 →
    recFld (l.map (·.unit)) 136 8 = 2 →
    tget s.ln.dieGid k = some (rSrc (l.map (·.unit))) →
    (l.all fun u => u.part == rPart (l.map (·.unit))) = true →
    s.staleRecord (rPart (l.map (·.unit))) 0 = false →
    s.readers k (l.map (·.unit)) = 0 →
    s.exporting (l.map (·.unit)) = false →
    ((16 * l.length : Nat) : Int) ≤ s.gr.tokens + s.admitDepth →
    (s.openCasks k).isEmpty = true →
    s.gr.open_ = [] →
    tget s.gr.dropRun (k * 4) = none →
    tget s.gr.resvRun (k * 4) = none →
    Does (.recordIngest (.slot k) stDigest) s fun t =>
      t.gr.open_ = [(k * 4, ⟨s.gr.nextChunk, k, 0, 0, 0, 0, s.ft .icd, [⟨s.gr.nextPos, k, 0, stDigest, (l.head?.map (·.seq)).getD 0, (l.head?.map (·.cut)).getD 0, l.map (·.unit), s.ft .icd⟩]⟩)] ∧
      t.gr.tokens = s.gr.tokens - ((16 * l.length : Nat) : Int) ∧
      t.gr.nextPos = s.gr.nextPos + 1 ∧
      State.Kept s t [O.ReserveFill, O.CasksOpen]) ∧
  (∀ (s : State) (k p b x : Nat),
    k < 128 →
    p < 4 →
    tget s.gr.dropRun (k * 4 + p) = some (b, x) →
    x / ms 1 < s.ft .icd / ms 1 →
    tget s.gr.resvRun (k * 4 + p) = none →
    s.gr.casks = [] →
    s.gr.index.length < indexRoom →
    s.indexSound = true →
    Does (.ringDropRunEnd k p) s fun t =>
      tget t.gr.dropRun (k * 4 + p) = none ∧
      t.i O.RingDroppedBytes = (s.i O.RingDroppedBytes + b) % 2 ^ 64 ∧
      State.Indexed s t (packFields [(0, 4, 5), (4, 4, 0), (8, 8, k), (16, 28, 0), (44, 8, 0), (52, 1, 0), (53, 2, p), (55, 1, 0), (56, 1, 0), (57, 39, sat (2 ^ 39 - 1) b), (96, 32, s.ft .icd / us 1)]) [O.RingDroppedBytes]) ∧
  (∀ (s : State) (k p : Nat) (c : Chunk),
    k < 128 →
    p < 4 →
    tget s.gr.open_ (k * 4 + p) = some c →
    c.first + ms (s.i O.ChunkMaxAge) ≤ s.ft .icd →
    s.i O.RingFining = 1 →
    lsum (s.gr.await.map fun d => recsBytes d.recs) ≤ 67108864 →
    s.i O.ThrottleStep < 3 →
    Does (.chunkMaxAge k p) s fun t =>
      t.gr.open_ = tdel s.gr.open_ (k * 4 + p) ∧
      t.gr.await = s.gr.await ++ [c] ∧
      t.gr.chunks = s.gr.chunks ∧
      State.Same s t []) ∧
  (∀ (s : State) (k p o : Nat) (c : Chunk),
    k < 128 →
    p < 4 →
    tget s.gr.open_ (k * 4 + p) = some c →
    c.first + ms (s.i O.ChunkMaxAge) ≤ s.ft .icd →
    s.i O.RingFining = 0 →
    c.region = 1 →
    Memory.wf s.me.t1 = true →
    s.me.poison = [] →
    s.gr.index.length < indexRoom →
    placeRun ((s.gr.chunks.filter fun d => d.region == 1).map Chunk.extent) (s.pw.layout.2.1 * 4194304) ((recsBytes c.recs + 255) / 256) s.gr.postHead = some o →
    Does (.chunkMaxAge k p) s fun t =>
      t.gr.open_ = tdel s.gr.open_ (k * 4 + p) ∧
      t.gr.chunks = s.gr.chunks ++ [{ c with off := o, len := recsBytes c.recs }] ∧
      t.gr.postHead = o + (recsBytes c.recs + 255) / 256 ∧
      t.gr.index.length = s.gr.index.length + 1 ∧
      (∀ a, a < s.pw.layout.1 * 1073741824 + o * 256 ∨ s.pw.layout.1 * 1073741824 + o * 256 + recsBytes c.recs ≤ a → memByte t.me.t1 a = memByte s.me.t1 a) ∧
      t.gr.t2 = s.gr.t2 ∧
      (∀ sd k, k ∉ [O.ReserveFill, O.CasksOpen] → t.ob sd k = s.ob sd k)) ∧
  (∀ (s : State) (k p o : Nat) (c : Chunk),
    k < 128 →
    p < 4 →
    tget s.gr.open_ (k * 4 + p) = some c →
    c.first + ms (s.i O.ChunkMaxAge) ≤ s.ft .icd →
    s.i O.RingFining = 0 →
    c.region = 0 →
    s.gr.chunks = [] →
    Memory.wf s.me.t1 = true →
    s.me.poison = [] →
    s.gr.index.length < indexRoom →
    placeRun [] (s.pw.layout.1 * 4194304) ((recsBytes c.recs + 255) / 256) s.gr.ringHead = some o →
    Does (.chunkMaxAge k p) s fun t =>
      t.gr.open_ = tdel s.gr.open_ (k * 4 + p) ∧
      t.gr.chunks = [{ c with off := o, len := recsBytes c.recs }] ∧
      t.gr.ringHead = o + (recsBytes c.recs + 255) / 256 ∧
      t.gr.index.length = s.gr.index.length + 1 ∧
      (∀ a, a < o * 256 ∨ o * 256 + recsBytes c.recs ≤ a → memByte t.me.t1 a = memByte s.me.t1 a) ∧
      t.gr.t2 = s.gr.t2 ∧
      (∀ sd k, k ∉ [O.ReserveFill, O.CasksOpen] → t.ob sd k = s.ob sd k)) ∧
  (∀ (s : State) (n n' o : Nat) (c : Chunk),
    s.gr.await.find? (fun d => d.num == n) = some c →
    c.region = 1 →
    Memory.wf s.me.t1 = true →
    s.me.poison = [] →
    n' = (if s.i O.ThrottleStep < 3 then min (recsBytes c.recs) (16 * lsum ((finSeq 15 [] (c.recs.map (·.rec_))).map List.length)) else recsBytes c.recs) →
    placeRun ((s.gr.chunks.filter fun d => d.region == 1).map Chunk.extent) (s.pw.layout.2.1 * 4194304) ((n' + 255) / 256) s.gr.postHead = some o →
    Does (.chunkFined n) s fun t =>
      t.gr.await = s.gr.await.filter (fun d => d.num != n) ∧
      t.gr.chunks = s.gr.chunks ++ [{ c with off := o, len := n' }] ∧
      t.gr.postHead = o + (n' + 255) / 256 ∧
      (∀ a, a < s.pw.layout.1 * 1073741824 + o * 256 ∨ s.pw.layout.1 * 1073741824 + o * 256 + n' ≤ a → memByte t.me.t1 a = memByte s.me.t1 a) ∧
      t.gr.t2 = s.gr.t2 ∧
      (∀ sd k, k ∉ [O.ReserveFill, O.CasksOpen] → t.ob sd k = s.ob sd k)) ∧
  (∀ (s : State),
    s.gr.index.length < indexRoom →
    s.indexSound = true →
    s.gr.anchor < s.ft .icd / ns 1000000000 →
    Does (.indexAnchor) s fun t =>
      t.gr.anchor = s.ft .icd / ns 1000000000 ∧
      State.Indexed s t (packFields [(0, 4, 8), (8, 64, s.ft .icd / 65536), (72, 40, s.gr.ringHead), (112, 16, s.i O.FtSegment)]) [])

/-- Casks: seals and triggers, opening, the post-window, release (R211, R212, R213, R214, R215, R216). -/
def Obligations.Casks : Prop :=
  (∀ (s : State) (q : Req) (at_ : Nat),
    askedByRing q = true →
    s.AcceptsDesc q →
    (List.range 16).filter (fun r => s.i (inst O.RuleKind r) == 1) = [3] →
    s.i (inst O.RuleScope 3) ≠ 0 →
    Does (.caskSeal q false false at_) s fun t =>
      t.gr.fired = s.gr.fired ++ [⟨3, 1, s.i (inst O.RuleScope 3), s.iGid, q.tag, s.stampAt .icd (s.ft .icd), s.ft .icd⟩] ∧
      t.gr.casks = s.gr.casks ∧
      State.Same s t []) ∧
  (∀ (s : State) (q : Req),
    s.Accepts q O.CaskSeal q.tag →
    (List.range 16).filter (fun r => s.i (inst O.RuleKind r) == 1) = [0] →
    s.i (inst O.RuleScope 0) ≠ 0 →
    Does (.caskSeal q true false 0) s fun t =>
      t.gr.fired = s.gr.fired ++ [⟨0, 1, s.i (inst O.RuleScope 0), s.iGid, q.tag, s.stampAt .icd (s.ft .icd), s.ft .icd⟩] ∧
      t.gr.casks = s.gr.casks ∧
      State.Kept s t []) ∧
  (∀ (s : State) (r : Trig),
    s.gr.fired = [r] →
    r.due ≤ s.ft .icd →
    s.isLead = false →
    Does (.caskTrigger) s fun t =>
      t.gr = { s.gr with fired := [] } ∧
      t.out = s.out ∧
      State.Same s t []) ∧
  (∀ (s : State) (r : Trig),
    s.gr.fired = [r] →
    r.due ≤ s.ft .icd →
    s.isLead = true →
    s.gr.casks = [] →
    s.gr.open_ = [] →
    s.gr.chunks = [] →
    s.gr.await = [] →
    s.pk.inputLow = false →
    Does (.caskTrigger) s fun t =>
      t.gr.fired = [] ∧
      t.gr.nextCask = (s.gr.nextCask + 1) % 2 ^ 32 ∧
      t.gr.casks.map (fun c => (c.id, c.rule, c.kind, c.status)) = [(s.gr.nextCask, r.rule, r.kind, 0)] ∧
      t.gr.casks.map (fun c => (c.ref, c.trig, c.scope, c.post)) = [(r.gid % 2 ^ 32 + r.ref % 2 ^ 32 * 2 ^ 32, r.stamp, r.scope, s.i O.PostWindow * 1000000)] ∧
      s.told t 0x212 [s.gr.nextCask, r.rule, r.kind, r.gid % 2 ^ 32 + r.ref % 2 ^ 32 * 2 ^ 32, r.stamp, r.scope, 0, s.i O.PostWindow * 1000000] = true ∧
      t.i O.CasksOpen = 1 ∧
      State.Kept s t [O.ReserveFill, O.CasksOpen]) ∧
  (∀ (s : State) (r : Trig),
    s.gr.fired = [r] →
    r.due ≤ s.ft .icd →
    s.isLead = true →
    8 ≤ (s.gr.casks.filter Cask.live).length →
    Does (.caskTrigger) s fun t =>
      t.gr.fired = [] ∧
      t.gr.nextCask = (s.gr.nextCask + 1) % 2 ^ 32 ∧
      t.gr.casks = s.gr.casks ∧
      t.i O.TriggersRefused = (s.i O.TriggersRefused + 1) % 2 ^ 32 ∧
      State.Kept s t [O.TriggersRefused]) ∧
  (∀ (s : State) (c : CaskIn),
    s.isLead = false →
    s.gr.casks = [] →
    s.gr.open_ = [] →
    s.gr.chunks = [] →
    s.gr.await = [] →
    Does (.caskOpenReceive c false []) s fun t =>
      t.gr.nextCask = (c.id + 1) % 2 ^ 32 ∧
      t.gr.casks.map (fun k => (k.id, k.rule, k.kind, k.status)) = [(c.id, c.rule, c.kind, 0)] ∧
      t.gr.casks.map (fun k => (k.pre, k.post, k.lo)) = [(c.pre, c.post, c.bounds)] ∧
      State.Kept s t [O.ReserveFill, O.CasksOpen]) ∧
  (∀ (s : State) (id : Nat) (c : Cask),
    s.isLead = true →
    s.gr.casks = [c] →
    c.id = id →
    c.status = 0 →
    bits c.trig 0 80 + ns c.post ≤ s.ft .icd →
    Does (.postWindowEnd id) s fun t =>
      t.gr.casks = [{ ((s.sealRuns c).gr.casks.headD c) with status := 1, hi := lastSeqs (sortBy (·.pos) (s.caskRecs c)) }] ∧
      s.told t 0x213 ([id, ((s.sealRuns c).gr.casks.headD c).dropped, (lastSeqs (sortBy (·.pos) (s.caskRecs c))).length] ++ ((lastSeqs (sortBy (·.pos) (s.caskRecs c))).flatMap fun x => [x.1, x.2]) ++ tgetD (s.sealRuns c).gr.caskDrops id []) = true ∧
      State.Kept (s.sealRuns c) t [O.ReserveFill, O.CasksOpen]) ∧
  (∀ (s : State) (q : Req) (id : Nat) (c : Cask),
    s.Accepts q O.CaskRelease id →
    s.gr.casks = [c] →
    c.id = id →
    c.live = true →
    Does (.caskRelease q id) s fun t =>
      t.gr.casks = [{ c with status := 7 }] ∧
      t.i O.CasksOpen = 0 ∧
      State.Kept s t [O.ReserveFill, O.CasksOpen]) ∧
  (∀ (s : State) (q : Req) (id : Nat),
    s.Accepts q O.Tier2Free id →
    (s.gr.tier2.any fun e => e.1 == id) = true →
    Does (.tier2Free q id) s fun t =>
      t.gr.tier2 = s.gr.tier2.filter (fun e => e.1 != id) ∧
      t.gr.casks = s.gr.casks ∧
      State.Kept s t [])

/-- Racking a sealed cask, and the jobs of the fining engine (R216, R217, R222, R223, R199). -/
def Obligations.RackingAndFining : Prop :=
  (∀ (s : State) (c : Cask) (p o : Nat),
    s.gr.racking = none →
    s.i O.ThrottleStep < 3 →
    s.pk.inputLow = false →
    s.gr.casks.find? (fun c => c.status == 1 || c.status == 6) = some c →
    s.rackPort (s.caskPages c) = some (p, o) →
    Does (.rackCask) s fun t =>
      t.gr = { s.gr with racking := some (c.id, p, o), lastPort := p } ∧
      t.out = s.out ∧
      State.Same s t []) ∧
  (∀ (s : State) (c : Cask),
    s.gr.racking = none →
    s.i O.ThrottleStep < 3 →
    s.pk.inputLow = false →
    s.gr.casks = [c] →
    c.status = 1 →
    s.rackPort (s.caskPages c) = none →
    Does (.rackCask) s fun t =>
      t.gr.casks = [{ c with status := 6 }] ∧
      t.gr.racking = none ∧
      0x148 ∈ t.ir.conds ∧
      t.seqOf .icd 0xF3 = (s.seqOf .icd 0xF3 + 1) % 2 ^ 32 ∧
      State.Kept s t [O.ReserveFill, O.CasksOpen]) ∧
  (∀ (s : State),
    (s.gr.racking.isSome = true ∨ 3 ≤ s.i O.ThrottleStep) →
    Does (.rackCask) s fun t =>
      t = s.commit) ∧
  (∀ (s : State) (c : Cask) (p o : Nat),
    s.gr.racking = some (c.id, p, o) →
    s.gr.casks = [c] →
    s.i O.ThrottleStep < 3 →
    Memory.wf s.gr.t2 = true →
    Does (.rackComplete) s fun t =>
      t.gr.racking = none ∧
      t.gr.casks = [{ c with status := 2, loc := p + o * 4096 }] ∧
      t.gr.tier2 = s.gr.tier2 ++ [(c.id, p, o, s.caskPages c)] ∧
      (∀ a, p * 2 ^ 44 + (o + s.caskPages c) * 4096 ≤ a ∨ a < p * 2 ^ 44 + o * 4096 → memByte t.gr.t2 a = memByte s.gr.t2 a) ∧
      t.me.t1 = s.me.t1 ∧
      (∀ sd k, k < 0x590000 → k ∉ [O.ReserveFill, O.CasksOpen] → t.ob sd k = s.ob sd k)) ∧
  (∀ (s : State) (q : Req) (v : Nat) (arg : Rec),
    s.AcceptsDesc q →
    rType arg = 0x71 →
    rLen arg = 4 →
    recFld arg 128 8 ≤ 1 →
    recFld arg 138 6 = 0 →
    recFld arg 148 12 = 0 →
    recFld arg 192 4 = 0 →
    recFld arg 256 4 = 0 →
    recFld arg 320 4 = 0 →
    (tgetD s.gr.jobs s.freestInst []).length < 256 →
    Does (.finingJob q false v arg) s fun t =>
      (tgetD t.gr.jobs s.freestInst []).length = (tgetD s.gr.jobs s.freestInst []).length + 1 ∧
      t.i (O.FiningQueueFree + s.freestInst) = 256 - (tgetD t.gr.jobs s.freestInst []).length ∧
      State.Same s t [O.FiningQueueFree + s.freestInst]) ∧
  (∀ (s : State) (q : Req) (v : Nat) (arg : Rec),
    s.AcceptsDesc q →
    rType arg ≠ 0x71 →
    Does (.finingJob q false v arg) s fun t =>
      t.gr = s.gr ∧
      State.Same s t refusalKeys) ∧
  (∀ (s : State) (k : Nat) (bad : List Nat) (j : FinJob) (rest : List FinJob),
    k < 4 →
    tgetD s.gr.jobs k [] = j :: rest →
    s.i O.ThrottleStep < 3 →
    (s.finDenied j.desc).isSome = true →
    Does (.finingJobDone ⟨k, bad⟩) s fun t =>
      tgetD t.gr.jobs k [] = rest ∧
      t.i (O.FiningQueueFree + k) = 256 - rest.length ∧
      t.seqOf .icd 0x72 = (s.seqOf .icd 0x72 + 1) % 2 ^ 32 ∧
      State.Kept { s with me := { s.me with t2poison := (bad ++ s.me.t2poison).eraseDups } } t [O.FiningQueueFree + k]) ∧
  (∀ (s s1 : State) (k : Nat) (bad : List Nat) (j : FinJob) (rest : List FinJob),
    k < 4 →
    tgetD s.gr.jobs k [] = j :: rest →
    s.i O.ThrottleStep < 3 →
    s1 = { s with me := { s.me with t2poison := (bad ++ s.me.t2poison).eraseDups } } →
    s1.finDenied j.desc = none →
    Does (.finingJobDone ⟨k, bad⟩) s fun t =>
      tgetD t.gr.jobs k [] = rest ∧
      t.i (O.FiningQueueFree + k) = 256 - rest.length ∧
      t.gr.t2 = memWrite (recFld j.desc 320 64) ((s1.finRun j.desc none).2.2.flatMap recBytes) s.gr.t2 ∧
      t.me.t1 = s.me.t1 ∧
      t.seqOf .icd 0x72 = (s.seqOf .icd 0x72 + 1) % 2 ^ 32) ∧
  (∀ (s : State) (k : Nat) (bad : List Nat),
    (tgetD s.gr.jobs k [] = [] ∨ 3 ≤ s.i O.ThrottleStep) →
    Does (.finingJobDone ⟨k, bad⟩) s fun t =>
      t = ({ s with me := { s.me with t2poison := (bad ++ s.me.t2poison).eraseDups } } : State).commit) ∧
  (∀ (s : State) (q : Req) (tag n : Nat),
    s.Accepts q O.FiningAbort tag →
    (∀ k, k < 4 → ((tgetD s.gr.jobs k []).all fun j => recFld j.desc 160 32 != tag) = true) →
    Does (.finingAbort q tag n) s fun t =>
      t.gr = s.gr ∧
      State.Kept s t refusalKeys) ∧
  (∀ (s : State) (q : Req) (tag n : Nat) (j : FinJob),
    s.Accepts q O.FiningAbort tag →
    s.gr.jobs = [(2, [j])] →
    recFld j.desc 160 32 = tag →
    (s.finDenied j.desc).isSome = true →
    Does (.finingAbort q tag n) s fun t =>
      tgetD t.gr.jobs 2 [] = [] ∧
      t.i (O.FiningQueueFree + 2) = 256 ∧
      t.seqOf .icd 0x72 = (s.seqOf .icd 0x72 + 1) % 2 ^ 32 ∧
      State.Kept s t [O.FiningQueueFree + 2])

/-- The series engine: samples, forwarding, Rebaseline and the steps of partitions (R227, R228, R231, R234, R235, R236, R240, R241, R246). -/
def Obligations.SeriesEngine : Prop :=
  (∀ (s : State) (m : Sample) (l : List Sample),
    s.se.cur = m :: l →
    spTransform (s.paramAt m.ser (bits m.stm 16 64)) = 0 →
    Does (.seriesSample) s fun t =>
      t.se.cur = l ∧
      t.se.ents = s.se.ents ∧
      tget t.se.touched (m.die * 4096 + m.ser) ≠ none ∧
      State.Same s t []) ∧
  (∀ (s : State) (m : Sample) (l : List Sample) (e : SerEnt),
    s.se.cur = m :: l →
    spTransform (s.paramAt m.ser (bits m.stm 16 64)) = 1 →
    bit (s.paramAt m.ser (bits m.stm 16 64)) 2 = false →
    tget s.se.ents ((s.seriesHash (m.die * 4096 + m.ser)).1 * 8 + (s.seriesHash (m.die * 4096 + m.ser)).2) = some e →
    e.key = m.die * 4096 + m.ser →
    bit e.flags 1 = false →
    e.rebase = [] →
    (e.fresh = true ∨ e.lastFt < bits m.stm 16 64) →
    bit e.flags 2 = true →
    e.count < bits (s.paramAt m.ser (bits m.stm 16 64)) 16 16 →
    Does (.seriesSample) s fun t =>
      t.se.cur = l ∧
      tget t.se.ents ((s.seriesHash (m.die * 4096 + m.ser)).1 * 8 + (s.seriesHash (m.die * 4096 + m.ser)).2) = some { (e.evaluate (s.paramAt m.ser (bits m.stm 16 64)) (fofInt f64 (m.val : Int)) m.val (bits m.stm 16 64) (s.windowAt (bits m.stm 16 64))).1 with flags := setBit (e.evaluate (s.paramAt m.ser (bits m.stm 16 64)) (fofInt f64 (m.val : Int)) m.val (bits m.stm 16 64) (s.windowAt (bits m.stm 16 64))).1.flags 6 (bit m.stm 80) } ∧
      t.ir = s.ir ∧
      State.Same s t []) ∧
  (∀ (s : State) (m : Sample) (l : List Sample) (e : SerEnt),
    s.se.cur = m :: l →
    2 ≤ spTransform (s.paramAt m.ser (bits m.stm 16 64)) →
    tget s.se.ents ((s.seriesHash (m.die * 4096 + m.ser)).1 * 8 + (s.seriesHash (m.die * 4096 + m.ser)).2) = some e →
    e.key = m.die * 4096 + m.ser →
    bit e.flags 1 = false →
    e.rebase = [] →
    e.fresh = true →
    m.gap = false →
    Does (.seriesSample) s fun t =>
      tget t.se.ents ((s.seriesHash (m.die * 4096 + m.ser)).1 * 8 + (s.seriesHash (m.die * 4096 + m.ser)).2) = some { e with last := m.val, lastFt := bits m.stm 16 64, fresh := false } ∧
      State.Same s t []) ∧
  (∀ (s : State) (m : Sample) (l : List Sample) (e : SerEnt),
    s.se.cur = m :: l →
    spTransform (s.paramAt m.ser (bits m.stm 16 64)) ≠ 0 →
    tget s.se.ents ((s.seriesHash (m.die * 4096 + m.ser)).1 * 8 + (s.seriesHash (m.die * 4096 + m.ser)).2) = some e →
    e.key = m.die * 4096 + m.ser →
    bit e.flags 1 = false →
    e.fresh = false →
    bits m.stm 16 64 ≤ e.lastFt →
    Does (.seriesSample) s fun t =>
      t.se.ents = s.se.ents ∧
      t.i O.SamplesDiscarded = (s.i O.SamplesDiscarded + 1) % 2 ^ 32 ∧
      State.Same s t [O.SamplesDiscarded]) ∧
  (∀ (s : State),
    (s.role = 1 ∨ s.role = 2) →
    s.up.decOwed = none →
    s.i (inst O.DecimationFactor (s.upPort.getD 0)) = 1 →
    s.se.fwdK < s.ft .icd / ms (max 1 (s.i O.ForwardInterval)) →
    ((s.se.touched.filter fun p => bit (s.paramAt (p.1 % 4096) (s.ft .icd / ms (max 1 (s.i O.ForwardInterval)) * ms (max 1 (s.i O.ForwardInterval)) / 65536)) 3).length = 1) = true →
    Does (.seriesForward) s fun t =>
      t.se.fwdK = s.ft .icd / ms (max 1 (s.i O.ForwardInterval)) ∧
      t.se.touched = [] ∧
      t.up.lastSet = 16 ∧
      t.seqOf .icd 0x80 = (s.seqOf .icd 0x80 + 1) % 2 ^ 32 ∧
      State.Kept s t queueKeys) ∧
  (∀ (s : State),
    (s.role = 3 ∨ s.role = 0) →
    Does (.seriesForward) s fun t =>
      t = s.commit) ∧
  (∀ (s : State) (q : Req) (v : Nat),
    s.Accepts q O.Rebaseline v →
    Does (.rebaseline q v) s fun t =>
      t.se.rebase = v :: s.se.rebase ∧
      t.se.ents = s.se.ents ∧
      State.Kept s t []) ∧
  (∀ (s : State) (r : Rec) (e : Nat × Nat) (x : StepPart),
    s.stepEntry (rPart r) = some e →
    tget s.se.steps (rPart r) = some x →
    recFld r 192 32 ∈ x.closed →
    Does (.stepRecord r) s fun t =>
      t.i O.StepLate = (s.i O.StepLate + 1) % 2 ^ 32 ∧
      t.se = s.se ∧
      State.Same s t [O.StepLate]) ∧
  (∀ (s : State) (r : Rec) (e : Nat × Nat),
    s.stepEntry (rPart r) = some e →
    e.1 < 1024 →
    tget s.se.steps (rPart r) = none →
    tget s.rd.epochs (s.i O.EpochNow) = none →
    s.isLead = false →
    Does (.stepRecord r) s fun t =>
      ((tget t.se.steps (rPart r)).map fun x => x.open_.map fun o => (o.step, o.at_, o.recs)) = some [(recFld r 192 32, s.ft .icd, [r])] ∧
      t.i (inst O.OpenSteps e.1) = 1 ∧
      State.Same s t [inst O.OpenSteps e.1]) ∧
  (∀ (s : State) (part step : Nat) (e : Nat × Nat) (o : StepOpen) (sh : Tbl Nat),
    s.isLead = true →
    s.stepEntry part = some e →
    e.1 < 1024 →
    tget s.se.steps part = some ⟨[o], [], [], [], sh⟩ →
    o.step = step →
    o.recs = [] →
    tget s.tw.parts part = none →
    o.at_ + us (bits (s.i (inst O.StepLimits e.1)) 16 32) ≤ s.ft .icd →
    Does (.stepTimeout part step none) s fun t =>
      ((tget t.se.steps part).map fun x => (x.open_, x.closed)) = some ([], [step]) ∧
      t.i (inst O.OpenSteps e.1) = 0 ∧
      t.seqOf .icd 0x83 = (s.seqOf .icd 0x83 + 1) % 2 ^ 32 ∧
      State.Kept s t [inst O.OpenSteps e.1, O.SubscriberOverflow, O.BulkDiscarded]) ∧
  (∀ (s : State) (part step cause : Nat) (l : List Nat) (fetched : List Rec) (e : Nat × Nat) (o : StepOpen) (sh : Tbl Nat),
    s.isLead = false →
    s.stepEntry part = some e →
    e.1 < 1024 →
    tget s.se.steps part = some ⟨[o], [], [], [], sh⟩ →
    o.step = step →
    tget s.tw.parts part = none →
    cause ≠ 2 →
    Does (.stepTimeout part step (some ⟨cause, l, fetched⟩)) s fun t =>
      ((tget t.se.steps part).map fun x => (x.open_, x.closed)) = some ([], [step]) ∧
      t.i (inst O.OpenSteps e.1) = 0 ∧
      State.Kept s t [inst O.OpenSteps e.1, O.SubscriberOverflow, O.BulkDiscarded])

/-- Epoch boundaries, epoch anchors and the writes that the reduction engine schedules (R250, R251, R253, R255, R256, R418). -/
def Obligations.EpochsAndAnchors : Prop :=
  (∀ (s : State) (e0 : Epoch),
    s.rd.has = true →
    ns (s.i O.EpochStartNs) + s.epochLen ≤ s.ft .icd →
    s.rd.slip = none →
    s.rd.early = [] →
    s.tm.iActs = [] →
    s.si.hel.change = none →
    s.NoRouse →
    tget s.rd.epochs (s.i O.EpochNow) = some e0 →
    e0.num = s.i O.EpochNow →
    (s.closeLocal.deferred ((s.i O.EpochNow + 1) % 2 ^ 48) (ns (s.i O.EpochStartNs) + s.epochLen)).commit = s.closeLocal.commit →
    Does (.epochBoundary) s fun t =>
      t.i O.EpochNow = (s.i O.EpochNow + 1) % 2 ^ 48 ∧
      t.i O.EpochStartNs = (ns (s.i O.EpochStartNs) + s.epochLen) / 65536 ∧
      t.rd.len = s.i O.EpochLength * 1000 ∧
      ((tget t.rd.epochs ((s.i O.EpochNow + 1) % 2 ^ 48)).map fun e => (e.num, e.start, e.members, e.closed)) = some ((s.i O.EpochNow + 1) % 2 ^ 48, t.i O.EpochStartNs, s.tw.members, false) ∧
      t.tw.local_ = (if s.i O.ThrottleStep = 0 then 0 else 8) ∧
      State.Same s t [O.EpochNow, O.EpochStartNs]) ∧
  (∀ (s : State),
    (s.rd.has = false ∨ s.ft .icd < ns (s.i O.EpochStartNs) + s.epochLen) →
    Does (.epochBoundary) s fun t =>
      t = s.commit) ∧
  (∀ (s : State),
    s.rd.has = true →
    s.isLead = true →
    tgetD s.rd.told (linkNum .xlink) 0 < s.rd.changes →
    s.tm.dreqNew.contains (linkNum .xlink) = false →
    (s.role = 3 ∨ s.tw.twinNoUp = true) →
    Does (.epochAnchorSend .xlink) s fun t =>
      t.rd.served = s.rd.served ∧
      tget t.rd.told (linkNum .xlink) = some s.rd.changes ∧
      tget t.rd.anchorSec (linkNum .xlink) = some (s.ft .icd / ns 1000000000) ∧
      (∀ k, k ≠ linkNum .xlink → tget t.rd.anchorSec k = tget s.rd.anchorSec k) ∧
      t.seqOf .icd 0x25 = (s.seqOf .icd 0x25 + 1) % 2 ^ 32 ∧
      State.Kept s t [O.SubscriberOverflow, O.BulkDiscarded]) ∧
  (∀ (s : State) (d : Nat),
    s.rd.has = true →
    s.isLead = true →
    s.tm.dreqNew.contains (linkNum (.down d)) = true →
    tgetD s.rd.served (linkNum (.down d)) 0 < 16 →
    Does (.epochAnchorSend (.down d)) s fun t =>
      tget t.rd.served (linkNum (.down d)) = some (tgetD s.rd.served (linkNum (.down d)) 0 + 1) ∧
      t.tm.dreqNew = s.tm.dreqNew.filter (· != linkNum (.down d)) ∧
      t.seqOf .icd 0x25 = (s.seqOf .icd 0x25 + 1) % 2 ^ 32 ∧
      State.Kept s t queueKeys) ∧
  (∀ (s : State),
    s.role ≠ 3 →
    s.tw.twinNoUp = false →
    Does (.epochAnchorSend .xlink) s fun t =>
      t = s.commit) ∧
  (∀ (s : State) (l : Link),
    (s.rd.has = false ∨ s.isLead = false) →
    Does (.epochAnchorSend l) s fun t =>
      t = s.commit) ∧
  (∀ (s : State) (r : Rec),
    s.i O.FtState ≠ 0 →
    recFld r 256 32 ≠ 0 →
    s.rd.has = false →
    Does (.epochAnchor r) s fun t =>
      t.rd.has = true ∧
      t.rd.len = recFld r 256 32 ∧
      t.i O.EpochNow = recFld r 128 48 ∧
      t.i O.EpochStartNs = recFld r 192 64 ∧
      t.i O.EpochLength = recFld r 256 32 / 1000 ∧
      State.Same s t [O.EpochNow, O.EpochStartNs, O.EpochLength]) ∧
  (∀ (s : State) (r : Rec),
    s.rd.has = true →
    s.rd.len = recFld r 256 32 →
    recFld r 128 48 ≤ s.i O.EpochNow →
    recFld r 192 64 + (s.i O.EpochNow - recFld r 128 48) * recFld r 256 32 = s.i O.EpochStartNs →
    Does (.epochAnchor r) s fun t =>
      t = s.commit) ∧
  (∀ (s : State) (r : Rec),
    s.i O.FtState ≠ 0 →
    recFld r 256 32 ≠ 0 →
    s.rd.has = true →
    s.rd.len ≠ recFld r 256 32 →
    Does (.epochAnchor r) s fun t =>
      t.rd.slip = some (recFld r 128 48, recFld r 192 64, recFld r 256 32) ∧
      t.seqOf .icd 0xF3 = (s.seqOf .icd 0xF3 + 1) % 2 ^ 32 ∧
      State.Kept s t []) ∧
  (∀ (s : State) (q : Req) (v : Nat),
    s.Accepts q O.EpochLength v →
    epochFits v (s.i O.GracePerLevel) (s.i O.ResultBudget) = true →
    s.tm.iActs.length < 1024 →
    Does (.epochLengthWrite q v) s fun t =>
      t.tm.iActs.map (fun a => (a.kind, a.at_, a.key, a.val)) = s.tm.iActs.map (fun a => (a.kind, a.at_, a.key, a.val)) ++ [(6, s.boundaryAfter (s.ft .icd + ms 1), O.EpochLength, v)] ∧
      t.i O.EpochLength = s.i O.EpochLength ∧
      State.Kept s t [O.ActionQueueFree, O.SubscriberOverflow, O.BulkDiscarded]) ∧
  (∀ (s : State) (q : Req) (v : Nat),
    s.Accepts q O.EpochLength v →
    epochFits v (s.i O.GracePerLevel) (s.i O.ResultBudget) = false →
    Does (.epochLengthWrite q v) s fun t =>
      t.tm = s.tm ∧
      State.Kept s t refusalKeys) ∧
  (∀ (s : State) (q : Req),
    s.Accepts q O.ReductionCommit 1 →
    ((s.cd.all fun p => decide (p.1 < 0x480000 ∨ 0x490000 ≤ p.1)) = true) →
    s.tm.iActs.length < 1024 →
    Does (.reductionCommit q) s fun t =>
      t.tm.iActs.map (fun a => (a.kind, a.at_, a.key, a.val)) = s.tm.iActs.map (fun a => (a.kind, a.at_, a.key, a.val)) ++ [(6, s.boundaryAfter (s.ft .icd + ms 1), O.ReductionCommit, 1)] ∧
      t.rd.staged = tset s.rd.staged (s.boundaryAfter (s.ft .icd + ms 1)) [] ∧
      t.i O.CommitEpoch = s.epochFrom (s.boundaryAfter (s.ft .icd + ms 1)) ∧
      State.Kept s t [O.ActionQueueFree, O.CommitEpoch, O.SubscriberOverflow, O.BulkDiscarded]) ∧
  (∀ (s : State) (q : Req) (n : Nat),
    s.Accepts q O.ReductionCommit 1 →
    n < 256 →
    bit (s.i (inst O.ReductionDef n)) 0 = true →
    comboOk (s.i (inst O.ReductionDef n)) = false →
    Does (.reductionCommit q) s fun t =>
      t.i (inst O.ReductionStatus n) = 2 ∧
      (∀ r, r < 256 → t.i (inst O.ReductionStatus r) = (if r ∈ offenders s.stagedDefs then 2 else s.i (inst O.ReductionStatus r))) ∧
      t.tm = s.tm ∧
      t.rd = s.rd ∧
      State.Kept s t ((List.range 256).map (inst O.ReductionStatus) ++ refusalKeys))

/-- Closes, contributions, results and supplements of the reduction engine, and the twins' digests (R26, R27, R263, R264, R265, R267, R270, R408, R409). -/
def Obligations.ReductionCloses : Prop :=
  (∀ (s : State) (n : Nat) (e : Epoch) (ag : Option (List (Nat × Nat) × List Nat)) (lost : List (Nat × Nat × Nat)),
    tget s.rd.epochs n = some e →
    e.num = n →
    e.closed = false →
    e.childs = [] →
    s.role = 1 →
    s.isLead = true →
    ns (e.start + e.len) + us e.grace ≤ s.ft .icd →
    Does (.epochClose n ag ⟨[], lost⟩) s fun t =>
      ((tget t.rd.epochs n).map fun x => (x.closed, x.vals, x.main)) = some (true, [], e.scopes.map fun p => (p, ({ e with held := e.held || s.holdoverFlag .icd } : Epoch).trayScope p (s.contributors e) (s.contributors e) (e.vals.filter fun v => (s.contributors e).contains v.gid && !lostAt lost (v.slot * 16 + v.st) v.fseq) s.overFor)) ∧
      t.rd.lost = [] ∧
      t.gr.over_ = 0 ∧
      State.Kept s t [O.SubscriberOverflow, O.BulkDiscarded]) ∧
  (∀ (s : State) (n : Nat) (e : Epoch) (ag : Option (List (Nat × Nat) × List Nat)) (l : List (Nat × Nat × Nat × Rec)) (lost : List (Nat × Nat × Nat)),
    tget s.rd.epochs n = some e →
    (e.closed = true ∨ s.ft .icd < ns (e.start + e.len) + s.level * us e.grace) →
    Does (.epochClose n ag ⟨l, lost⟩) s fun t =>
      t = s.commit) ∧
  (∀ (s : State) (p : Nat) (r : Rec),
    rType r = 0x90 →
    tget s.rd.epochs (recFld r 144 48) = none →
    Does (.contributionReceive p r) s fun t =>
      t.i O.LateDiscarded = (s.i O.LateDiscarded + recFld r 256 64) % 2 ^ 64 ∧
      t.rd = s.rd ∧
      State.Same s t [O.LateDiscarded]) ∧
  (∀ (s : State) (p : Nat) (r : Rec) (e : Epoch),
    rType r = 0x90 →
    tget s.rd.epochs (recFld r 144 48) = some e →
    e.num = recFld r 144 48 →
    e.suppDone = false →
    e.childs = [] →
    e.closed = false →
    s.ft .icd < s.closeAt e →
    Does (.contributionReceive p r) s fun t =>
      t.rd.epochs = tset s.rd.epochs e.num { e with childs := [⟨p, rPart r, recFld r 200 1 == 1, false, [(recFld r 128 16, r)], none⟩] } ∧
      State.Same s t []) ∧
  (∀ (s : State) (p : Nat) (r : Rec) (e : Epoch),
    rType r = 0x92 →
    tget s.rd.epochs (recFld r 128 48) = some e →
    e.num = recFld r 128 48 →
    e.suppDone = false →
    e.childs = [] →
    e.closed = true →
    s.ft .icd < s.suppAt e →
    recFld r 176 1 = 0 →
    Does (.contributionReceive p r) s fun t =>
      t.rd.epochs = tset s.rd.epochs e.num { e with childs := [⟨p, rPart r, false, true, [], some r⟩] } ∧
      t.i O.LateContributions = (s.i O.LateContributions + 1) % 2 ^ 32 ∧
      State.Same s t [O.LateContributions]) ∧
  (∀ (s : State) (n : Nat) (e : Epoch) (sc : Scope) (r : Nat) (x : RState),
    tget s.rd.epochs n = some e →
    e.num = n →
    e.closed = true →
    e.posted = false →
    e.main = [(0, sc)] →
    sc.states = [(r, x)] →
    s.role = 3 →
    s.isLead = true →
    s.pk.pcieUp = true →
    s.mo.sessions = [] →
    Does (.resultPost n) s fun t =>
      (t.out.head?.map fun o => (o.chan, o.idx, o.body.take 1, recFld o.body 128 16, recFld o.body 144 48)) = some (.host, 0, [(s.iRec 0x91 (6 + (rpayload ((tget e.defs r).getD (0, 0, 0)).1 x).1.length) 0 0 []).headD 0], r % 2 ^ 16, n % 2 ^ 48) ∧
      t.out.tail = s.out ∧
      ((tget t.rd.epochs n).map (·.posted)) = some true ∧
      t.tw.posted = max s.tw.posted n ∧
      State.Kept s t []) ∧
  (∀ (s : State) (n : Nat) (e : Epoch) (ag : Option LateSet),
    tget s.rd.epochs n = some e →
    e.num = n →
    e.closed = true →
    e.suppDone = false →
    e.defs = [] →
    (s.isLead = true ∨ ag = none) →
    ns (e.start + e.len) + ms e.hold + s.level * us e.grace ≤ s.ft .icd →
    Does (.supplementClose n ag) s fun t =>
      t.rd.epochs = tset s.rd.epochs n { e with held := e.held || s.holdoverFlag .icd, suppDone := true, supp := [], lateVals := [], childs := [] } ∧
      State.Same s t []) ∧
  (∀ (s : State) (n kind : Nat) (e : Epoch),
    tget s.rd.epochs n = some e →
    e.num = n →
    kind < 2 →
    bit e.digSent kind = false →
    s.serving = true →
    tget s.rd.theirs (n * 2 + kind) = none →
    ns (e.start + e.len) + 3 * us e.grace + us e.budget + (if kind = 1 then ms e.hold else 0) ≤ s.ft .icd →
    Does (.twinDigestSend n kind) s fun t =>
      tget t.rd.own (n * 2 + kind) = some (s.outputDigest n kind, e.localMain) ∧
      t.rd.epochs = tset s.rd.epochs n { e with digSent := setBit e.digSent kind true } ∧
      t.seqOf .icd 0xE1 = (s.seqOf .icd 0xE1 + 1) % 2 ^ 32 ∧
      State.Same s t [O.SubscriberOverflow, O.BulkDiscarded]) ∧
  (∀ (s : State) (r : Rec),
    tget s.rd.own (recFld r 128 48 * 2 + recFld r 176 8) = none →
    Does (.twinDigestCompare r) s fun t =>
      t.rd = { s.rd with theirs := tset s.rd.theirs (recFld r 128 48 * 2 + recFld r 176 8) (recFld r 200 128, recFld r 184 16) } ∧
      t.out = s.out ∧
      State.Same s t []) ∧
  (∀ (s : State) (r : Rec) (loc : Nat),
    tget s.rd.own (recFld r 128 48 * 2 + recFld r 176 8) = some (recFld r 200 128, loc) →
    s.isLead = false →
    recFld r 176 8 = 0 →
    Does (.twinDigestCompare r) s fun t =>
      t.up = (s.xMsg 0x409 [recFld r 128 48, 0, 1]).up ∧
      t.out = s.out ∧
      t.rd = { s.rd with own := tdel s.rd.own (recFld r 128 48 * 2), theirs := tdel s.rd.theirs (recFld r 128 48 * 2) } ∧
      t.tw = { s.tw with mismatchRun := 0 } ∧
      State.Same s t []) ∧
  (∀ (s : State) (n : Nat) (e : Epoch),
    tget s.rd.epochs n = some e →
    ns (e.start + e.len) + 3 * us e.grace + us e.budget + us 100 ≤ s.ft .icd →
    tget s.rd.own (n * 2) = none →
    Does (.twinDigestAbsent n 0) s fun t =>
      t.i O.UncomparedEpochs = (s.i O.UncomparedEpochs + 1) % 2 ^ 32 ∧
      t.rd = { s.rd with own := tdel s.rd.own (n * 2), theirs := tdel s.rd.theirs (n * 2) } ∧
      State.Same s t [O.UncomparedEpochs])

/-- Lauter: models, bindings, switches and batches (R281, R283, R291, R295, R296, R297, R289, R290, R292, R298). -/
def Obligations.LauterModelsAndBatches : Prop :=
  (∀ (s : State) (q : Req) (b c at_ : Nat),
    s.AcceptsDesc q →
    b < 16 →
    c < 8 →
    s.ft .icd + us 50 ≤ at_ →
    bit (s.i (inst O.LauterBinding b)) 11 = true →
    bit (s.i (inst O.LauterBinding b)) 13 = false →
    (s.i (inst O.LauterSlotState c) = 2 ∨ s.i (inst O.LauterSlotState c) = 4) →
    tget s.la.waits b = none →
    s.tm.iActs.length < 1024 →
    Does (.modelSwitch q false b c at_) s fun t =>
      tget t.la.waits b = some (at_, c) ∧
      t.tm.iActs.map (fun a => (a.kind, a.at_, a.a, a.b)) = s.tm.iActs.map (fun a => (a.kind, a.at_, a.a, a.b)) ++ [(1, at_, b, c)] ∧
      t.i (inst O.LauterBinding b) = s.i (inst O.LauterBinding b) ∧
      State.Kept s t ([O.ActionQueueFree, O.SwitchesPending] ++ (List.range 8).map (inst O.LauterSlotState))) ∧
  (∀ (s : State) (q : Req) (b c at_ : Nat),
    s.AcceptsDesc q →
    s.ft .icd + us 50 ≤ at_ →
    bit (s.i (inst O.LauterBinding b)) 11 = false →
    Does (.modelSwitch q false b c at_) s fun t =>
      t.tm = s.tm ∧
      t.la = s.la ∧
      State.Same s t refusalKeys) ∧
  (∀ (s : State) (k n : Nat),
    k < 8 →
    tget s.tw.landed (256 + k) = some n →
    Does (.modelImageComplete k) s fun t =>
      t.i (inst O.LauterSlotState k) = 1 ∧
      t.la.checking = tset s.la.checking k n ∧
      tget t.tw.landed (256 + k) = none ∧
      State.Kept s t [inst O.LauterSlotState k]) ∧
  (∀ (s : State) (k n c d : Nat),
    k < 8 →
    tget s.la.checking k = some n →
    s.modelCheck k = some (c, d) →
    Does (.modelValidationDone k) s fun t =>
      t.i (inst O.LauterSlotState k) = 6 ∧
      t.i (inst O.MalformedCause k) = c ∧
      t.i (inst O.MalformedDetail k) = d ∧
      t.i (inst O.SlotModelId k) = s.modelFld k 320 64 ∧
      t.la = { s.la with checking := tdel s.la.checking k } ∧
      State.Kept s t [inst O.LauterSlotState k, inst O.MalformedCause k, inst O.MalformedDetail k, inst O.SlotModelId k, inst O.ModelDigest k]) ∧
  (∀ (s : State) (k n : Nat),
    k < 8 →
    tget s.la.checking k = some n →
    s.modelCheck k = none →
    Does (.modelValidationDone k) s fun t =>
      k ∈ t.la.valid ∧
      t.i (inst O.LauterSlotState k) = t.slotUse k ∧
      t.i (inst O.MalformedCause k) = 0 ∧
      t.i (inst O.MalformedDetail k) = 0 ∧
      State.Kept s t [inst O.LauterSlotState k, inst O.MalformedCause k, inst O.MalformedDetail k, inst O.SlotModelId k, inst O.ModelDigest k]) ∧
  (∀ (s : State) (q : Req) (k : Nat),
    k < 8 →
    s.Accepts q (inst O.SlotClear k) k →
    s.slotFree k = true →
    Does (.slotClear q k k) s fun t =>
      t.i (inst O.LauterSlotState k) = 0 ∧
      t.i (inst O.ModelDigest k) = 0 ∧
      t.i (inst O.SlotModelId k) = 0 ∧
      k ∉ t.la.valid ∧
      State.Kept s t [inst O.LauterSlotState k, inst O.SlotModelId k, inst O.ModelDigest k]) ∧
  (∀ (s : State) (q : Req) (k v : Nat),
    k < 8 →
    s.Accepts q (inst O.SlotClear k) k →
    s.slotFree k = false →
    v = k →
    Does (.slotClear q k v) s fun t =>
      t.la = s.la ∧
      t.i (inst O.LauterSlotState k) = s.i (inst O.LauterSlotState k) ∧
      State.Kept s t refusalKeys) ∧
  (∀ (s : State) (q : Req) (b v : Nat),
    b < 16 →
    s.Accepts q (inst O.LauterBinding b) v →
    bit v 15 = false →
    bits v 20 12 = 0 →
    f32.isNan (bits v 32 32) = false →
    bit v 11 = false →
    bit (s.i (inst O.LauterBinding b)) 11 = false →
    Does (.lauterBindingWrite q b v) s fun t =>
      t.i (inst O.LauterBinding b) = v ∧
      b ∈ t.la.changed ∧
      t.la.act = s.la.act ∧
      State.Kept s t ([inst O.LauterBinding b, O.SwitchesPending] ++ (List.range 8).map (inst O.LauterSlotState))) ∧
  (∀ (s : State) (k tree e : Nat),
    k < 8 →
    tget s.la.stop k = none →
    Does (.stopEpochReceive k tree e) s fun t =>
      tget t.la.stop k = some (e, tree) ∧
      t.i (inst O.LauterSlotState k) = 6 ∧
      t.i (inst O.MalformedCause k) = 9 ∧
      t.seqOf .icd 0xF3 = (s.seqOf .icd 0xF3 + 1) % 2 ^ 32 ∧
      State.Kept s t [inst O.LauterSlotState k, inst O.MalformedCause k, inst O.MalformedDetail k]) ∧
  (∀ (s : State) (a : Act),
    s.tm.iActs = [a] →
    a.kind = 1 →
    a.at_ ≤ s.ft .icd →
    s.closeFirst .icd a = false →
    a.a < 16 →
    a.b < 8 →
    Does (.modelSwitchLaunch) s fun t =>
      t.tm.iActs = [] ∧
      a.handle ∈ t.tm.iDone ∧
      t.i (inst O.LauterBinding a.a) = setBits (s.i (inst O.LauterBinding a.a)) 8 3 a.b ∧
      tget t.la.waits a.a = none ∧
      t.la.moves.map (fun m => (m.bind, m.at_, m.old)) = (a.a, a.at_, bits (s.i (inst O.LauterBinding a.a)) 8 3) :: s.la.moves.map (fun m => (m.bind, m.at_, m.old)) ∧
      (tget t.la.retire (bits (s.i (inst O.LauterBinding a.a)) 8 3)).isSome = true ∧
      State.Kept s t ([inst O.LauterBinding a.a, O.ActionQueueFree, O.SwitchesPending] ++ (List.range 8).map (inst O.LauterSlotState))) ∧
  (∀ (s : State) (k x : Nat),
    k < 8 →
    tget s.la.retire k = some x →
    x ≤ s.ft .icd →
    Does (.slotRetireEnd k) s fun t =>
      tget t.la.retire k = none ∧
      t.la.act = s.la.act ∧
      State.Kept s t ([O.SwitchesPending] ++ (List.range 8).map (inst O.LauterSlotState))) ∧
  (∀ (s : State) (b k n : Nat) (f : FeatVec),
    s.la.feats.find? (fun g => g.need.any fun n => n.1 == b) = some f →
    f.need = [(b, k, n)] →
    s.la.open_ = [] →
    Does (.vectorEnqueue b) s fun t =>
      t.la.open_ = [⟨b, k, [(n, f.rec_)], s.ft .icd, []⟩] ∧
      t.la.feats = s.la.feats.filterMap (fun g => if g.pos = f.pos then (if (g.need.filter fun x => x.1 != b).isEmpty then none else some { g with need := g.need.filter fun x => x.1 != b }) else some g) ∧
      State.Same s t []) ∧
  (∀ (s : State) (b k : Nat) (x : Batch),
    s.la.open_ = [x] →
    x.bind = b →
    x.slot = k →
    x.first + us (s.i O.BatchLatency) ≤ s.ft .icd →
    Does (.batchClose b k) s fun t =>
      t.la = { s.la with open_ := [], closed := s.la.closed ++ [x] } ∧
      State.Same s t []) ∧
  (∀ (s : State) (b k : Nat) (x : Batch),
    s.la.open_ = [x] →
    x.bind = b →
    x.slot = k →
    s.ft .icd < x.first + us (s.i O.BatchLatency) →
    x.vecs.length < s.batchMax k →
    Does (.batchClose b k) s fun t =>
      t = s.commit) ∧
  (∀ (s : State) (c : Nat) (bad : List Nat) (k : Batch) (l : List Batch),
    tget s.la.running c = none →
    s.la.closed = k :: l →
    Does (.batchStart c bad) s fun t =>
      tget t.la.running c = some { k with bad := bad } ∧
      t.la.closed = l ∧
      State.Same s t []) ∧
  (∀ (s : State) (c n : Nat) (k : Batch) (r : Rec),
    tget s.la.running c = some k →
    k.vecs = [(n, r)] →
    k.slot ∉ s.la.valid →
    s.me.poison = [] →
    s.me.ce = [] →
    Does (.batchDone c) s fun t =>
      tget t.la.running c = none ∧
      t.i O.VectorsScored = (s.i O.VectorsScored + 1) % 2 ^ 64 ∧
      t.i O.ResultsInvalid = (s.i O.ResultsInvalid + 1) % 2 ^ 64 ∧
      State.Kept s t [O.VectorsScored, O.ResultsInvalid, O.ReserveFill, O.CasksOpen, O.RingDroppedBytes, O.SubscriberOverflow, O.BulkDiscarded, O.BulkDeferLost, O.VfWithheld]) ∧
  (∀ (s : State) (c n : Nat) (k : Batch) (r : Rec),
    tget s.la.running c = some k →
    k.vecs = [(n, r)] →
    k.slot ∈ s.la.valid →
    tget s.la.stop k.slot = none →
    s.modelPoisoned k.slot = false →
    k.bad = [] →
    s.mFeatures k.slot ≤ vecFeatures r →
    (s.walkAll k.slot r).2.2 = none →
    s.me.poison = [] →
    s.me.ce = [] →
    Does (.batchDone c) s fun t =>
      tget t.la.running c = none ∧
      t.i O.VectorsScored = (s.i O.VectorsScored + 1) % 2 ^ 64 ∧
      t.i O.ResultsInvalid = s.i O.ResultsInvalid ∧
      t.la.stop = s.la.stop ∧
      State.Kept s t [O.VectorsScored, O.ReserveFill, O.CasksOpen, O.RingDroppedBytes, O.SubscriberOverflow, O.BulkDiscarded, O.BulkDeferLost, O.VfWithheld, O.LateDiscarded])

/-- Mash regions and Steep groups: images load, switch and clear (R310, R316, R317, R348, R314, R347). -/
def Obligations.UnitImagesAndSwitches : Prop :=
  (∀ (s : State) (q : Req) (r i at_ : Nat),
    s.AcceptsDesc q →
    r < 16 →
    i < 64 →
    s.ft .icd + us 50 ≤ at_ →
    s.rd.has = true →
    s.boundaryAfter at_ = at_ →
    (s.i (imageKey false i 1) = 2 ∨ s.i (imageKey false i 1) = 3) →
    (s.feed r).sw = none →
    s.tm.iActs.length < 1024 →
    Does (.mashSwitch q false r i at_) s fun t =>
      t.i (kPending r) = i ∧
      t.i (imageKey false i 1) = 3 ∧
      (t.feed r).sw.map (fun w => (w.1, w.2.1)) = some (at_, i) ∧
      t.tm.iActs.map (fun a => (a.kind, a.at_, a.a, a.b)) = s.tm.iActs.map (fun a => (a.kind, a.at_, a.a, a.b)) ++ [(2, at_, r, i)] ∧
      State.Kept s t ([kPending r, O.ActionQueueFree, O.SwitchesPending] ++ (List.range 64).map (fun j => imageKey false j 1))) ∧
  (∀ (s : State) (q : Req) (g i at_ : Nat),
    s.AcceptsDesc q →
    g < 8 →
    i < 64 →
    s.ft .icd + us 50 ≤ at_ →
    s.rd.has = true →
    s.boundaryAfter at_ = at_ →
    (s.i (imageKey true i 1) = 2 ∨ s.i (imageKey true i 1) = 3) →
    (s.feed (16 + g)).sw = none →
    s.tm.iActs.length < 1024 →
    Does (.steepSwitch q false g i at_) s fun t =>
      t.i (kPending (16 + g)) = i ∧
      t.i (imageKey true i 1) = 3 ∧
      (t.feed (16 + g)).sw.map (fun w => (w.1, w.2.1)) = some (at_, i) ∧
      t.tm.iActs.map (fun a => (a.kind, a.at_, a.a, a.b)) = s.tm.iActs.map (fun a => (a.kind, a.at_, a.a, a.b)) ++ [(3, at_, g, i)] ∧
      State.Kept s t ([kPending (16 + g), O.ActionQueueFree, O.SwitchesPending] ++ (List.range 64).map (fun j => imageKey true j 1))) ∧
  (∀ (s : State) (q : Req) (r i at_ : Nat),
    s.AcceptsDesc q →
    s.i (imageKey false i 1) ≠ 2 ∧ s.i (imageKey false i 1) ≠ 3 ∧ i ≠ 255 →
    Does (.mashSwitch q false r i at_) s fun t =>
      t.ma = s.ma ∧
      t.tm = s.tm ∧
      State.Same s t refusalKeys) ∧
  (∀ (s : State) (q : Req) (g i at_ : Nat),
    s.AcceptsDesc q →
    s.i (imageKey true i 1) ≠ 2 ∧ s.i (imageKey true i 1) ≠ 3 ∧ i ≠ 255 →
    Does (.steepSwitch q false g i at_) s fun t =>
      t.ma = s.ma ∧
      t.tm = s.tm ∧
      State.Same s t refusalKeys) ∧
  (∀ (s : State) (a : Act),
    s.dueAct .icd = some a →
    a.kind = 2 →
    a.a < 16 →
    s.i (kState a.a) ≠ 2 →
    a.b < 2 ^ 8 →
    Does (.regionSwitchLaunch) s fun t =>
      t.i (kState a.a) = 2 ∧
      t.i (kPending a.a) = a.b ∧
      (t.feed a.a).phase = 1 ∧
      (t.feed a.a).sw = none ∧
      (t.feed a.a).from_ = a.at_ ∧
      (t.feed a.a).to_ = a.b ∧
      (t.feed a.a).flt = (s.i (kState a.a) == 3) ∧
      State.Kept s t [kState a.a, kPending a.a, O.ActionQueueFree, O.SwitchesPending]) ∧
  (∀ (s : State) (a : Act),
    s.dueAct .icd = some a →
    a.kind = 3 →
    a.a < 8 →
    s.i (kState (16 + a.a)) ≠ 2 →
    a.b < 2 ^ 8 →
    Does (.groupSwitchLaunch) s fun t =>
      t.i (kState (16 + a.a)) = 2 ∧
      t.i (kPending (16 + a.a)) = a.b ∧
      (t.feed (16 + a.a)).phase = 1 ∧
      (t.feed (16 + a.a)).from_ = a.at_ ∧
      (t.feed (16 + a.a)).to_ = a.b ∧
      State.Kept s t [kState (16 + a.a), kPending (16 + a.a), O.ActionQueueFree, O.SwitchesPending]) ∧
  (∀ (s : State) (r : Nat),
    r < 16 →
    s.feedDrained r = true →
    Does (.regionLoadStart r) s fun t =>
      (t.feed r) = { s.feed r with phase := 2 } ∧
      State.Kept s t []) ∧
  (∀ (s : State) (r : Nat),
    r < 16 →
    s.feedDrained r = false →
    Does (.regionLoadStart r) s fun t =>
      t.ma = s.ma ∧
      State.Same s t []) ∧
  (∀ (s : State) (r : Nat),
    r < 16 →
    (s.feed r).phase = 2 →
    (s.feed r).to_ < 64 →
    s.imagePoisoned false (s.feed r).to_ = false →
    (s.feed r).sw = none →
    s.gr.staging = [] →
    s.me.ce = [] →
    Does (.regionLoadDone r) s fun t =>
      t.i (kState r) = 1 ∧
      t.i (kActive r) = (s.feed r).to_ ∧
      t.i (kPending r) = 0xFF ∧
      t.i (unitKey r 4) = s.i (imageKey false (s.feed r).to_ 2) ∧
      (t.feed r).img = s.imageHdr false (s.feed r).to_ ∧
      (t.feed r).phase = 0 ∧
      (t.feed r).epoch = s.epochAt (s.feed r).from_ ∧
      State.Kept s t ([kState r, kActive r, kPending r, unitKey r 4, unitKey r 9] ++ (List.range 64).map (fun j => imageKey false j 1))) ∧
  (∀ (s : State) (r : Nat),
    r < 16 →
    (s.feed r).phase = 2 →
    (s.feed r).to_ = 0xFF →
    (s.feed r).sw = none →
    s.gr.staging = [] →
    Does (.regionLoadDone r) s fun t =>
      t.i (kState r) = 0 ∧
      t.i (kActive r) = 0xFF ∧
      t.i (unitKey r 4) = 0 ∧
      (t.feed r).img = [] ∧
      State.Kept s t ([kState r, kActive r, kPending r, unitKey r 4, unitKey r 9] ++ (List.range 64).map (fun j => imageKey false j 1))) ∧
  (∀ (s : State) (g : Nat),
    g < 8 →
    s.feedDrained (16 + g) = true →
    s.groupIdle g = true →
    (s.feed (16 + g)).to_ < 64 →
    s.imagePoisoned true (s.feed (16 + g)).to_ = false →
    (s.feed (16 + g)).sw = none →
    s.me.ce = [] →
    s.gr.staging = [] →
    Does (.groupLoadDone g) s fun t =>
      t.i (kState (16 + g)) = 1 ∧
      t.i (kActive (16 + g)) = (s.feed (16 + g)).to_ ∧
      (t.feed (16 + g)).img = s.imageHdr true (s.feed (16 + g)).to_ ∧
      (∀ j, j < 4 → t.core_ (4 * g + j) = some (coreOf (s.imageHdr true (s.feed (16 + g)).to_) (memRead s.me.t1 (s.imageAddr true (s.feed (16 + g)).to_) (recFld (s.imageHdr true (s.feed (16 + g)).to_) 288 32)))) ∧
      State.Kept s t ([kState (16 + g), kActive (16 + g), kPending (16 + g), unitKey (16 + g) 4, unitKey (16 + g) 9] ++ (List.range 64).map (fun j => imageKey true j 1))) ∧
  (∀ (s : State) (i n : Nat),
    i < 64 →
    tget s.tw.landed (512 + i) = some n →
    graphCheck (memRead s.me.t1 (s.imageAddr false i) n) n ≠ 0 →
    Does (.graphImageValidate i) s fun t =>
      t.i (imageKey false i 1) = 4 ∧
      t.i (imageKey false i 3) = graphCheck (memRead s.me.t1 (s.imageAddr false i) n) n ∧
      t.i (imageKey false i 5) = recFld (bytesRec ((memRead s.me.t1 (s.imageAddr false i) n).take 128)) 320 64 ∧
      tget t.tw.landed (512 + i) = none ∧
      State.Kept s t ([imageKey false i 1, imageKey false i 2, imageKey false i 3, imageKey false i 5] ++ (List.range 64).map (fun j => imageKey false j 1))) ∧
  (∀ (s : State) (i n : Nat),
    i < 64 →
    tget s.tw.landed (768 + i) = some n →
    steepCheck (memRead s.me.t1 (s.imageAddr true i) n) n ≠ 0 →
    Does (.steepImageValidate i) s fun t =>
      t.i (imageKey true i 1) = 4 ∧
      t.i (imageKey true i 3) = steepCheck (memRead s.me.t1 (s.imageAddr true i) n) n ∧
      t.i (imageKey true i 5) = recFld (bytesRec ((memRead s.me.t1 (s.imageAddr true i) n).take 128)) 384 64 ∧
      tget t.tw.landed (768 + i) = none ∧
      State.Kept s t ([imageKey true i 1, imageKey true i 2, imageKey true i 3, imageKey true i 5] ++ (List.range 64).map (fun j => imageKey true j 1))) ∧
  (∀ (s : State) (i n : Nat),
    i < 64 →
    tget s.tw.landed (768 + i) = some n →
    steepCheck (memRead s.me.t1 (s.imageAddr true i) n) n = 0 →
    Does (.steepImageValidate i) s fun t =>
      (t.i (imageKey true i 1) = 2 ∨ t.i (imageKey true i 1) = 3) ∧
      t.i (imageKey true i 3) = 0) ∧
  (∀ (s : State) (i : Nat),
    i < 64 →
    tget s.tw.landed (512 + i) = none →
    Does (.graphImageValidate i) s fun t =>
      State.Same s t []) ∧
  (∀ (s : State) (i : Nat),
    i < 64 →
    tget s.tw.landed (768 + i) = none →
    Does (.steepImageValidate i) s fun t =>
      State.Same s t []) ∧
  (∀ (s : State) (q : Req) (b : Bool) (i : Nat),
    i < 64 →
    s.Accepts q (imageKey b i 4) i →
    s.i (imageKey b i 1) ≠ 1 ∧ s.i (imageKey b i 1) ≠ 3 →
    Does (.imageClear q b i i) s fun t =>
      t.i (imageKey b i 1) = 0 ∧
      t.i (imageKey b i 2) = 0 ∧
      t.i (imageKey b i 3) = 0 ∧
      t.i (imageKey b i 5) = 0 ∧
      State.Same s t [imageKey b i 1, imageKey b i 2, imageKey b i 3, imageKey b i 5]) ∧
  (∀ (s : State) (q : Req) (b : Bool) (i : Nat),
    i < 64 →
    s.Accepts q (imageKey b i 4) i →
    (s.i (imageKey b i 1) = 1 ∨ s.i (imageKey b i 1) = 3) →
    Does (.imageClear q b i i) s fun t =>
      State.Same s t refusalKeys)

/-- What Mash regions and Steep groups do with records and epochs (R305, R306, R307, R319, R320, R337, R349). -/
def Obligations.UnitRecords : Prop :=
  (∀ (s : State) (u c j x : Nat) (e : Staged),
    u < 16 →
    s.role ≠ 1 →
    (s.i (kState u) = 1 ∨ s.i (kState u) = 2) →
    (s.feed u).shown = none →
    s.feedNext u c = some ((e, j, x), 1) →
    hdrEpoch (s.feed u).img = true →
    Does (.mashRecord u c 0) s fun t =>
      t.i (unitKey u 6) = (s.i (unitKey u 6) + 1) % 2 ^ 64 ∧
      t.gr.staging = (s.feedDrop u e).gr.staging ∧
      (t.feed u).shown = none ∧
      (tget (t.feed u).cons e.slot).map (fun p => p.1) = some (match tget (s.feed u).cons e.slot with | some o => max o.1 (rSeq e.rec_) | none => rSeq e.rec_) ∧
      State.Same s t [unitKey u 6]) ∧
  (∀ (s : State) (u c j x : Nat) (e : Staged),
    u < 16 →
    s.role ≠ 1 →
    (s.i (kState u) = 1 ∨ s.i (kState u) = 2) →
    (s.feed u).shown = none →
    s.feedNext u c = some ((e, j, x), 1) →
    hdrEpoch (s.feed u).img = false →
    Does (.mashRecord u c 0) s fun t =>
      t.i (unitKey u 6) = (s.i (unitKey u 6) + 1) % 2 ^ 64 ∧
      (t.feed u).shown = none ∧
      (t.feed u).img = (s.feed u).img ∧
      t.i (kState u) = s.i (kState u)) ∧
  (∀ (s : State) (u c : Nat) (r : Staged × Nat × Nat),
    (s.i (kState u) = 1 ∨ s.i (kState u) = 2) →
    (s.feed u).shown = none →
    s.feedNext u c = some (r, 1) →
    Does (.mashRecord u c 1) s fun t =>
      (t.feed u) = { s.feed u with shown := some (c, s.ft .icd) } ∧
      t.gr = s.gr ∧
      State.Same s t []) ∧
  (∀ (s : State) (u c : Nat) (r : Staged × Nat × Nat),
    u < 16 →
    (s.i (kState u) = 1 ∨ s.i (kState u) = 2) →
    (s.feed u).shown = none →
    s.feedNext u c = some (r, 1) →
    Does (.mashRecord u c 2) s fun t =>
      t.i (kState u) = 3 ∧
      t.i (unitKey u 9) = 1 ∧
      (t.feed u).flt = true ∧
      State.Kept s t [kState u, unitKey u 9, O.UncorrectableCount]) ∧
  (∀ (s : State) (u c w j x : Nat) (e : Staged),
    u < 16 →
    (s.i (kState u) = 1 ∨ s.i (kState u) = 2) →
    (s.feed u).shown = none →
    s.feedNext u c = some ((e, j, x), 2) →
    Does (.mashRecord u c w) s fun t =>
      t.i (unitKey u 8) = (s.i (unitKey u 8) + 1) % 2 ^ 64 ∧
      (t.feed u).skipped = (s.feed u).skipped + 1 ∧
      t.gr.staging = (s.feedDrop u e).gr.staging ∧
      State.Same s t [unitKey u 8]) ∧
  (∀ (s : State) (u c w : Nat),
    s.i (kState u) ≠ 1 →
    s.i (kState u) ≠ 2 →
    Does (.mashRecord u c w) s fun t =>
      t.ma = s.ma ∧
      t.gr = s.gr ∧
      State.Same s t []) ∧
  (∀ (s : State) (u : Nat),
    u < 16 →
    s.i (kState u) = 1 →
    (s.feed u).phase = 0 →
    hdrEpoch (s.feed u).img = true →
    s.epochConsumed u = true →
    s.i (unitKey u 7) < 2 ^ 64 →
    Does (.mashEpochEmit u) s fun t =>
      (t.feed u).epoch = (s.feed u).epoch + 1 ∧
      (t.feed u).cons = [] ∧
      (t.ma.mem.filter fun x => x.1 / 64 == u) = ((s.tilesLoad u (s.i (kActive u))).ma.mem.filter fun x => x.1 / 64 == u) ∧
      (t.ma.conf.filter fun x => x.1 / 64 == u) = ((s.tilesLoad u (s.i (kActive u))).ma.conf.filter fun x => x.1 / 64 == u) ∧
      t.i (unitKey u 7) = (s.i (unitKey u 7) + (s.epochContexts u).length) % 2 ^ 64 ∧
      t.i (kState u) = s.i (kState u)) ∧
  (∀ (s : State) (u : Nat),
    s.epochConsumed u = false →
    Does (.mashEpochEmit u) s fun t =>
      t.ma = s.ma ∧
      State.Same s t []) ∧
  (∀ (s : State) (u c f : Nat),
    u < 16 →
    (s.feed u).shown = some (c, f) →
    f + us (s.i O.RecordTimeout) ≤ s.ft .icd →
    Does (.regionRecordTimeout u) s fun t =>
      t.i (kState u) = 3 ∧
      t.i (unitKey u 9) = 2 ∧
      (t.feed u).shown = none ∧
      (t.feed u).flt = true ∧
      State.Kept s t [kState u, unitKey u 9]) ∧
  (∀ (s : State) (u c f : Nat),
    (s.feed u).shown = some (c, f) →
    s.ft .icd < f + us (s.i O.RecordTimeout) →
    Does (.regionRecordTimeout u) s fun t =>
      State.Same s t []) ∧
  (∀ (s : State) (k : Nat) (c : SCore) (e : SEntry × Nat × Bool),
    k < 32 →
    s.core_ k = some c →
    c.held = some e →
    e.2.1 + us (s.i O.EntryTimeout) < s.ft .icd →
    s.groupRuns (16 + k / 4) = true →
    Does (.steepEntryTimeout k) s fun t =>
      t.i (kState (16 + k / 4)) = 3 ∧
      t.i (unitKey (16 + k / 4) 9) = 2 ∧
      t.i (unitKey (16 + k / 4) 0x0A) = k ∧
      t.i (unitKey (16 + k / 4) 0x0B) = c.pc % 2 ^ 15 ∧
      State.Kept s t [kState (16 + k / 4), unitKey (16 + k / 4) 9, unitKey (16 + k / 4) 0x0A, unitKey (16 + k / 4) 0x0B]) ∧
  (∀ (s : State) (g c j x o : Nat) (e : Staged) (d : SCore),
    s.role ≠ 1 →
    s.groupRuns (16 + g) = true →
    s.feedNext (16 + g) c = some ((e, j, x), 1) →
    bit x 87 = true →
    s.core_ (4 * g + c % 4) = some d →
    d.wait = none →
    d.place (s.feed (16 + g)).img (padTo 16 (32 + 4 * (4 * e.rec_.length - 4))) = some o →
    Does (.steepDeliveryEntry g c false) s fun t =>
      (t.core_ (4 * g + c % 4)).map (fun y => (y.pc, y.regs, y.wp)) = some (d.pc, d.regs, o + padTo 16 (32 + 4 * (4 * e.rec_.length - 4))) ∧
      (t.core_ (4 * g + c % 4)).map (fun y => y.ring) = some (d.ring ++ [⟨ringBase (s.feed (16 + g)).img + o, padTo 16 (32 + 4 * (4 * e.rec_.length - 4)), packFields [(0, 6, c), (6, 2, j), (9, 1, 1), (16, 16, 4 * e.rec_.length - 4), (32, 32, rSrc e.rec_), (64, 32, rSeq e.rec_), (96, 16, rPart e.rec_), (128, 128, selStamp x e.rec_)]⟩]) ∧
      t.gr.staging = (s.feedDrop (16 + g) e).gr.staging ∧
      t.i (unitKey (16 + g) 6) = (s.i (unitKey (16 + g) 6) + 1) % 2 ^ 64 ∧
      State.Same s t [unitKey (16 + g) 6]) ∧
  (∀ (s : State) (g c j x o : Nat) (e : Staged) (d : SCore),
    s.role ≠ 1 →
    s.groupRuns (16 + g) = true →
    s.feedNext (16 + g) c = some ((e, j, x), 1) →
    bit x 87 = false →
    s.core_ (4 * g + c % 4) = some d →
    d.wait = none →
    d.place (s.feed (16 + g)).img (padTo 16 (32 + 4 * (bits x 80 7 + (bits x 80 7 + 31) / 32))) = some o →
    Does (.steepDeliveryEntry g c false) s fun t =>
      (t.core_ (4 * g + c % 4)).map (fun y => y.ring) = some (d.ring ++ [⟨ringBase (s.feed (16 + g)).img + o, padTo 16 (32 + 4 * (bits x 80 7 + (bits x 80 7 + 31) / 32)), packFields [(0, 6, c), (6, 2, j), (9, 1, 0), (16, 16, bits x 80 7), (32, 32, rSrc e.rec_), (64, 32, rSeq e.rec_), (96, 16, rPart e.rec_), (128, 128, selStamp x e.rec_)]⟩]) ∧
      t.i (unitKey (16 + g) 6) = (s.i (unitKey (16 + g) 6) + 1) % 2 ^ 64 ∧
      State.Same s t [unitKey (16 + g) 6]) ∧
  (∀ (s : State) (g c o : Nat) (d : SCore),
    s.groupRuns (16 + g) = true →
    (s.feed (16 + g)).phase = 0 →
    hdrEpoch (s.feed (16 + g)).img = true →
    s.epochConsumed (16 + g) = true →
    c ∈ s.epochContexts (16 + g) →
    c ∉ (s.feed (16 + g)).ends →
    s.core_ (4 * g + c % 4) = some d →
    d.wait = none →
    d.place (s.feed (16 + g)).img 32 = some o →
    Does (.steepDeliveryEntry g c true) s fun t =>
      (t.core_ (4 * g + c % 4)).map (fun y => y.ring.map (fun r => (r.addr, r.len, bits r.head 0 6, bit r.head 8))) = some (d.ring.map (fun r => (r.addr, r.len, bits r.head 0 6, bit r.head 8)) ++ [(ringBase (s.feed (16 + g)).img + o, 32, c % 64, true)]) ∧
      (t.feed (16 + g)) = { s.feed (16 + g) with ends := c :: (s.feed (16 + g)).ends } ∧
      State.Same s t [])

/-- Steep core: multiply-accumulate, narrowing and accumulator moves (R328, R329, R330, R331, R332, R341). -/
def Obligations.SteepAccumulators : Prop :=
  (∀ (s : State) (k w : Nat) (c : SCore),
    s.LastOp k 0 3 0 c →
    c.slotWord 0 = w →
    c.juesh = false →
    Does (.macq k) s fun t =>
      State.CoreStep s t k (c.wrote ([(rAcc 0, ofS 56 (accumulate false c.accSat (c.acc 0 + signedIf (bit w 26) 16 (bits (c.x (bits w 12 6)) 0 16) * signedIf (bit w 27) 16 (bits (c.x (bits w 18 6)) (16 * bits w 24 2) 16) * (if bit w 28 then 2 else 1))).1), (rAcc 1, ofS 56 (accumulate false c.accSat (c.acc 1 + signedIf (bit w 26) 16 (bits (c.x (bits w 12 6)) 16 16) * signedIf (bit w 27) 16 (bits (c.x (bits w 18 6)) (16 * bits w 24 2) 16) * (if bit w 28 then 2 else 1))).1), (rAcc 2, ofS 56 (accumulate false c.accSat (c.acc 2 + signedIf (bit w 26) 16 (bits (c.x (bits w 12 6)) 32 16) * signedIf (bit w 27) 16 (bits (c.x (bits w 18 6)) (16 * bits w 24 2) 16) * (if bit w 28 then 2 else 1))).1), (rAcc 3, ofS 56 (accumulate false c.accSat (c.acc 3 + signedIf (bit w 26) 16 (bits (c.x (bits w 12 6)) 48 16) * signedIf (bit w 27) 16 (bits (c.x (bits w 18 6)) (16 * bits w 24 2) 16) * (if bit w 28 then 2 else 1))).1)]) (b2n ((accumulate false c.accSat (c.acc 0 + signedIf (bit w 26) 16 (bits (c.x (bits w 12 6)) 0 16) * signedIf (bit w 27) 16 (bits (c.x (bits w 18 6)) (16 * bits w 24 2) 16) * (if bit w 28 then 2 else 1))).2 || (accumulate false c.accSat (c.acc 1 + signedIf (bit w 26) 16 (bits (c.x (bits w 12 6)) 16 16) * signedIf (bit w 27) 16 (bits (c.x (bits w 18 6)) (16 * bits w 24 2) 16) * (if bit w 28 then 2 else 1))).2 || (accumulate false c.accSat (c.acc 2 + signedIf (bit w 26) 16 (bits (c.x (bits w 12 6)) 32 16) * signedIf (bit w 27) 16 (bits (c.x (bits w 18 6)) (16 * bits w 24 2) 16) * (if bit w 28 then 2 else 1))).2 || (accumulate false c.accSat (c.acc 3 + signedIf (bit w 26) 16 (bits (c.x (bits w 12 6)) 48 16) * signedIf (bit w 27) 16 (bits (c.x (bits w 18 6)) (16 * bits w 24 2) 16) * (if bit w 28 then 2 else 1))).2)))) ∧
  (∀ (s : State) (k w : Nat) (c : SCore),
    s.LastOp k 0 3 0 c →
    c.slotWord 0 = w →
    c.juesh = true →
    Does (.macq k) s fun t =>
      State.CoreStep s t k (c.wrote ([(rAcc 0, ofS 56 (accumulate true c.accSat (c.acc 0 + signedIf (bit w 26) 24 (bits (c.x (bits w 12 6)) 0 24) * signedIf (bit w 27) 24 (bits (c.x (bits w 18 6)) (32 * (bits w 24 2 % 2)) 24) * (if bit w 28 then 2 else 1))).1), (rAcc 1, ofS 56 (accumulate true c.accSat (c.acc 1 + signedIf (bit w 26) 24 (bits (c.x (bits w 12 6)) 32 24) * signedIf (bit w 27) 24 (bits (c.x (bits w 18 6)) (32 * (bits w 24 2 % 2)) 24) * (if bit w 28 then 2 else 1))).1)]) (b2n ((accumulate true c.accSat (c.acc 0 + signedIf (bit w 26) 24 (bits (c.x (bits w 12 6)) 0 24) * signedIf (bit w 27) 24 (bits (c.x (bits w 18 6)) (32 * (bits w 24 2 % 2)) 24) * (if bit w 28 then 2 else 1))).2 || (accumulate true c.accSat (c.acc 1 + signedIf (bit w 26) 24 (bits (c.x (bits w 12 6)) 32 24) * signedIf (bit w 27) 24 (bits (c.x (bits w 18 6)) (32 * (bits w 24 2 % 2)) 24) * (if bit w 28 then 2 else 1))).2)))) ∧
  (∀ (s : State) (k w : Nat) (c : SCore),
    s.LastOp k 0 3 1 c →
    c.slotWord 0 = w →
    c.juesh = false →
    Does (.msuq k) s fun t =>
      State.CoreStep s t k (c.wrote ([(rAcc 0, ofS 56 (accumulate false c.accSat (c.acc 0 - signedIf (bit w 26) 16 (bits (c.x (bits w 12 6)) 0 16) * signedIf (bit w 27) 16 (bits (c.x (bits w 18 6)) (16 * bits w 24 2) 16) * (if bit w 28 then 2 else 1))).1), (rAcc 1, ofS 56 (accumulate false c.accSat (c.acc 1 - signedIf (bit w 26) 16 (bits (c.x (bits w 12 6)) 16 16) * signedIf (bit w 27) 16 (bits (c.x (bits w 18 6)) (16 * bits w 24 2) 16) * (if bit w 28 then 2 else 1))).1), (rAcc 2, ofS 56 (accumulate false c.accSat (c.acc 2 - signedIf (bit w 26) 16 (bits (c.x (bits w 12 6)) 32 16) * signedIf (bit w 27) 16 (bits (c.x (bits w 18 6)) (16 * bits w 24 2) 16) * (if bit w 28 then 2 else 1))).1), (rAcc 3, ofS 56 (accumulate false c.accSat (c.acc 3 - signedIf (bit w 26) 16 (bits (c.x (bits w 12 6)) 48 16) * signedIf (bit w 27) 16 (bits (c.x (bits w 18 6)) (16 * bits w 24 2) 16) * (if bit w 28 then 2 else 1))).1)]) (b2n ((accumulate false c.accSat (c.acc 0 - signedIf (bit w 26) 16 (bits (c.x (bits w 12 6)) 0 16) * signedIf (bit w 27) 16 (bits (c.x (bits w 18 6)) (16 * bits w 24 2) 16) * (if bit w 28 then 2 else 1))).2 || (accumulate false c.accSat (c.acc 1 - signedIf (bit w 26) 16 (bits (c.x (bits w 12 6)) 16 16) * signedIf (bit w 27) 16 (bits (c.x (bits w 18 6)) (16 * bits w 24 2) 16) * (if bit w 28 then 2 else 1))).2 || (accumulate false c.accSat (c.acc 2 - signedIf (bit w 26) 16 (bits (c.x (bits w 12 6)) 32 16) * signedIf (bit w 27) 16 (bits (c.x (bits w 18 6)) (16 * bits w 24 2) 16) * (if bit w 28 then 2 else 1))).2 || (accumulate false c.accSat (c.acc 3 - signedIf (bit w 26) 16 (bits (c.x (bits w 12 6)) 48 16) * signedIf (bit w 27) 16 (bits (c.x (bits w 18 6)) (16 * bits w 24 2) 16) * (if bit w 28 then 2 else 1))).2)))) ∧
  (∀ (s : State) (k w : Nat) (c : SCore),
    s.LastOp k 0 3 1 c →
    c.slotWord 0 = w →
    c.juesh = true →
    Does (.msuq k) s fun t =>
      State.CoreStep s t k (c.wrote ([(rAcc 0, ofS 56 (accumulate true c.accSat (c.acc 0 - signedIf (bit w 26) 24 (bits (c.x (bits w 12 6)) 0 24) * signedIf (bit w 27) 24 (bits (c.x (bits w 18 6)) (32 * (bits w 24 2 % 2)) 24) * (if bit w 28 then 2 else 1))).1), (rAcc 1, ofS 56 (accumulate true c.accSat (c.acc 1 - signedIf (bit w 26) 24 (bits (c.x (bits w 12 6)) 32 24) * signedIf (bit w 27) 24 (bits (c.x (bits w 18 6)) (32 * (bits w 24 2 % 2)) 24) * (if bit w 28 then 2 else 1))).1)]) (b2n ((accumulate true c.accSat (c.acc 0 - signedIf (bit w 26) 24 (bits (c.x (bits w 12 6)) 0 24) * signedIf (bit w 27) 24 (bits (c.x (bits w 18 6)) (32 * (bits w 24 2 % 2)) 24) * (if bit w 28 then 2 else 1))).2 || (accumulate true c.accSat (c.acc 1 - signedIf (bit w 26) 24 (bits (c.x (bits w 12 6)) 32 24) * signedIf (bit w 27) 24 (bits (c.x (bits w 18 6)) (32 * (bits w 24 2 % 2)) 24) * (if bit w 28 then 2 else 1))).2)))) ∧
  (∀ (s : State) (k w : Nat) (c : SCore),
    s.LastOp k 0 3 2 c →
    c.slotWord 0 = w →
    c.juesh = false →
    Does (.mpyq k) s fun t =>
      State.CoreStep s t k (c.wrote ([(rAcc 0, ofS 56 (accumulate false c.accSat (signedIf (bit w 26) 16 (bits (c.x (bits w 12 6)) 0 16) * signedIf (bit w 27) 16 (bits (c.x (bits w 18 6)) (16 * bits w 24 2) 16) * (if bit w 28 then 2 else 1))).1), (rAcc 1, ofS 56 (accumulate false c.accSat (signedIf (bit w 26) 16 (bits (c.x (bits w 12 6)) 16 16) * signedIf (bit w 27) 16 (bits (c.x (bits w 18 6)) (16 * bits w 24 2) 16) * (if bit w 28 then 2 else 1))).1), (rAcc 2, ofS 56 (accumulate false c.accSat (signedIf (bit w 26) 16 (bits (c.x (bits w 12 6)) 32 16) * signedIf (bit w 27) 16 (bits (c.x (bits w 18 6)) (16 * bits w 24 2) 16) * (if bit w 28 then 2 else 1))).1), (rAcc 3, ofS 56 (accumulate false c.accSat (signedIf (bit w 26) 16 (bits (c.x (bits w 12 6)) 48 16) * signedIf (bit w 27) 16 (bits (c.x (bits w 18 6)) (16 * bits w 24 2) 16) * (if bit w 28 then 2 else 1))).1)]) (b2n ((accumulate false c.accSat (signedIf (bit w 26) 16 (bits (c.x (bits w 12 6)) 0 16) * signedIf (bit w 27) 16 (bits (c.x (bits w 18 6)) (16 * bits w 24 2) 16) * (if bit w 28 then 2 else 1))).2 || (accumulate false c.accSat (signedIf (bit w 26) 16 (bits (c.x (bits w 12 6)) 16 16) * signedIf (bit w 27) 16 (bits (c.x (bits w 18 6)) (16 * bits w 24 2) 16) * (if bit w 28 then 2 else 1))).2 || (accumulate false c.accSat (signedIf (bit w 26) 16 (bits (c.x (bits w 12 6)) 32 16) * signedIf (bit w 27) 16 (bits (c.x (bits w 18 6)) (16 * bits w 24 2) 16) * (if bit w 28 then 2 else 1))).2 || (accumulate false c.accSat (signedIf (bit w 26) 16 (bits (c.x (bits w 12 6)) 48 16) * signedIf (bit w 27) 16 (bits (c.x (bits w 18 6)) (16 * bits w 24 2) 16) * (if bit w 28 then 2 else 1))).2)))) ∧
  (∀ (s : State) (k w : Nat) (c : SCore),
    s.LastOp k 0 3 2 c →
    c.slotWord 0 = w →
    c.juesh = true →
    Does (.mpyq k) s fun t =>
      State.CoreStep s t k (c.wrote ([(rAcc 0, ofS 56 (accumulate true c.accSat (signedIf (bit w 26) 24 (bits (c.x (bits w 12 6)) 0 24) * signedIf (bit w 27) 24 (bits (c.x (bits w 18 6)) (32 * (bits w 24 2 % 2)) 24) * (if bit w 28 then 2 else 1))).1), (rAcc 1, ofS 56 (accumulate true c.accSat (signedIf (bit w 26) 24 (bits (c.x (bits w 12 6)) 32 24) * signedIf (bit w 27) 24 (bits (c.x (bits w 18 6)) (32 * (bits w 24 2 % 2)) 24) * (if bit w 28 then 2 else 1))).1)]) (b2n ((accumulate true c.accSat (signedIf (bit w 26) 24 (bits (c.x (bits w 12 6)) 0 24) * signedIf (bit w 27) 24 (bits (c.x (bits w 18 6)) (32 * (bits w 24 2 % 2)) 24) * (if bit w 28 then 2 else 1))).2 || (accumulate true c.accSat (signedIf (bit w 26) 24 (bits (c.x (bits w 12 6)) 32 24) * signedIf (bit w 27) 24 (bits (c.x (bits w 18 6)) (32 * (bits w 24 2 % 2)) 24) * (if bit w 28 then 2 else 1))).2)))) ∧
  (∀ (s : State) (k w : Nat) (c : SCore),
    s.LastOp k 0 3 3 c →
    c.slotWord 0 = w →
    c.juesh = false →
    Does (.macd k) s fun t =>
      State.CoreStep s t k (c.wrote ([(rAcc 0, ofS 56 (accumulate false c.accSat (c.acc 0 + signedIf (bit w 26) 32 (bits (c.x (bits w 12 6)) 0 32) * signedIf (bit w 27) 16 (bits (c.x (bits w 18 6)) (16 * bits w 24 2) 16) * (if bit w 28 then 2 else 1))).1), (rAcc 1, ofS 56 (accumulate false c.accSat (c.acc 1 + signedIf (bit w 26) 32 (bits (c.x (bits w 12 6)) 32 32) * signedIf (bit w 27) 16 (bits (c.x (bits w 18 6)) (16 * bits w 24 2) 16) * (if bit w 28 then 2 else 1))).1)]) (b2n ((accumulate false c.accSat (c.acc 0 + signedIf (bit w 26) 32 (bits (c.x (bits w 12 6)) 0 32) * signedIf (bit w 27) 16 (bits (c.x (bits w 18 6)) (16 * bits w 24 2) 16) * (if bit w 28 then 2 else 1))).2 || (accumulate false c.accSat (c.acc 1 + signedIf (bit w 26) 32 (bits (c.x (bits w 12 6)) 32 32) * signedIf (bit w 27) 16 (bits (c.x (bits w 18 6)) (16 * bits w 24 2) 16) * (if bit w 28 then 2 else 1))).2)))) ∧
  (∀ (s : State) (k w : Nat) (c : SCore),
    s.LastOp k 0 3 3 c →
    c.slotWord 0 = w →
    c.juesh = true →
    Does (.macd k) s fun t =>
      State.CoreStep s t k (c.wrote ([(rAcc 0, ofS 56 (accumulate true c.accSat (c.acc 0 + signedIf (bit w 26) 24 (bits (c.x (bits w 12 6)) 0 24) * signedIf (bit w 27) 24 (bits (c.x (bits w 18 6)) (32 * (bits w 24 2 % 2)) 24) * (if bit w 28 then 2 else 1))).1), (rAcc 1, ofS 56 (accumulate true c.accSat (c.acc 1 + signedIf (bit w 26) 24 (bits (c.x (bits w 12 6)) 32 24) * signedIf (bit w 27) 24 (bits (c.x (bits w 18 6)) (32 * (bits w 24 2 % 2)) 24) * (if bit w 28 then 2 else 1))).1)]) (b2n ((accumulate true c.accSat (c.acc 0 + signedIf (bit w 26) 24 (bits (c.x (bits w 12 6)) 0 24) * signedIf (bit w 27) 24 (bits (c.x (bits w 18 6)) (32 * (bits w 24 2 % 2)) 24) * (if bit w 28 then 2 else 1))).2 || (accumulate true c.accSat (c.acc 1 + signedIf (bit w 26) 24 (bits (c.x (bits w 12 6)) 32 24) * signedIf (bit w 27) 24 (bits (c.x (bits w 18 6)) (32 * (bits w 24 2 % 2)) 24) * (if bit w 28 then 2 else 1))).2)))) ∧
  (∀ (s : State) (k w : Nat) (c : SCore),
    s.LastOp k 0 3 4 c →
    c.slotWord 0 = w →
    c.juesh = false →
    Does (.msud k) s fun t =>
      State.CoreStep s t k (c.wrote ([(rAcc 0, ofS 56 (accumulate false c.accSat (c.acc 0 - signedIf (bit w 26) 32 (bits (c.x (bits w 12 6)) 0 32) * signedIf (bit w 27) 16 (bits (c.x (bits w 18 6)) (16 * bits w 24 2) 16) * (if bit w 28 then 2 else 1))).1), (rAcc 1, ofS 56 (accumulate false c.accSat (c.acc 1 - signedIf (bit w 26) 32 (bits (c.x (bits w 12 6)) 32 32) * signedIf (bit w 27) 16 (bits (c.x (bits w 18 6)) (16 * bits w 24 2) 16) * (if bit w 28 then 2 else 1))).1)]) (b2n ((accumulate false c.accSat (c.acc 0 - signedIf (bit w 26) 32 (bits (c.x (bits w 12 6)) 0 32) * signedIf (bit w 27) 16 (bits (c.x (bits w 18 6)) (16 * bits w 24 2) 16) * (if bit w 28 then 2 else 1))).2 || (accumulate false c.accSat (c.acc 1 - signedIf (bit w 26) 32 (bits (c.x (bits w 12 6)) 32 32) * signedIf (bit w 27) 16 (bits (c.x (bits w 18 6)) (16 * bits w 24 2) 16) * (if bit w 28 then 2 else 1))).2)))) ∧
  (∀ (s : State) (k w : Nat) (c : SCore),
    s.LastOp k 0 3 4 c →
    c.slotWord 0 = w →
    c.juesh = true →
    Does (.msud k) s fun t =>
      State.CoreStep s t k (c.wrote ([(rAcc 0, ofS 56 (accumulate true c.accSat (c.acc 0 - signedIf (bit w 26) 24 (bits (c.x (bits w 12 6)) 0 24) * signedIf (bit w 27) 24 (bits (c.x (bits w 18 6)) (32 * (bits w 24 2 % 2)) 24) * (if bit w 28 then 2 else 1))).1), (rAcc 1, ofS 56 (accumulate true c.accSat (c.acc 1 - signedIf (bit w 26) 24 (bits (c.x (bits w 12 6)) 32 24) * signedIf (bit w 27) 24 (bits (c.x (bits w 18 6)) (32 * (bits w 24 2 % 2)) 24) * (if bit w 28 then 2 else 1))).1)]) (b2n ((accumulate true c.accSat (c.acc 0 - signedIf (bit w 26) 24 (bits (c.x (bits w 12 6)) 0 24) * signedIf (bit w 27) 24 (bits (c.x (bits w 18 6)) (32 * (bits w 24 2 % 2)) 24) * (if bit w 28 then 2 else 1))).2 || (accumulate true c.accSat (c.acc 1 - signedIf (bit w 26) 24 (bits (c.x (bits w 12 6)) 32 24) * signedIf (bit w 27) 24 (bits (c.x (bits w 18 6)) (32 * (bits w 24 2 % 2)) 24) * (if bit w 28 then 2 else 1))).2)))) ∧
  (∀ (s : State) (k w : Nat) (c : SCore),
    s.LastOp k 0 3 5 c →
    c.slotWord 0 = w →
    c.juesh = false →
    Does (.mpyd k) s fun t =>
      State.CoreStep s t k (c.wrote ([(rAcc 0, ofS 56 (accumulate false c.accSat (signedIf (bit w 26) 32 (bits (c.x (bits w 12 6)) 0 32) * signedIf (bit w 27) 16 (bits (c.x (bits w 18 6)) (16 * bits w 24 2) 16) * (if bit w 28 then 2 else 1))).1), (rAcc 1, ofS 56 (accumulate false c.accSat (signedIf (bit w 26) 32 (bits (c.x (bits w 12 6)) 32 32) * signedIf (bit w 27) 16 (bits (c.x (bits w 18 6)) (16 * bits w 24 2) 16) * (if bit w 28 then 2 else 1))).1)]) (b2n ((accumulate false c.accSat (signedIf (bit w 26) 32 (bits (c.x (bits w 12 6)) 0 32) * signedIf (bit w 27) 16 (bits (c.x (bits w 18 6)) (16 * bits w 24 2) 16) * (if bit w 28 then 2 else 1))).2 || (accumulate false c.accSat (signedIf (bit w 26) 32 (bits (c.x (bits w 12 6)) 32 32) * signedIf (bit w 27) 16 (bits (c.x (bits w 18 6)) (16 * bits w 24 2) 16) * (if bit w 28 then 2 else 1))).2)))) ∧
  (∀ (s : State) (k w : Nat) (c : SCore),
    s.LastOp k 0 3 5 c →
    c.slotWord 0 = w →
    c.juesh = true →
    Does (.mpyd k) s fun t =>
      State.CoreStep s t k (c.wrote ([(rAcc 0, ofS 56 (accumulate true c.accSat (signedIf (bit w 26) 24 (bits (c.x (bits w 12 6)) 0 24) * signedIf (bit w 27) 24 (bits (c.x (bits w 18 6)) (32 * (bits w 24 2 % 2)) 24) * (if bit w 28 then 2 else 1))).1), (rAcc 1, ofS 56 (accumulate true c.accSat (signedIf (bit w 26) 24 (bits (c.x (bits w 12 6)) 32 24) * signedIf (bit w 27) 24 (bits (c.x (bits w 18 6)) (32 * (bits w 24 2 % 2)) 24) * (if bit w 28 then 2 else 1))).1)]) (b2n ((accumulate true c.accSat (signedIf (bit w 26) 24 (bits (c.x (bits w 12 6)) 0 24) * signedIf (bit w 27) 24 (bits (c.x (bits w 18 6)) (32 * (bits w 24 2 % 2)) 24) * (if bit w 28 then 2 else 1))).2 || (accumulate true c.accSat (signedIf (bit w 26) 24 (bits (c.x (bits w 12 6)) 32 24) * signedIf (bit w 27) 24 (bits (c.x (bits w 18 6)) (32 * (bits w 24 2 % 2)) 24) * (if bit w 28 then 2 else 1))).2)))) ∧
  (∀ (s : State) (k w : Nat) (c : SCore),
    s.LastOp k 0 4 0 c →
    c.slotWord 0 = w →
    bit w 28 = true →
    Does (.narrow16 k) s fun t =>
      State.CoreStep s t k (c.wrote ((c.px (bits w 14 6), setBits (c.x (bits w 14 6)) (16 * bits w 20 2) 16 (ofS 16 (clampI (-(2 ^ 15)) (2 ^ 15 - 1) ((c.acc (bits w 12 2) + (if bits w 22 6 = 0 then 0 else 2 ^ (bits w 22 6 - 1))) / 2 ^ bits w 22 6)))) :: (if bit w 29 then [(rAcc (bits w 12 2), 0)] else [])) (2 * b2n (clampI (-(2 ^ 15)) (2 ^ 15 - 1) ((c.acc (bits w 12 2) + (if bits w 22 6 = 0 then 0 else 2 ^ (bits w 22 6 - 1))) / 2 ^ bits w 22 6) != (c.acc (bits w 12 2) + (if bits w 22 6 = 0 then 0 else 2 ^ (bits w 22 6 - 1))) / 2 ^ bits w 22 6)))) ∧
  (∀ (s : State) (k w : Nat) (c : SCore),
    s.LastOp k 0 4 0 c →
    c.slotWord 0 = w →
    bit w 28 = false →
    Does (.narrow16 k) s fun t =>
      State.CoreStep s t k (c.wrote ((c.px (bits w 14 6), setBits (c.x (bits w 14 6)) (16 * bits w 20 2) 16 (ofS 16 (toS 16 (ofS 16 ((c.acc (bits w 12 2) + (if bits w 22 6 = 0 then 0 else 2 ^ (bits w 22 6 - 1))) / 2 ^ bits w 22 6))))) :: (if bit w 29 then [(rAcc (bits w 12 2), 0)] else [])) (0))) ∧
  (∀ (s : State) (k w : Nat) (c : SCore),
    s.LastOp k 0 4 1 c →
    c.slotWord 0 = w →
    bit w 28 = true →
    Does (.narrow24 k) s fun t =>
      State.CoreStep s t k (c.wrote ((c.px (bits w 14 6), setBits (c.x (bits w 14 6)) (32 * (bits w 20 2 % 2)) 32 (ofS 32 (clampI (-(2 ^ 23)) (2 ^ 23 - 1) ((c.acc (bits w 12 2) + (if bits w 22 6 = 0 then 0 else 2 ^ (bits w 22 6 - 1))) / 2 ^ bits w 22 6)))) :: (if bit w 29 then [(rAcc (bits w 12 2), 0)] else [])) (2 * b2n (clampI (-(2 ^ 23)) (2 ^ 23 - 1) ((c.acc (bits w 12 2) + (if bits w 22 6 = 0 then 0 else 2 ^ (bits w 22 6 - 1))) / 2 ^ bits w 22 6) != (c.acc (bits w 12 2) + (if bits w 22 6 = 0 then 0 else 2 ^ (bits w 22 6 - 1))) / 2 ^ bits w 22 6)))) ∧
  (∀ (s : State) (k w : Nat) (c : SCore),
    s.LastOp k 0 4 1 c →
    c.slotWord 0 = w →
    bit w 28 = false →
    Does (.narrow24 k) s fun t =>
      State.CoreStep s t k (c.wrote ((c.px (bits w 14 6), setBits (c.x (bits w 14 6)) (32 * (bits w 20 2 % 2)) 32 (ofS 32 (toS 24 (ofS 24 ((c.acc (bits w 12 2) + (if bits w 22 6 = 0 then 0 else 2 ^ (bits w 22 6 - 1))) / 2 ^ bits w 22 6))))) :: (if bit w 29 then [(rAcc (bits w 12 2), 0)] else [])) (0))) ∧
  (∀ (s : State) (k w : Nat) (c : SCore),
    s.LastOp k 0 4 2 c →
    c.slotWord 0 = w →
    bit w 28 = true →
    Does (.narrow32 k) s fun t =>
      State.CoreStep s t k (c.wrote ((c.px (bits w 14 6), setBits (c.x (bits w 14 6)) (32 * (bits w 20 2 % 2)) 32 (ofS 32 (clampI (-(2 ^ 31)) (2 ^ 31 - 1) ((c.acc (bits w 12 2) + (if bits w 22 6 = 0 then 0 else 2 ^ (bits w 22 6 - 1))) / 2 ^ bits w 22 6)))) :: (if bit w 29 then [(rAcc (bits w 12 2), 0)] else [])) (2 * b2n (clampI (-(2 ^ 31)) (2 ^ 31 - 1) ((c.acc (bits w 12 2) + (if bits w 22 6 = 0 then 0 else 2 ^ (bits w 22 6 - 1))) / 2 ^ bits w 22 6) != (c.acc (bits w 12 2) + (if bits w 22 6 = 0 then 0 else 2 ^ (bits w 22 6 - 1))) / 2 ^ bits w 22 6)))) ∧
  (∀ (s : State) (k w : Nat) (c : SCore),
    s.LastOp k 0 4 2 c →
    c.slotWord 0 = w →
    bit w 28 = false →
    Does (.narrow32 k) s fun t =>
      State.CoreStep s t k (c.wrote ((c.px (bits w 14 6), setBits (c.x (bits w 14 6)) (32 * (bits w 20 2 % 2)) 32 (ofS 32 (toS 32 (ofS 32 ((c.acc (bits w 12 2) + (if bits w 22 6 = 0 then 0 else 2 ^ (bits w 22 6 - 1))) / 2 ^ bits w 22 6))))) :: (if bit w 29 then [(rAcc (bits w 12 2), 0)] else [])) (0))) ∧
  (∀ (s : State) (k w : Nat) (c : SCore),
    s.LastOp k 0 4 3 c →
    c.slotWord 0 = w →
    Does (.mova k) s fun t =>
      State.CoreStep s t k (c.wrote ((c.px (bits w 14 6), ofS 64 (c.acc (bits w 12 2))) :: (if bit w 29 then [(rAcc (bits w 12 2), 0)] else [])) (0))) ∧
  (∀ (s : State) (k w : Nat) (c : SCore),
    s.LastOp k 0 4 4 c →
    c.slotWord 0 = w →
    c.juesh = false →
    Does (.movxa k) s fun t =>
      State.CoreStep s t k (c.wrote ([(rAcc (bits w 12 2), ofS 56 (toS 48 (c.x (bits w 14 6) % 2 ^ 48)))]) (0))) ∧
  (∀ (s : State) (k w : Nat) (c : SCore),
    s.LastOp k 0 4 4 c →
    c.slotWord 0 = w →
    c.juesh = true →
    Does (.movxa k) s fun t =>
      State.CoreStep s t k (c.wrote ([(rAcc (bits w 12 2), c.x (bits w 14 6) % 2 ^ 56)]) (0))) ∧
  (∀ (s : State) (k w : Nat) (c : SCore),
    s.LastOp k 0 4 5 c →
    c.slotWord 0 = w →
    Does (.clra k) s fun t =>
      State.CoreStep s t k (c.wrote ((setBitsOf 4 (bits w 12 4)).map (fun i => (rAcc i, 0))) (0)))

/-- Steep core: loads and stores (R325, R326, R328, R333, R342, R349). -/
def Obligations.SteepMemory : Prop :=
  (∀ (s : State) (k w : Nat) (c : SCore),
    s.LastOp k 1 5 0 c →
    c.slotWord 1 = w →
    c.reg (rP (bits w 18 3)) % 2 = 0 →
    c.canRead (s.feed (16 + k / 4)).img (c.reg (rP (bits w 18 3))) 2 = true →
    Does (.ld16 k false) s fun t =>
      State.CoreStep s t k (c.wrote ((c.px (bits w 12 6), setBits (c.x (bits w 12 6)) (16 * bits w 25 2) 16 (c.load (c.reg (rP (bits w 18 3))) 2)) :: (if bit w 24 then [(rP (bits w 18 3), (c.reg (rP (bits w 18 3)) + c.reg (rN (bits w 21 3))) % 2 ^ 18)] else [])) (0))) ∧
  (∀ (s : State) (k w : Nat) (c : SCore),
    s.LastOp k 1 5 1 c →
    c.slotWord 1 = w →
    c.reg (rP (bits w 18 3)) % 2 = 0 →
    c.canRead (s.feed (16 + k / 4)).img (c.reg (rP (bits w 18 3))) 2 = true →
    Does (.ld16x k false) s fun t =>
      State.CoreStep s t k (c.wrote ((c.px (bits w 12 6), ofS 64 (toS 16 (c.load (c.reg (rP (bits w 18 3))) 2))) :: (if bit w 24 then [(rP (bits w 18 3), (c.reg (rP (bits w 18 3)) + c.reg (rN (bits w 21 3))) % 2 ^ 18)] else [])) (0))) ∧
  (∀ (s : State) (k w : Nat) (c : SCore),
    s.LastOp k 1 5 2 c →
    c.slotWord 1 = w →
    c.reg (rP (bits w 18 3)) % 4 = 0 →
    c.canRead (s.feed (16 + k / 4)).img (c.reg (rP (bits w 18 3))) 4 = true →
    Does (.ld32x k false) s fun t =>
      State.CoreStep s t k (c.wrote ((c.px (bits w 12 6), ofS 64 (toS 32 (c.load (c.reg (rP (bits w 18 3))) 4))) :: (if bit w 24 then [(rP (bits w 18 3), (c.reg (rP (bits w 18 3)) + c.reg (rN (bits w 21 3))) % 2 ^ 18)] else [])) (0))) ∧
  (∀ (s : State) (k w : Nat) (c : SCore),
    s.LastOp k 1 5 3 c →
    c.slotWord 1 = w →
    c.reg (rP (bits w 18 3)) % 8 = 0 →
    c.canRead (s.feed (16 + k / 4)).img (c.reg (rP (bits w 18 3))) 8 = true →
    Does (.ld64 k false) s fun t =>
      State.CoreStep s t k (c.wrote ((c.px (bits w 12 6), c.load (c.reg (rP (bits w 18 3))) 8) :: (if bit w 24 then [(rP (bits w 18 3), (c.reg (rP (bits w 18 3)) + c.reg (rN (bits w 21 3))) % 2 ^ 18)] else [])) (0))) ∧
  (∀ (s : State) (k w : Nat) (c : SCore),
    s.LastOp k 1 5 4 c →
    c.slotWord 1 = w →
    c.reg (rP (bits w 18 3)) % 4 = 0 →
    c.canRead (s.feed (16 + k / 4)).img (c.reg (rP (bits w 18 3))) 4 = true →
    Does (.ld24x k false) s fun t =>
      State.CoreStep s t k (c.wrote ((c.px (bits w 12 6), ofS 64 (toS 24 (c.load (c.reg (rP (bits w 18 3))) 4 % 2 ^ 24))) :: (if bit w 24 then [(rP (bits w 18 3), (c.reg (rP (bits w 18 3)) + c.reg (rN (bits w 21 3))) % 2 ^ 18)] else [])) (0))) ∧
  (∀ (s : State) (k w : Nat) (c : SCore),
    s.LastOp k 1 5 5 c →
    c.slotWord 1 = w →
    bits w 25 2 = 0 →
    bits w 18 3 ≠ bits w 21 3 →
    c.reg (rP (bits w 18 3)) % 8 = 0 →
    c.reg (rP (bits w 21 3)) % 2 = 0 →
    c.canRead (s.feed (16 + k / 4)).img (c.reg (rP (bits w 18 3))) 8 = true →
    c.canRead (s.feed (16 + k / 4)).img (c.reg (rP (bits w 21 3))) 2 = true →
    Does (.ldd k false) s fun t =>
      State.CoreStep s t k (c.wrote ([(c.px (bits w 12 6), c.load (c.reg (rP (bits w 18 3))) 8), (c.px (bits w 12 6 + 1), ofS 64 (toS 16 (c.load (c.reg (rP (bits w 21 3))) 2)))] ++ (if bit w 24 then [(rP (bits w 18 3), (c.reg (rP (bits w 18 3)) + c.reg (rN (bits w 18 3))) % 2 ^ 18), (rP (bits w 21 3), (c.reg (rP (bits w 21 3)) + c.reg (rN (bits w 21 3))) % 2 ^ 18)] else [])) (0))) ∧
  (∀ (s : State) (k w : Nat) (c : SCore),
    s.LastOp k 1 5 5 c →
    c.slotWord 1 = w →
    bits w 25 2 = 1 →
    bits w 18 3 ≠ bits w 21 3 →
    c.reg (rP (bits w 18 3)) % 8 = 0 →
    c.reg (rP (bits w 21 3)) % 4 = 0 →
    c.canRead (s.feed (16 + k / 4)).img (c.reg (rP (bits w 18 3))) 8 = true →
    c.canRead (s.feed (16 + k / 4)).img (c.reg (rP (bits w 21 3))) 4 = true →
    Does (.ldd k false) s fun t =>
      State.CoreStep s t k (c.wrote ([(c.px (bits w 12 6), c.load (c.reg (rP (bits w 18 3))) 8), (c.px (bits w 12 6 + 1), ofS 64 (toS 32 (c.load (c.reg (rP (bits w 21 3))) 4)))] ++ (if bit w 24 then [(rP (bits w 18 3), (c.reg (rP (bits w 18 3)) + c.reg (rN (bits w 18 3))) % 2 ^ 18), (rP (bits w 21 3), (c.reg (rP (bits w 21 3)) + c.reg (rN (bits w 21 3))) % 2 ^ 18)] else [])) (0))) ∧
  (∀ (s : State) (k w : Nat) (c : SCore),
    s.LastOp k 1 5 5 c →
    c.slotWord 1 = w →
    bits w 25 2 = 2 →
    bits w 18 3 ≠ bits w 21 3 →
    c.reg (rP (bits w 18 3)) % 8 = 0 →
    c.reg (rP (bits w 21 3)) % 8 = 0 →
    c.canRead (s.feed (16 + k / 4)).img (c.reg (rP (bits w 18 3))) 8 = true →
    c.canRead (s.feed (16 + k / 4)).img (c.reg (rP (bits w 21 3))) 8 = true →
    Does (.ldd k false) s fun t =>
      State.CoreStep s t k (c.wrote ([(c.px (bits w 12 6), c.load (c.reg (rP (bits w 18 3))) 8), (c.px (bits w 12 6 + 1), c.load (c.reg (rP (bits w 21 3))) 8)] ++ (if bit w 24 then [(rP (bits w 18 3), (c.reg (rP (bits w 18 3)) + c.reg (rN (bits w 18 3))) % 2 ^ 18), (rP (bits w 21 3), (c.reg (rP (bits w 21 3)) + c.reg (rN (bits w 21 3))) % 2 ^ 18)] else [])) (0))) ∧
  (∀ (s : State) (k w : Nat) (c : SCore),
    s.LastOp k 1 6 0 c →
    c.slotWord 1 = w →
    c.reg (rP (bits w 18 3)) % 2 = 0 →
    c.canWrite (s.feed (16 + k / 4)).img (c.reg (rP (bits w 18 3))) 2 = true →
    Does (.st16 k) s fun t =>
      State.CoreStep s t k { c.wrote (if bit w 24 then [(rP (bits w 18 3), (c.reg (rP (bits w 18 3)) + c.reg (rN (bits w 21 3))) % 2 ^ 18)] else []) 0 with mem := memWrite (c.reg (rP (bits w 18 3))) (natBytes 2 (bits (c.x (bits w 12 6)) (16 * bits w 25 2) 16)) c.mem }) ∧
  (∀ (s : State) (k w : Nat) (c : SCore),
    s.LastOp k 1 6 1 c →
    c.slotWord 1 = w →
    c.reg (rP (bits w 18 3)) % 4 = 0 →
    c.canWrite (s.feed (16 + k / 4)).img (c.reg (rP (bits w 18 3))) 4 = true →
    Does (.st32 k) s fun t =>
      State.CoreStep s t k { c.wrote (if bit w 24 then [(rP (bits w 18 3), (c.reg (rP (bits w 18 3)) + c.reg (rN (bits w 21 3))) % 2 ^ 18)] else []) 0 with mem := memWrite (c.reg (rP (bits w 18 3))) (natBytes 4 (c.x (bits w 12 6) % 2 ^ 32)) c.mem }) ∧
  (∀ (s : State) (k w : Nat) (c : SCore),
    s.LastOp k 1 6 2 c →
    c.slotWord 1 = w →
    c.reg (rP (bits w 18 3)) % 8 = 0 →
    c.canWrite (s.feed (16 + k / 4)).img (c.reg (rP (bits w 18 3))) 8 = true →
    Does (.st64 k) s fun t =>
      State.CoreStep s t k { c.wrote (if bit w 24 then [(rP (bits w 18 3), (c.reg (rP (bits w 18 3)) + c.reg (rN (bits w 21 3))) % 2 ^ 18)] else []) 0 with mem := memWrite (c.reg (rP (bits w 18 3))) (natBytes 8 (c.x (bits w 12 6))) c.mem }) ∧
  (∀ (s : State) (k w : Nat) (c : SCore),
    s.LastOp k 1 6 3 c →
    c.slotWord 1 = w →
    c.reg (rP (bits w 18 3)) % 4 = 0 →
    c.canWrite (s.feed (16 + k / 4)).img (c.reg (rP (bits w 18 3))) 4 = true →
    Does (.st24 k) s fun t =>
      State.CoreStep s t k { c.wrote (if bit w 24 then [(rP (bits w 18 3), (c.reg (rP (bits w 18 3)) + c.reg (rN (bits w 21 3))) % 2 ^ 18)] else []) 0 with mem := memWrite (c.reg (rP (bits w 18 3))) (natBytes 4 (ofS 32 (toS 24 (bits (c.x (bits w 12 6)) (32 * (bits w 25 2 % 2)) 24)))) c.mem }) ∧
  (∀ (s : State) (k w : Nat) (c : SCore) (b : Bool),
    k < 32 →
    s.AtOp k 1 5 3 c →
    c.slotWord 1 = w →
    (c.effs.any fun e => e.slot == 1) = false →
    c.reg (rP (bits w 18 3)) % 8 ≠ 0 →
    Does (.ld64 k b) s fun t =>
      t.core_ k = some { c with effs := [] } ∧
      t.i (kState (16 + k / 4)) = 3 ∧
      t.i (unitKey (16 + k / 4) 9) = 3 ∧
      t.i (unitKey (16 + k / 4) 0x0A) = k ∧
      t.i (unitKey (16 + k / 4) 0x0B) = c.pc % 2 ^ 15 ∧
      (t.feed (16 + k / 4)).flt = true ∧
      State.Kept s t [kState (16 + k / 4), unitKey (16 + k / 4) 9, unitKey (16 + k / 4) 0x0A, unitKey (16 + k / 4) 0x0B]) ∧
  (∀ (s : State) (k w : Nat) (c : SCore) (b : Bool),
    k < 32 →
    s.AtOp k 1 5 3 c →
    c.slotWord 1 = w →
    (c.effs.any fun e => e.slot == 1) = false →
    c.reg (rP (bits w 18 3)) % 8 = 0 →
    c.canRead (s.feed (16 + k / 4)).img (c.reg (rP (bits w 18 3))) 8 = false →
    Does (.ld64 k b) s fun t =>
      t.core_ k = some { c with effs := [] } ∧
      t.i (kState (16 + k / 4)) = 3 ∧
      t.i (unitKey (16 + k / 4) 9) = 4 ∧
      t.i (unitKey (16 + k / 4) 0x0A) = k ∧
      t.i (unitKey (16 + k / 4) 0x0B) = c.pc % 2 ^ 15 ∧
      (t.feed (16 + k / 4)).flt = true ∧
      State.Kept s t [kState (16 + k / 4), unitKey (16 + k / 4) 9, unitKey (16 + k / 4) 0x0A, unitKey (16 + k / 4) 0x0B]) ∧
  (∀ (s : State) (k w : Nat) (c : SCore),
    k < 32 →
    s.AtOp k 1 5 3 c →
    c.slotWord 1 = w →
    (c.effs.any fun e => e.slot == 1) = false →
    c.reg (rP (bits w 18 3)) % 8 = 0 →
    c.canRead (s.feed (16 + k / 4)).img (c.reg (rP (bits w 18 3))) 8 = true →
    Does (.ld64 k true) s fun t =>
      t.core_ k = some { c with effs := [] } ∧
      t.i (kState (16 + k / 4)) = 3 ∧
      t.i (unitKey (16 + k / 4) 9) = 1 ∧
      t.i (unitKey (16 + k / 4) 0x0A) = k ∧
      t.i (unitKey (16 + k / 4) 0x0B) = c.pc % 2 ^ 15 ∧
      (t.feed (16 + k / 4)).flt = true ∧
      State.Kept s t [kState (16 + k / 4), unitKey (16 + k / 4) 9, unitKey (16 + k / 4) 0x0A, unitKey (16 + k / 4) 0x0B, O.UncorrectableCount]) ∧
  (∀ (s : State) (k w : Nat) (c : SCore),
    k < 32 →
    s.AtOp k 1 6 1 c →
    c.slotWord 1 = w →
    (c.effs.any fun e => e.slot == 1) = false →
    c.reg (rP (bits w 18 3)) % 4 ≠ 0 →
    Does (.st32 k) s fun t =>
      t.core_ k = some { c with effs := [] } ∧
      t.i (kState (16 + k / 4)) = 3 ∧
      t.i (unitKey (16 + k / 4) 9) = 3 ∧
      t.i (unitKey (16 + k / 4) 0x0A) = k ∧
      t.i (unitKey (16 + k / 4) 0x0B) = c.pc % 2 ^ 15 ∧
      (t.feed (16 + k / 4)).flt = true ∧
      State.Kept s t [kState (16 + k / 4), unitKey (16 + k / 4) 9, unitKey (16 + k / 4) 0x0A, unitKey (16 + k / 4) 0x0B]) ∧
  (∀ (s : State) (k w : Nat) (c : SCore),
    k < 32 →
    s.AtOp k 1 6 1 c →
    c.slotWord 1 = w →
    (c.effs.any fun e => e.slot == 1) = false →
    c.reg (rP (bits w 18 3)) % 4 = 0 →
    c.canWrite (s.feed (16 + k / 4)).img (c.reg (rP (bits w 18 3))) 4 = false →
    Does (.st32 k) s fun t =>
      t.core_ k = some { c with effs := [] } ∧
      t.i (kState (16 + k / 4)) = 3 ∧
      t.i (unitKey (16 + k / 4) 9) = 4 ∧
      t.i (unitKey (16 + k / 4) 0x0A) = k ∧
      t.i (unitKey (16 + k / 4) 0x0B) = c.pc % 2 ^ 15 ∧
      (t.feed (16 + k / 4)).flt = true ∧
      State.Kept s t [kState (16 + k / 4), unitKey (16 + k / 4) 9, unitKey (16 + k / 4) 0x0A, unitKey (16 + k / 4) 0x0B])

/-- Steep core: the lane operations (R327, R328, R331, R334, R343, R344, R345). -/
def Obligations.SteepLanes : Prop :=
  (∀ (s : State) (k slot w : Nat) (c : SCore),
    s.LastOp k slot 1 0 c →
    c.slotWord slot = w →
    Does (.add k slot) s fun t =>
      State.CoreStep s t k (c.wrote ([(c.px (bits w 12 6), laneOp (bits w 30 2) (opAdd) (c.x (bits w 18 6)) (c.x (bits w 24 6)))]) (0))) ∧
  (∀ (s : State) (k slot w : Nat) (c : SCore),
    s.LastOp k slot 1 1 c →
    c.slotWord slot = w →
    Does (.sub k slot) s fun t =>
      State.CoreStep s t k (c.wrote ([(c.px (bits w 12 6), laneOp (bits w 30 2) (opSub) (c.x (bits w 18 6)) (c.x (bits w 24 6)))]) (0))) ∧
  (∀ (s : State) (k slot w : Nat) (c : SCore),
    s.LastOp k slot 1 2 c →
    c.slotWord slot = w →
    Does (.adds k slot) s fun t =>
      State.CoreStep s t k (c.wrote ([(c.px (bits w 12 6), laneOp (bits w 30 2) (opAdds) (c.x (bits w 18 6)) (c.x (bits w 24 6)))]) (0))) ∧
  (∀ (s : State) (k slot w : Nat) (c : SCore),
    s.LastOp k slot 1 3 c →
    c.slotWord slot = w →
    Does (.subs k slot) s fun t =>
      State.CoreStep s t k (c.wrote ([(c.px (bits w 12 6), laneOp (bits w 30 2) (opSubs) (c.x (bits w 18 6)) (c.x (bits w 24 6)))]) (0))) ∧
  (∀ (s : State) (k slot w : Nat) (c : SCore),
    s.LastOp k slot 1 4 c →
    c.slotWord slot = w →
    Does (.andX k slot) s fun t =>
      State.CoreStep s t k (c.wrote ([(c.px (bits w 12 6), laneOp (bits w 30 2) (fun _ x y => x &&& y) (c.x (bits w 18 6)) (c.x (bits w 24 6)))]) (0))) ∧
  (∀ (s : State) (k slot w : Nat) (c : SCore),
    s.LastOp k slot 1 5 c →
    c.slotWord slot = w →
    Does (.orX k slot) s fun t =>
      State.CoreStep s t k (c.wrote ([(c.px (bits w 12 6), laneOp (bits w 30 2) (fun _ x y => x ||| y) (c.x (bits w 18 6)) (c.x (bits w 24 6)))]) (0))) ∧
  (∀ (s : State) (k slot w : Nat) (c : SCore),
    s.LastOp k slot 1 6 c →
    c.slotWord slot = w →
    Does (.xor k slot) s fun t =>
      State.CoreStep s t k (c.wrote ([(c.px (bits w 12 6), laneOp (bits w 30 2) (fun _ x y => x ^^^ y) (c.x (bits w 18 6)) (c.x (bits w 24 6)))]) (0))) ∧
  (∀ (s : State) (k slot w : Nat) (c : SCore),
    s.LastOp k slot 1 10 c →
    c.slotWord slot = w →
    Does (.min k slot) s fun t =>
      State.CoreStep s t k (c.wrote ([(c.px (bits w 12 6), laneOp (bits w 30 2) (opMin) (c.x (bits w 18 6)) (c.x (bits w 24 6)))]) (0))) ∧
  (∀ (s : State) (k slot w : Nat) (c : SCore),
    s.LastOp k slot 1 11 c →
    c.slotWord slot = w →
    Does (.max k slot) s fun t =>
      State.CoreStep s t k (c.wrote ([(c.px (bits w 12 6), laneOp (bits w 30 2) (opMax) (c.x (bits w 18 6)) (c.x (bits w 24 6)))]) (0))) ∧
  (∀ (s : State) (k slot w : Nat) (c : SCore),
    s.LastOp k slot 1 12 c →
    c.slotWord slot = w →
    Does (.mul k slot) s fun t =>
      State.CoreStep s t k (c.wrote ([(c.px (bits w 12 6), laneOp (bits w 30 2) (opMul) (c.x (bits w 18 6)) (c.x (bits w 24 6)))]) (0))) ∧
  (∀ (s : State) (k slot w : Nat) (c : SCore),
    s.LastOp k slot 1 13 c →
    c.slotWord slot = w →
    Does (.abs k slot) s fun t =>
      State.CoreStep s t k (c.wrote ([(c.px (bits w 12 6), laneOp (bits w 30 2) (opAbs) (c.x (bits w 18 6)) (c.x (bits w 24 6)))]) (0))) ∧
  (∀ (s : State) (k slot w : Nat) (c : SCore),
    s.LastOp k slot 1 7 c →
    c.slotWord slot = w →
    Does (.shl k slot) s fun t =>
      State.CoreStep s t k (c.wrote ([(c.px (bits w 12 6), laneOp (bits w 30 2) (opShl (c.x (bits w 24 6) % 64)) (c.x (bits w 18 6)) (c.x (bits w 24 6)))]) (0))) ∧
  (∀ (s : State) (k slot w : Nat) (c : SCore),
    s.LastOp k slot 1 8 c →
    c.slotWord slot = w →
    Does (.shr k slot) s fun t =>
      State.CoreStep s t k (c.wrote ([(c.px (bits w 12 6), laneOp (bits w 30 2) (opShr (c.x (bits w 24 6) % 64)) (c.x (bits w 18 6)) (c.x (bits w 24 6)))]) (0))) ∧
  (∀ (s : State) (k slot w : Nat) (c : SCore),
    s.LastOp k slot 1 9 c →
    c.slotWord slot = w →
    Does (.sar k slot) s fun t =>
      State.CoreStep s t k (c.wrote ([(c.px (bits w 12 6), laneOp (bits w 30 2) (opSar (c.x (bits w 24 6) % 64)) (c.x (bits w 18 6)) (c.x (bits w 24 6)))]) (0))) ∧
  (∀ (s : State) (k slot w : Nat) (c : SCore),
    s.LastOp k slot 1 14 c →
    c.slotWord slot = w →
    Does (.mov k slot) s fun t =>
      State.CoreStep s t k (c.wrote ([(c.px (bits w 12 6), c.x (bits w 18 6))]) (0))) ∧
  (∀ (s : State) (k slot w : Nat) (c : SCore),
    s.LastOp k slot 1 15 c →
    c.slotWord slot = w →
    bits w 30 2 = 1 →
    Does (.cvtf k slot) s fun t =>
      State.CoreStep s t k (c.wrote ([(c.px (bits w 12 6), laneOp 1 (fun n v _ => fofInt f32 (toS n v)) (c.x (bits w 18 6)) 0)]) (0))) ∧
  (∀ (s : State) (k slot w : Nat) (c : SCore),
    s.LastOp k slot 1 15 c →
    c.slotWord slot = w →
    bits w 30 2 ≠ 1 →
    Does (.cvtf k slot) s fun t =>
      ∃ v, State.CoreStep s t k (c.wrote ([(c.px (bits w 12 6), v)]) (0))) ∧
  (∀ (s : State) (k slot w : Nat) (c : SCore),
    s.LastOp k slot 2 0 c →
    c.slotWord slot = w →
    Does (.aluiAdd k slot) s fun t =>
      State.CoreStep s t k (c.wrote ([(c.px (bits w 12 6), laneOp 0 (opAdd) (c.x (bits w 18 6)) (ofS 64 (toS 8 (bits w 24 8))))]) (0))) ∧
  (∀ (s : State) (k slot w : Nat) (c : SCore),
    s.LastOp k slot 2 1 c →
    c.slotWord slot = w →
    Does (.aluiSub k slot) s fun t =>
      State.CoreStep s t k (c.wrote ([(c.px (bits w 12 6), laneOp 0 (opSub) (c.x (bits w 18 6)) (ofS 64 (toS 8 (bits w 24 8))))]) (0))) ∧
  (∀ (s : State) (k slot w : Nat) (c : SCore),
    s.LastOp k slot 2 2 c →
    c.slotWord slot = w →
    Does (.aluiAdds k slot) s fun t =>
      State.CoreStep s t k (c.wrote ([(c.px (bits w 12 6), laneOp 0 (opAdds) (c.x (bits w 18 6)) (ofS 64 (toS 8 (bits w 24 8))))]) (0))) ∧
  (∀ (s : State) (k slot w : Nat) (c : SCore),
    s.LastOp k slot 2 3 c →
    c.slotWord slot = w →
    Does (.aluiSubs k slot) s fun t =>
      State.CoreStep s t k (c.wrote ([(c.px (bits w 12 6), laneOp 0 (opSubs) (c.x (bits w 18 6)) (ofS 64 (toS 8 (bits w 24 8))))]) (0))) ∧
  (∀ (s : State) (k slot w : Nat) (c : SCore),
    s.LastOp k slot 2 4 c →
    c.slotWord slot = w →
    Does (.aluiAnd k slot) s fun t =>
      State.CoreStep s t k (c.wrote ([(c.px (bits w 12 6), laneOp 0 (fun _ x y => x &&& y) (c.x (bits w 18 6)) (ofS 64 (toS 8 (bits w 24 8))))]) (0))) ∧
  (∀ (s : State) (k slot w : Nat) (c : SCore),
    s.LastOp k slot 2 5 c →
    c.slotWord slot = w →
    Does (.aluiOr k slot) s fun t =>
      State.CoreStep s t k (c.wrote ([(c.px (bits w 12 6), laneOp 0 (fun _ x y => x ||| y) (c.x (bits w 18 6)) (ofS 64 (toS 8 (bits w 24 8))))]) (0))) ∧
  (∀ (s : State) (k slot w : Nat) (c : SCore),
    s.LastOp k slot 2 6 c →
    c.slotWord slot = w →
    Does (.aluiXor k slot) s fun t =>
      State.CoreStep s t k (c.wrote ([(c.px (bits w 12 6), laneOp 0 (fun _ x y => x ^^^ y) (c.x (bits w 18 6)) (ofS 64 (toS 8 (bits w 24 8))))]) (0))) ∧
  (∀ (s : State) (k slot w : Nat) (c : SCore),
    s.LastOp k slot 2 7 c →
    c.slotWord slot = w →
    Does (.aluiShl k slot) s fun t =>
      State.CoreStep s t k (c.wrote ([(c.px (bits w 12 6), laneOp 0 (opShl (ofS 64 (toS 8 (bits w 24 8)) % 64)) (c.x (bits w 18 6)) (ofS 64 (toS 8 (bits w 24 8))))]) (0))) ∧
  (∀ (s : State) (k slot w : Nat) (c : SCore),
    s.LastOp k slot 2 8 c →
    c.slotWord slot = w →
    Does (.aluiShr k slot) s fun t =>
      State.CoreStep s t k (c.wrote ([(c.px (bits w 12 6), laneOp 0 (opShr (ofS 64 (toS 8 (bits w 24 8)) % 64)) (c.x (bits w 18 6)) (ofS 64 (toS 8 (bits w 24 8))))]) (0))) ∧
  (∀ (s : State) (k slot w : Nat) (c : SCore),
    s.LastOp k slot 2 9 c →
    c.slotWord slot = w →
    Does (.aluiSar k slot) s fun t =>
      State.CoreStep s t k (c.wrote ([(c.px (bits w 12 6), laneOp 0 (opSar (ofS 64 (toS 8 (bits w 24 8)) % 64)) (c.x (bits w 18 6)) (ofS 64 (toS 8 (bits w 24 8))))]) (0))) ∧
  (∀ (s : State) (k slot w : Nat) (c : SCore),
    s.LastOp k slot 2 10 c →
    c.slotWord slot = w →
    Does (.aluiMin k slot) s fun t =>
      State.CoreStep s t k (c.wrote ([(c.px (bits w 12 6), laneOp 0 (opMin) (c.x (bits w 18 6)) (ofS 64 (toS 8 (bits w 24 8))))]) (0))) ∧
  (∀ (s : State) (k slot w : Nat) (c : SCore),
    s.LastOp k slot 2 11 c →
    c.slotWord slot = w →
    Does (.aluiMax k slot) s fun t =>
      State.CoreStep s t k (c.wrote ([(c.px (bits w 12 6), laneOp 0 (opMax) (c.x (bits w 18 6)) (ofS 64 (toS 8 (bits w 24 8))))]) (0))) ∧
  (∀ (s : State) (k slot w : Nat) (c : SCore),
    s.LastOp k slot 10 0 c →
    c.slotWord slot = w →
    1 ≤ bits w 12 4 ∧ bits w 12 4 < 8 →
    Does (.cmpEq k slot) s fun t =>
      State.CoreStep s t k (c.wrote ([(rG (bits w 12 4), b2n (c.x (bits w 16 6) == c.x (bits w 22 6)))]) (0))) ∧
  (∀ (s : State) (k slot w : Nat) (c : SCore),
    s.LastOp k slot 10 1 c →
    c.slotWord slot = w →
    1 ≤ bits w 12 4 ∧ bits w 12 4 < 8 →
    Does (.cmpNe k slot) s fun t =>
      State.CoreStep s t k (c.wrote ([(rG (bits w 12 4), b2n (c.x (bits w 16 6) != c.x (bits w 22 6)))]) (0))) ∧
  (∀ (s : State) (k slot w : Nat) (c : SCore),
    s.LastOp k slot 10 2 c →
    c.slotWord slot = w →
    1 ≤ bits w 12 4 ∧ bits w 12 4 < 8 →
    Does (.cmpLt k slot) s fun t =>
      State.CoreStep s t k (c.wrote ([(rG (bits w 12 4), b2n (decide (toS 64 (c.x (bits w 16 6)) < toS 64 (c.x (bits w 22 6)))))]) (0))) ∧
  (∀ (s : State) (k slot w : Nat) (c : SCore),
    s.LastOp k slot 10 3 c →
    c.slotWord slot = w →
    1 ≤ bits w 12 4 ∧ bits w 12 4 < 8 →
    Does (.cmpGe k slot) s fun t =>
      State.CoreStep s t k (c.wrote ([(rG (bits w 12 4), b2n (decide (toS 64 (c.x (bits w 22 6)) ≤ toS 64 (c.x (bits w 16 6)))))]) (0))) ∧
  (∀ (s : State) (k slot w : Nat) (c : SCore),
    s.LastOp k slot 10 4 c →
    c.slotWord slot = w →
    1 ≤ bits w 12 4 ∧ bits w 12 4 < 8 →
    Does (.cmpLtu k slot) s fun t =>
      State.CoreStep s t k (c.wrote ([(rG (bits w 12 4), b2n (decide (c.x (bits w 16 6) < c.x (bits w 22 6))))]) (0))) ∧
  (∀ (s : State) (k slot w : Nat) (c : SCore),
    s.LastOp k slot 10 5 c →
    c.slotWord slot = w →
    1 ≤ bits w 12 4 ∧ bits w 12 4 < 8 →
    Does (.cmpGeu k slot) s fun t =>
      State.CoreStep s t k (c.wrote ([(rG (bits w 12 4), b2n (decide (c.x (bits w 22 6) ≤ c.x (bits w 16 6))))]) (0))) ∧
  (∀ (s : State) (k slot w : Nat) (c : SCore),
    s.LastOp k slot 10 0 c →
    c.slotWord slot = w →
    bits w 12 4 = 0 →
    Does (.cmpEq k slot) s fun t =>
      State.CoreStep s t k (c.wrote ([]) (0))) ∧
  (∀ (s : State) (k slot w : Nat) (c : SCore),
    s.LastOp k slot 7 0 c →
    c.slotWord slot = w →
    Does (.pset k slot) s fun t =>
      State.CoreStep s t k (c.wrote ([(rP (bits w 12 3), bits w 16 16)]) (0))) ∧
  (∀ (s : State) (k slot w : Nat) (c : SCore),
    s.LastOp k slot 7 1 c →
    c.slotWord slot = w →
    Does (.nset k slot) s fun t =>
      State.CoreStep s t k (c.wrote ([(rN (bits w 12 3), ofS 32 (toS 16 (bits w 16 16)))]) (0))) ∧
  (∀ (s : State) (k slot w : Nat) (c : SCore),
    s.LastOp k slot 7 2 c →
    c.slotWord slot = w →
    Does (.padd k slot) s fun t =>
      State.CoreStep s t k (c.wrote ([(rP (bits w 12 3), (c.reg (rP (bits w 12 3)) + c.reg (rN (bits w 12 3))) % 2 ^ 18)]) (0))) ∧
  (∀ (s : State) (k slot w : Nat) (c : SCore),
    s.LastOp k slot 7 3 c →
    c.slotWord slot = w →
    Does (.movp k slot) s fun t =>
      State.CoreStep s t k (c.wrote ([(c.px (bits w 15 6), c.reg (rP (bits w 12 3)))]) (0))) ∧
  (∀ (s : State) (k slot w : Nat) (c : SCore),
    s.LastOp k slot 7 4 c →
    c.slotWord slot = w →
    Does (.movxp k slot) s fun t =>
      State.CoreStep s t k (c.wrote ([(rP (bits w 12 3), c.x (bits w 15 6) % 2 ^ 18)]) (0))) ∧
  (∀ (s : State) (k slot w : Nat) (c : SCore),
    s.LastOp k slot 7 5 c →
    c.slotWord slot = w →
    Does (.movxn k slot) s fun t =>
      State.CoreStep s t k (c.wrote ([(rN (bits w 12 3), c.x (bits w 15 6) % 2 ^ 32)]) (0)))

/-- Steep core: control registers, branches, loops and the stream operations (R327, R328, R334, R335, R336, R338, R340, R345). -/
def Obligations.SteepControl : Prop :=
  (∀ (s : State) (k slot w : Nat) (c : SCore),
    s.LastOp k slot 0 0 c →
    c.slotWord slot = w →
    Does (.nop k slot) s fun t =>
      State.CoreStep s t k (c.wrote ([]) (0))) ∧
  (∀ (s : State) (k slot w : Nat) (c : SCore),
    s.LastOp k slot 0 1 c →
    c.slotWord slot = w →
    bits w 18 4 ≤ 11 →
    Does (.movc k slot) s fun t =>
      State.CoreStep s t k (c.wrote ([(c.px (bits w 12 6), if bits w 18 4 = 0 then c.pc else if bits w 18 4 = 11 then k else c.reg (rC (bits w 18 4)))]) (0))) ∧
  (∀ (s : State) (k slot w : Nat) (c : SCore),
    s.LastOp k slot 0 1 c →
    c.slotWord slot = w →
    11 < bits w 18 4 →
    Does (.movc k slot) s fun t =>
      ∃ v, State.CoreStep s t k (c.wrote ([(c.px (bits w 12 6), v)]) (0))) ∧
  (∀ (s : State) (k slot w : Nat) (c : SCore),
    s.LastOp k slot 0 2 c →
    c.slotWord slot = w →
    bits w 18 4 = 1 →
    Does (.movtc k slot) s fun t =>
      State.CoreStep s t k (c.wrote ([(rC 1, c.x (bits w 12 6) % 4), (rAcc 0, 0), (rAcc 1, 0), (rAcc 2, 0), (rAcc 3, 0)]) (0))) ∧
  (∀ (s : State) (k slot w : Nat) (c : SCore),
    s.LastOp k slot 0 2 c →
    c.slotWord slot = w →
    bits w 18 4 = 2 →
    Does (.movtc k slot) s fun t =>
      State.CoreStep s t k { c.wrote [] 0 with regs := tset (tset c.regs (rC 2) (c.reg (rC 2) &&& (3 - c.x (bits w 12 6) % 4))) (rC 2) (c.reg (rC 2) &&& (3 - c.x (bits w 12 6) % 4)) }) ∧
  (∀ (s : State) (k slot w : Nat) (c : SCore),
    s.LastOp k slot 0 2 c →
    c.slotWord slot = w →
    bits w 18 4 = 3 →
    Does (.movtc k slot) s fun t =>
      State.CoreStep s t k (c.wrote ([(rC 3, c.x (bits w 12 6) % 2 ^ 32)]) (0))) ∧
  (∀ (s : State) (k slot w : Nat) (c : SCore),
    s.LastOp k slot 0 2 c →
    c.slotWord slot = w →
    bits w 18 4 = 4 →
    Does (.movtc k slot) s fun t =>
      State.CoreStep s t k (c.wrote ([(rC 4, c.x (bits w 12 6) % 2 ^ 32)]) (0))) ∧
  (∀ (s : State) (k slot w : Nat) (c : SCore),
    s.LastOp k slot 0 2 c →
    c.slotWord slot = w →
    bits w 18 4 = 5 →
    Does (.movtc k slot) s fun t =>
      State.CoreStep s t k (c.wrote ([(rC 5, c.x (bits w 12 6) % 2 ^ 32)]) (0))) ∧
  (∀ (s : State) (k slot w : Nat) (c : SCore),
    s.LastOp k slot 0 2 c →
    c.slotWord slot = w →
    bits w 18 4 = 6 →
    c.x (bits w 12 6) % 64 < 48 →
    Does (.movtc k slot) s fun t =>
      State.CoreStep s t k (c.wrote ([(rC 6, c.x (bits w 12 6) % 64)]) (0))) ∧
  (∀ (s : State) (k slot w : Nat) (c : SCore),
    s.LastOp k slot 0 2 c →
    c.slotWord slot = w →
    bits w 18 4 = 6 →
    48 ≤ c.x (bits w 12 6) % 64 →
    Does (.movtc k slot) s fun t =>
      ∃ v, v < 48 ∧ State.CoreStep s t k (c.wrote ([(rC 6, v)]) (0))) ∧
  (∀ (s : State) (k slot w : Nat) (c : SCore),
    s.LastOp k slot 0 2 c →
    c.slotWord slot = w →
    bits w 18 4 = 7 →
    Does (.movtc k slot) s fun t =>
      State.CoreStep s t k (c.wrote ([(rC 7, c.x (bits w 12 6) % 256)]) (0))) ∧
  (∀ (s : State) (k slot w : Nat) (c : SCore),
    s.LastOp k slot 0 2 c →
    c.slotWord slot = w →
    bits w 18 4 = 8 →
    Does (.movtc k slot) s fun t =>
      State.CoreStep s t k (c.wrote ([]) (0))) ∧
  (∀ (s : State) (k w : Nat) (c : SCore),
    s.AtOp k 0 15 0 c →
    c.slotWord 0 = w →
    c.effs = [] →
    c.loops = [] →
    Does (.limmLow k) s fun t =>
      State.CoreStep s t k (c.wrote [(c.px (bits w 12 6), ofS 64 (toS 32 (c.slotWord 1)))] 0)) ∧
  (∀ (s : State) (k w : Nat) (c : SCore),
    s.AtOp k 0 15 1 c →
    c.slotWord 0 = w →
    c.effs = [] →
    c.loops = [] →
    Does (.limmHigh k) s fun t =>
      State.CoreStep s t k (c.wrote [(c.px (bits w 12 6), setBits (c.x (bits w 12 6)) 32 32 (c.slotWord 1))] 0)) ∧
  (∀ (s : State) (k : Nat) (c : SCore),
    s.core_ k = some c →
    s.groupRuns (16 + k / 4) = true →
    c.wait = none →
    8 * c.pc + 8 ≤ shCode (s.feed (16 + k / 4)).img →
    bits (c.slotWord 0) 4 4 = 3 →
    bits (c.slotWord 0) 8 4 = 0 →
    c.guard (bits (c.slotWord 0) 0 4) = false →
    c.effs = [{ effRegs [] with slot := 1 }] →
    c.loops = [] →
    Does (.macq k) s fun t =>
      State.CoreStep s t k (c.wrote [] 0)) ∧
  (∀ (s : State) (k w : Nat) (c : SCore),
    s.LastOp k 0 8 0 c →
    c.slotWord 0 = w →
    Does (.br k) s fun t =>
      State.CoreStep s t k { c.wrote [] 0 with pc := ofS 15 ((c.pc : Int) + toS 20 (bits w 12 20)) }) ∧
  (∀ (s : State) (k w : Nat) (c : SCore),
    s.LastOp k 0 8 1 c →
    c.slotWord 0 = w →
    c.x (bits w 12 6) % 2 ^ 32 = 0 →
    Does (.loop k) s fun t =>
      State.CoreStep s t k { c.wrote [] 0 with pc := (c.pc + 1 + (bits w 18 10 + 1)) % 2 ^ 15 }) ∧
  (∀ (s : State) (k w : Nat) (c : SCore),
    s.LastOp k 0 8 1 c →
    c.slotWord 0 = w →
    c.x (bits w 12 6) % 2 ^ 32 ≠ 0 →
    Does (.loop k) s fun t =>
      State.CoreStep s t k { c.wrote [(rC 3, c.x (bits w 12 6) % 2 ^ 32)] 0 with loops := [⟨c.pc + 1, c.pc + (bits w 18 10 + 1), false, 1⟩] }) ∧
  (∀ (s : State) (k w : Nat) (c : SCore),
    s.LastOp k 0 8 2 c →
    c.slotWord 0 = w →
    c.x (bits w 12 6) % 2 ^ 32 ≠ 0 →
    Does (.loops k) s fun t =>
      State.CoreStep s t k { c.wrote [(rC 3, (c.x (bits w 12 6) % 2 ^ 32 + bits w 28 3) % 2 ^ 32), (rC 5, c.x (bits w 12 6) % 2 ^ 32 - 1), (rC 7, 1)] 0 with loops := [⟨c.pc + 1, c.pc + (bits w 18 10 + 1), true, bits w 28 3 + 1⟩] }) ∧
  (∀ (s : State) (k w : Nat) (c : SCore),
    s.AtOp k 0 1 14 c →
    c.slotWord 0 = w →
    c.effs = [] →
    Does (.mov k 0) s fun t =>
      State.CoreStep s t k { c with effs := [{ effRegs [(c.px (bits w 12 6), c.x (bits w 18 6))] with slot := 0 }] }) ∧
  (∀ (s : State) (k w a v : Nat) (c : SCore),
    s.AtOp k 1 1 14 c →
    c.slotWord 1 = w →
    c.effs = [{ effRegs [(a, v)] with slot := 0 }] →
    a ≠ c.px (bits w 12 6) →
    c.loops = [] →
    Does (.mov k 1) s fun t =>
      State.CoreStep s t k { c.wrote [(a, v), (c.px (bits w 12 6), c.x (bits w 18 6))] 0 with regs := tset (tset (tset c.regs a v) (c.px (bits w 12 6)) (c.x (bits w 18 6))) (rC 2) ((tset (tset c.regs a v) (c.px (bits w 12 6)) (c.x (bits w 18 6)) |> fun r => tgetD r (rC 2) 0) ||| 0) }) ∧
  (∀ (s : State) (k w a v : Nat) (c : SCore),
    k < 32 →
    s.AtOp k 1 1 14 c →
    c.slotWord 1 = w →
    c.effs = [{ effRegs [(a, v)] with slot := 0 }] →
    a = c.px (bits w 12 6) →
    Does (.mov k 1) s fun t =>
      t.core_ k = some { c with effs := [] } ∧
      t.i (kState (16 + k / 4)) = 3 ∧
      t.i (unitKey (16 + k / 4) 9) = 6 ∧
      State.Kept s t [kState (16 + k / 4), unitKey (16 + k / 4) 9, unitKey (16 + k / 4) 0x0A, unitKey (16 + k / 4) 0x0B]) ∧
  (∀ (s : State) (k w : Nat) (c : SCore),
    s.LastOp k 1 9 0 c →
    c.slotWord 1 = w →
    c.held = none →
    c.ring = [] →
    Does (.next k) s fun t =>
      State.CoreStep s t k { c with wait := some w }) ∧
  (∀ (s : State) (k w : Nat) (c : SCore) (e : SEntry) (l : List SEntry),
    s.LastOp k 1 9 0 c →
    c.slotWord 1 = w →
    c.held = none →
    c.ring = e :: l →
    Does (.next k) s fun t =>
      State.CoreStep s t k { c.wrote [(rC 9, e.addr), (rC 10, bits e.head 0 6), (rC 8, ctxBase (s.feed (16 + k / 4)).img + bits e.head 0 6 / 4 * shCtx (s.feed (16 + k / 4)).img), (rP (bits w 18 3), e.addr), (c.px (bits w 12 6), e.head % 2 ^ 64)] 0 with held := some (e, s.ft .icd, false) }) ∧
  (∀ (s : State) (k w : Nat) (c : SCore) (e : SEntry × Nat × Bool),
    s.LastOp k 1 9 1 c →
    c.slotWord 1 = w →
    c.held = some e →
    bit e.1.head 8 = false →
    Does (.done k) s fun t =>
      t.core_ k = some { c.wrote [(rC 10, 0x40)] 0 with held := none, ring := c.ring.drop 1 } ∧
      (∀ j, j ≠ k → t.core_ j = s.core_ j) ∧
      t.ma = s.ma ∧
      State.Same s t []) ∧
  (∀ (s : State) (k w : Nat) (c : SCore) (e : SEntry) (x : Nat),
    s.LastOp k 1 9 2 c →
    c.slotWord 1 = w →
    k < 32 →
    c.held = some (e, x, false) →
    hdrEpoch (s.feed (16 + k / 4)).img = true →
    bit e.head 8 = true →
    c.reg (rP (bits w 18 3)) % 4 = 0 →
    inside (c.reg (rP (bits w 18 3))) (4 * (hdrFeatures (s.feed (16 + k / 4)).img + (hdrFeatures (s.feed (16 + k / 4)).img + 31) / 32)) (scratchBase (s.feed (16 + k / 4)).img) (localBytes - scratchBase (s.feed (16 + k / 4)).img) = true →
    Does (.emit k false) s fun t =>
      t.core_ k = some { c.wrote [] 0 with held := some (e, x, true) } ∧
      (t.feed (16 + k / 4)) = { s.feed (16 + k / 4) with vecs := tset (s.feed (16 + k / 4)).vecs (bits e.head 0 6) ((List.range (hdrFeatures (s.feed (16 + k / 4)).img + (hdrFeatures (s.feed (16 + k / 4)).img + 31) / 32)).map (fun i => c.load (c.reg (rP (bits w 18 3)) + 4 * i) 4)) } ∧
      State.Same s t []) ∧
  (∀ (s : State) (k w : Nat) (c : SCore) (e : SEntry) (x : Nat),
    s.LastOp k 1 9 2 c →
    c.slotWord 1 = w →
    k < 32 →
    c.held = some (e, x, false) →
    hdrEpoch (s.feed (16 + k / 4)).img = false →
    c.reg (rP (bits w 18 3)) % 4 = 0 →
    inside (c.reg (rP (bits w 18 3))) (4 * (hdrFeatures (s.feed (16 + k / 4)).img + (hdrFeatures (s.feed (16 + k / 4)).img + 31) / 32)) (scratchBase (s.feed (16 + k / 4)).img) (localBytes - scratchBase (s.feed (16 + k / 4)).img) = true →
    Does (.emit k false) s fun t =>
      t.core_ k = some { c.wrote [] 0 with held := some (e, x, true) } ∧
      t.i (unitKey (16 + k / 4) 7) = (s.i (unitKey (16 + k / 4) 7) + 1) % 2 ^ 64 ∧
      { t.ma with seq := s.ma.seq } = s.ma)

/-- The pattern library: staging at the Apex, banks at the Helad, activation (R354, R355, R356, R490). -/
def Obligations.PatternLibrary : Prop :=
  (∀ (s : State) (q : Req) (im : List Nat) (descs : List Rec),
    s.AcceptsDesc q →
    s.apexLead = true →
    s.signed 4 true (sigBlock im) = true →
    imageBad im = false →
    mfKind (bytesNat (im.take 128)) = 4 →
    mfLevel (bytesNat (im.take 128)) 3 = false →
    descs = libraryDescs (im.drop 384) →
    descs ≠ [] →
    s.i O.LibraryActive < recFld (descs.headD []) 192 32 →
    s.tw.transfers = [] →
    Does (.patternStage q im true) s fun t =>
      t.i O.LibraryStaged = recFld (descs.headD []) 192 32 ∧
      t.i O.DiesStaged = 0 ∧
      t.si.libNew = descs.zipIdx.map (fun p => (p.2, p.1)) ∧
      t.si.ready = [] ∧
      t.tw.nextTransfer = (s.tw.nextTransfer + 1) % 2 ^ 32 ∧
      State.Kept s t ([O.LibraryStaged, O.DiesStaged, O.TransfersOpen] ++ queueKeys)) ∧
  (∀ (s : State) (q : Req) (im : List Nat) (b : Bool),
    s.AcceptsDesc q →
    s.apexLead = true →
    (b = false ∨ s.signerOk 4 (sigBlock im) = false ∨ recFld ((libraryDescs (im.drop 384)).headD []) 192 32 ≤ s.i O.LibraryActive) →
    Does (.patternStage q im b) s fun t =>
      t.si = s.si ∧
      State.Same s t refusalKeys) ∧
  (∀ (s : State) (slot : Nat) (r : Rec),
    s.heladReset = false →
    s.si.hel.stVer = recFld r 192 32 →
    s.h O.LibStageStatus = 1 →
    Does (.patternDescriptorReceive slot r false) s fun t =>
      t.si.hel = { s.si.hel with staged := tset s.si.hel.staged slot r } ∧
      State.Same s t []) ∧
  (∀ (s : State) (slot : Nat) (r : Rec),
    s.heladReset = false →
    (s.si.hel.stVer ≠ recFld r 192 32 ∨ s.h O.LibStageStatus ≠ 1) →
    Does (.patternDescriptorReceive slot r true) s fun t =>
      t.h O.LibStageStatus = 2 ∧
      t.si.hel.stVer = recFld r 192 32 ∧
      t.si.hel.staged = [(slot, r)] ∧
      t.si.hel.verified = [] ∧
      t.si.hel.active = s.si.hel.active ∧
      t.si.hel.jobs.map (fun j => (j.kind, j.ref)) = (s.si.hel.jobs.filter (fun j => j.kind != 6)).map (fun j => (j.kind, j.ref)) ++ [(6, slot)] ∧
      State.Same s t [O.LibStageStatus]) ∧
  (∀ (s : State) (slot : Nat) (j : Job) (d : Rec),
    s.jobOf 6 slot = some j →
    s.si.hel.staged = [(slot, d)] →
    j.over_ = true →
    s.h O.LibStageStatus = 2 →
    s.si.hel.waitVer = none →
    s.role ≠ 1 →
    Does (.patternVerify slot) s fun t =>
      t.h O.LibStageStatus = (if j.fail = 0 ∧ keyed128 (recFld d 576 256) (j.bytes 0) = recFld d 320 128 then 3 else 4) ∧
      t.si.hel.badSlots = (if j.fail = 0 ∧ keyed128 (recFld d 576 256) (j.bytes 0) = recFld d 320 128 then s.si.hel.badSlots else slot :: s.si.hel.badSlots) ∧
      t.si.hel.active = s.si.hel.active ∧
      State.Kept s t [O.LibStageStatus]) ∧
  (∀ (s : State) (q : Req) (v : Nat),
    s.Accepts q O.LibraryActivate v →
    s.ft .icd + us 50 ≤ s.i O.ActivateInstant →
    s.tm.iActs.length < 1024 →
    Does (.libraryActivate q v) s fun t =>
      t.tm.iActs.map (fun a => (a.kind, a.at_, a.key, a.val)) = s.tm.iActs.map (fun a => (a.kind, a.at_, a.key, a.val)) ++ [(6, s.i O.ActivateInstant, O.LibraryActivate, v)] ∧
      t.i O.LibraryActive = s.i O.LibraryActive ∧
      State.Kept s t ([O.ActionQueueFree, O.LibraryActivate] ++ queueKeys)) ∧
  (∀ (s : State) (a : Act),
    s.dueAct .hel = some a →
    a.kind = 6 →
    a.key = O.LibraryActivate →
    s.si.hel.stVer = a.val →
    s.h O.LibStageStatus = 3 →
    Does (.librarySwap) s fun t =>
      t.si.hel.active = s.si.hel.staged ∧
      t.si.hel.staged = [] ∧
      t.si.hel.next = [] ∧
      t.h O.LibraryVersion = a.val ∧
      t.h O.LibStageStatus = 0 ∧
      t.h O.PitchOrigin = a.at_ ∧
      (s.role = 1 → t.i O.DiesStaged = (s.si.ready.filter (· != s.h O.SlotNumber)).length) ∧
      (s.role ≠ 1 → t.i O.DiesStaged = s.i O.DiesStaged) ∧
      State.Kept s t [O.LibraryVersion, O.LibStageStatus, O.PitchOrigin, O.ActionQueueFree, O.DiesStaged]) ∧
  (∀ (s : State) (a : Act),
    s.dueAct .hel = some a →
    a.kind = 6 →
    a.key = O.LibraryActivate →
    s.h O.LibStageStatus ≠ 3 →
    Does (.librarySwap) s fun t =>
      t.si.hel.active = s.si.hel.active ∧
      t.si.hel.waitVer = some a.val ∧
      State.Kept s t [O.ActionQueueFree])

/-- Pitch runs at the Helad: the request, the response, the output and the results (R357, R358, R359, R360, R89). -/
def Obligations.PitchRuns : Prop :=
  (∀ (s : State) (u slot : Nat),
    s.si.hel.change = none →
    s.bd.hmainReset = false →
    s.si.hel.duty ≠ 0 →
    s.rotation u ≠ [] →
    s.pitchAt u (tgetD s.si.hel.next u 0) ≤ s.ft .hel →
    s.beforePitch (s.pitchAt u (tgetD s.si.hel.next u 0)) = false →
    s.awake 2 = true →
    s.NoRouse →
    tget s.pw.jitter (u * 16 + 4) = none →
    s.si.hel.deferred = [] →
    bits (s.h (fenceKey u)) 0 2 = 0 →
    (s.rotation u).getD (tgetD s.si.hel.next u 0 % (s.rotation u).length) 0 = slot →
    slot ∉ s.si.hel.badSlots →
    tgetD s.si.hel.active slot [] ≠ [] →
    (s.si.hel.requests.any fun p => p.unit == u) = false →
    (s.si.hel.requests.filter fun p => p.phase == 0).length < 16 →
    s.haltedUnit u = false →
    s.guardFits (us (recFld (tgetD s.si.hel.active slot []) 160 16)) = true →
    Does (.pitchRunStart u) s fun t =>
      t.out = ⟨.pin, 0x500, [u, slot, recFld (tgetD s.si.hel.active slot []) 160 16, s.si.hel.nextTag, 0]⟩ :: s.out ∧
      t.si.hel.requests.map (fun p => (p.unit, p.slot, p.tag, p.run, p.phase)) = s.si.hel.requests.map (fun p => (p.unit, p.slot, p.tag, p.run, p.phase)) ++ [(u, slot, s.si.hel.nextTag, tgetD s.si.hel.next u 0 % 2 ^ 32, 0)] ∧
      tget t.si.hel.next u = some (tgetD s.si.hel.next u 0 + 1) ∧
      t.si.hel.nextTag = (s.si.hel.nextTag + 1) % 256 ∧
      State.Same s t []) ∧
  (∀ (s : State) (u : Nat),
    s.si.hel.change = none →
    s.bd.hmainReset = false →
    s.si.hel.duty ≠ 0 →
    s.rotation u ≠ [] →
    s.pitchAt u (tgetD s.si.hel.next u 0) ≤ s.ft .hel →
    s.beforePitch (s.pitchAt u (tgetD s.si.hel.next u 0)) = false →
    s.awake 2 = true →
    s.NoRouse →
    tget s.pw.jitter (u * 16 + 4) = none →
    s.si.hel.deferred = [] →
    bits (s.h (fenceKey u)) 0 2 = 1 →
    Does (.pitchRunStart u) s fun t =>
      t.laneQ stDigest = s.laneQ stDigest ++ [(s.h O.HeladCutNumber, s.hRec 0xC0 4 0 0 [(128, 8, u), (136, 8, 2), (144, 8, 10), (152, 1, 0), (153, 1, 0), (154, 1, b2n (s.holdoverFlag .hel)), (160, 8, (s.rotation u).getD (tgetD s.si.hel.next u 0 % (s.rotation u).length) 0), (176, 16, recFld (tgetD s.si.hel.active ((s.rotation u).getD (tgetD s.si.hel.next u 0 % (s.rotation u).length) 0) []) 128 16), (192, 32, recFld (tgetD s.si.hel.active ((s.rotation u).getD (tgetD s.si.hel.next u 0 % (s.rotation u).length) 0) []) 192 32), (224, 32, tgetD s.si.hel.next u 0), (256, 64, 0), (320, 64, 0), (384, 16, s.portReading u 24 0x8000), (400, 16, s.portReading u 32 0xFFFF), (416, 16, s.portReading u 40 0xFFFF), (448, 64, s.ft .hel / 65536)])] ∧
      tget t.si.hel.next u = some (tgetD s.si.hel.next u 0 + 1) ∧
      State.Same s t []) ∧
  (∀ (s : State) (u : Nat),
    s.si.hel.change = none →
    (s.si.hel.duty = 0 ∨ s.ft .hel < s.pitchAt u (tgetD s.si.hel.next u 0)) →
    Does (.pitchRunStart u) s fun t =>
      t.si = s.si ∧
      State.Same s t []) ∧
  (∀ (s : State) (tag cmdid : Nat) (p : Pitch),
    (s.si.hel.requests.find? fun p => p.tag == tag && p.phase == 0) = some p →
    Does (.pitchResponse tag 0 cmdid) s fun t =>
      t.si.hel.requests.map (fun p => p.unit) = s.si.hel.requests.map (fun p => p.unit) ∧
      t.si.hel.requests.find? (fun x => x.unit == p.unit) = some { p with phase := 1, cmdid := cmdid, temp := s.portReading p.unit 24 0x8000, volt := s.portReading p.unit 32 0xFFFF, freq := s.portReading p.unit 40 0xFFFF } ∧
      t.si.hel.jobs.map (fun j => (j.kind, j.ref, j.segs)) = s.si.hel.jobs.map (fun j => (j.kind, j.ref, j.segs)) ++ [(5, p.unit, [(s.h (inst128 O.PitchOutputAddr p.unit), recFld p.desc 256 32)])] ∧
      State.Same s t []) ∧
  (∀ (s : State) (tag status cmdid : Nat) (p : Pitch),
    (s.si.hel.requests.find? fun p => p.tag == tag && p.phase == 0) = some p →
    1 ≤ status ∧ status ≤ 4 →
    s.si.hel.deferred = [] →
    p.fenced = true →
    Does (.pitchResponse tag status cmdid) s fun t =>
      t.laneQ stDigest = s.laneQ stDigest ++ [(s.h O.HeladCutNumber, s.hRec 0xC0 4 0 0 [(128, 8, p.unit), (136, 8, 2), (144, 8, status), (152, 1, 1), (153, 1, b2n p.deferred), (154, 1, b2n p.hold), (160, 8, p.slot), (176, 16, recFld p.desc 128 16), (192, 32, recFld p.desc 192 32), (224, 32, p.run), (256, 64, cmdid), (320, 64, p.start), (384, 16, s.portReading p.unit 24 0x8000), (400, 16, s.portReading p.unit 32 0xFFFF), (416, 16, s.portReading p.unit 40 0xFFFF), (448, 64, s.ft .hel / 65536)])] ∧
      t.si.hel.requests = s.si.hel.requests.filter (fun x => !(x.unit == p.unit && x.run == p.run)) ∧
      State.Same s t []) ∧
  (∀ (s : State) (tag status cmdid : Nat),
    (s.si.hel.requests.find? fun p => p.tag == tag && p.phase == 0) = none →
    Does (.pitchResponse tag status cmdid) s fun t =>
      t.si = s.si ∧
      State.Same s t []) ∧
  (∀ (s : State) (u : Nat) (p : Pitch),
    (s.si.hel.requests.find? fun p => p.unit == u && p.phase == 0) = some p →
    p.at_ + us (recFld p.desc 160 16) + ms 1 ≤ s.ft .hel →
    s.si.hel.deferred = [] →
    Does (.pitchTimeout u) s fun t =>
      t.laneQ stDigest = s.laneQ stDigest ++ [(s.h O.HeladCutNumber, s.hRec 0xC0 4 0 0 [(128, 8, p.unit), (136, 8, 2), (144, 8, 5), (152, 1, b2n p.fenced), (153, 1, b2n p.deferred), (154, 1, b2n p.hold), (160, 8, p.slot), (176, 16, recFld p.desc 128 16), (192, 32, recFld p.desc 192 32), (224, 32, p.run), (256, 64, p.cmdid), (320, 64, p.start), (384, 16, p.temp), (400, 16, p.volt), (416, 16, p.freq), (448, 64, s.ft .hel / 65536)])] ∧
      t.si.hel.requests = s.si.hel.requests.filter (fun x => !(x.unit == p.unit && x.run == p.run)) ∧
      State.Same s t []) ∧
  (∀ (s : State) (u : Nat) (p : Pitch) (j : Job),
    (s.si.hel.requests.find? fun p => p.unit == u && p.phase == 1) = some p →
    s.jobOf 5 u = some j →
    j.over_ = true →
    j.fail = 0 →
    s.si.hel.deferred = [] →
    p.fenced = true →
    Does (.pitchOutputChecked u) s fun t =>
      t.laneQ stDigest = s.laneQ stDigest ++ [(s.h O.HeladCutNumber, s.hRec 0xC0 4 0 0 [(128, 8, p.unit), (136, 8, if keyed128 (recFld p.desc 576 256) (j.bytes 0) = recFld p.desc 448 128 then 0 else 1), (144, 8, 0), (152, 1, 1), (153, 1, b2n p.deferred), (154, 1, b2n p.hold), (160, 8, p.slot), (176, 16, recFld p.desc 128 16), (192, 32, recFld p.desc 192 32), (224, 32, p.run), (256, 64, p.cmdid), (320, 64, p.start), (384, 16, p.temp), (400, 16, p.volt), (416, 16, p.freq), (448, 64, s.ft .hel / 65536)])] ∧
      t.si.hel.jobs = s.si.hel.jobs.filter (fun x => x.id != j.id) ∧
      State.Same s t []) ∧
  (∀ (s : State) (u : Nat) (p : Pitch) (j : Job),
    (s.si.hel.requests.find? fun p => p.unit == u && p.phase == 1) = some p →
    s.jobOf 5 u = some j →
    j.over_ = true →
    j.fail = 1 →
    s.si.hel.deferred = [] →
    Does (.pitchOutputChecked u) s fun t =>
      t.si.hel.requests = s.si.hel.requests.filter (fun x => !(x.unit == p.unit && x.run == p.run)) ∧
      (t.laneQ stDigest).map (fun r => (recFld r.2 136 8, recFld r.2 144 8)) = (s.laneQ stDigest).map (fun r => (recFld r.2 136 8, recFld r.2 144 8)) ++ [(2, 7)] ∧
      State.Same s t [])

/-- Replica groups: definition, sweeps, and the compare with its outcome (R361, R362, R363, R364). -/
def Obligations.ReplicaCompare : Prop :=
  (∀ (s : State) (q : Req) (g : Nat) (members : List (Nat × Nat × Nat × Nat)),
    s.AcceptsDesc q →
    2 ≤ members.length ∧ members.length ≤ 64 →
    (members.any fun m => m.2.2.1 % 64 != 0 || m.2.2.2 % 8 != 0 || decide (m.2.1 ≥ 65536)) = false →
    Does (.replicaDefine q g members) s fun t =>
      tget t.si.members g = some (members.map (fun m => ⟨m.1, m.2.1, m.2.2.1, m.2.2.2⟩)) ∧
      (tget t.si.keys g).isSome = s.isLead ∧
      State.Same s t queueKeys) ∧
  (∀ (s : State) (q : Req) (g k : Nat) (m n : Nat × Nat × Nat × Nat),
    s.AcceptsDesc q →
    s.role = 1 →
    s.isLead = true →
    ([m, n].any fun m => m.2.2.1 % 64 != 0 || m.2.2.2 % 8 != 0 || decide (m.2.1 ≥ 65536)) = false →
    s.slotOfDie m.1 = some k →
    s.slotOfDie n.1 ≠ some k →
    m.1 ≠ s.hGid →
    Does (.replicaDefine q g [m, n]) s fun t =>
      (∃ key, tget t.si.keys g = some key ∧
        t.downQ k stControl = s.downQ k stControl ++ [(s.ki.number, memberRec g m.1 (s.helGroup g ⟨m.1, m.2.1, m.2.2.1, m.2.2.2⟩ s.pairGid key))]) ∧
      State.Same s t []) ∧
  (∀ (s : State) (q : Req) (g : Nat) (m n : Nat × Nat × Nat × Nat),
    s.AcceptsDesc q →
    s.role = 1 →
    s.isLead = true →
    ([m, n].any fun m => m.2.2.1 % 64 != 0 || m.2.2.2 % 8 != 0 || decide (m.2.1 ≥ 65536)) = false →
    m.1 = s.hGid →
    n.1 ≠ s.hGid →
    Does (.replicaDefine q g [m, n]) s fun t =>
      (∃ key, tget t.si.keys g = some key ∧
        tget t.si.hel.groups (groupNum s.pairGid g) = some { s.helGroup g ⟨m.1, m.2.1, m.2.2.1, m.2.2.2⟩ s.pairGid key with
          last := if bits (s.i (inst O.ReplicaConfig g)) 32 16 = 0 then 0 else s.ft .hel / ms (bits (s.i (inst O.ReplicaConfig g)) 32 16),
          busy := (tget s.si.hel.groups (groupNum s.pairGid g)).bind (·.busy) }) ∧
      State.Same s t []) ∧
  (∀ (s : State) (q : Req) (g : Nat) (members : List (Nat × Nat × Nat × Nat)),
    s.AcceptsDesc q →
    (members.length < 2 ∨ 64 < members.length) →
    Does (.replicaDefine q g members) s fun t =>
      t.si = s.si ∧
      State.Same s t refusalKeys) ∧
  (∀ (s : State) (g : Nat) (r : RepHel),
    tget s.si.hel.groups g = some r →
    r.every ≠ 0 →
    r.last < s.ft .hel / ms r.every →
    r.on = true →
    r.busy = none →
    Does (.replicaSweep g) s fun t =>
      tget t.si.hel.groups g = some { r with last := s.ft .hel / ms r.every, busy := some (s.ft .hel / ms r.every) } ∧
      t.si.hel.jobs.map (fun j => (j.kind, j.ref, j.part, j.segs)) = s.si.hel.jobs.map (fun j => (j.kind, j.ref, j.part, j.segs)) ++ [(7, g, r.part, [(r.gen, 8), (r.base, r.len), (r.gen, 8)])] ∧
      State.Same s t []) ∧
  (∀ (s : State) (g b : Nat) (r : RepHel),
    tget s.si.hel.groups g = some r →
    r.every ≠ 0 →
    r.last < s.ft .hel / ms r.every →
    r.on = true →
    r.busy = some b →
    Does (.replicaSweep g) s fun t =>
      t.laneQ stDigest = s.laneQ stDigest ++ [(s.h O.HeladCutNumber, s.hRec 0xC2 5 0 r.part [(128, 16, g % 256), (144, 32, s.ft .hel / ms r.every), (176, 8, 4), (192, 64, 0), (256, 128, 0), (384, 128, s.stampOf .hel (s.ft .hel) (s.marked .hel fnRecord)), (512, 32, r.home)])] ∧
      t.si.hel.jobs = s.si.hel.jobs ∧
      State.Same s t []) ∧
  (∀ (s : State) (g n : Nat) (r : RepHel) (j : Job),
    s.jobOf 7 g = some j →
    tget s.si.hel.groups g = some r →
    j.over_ = true →
    r.busy = some n →
    Does (.replicaSweepDone g) s fun t =>
      (t.laneQ stDigest = s.laneQ stDigest ++ [(s.h O.HeladCutNumber, s.hRec 0xC2 5 0 r.part [(128, 16, g % 256), (144, 32, n), (176, 8, if j.fail = 2 then 3 else if j.fail ≠ 0 then 2 else if bytesNat (j.bytes 0) ≠ bytesNat (j.bytes 2) ∨ bytesNat (j.bytes 0) % 2 = 1 then 1 else 0), (192, 64, if j.fail = 2 then 0 else bytesNat (j.bytes 0)), (256, 128, if j.fail ≠ 0 ∨ bytesNat (j.bytes 0) ≠ bytesNat (j.bytes 2) ∨ bytesNat (j.bytes 0) % 2 = 1 then 0 else keyed128 r.key (j.bytes 1)), (384, 128, s.stampOf .hel (s.ft .hel) (s.marked .hel fnRecord)), (512, 32, r.home)])]) ∧
      tget t.si.hel.groups g = some { r with busy := none } ∧
      t.si.hel.jobs = s.si.hel.jobs.filter (fun x => x.id != j.id) ∧
      State.Same s t []) ∧
  (∀ (s : State) (g n : Nat) (a b : Rec) (m1 m2 : RepMember),
    tgetD s.si.members g [] = [m1, m2] →
    tgetD s.si.sets (g * 2 ^ 32 + n) [] = [a, b] →
    rSrc a = m1.gid ∧ rSrc b = m2.gid →
    s.si.done.contains (g * 2 ^ 32 + n) = false →
    recFld a 176 8 = 0 ∧ recFld b 176 8 = 0 →
    recFld a 192 64 = recFld b 192 64 →
    recFld a 256 128 = recFld b 256 128 →
    g < 256 →
    Does (.replicaCompare g n) s fun t =>
      t.i (inst O.LastOutcome g) = 0 ∧
      tget t.si.sets (g * 2 ^ 32 + n) = none ∧
      (t.si.done.contains (g * 2 ^ 32 + n)) = true ∧
      (s.isLead = false → State.Kept s t [inst O.LastOutcome g])) ∧
  (∀ (s : State) (g n : Nat) (a b c : Rec) (m1 m2 m3 : RepMember),
    tgetD s.si.members g [] = [m1, m2, m3] →
    tgetD s.si.sets (g * 2 ^ 32 + n) [] = [a, b, c] →
    rSrc a = m1.gid ∧ rSrc b = m2.gid ∧ rSrc c = m3.gid →
    s.si.done.contains (g * 2 ^ 32 + n) = false →
    recFld a 176 8 = 0 ∧ recFld b 176 8 = 0 ∧ recFld c 176 8 = 0 →
    recFld a 192 64 = recFld b 192 64 ∧ recFld b 192 64 = recFld c 192 64 →
    recFld a 256 128 = recFld b 256 128 →
    recFld a 256 128 ≠ recFld c 256 128 →
    g < 256 →
    Does (.replicaCompare g n) s fun t =>
      t.i (inst O.LastOutcome g) = 1) ∧
  (∀ (s : State) (g n : Nat) (a b : Rec) (m1 m2 : RepMember),
    tgetD s.si.members g [] = [m1, m2] →
    tgetD s.si.sets (g * 2 ^ 32 + n) [] = [a, b] →
    rSrc a = m1.gid ∧ rSrc b = m2.gid →
    s.si.done.contains (g * 2 ^ 32 + n) = false →
    recFld a 176 8 = 0 ∧ recFld b 176 8 = 0 →
    recFld a 192 64 = recFld b 192 64 →
    recFld a 256 128 ≠ recFld b 256 128 →
    g < 256 →
    Does (.replicaCompare g n) s fun t =>
      t.i (inst O.LastOutcome g) = 2) ∧
  (∀ (s : State) (g n : Nat) (a : Rec) (ag : Option (List Nat)),
    (ag = none ∨ ag = some [rSrc a]) →
    tgetD s.si.members g [] ≠ [] →
    tgetD s.si.sets (g * 2 ^ 32 + n) [] = [a] →
    s.si.done.contains (g * 2 ^ 32 + n) = false →
    bits (s.i (inst O.ReplicaConfig g)) 32 16 ≠ 0 →
    (n + 2) * ms (bits (s.i (inst O.ReplicaConfig g)) 32 16) ≤ s.ft .icd →
    g < 256 →
    Does (.replicaCompareDeadline g ⟨n, ag⟩) s fun t =>
      t.i (inst O.LastOutcome g) = 3 ∧
      (s.isLead = false → State.Kept s t [inst O.LastOutcome g, O.AuditFill]))

/-- Provenance of commands, taint of records and notices to subscribers (R365, R366, R367, R368, R372, R373, R374, R375, R472). -/
def Obligations.ProvenanceAndTaint : Prop :=
  (∀ (s : State) (stream cmdid a b c d e : Nat) (p : Prov),
    s.provOf stream cmdid = some p →
    p.prog = some a ∧ p.wts = some b ∧ p.inp = some c ∧ p.outp = some d ∧ p.end_ = some e →
    Does (.provenanceComplete stream cmdid) s fun t =>
      t.laneQ stDigest = s.laneQ stDigest ++ [(s.h O.HeladCutNumber, s.hRec 0xC1 19 0 p.part [(128, 64, p.cmdid), (192, 4, p.stream), (208, 16, p.flags ||| (if bit p.start 80 || bit e 80 then 2 ^ 7 else 0)), (256, 128, p.start), (384, 128, e), (512, 384, a), (896, 384, b), (1280, 384, c), (1664, 384, d), (2048, 384, provDigest a b c)])] ∧
      t.si.hel.provs = s.si.hel.provs.filter (fun x => x.id != p.id) ∧
      State.Same s t []) ∧
  (∀ (s : State) (stream cmdid : Nat) (p : Prov),
    s.provOf stream cmdid = some p →
    (p.prog = none ∨ p.wts = none ∨ p.inp = none ∨ p.outp = none) →
    Does (.provenanceComplete stream cmdid) s fun t =>
      t.si = s.si ∧
      State.Same s t []) ∧
  (∀ (s : State) (stream cmdid e : Nat) (p : Prov),
    s.provOf stream cmdid = some p →
    (p.prog = none ∨ p.wts = none ∨ p.inp = none ∨ p.outp = none) →
    p.end_ = some e →
    bits e 0 80 + us (s.h O.ProvHold) ≤ s.ft .hel →
    Does (.provenanceTimeout stream cmdid) s fun t =>
      t.laneQ stDigest = s.laneQ stDigest ++ [(s.h O.HeladCutNumber, s.hRec 0xC1 19 0 p.part [(128, 64, p.cmdid), (192, 4, p.stream), (208, 16, (p.flags ||| 4) ||| (if bit p.start 80 || bit e 80 then 2 ^ 7 else 0)), (256, 128, p.start), (384, 128, e), (512, 384, p.prog.getD 0), (896, 384, p.wts.getD 0), (1280, 384, p.inp.getD 0), (1664, 384, p.outp.getD 0), (2048, 384, provDigest (p.prog.getD 0) (p.wts.getD 0) (p.inp.getD 0))])] ∧
      State.Same s t []) ∧
  (∀ (s : State) (gid group sweep cause streams clean detect slot : Nat),
    s.slotOfDie gid = some slot →
    (s.i (O.FencePolicy + cause) ≠ 1 ∨ s.i O.ObserveOnly = 1) →
    Does (.taintOrder gid group sweep cause streams clean detect) s fun t =>
      t.si.notices = tset s.si.notices s.si.nextNotice ⟨slot, gid, 0xFF, cause, streams, group, sweep, clean, detect, 0, none, 0, 0⟩ ∧
      t.si.nextNotice = s.si.nextNotice + 1 ∧
      State.Same s t []) ∧
  (∀ (s : State) (gid group sweep cause streams clean detect slot : Nat),
    s.slotOfDie gid = some slot →
    s.i (O.FencePolicy + cause) = 1 →
    s.i O.ObserveOnly ≠ 1 →
    gid ≠ s.hGid →
    Does (.taintOrder gid group sweep cause streams clean detect) s fun t =>
      (∀ u, u < 256 → (bits (s.copyOf slot (inst128 O.UnitConfig u)) 0 16 &&& streams ≠ 0 → bits (tgetD t.si.perDie (slot * 256 + u) 0) 0 2 = 2) ∧ (bits (s.copyOf slot (inst128 O.UnitConfig u)) 0 16 &&& streams = 0 → tget t.si.perDie (slot * 256 + u) = tget s.si.perDie (slot * 256 + u))) ∧
      t.si.nextNotice = s.si.nextNotice + 1 ∧
      State.Same s t []) ∧
  (∀ (s : State) (gid group sweep cause streams clean detect : Nat),
    s.slotOfDie gid = none →
    Does (.taintOrder gid group sweep cause streams clean detect) s fun t =>
      t.si = s.si ∧
      State.Same s t []) ∧
  (∀ (s : State) (k : Nat) (n : Notice),
    tget s.si.notices k = some n →
    n.formed = none →
    ns n.detect + ms (s.i O.TaintSettle) ≤ s.ft .icd →
    (s.slotHeld n.slot).filter n.holds = [] →
    n.streams ≠ 0 →
    Does (.taintNoticeForm k) s fun t =>
      tget t.si.notices k = some { n with id := s.si.noticeId, formed := some (s.ft .icd), seen := s.gr.nextPos, next := s.ft .icd + ms (s.i O.TaintSettle) } ∧
      t.si.noticeId = (s.si.noticeId + 1) % 2 ^ 32 ∧
      State.Same s t []) ∧
  (∀ (s : State) (k : Nat) (n : Notice),
    tget s.si.notices k = some n →
    n.formed = none →
    ns n.detect + ms (s.i O.TaintSettle) ≤ s.ft .icd →
    n.streams = 0 →
    s.isLead = true →
    Does (.taintNoticeForm k) s fun t =>
      (tget t.si.notices k).map (fun x => (x.id, x.formed)) = some (s.si.noticeId, some (s.ft .icd)) ∧
      t.i O.TaintNotices = (s.i O.TaintNotices + 1) % 2 ^ 32) ∧
  (∀ (s : State) (k : Nat) (n : Notice),
    tget s.si.notices k = some n →
    (n.formed ≠ none ∨ s.ft .icd < ns n.detect + ms (s.i O.TaintSettle)) →
    Does (.taintNoticeForm k) s fun t =>
      t.si = s.si ∧
      State.Same s t []) ∧
  (∀ (s : State) (k f : Nat) (n : Notice),
    tget s.si.notices k = some n →
    n.formed = some f →
    n.next ≤ s.ft .icd →
    (s.slotRecs n.slot).filter (fun e => decide (n.seen ≤ e.pos ∧ e.at_ ≤ f + ms 1000) && n.holds e.rec_) = [] →
    Does (.taintFollowUp k) s fun t =>
      tget t.si.notices k = (if f + ms 1000 < s.ft .icd then none else some { n with seen := s.gr.nextPos, next := n.next + ms (s.i O.TaintSettle) }) ∧
      State.Same s t [])

/-- Cuts: issue and refusal, the latches at Helad and Icdon IX40, the summary (R383, R384, R385, R386, R391, R392, R399). -/
def Obligations.Cuts : Prop :=
  (∀ (s : State) (q : Req) (at_ arg scope : Nat),
    s.AcceptsDesc q →
    s.apexLead = true →
    s.cutRefusal at_ arg scope = none →
    s.tm.iActs.length < 1024 →
    s.ki.nextCut < 2 ^ 32 →
    Does (.cut q false at_ arg scope) s fun t =>
      t.i O.LastCutStatus = 0 ∧
      t.i O.LastCutNumber = s.ki.nextCut ∧
      t.i O.CutsOpen = s.ki.opened.length + 1 ∧
      t.ki.nextCut = (s.ki.nextCut + 1) % 2 ^ 32 ∧
      t.ki.opened = s.ki.opened ++ [(s.ki.nextCut, at_)] ∧
      t.tm.iActs.map (fun a => (a.kind, a.at_, a.handle)) = s.tm.iActs.map (fun a => (a.kind, a.at_, a.handle)) ++ [(0, at_, s.ki.nextCut)] ∧
      State.Kept s t [O.LastCutStatus, O.LastCutNumber, O.CutsOpen, O.ActionQueueFree]) ∧
  (∀ (s : State) (q : Req) (at_ arg scope c : Nat),
    s.AcceptsDesc q →
    s.apexLead = true →
    s.cutRefusal at_ arg scope = some c →
    c < 256 →
    Does (.cut q false at_ arg scope) s fun t =>
      t.i O.LastCutStatus = c ∧
      t.ki = s.ki ∧
      t.tm = s.tm ∧
      State.Same s t ([O.LastCutStatus] ++ refusalKeys)) ∧
  (∀ (s : State) (q : Req) (at_ arg scope : Nat),
    s.AcceptsDesc q →
    s.apexLead = false →
    Does (.cut q false at_ arg scope) s fun t =>
      t.ki = s.ki ∧
      t.tm = s.tm ∧
      State.Same s t refusalKeys) ∧
  (∀ (s : State) (q : Req) (timed : Bool) (at_ n : Nat),
    s.AcceptsDesc q →
    s.apexLead = true →
    (timed = false ∨ s.ft .icd + us 50 ≤ at_) →
    Does (.cutRelease q false timed at_ n) s fun t =>
      t.ki.hel.halts = s.ki.hel.halts.map (fun c => if c.cut = n then { c with end_ := min c.end_ (if timed then at_ else s.ft .hel) } else c) ∧
      State.Same s t queueKeys) ∧
  (∀ (s : State) (q : Req) (timed : Bool) (at_ n g : Nat),
    q.who = .device g →
    s.apexLead = false →
    Does (.cutRelease q false timed at_ n) s fun t =>
      t.ki.hel.halts = s.ki.hel.halts.map (fun c => if c.cut = n then { c with end_ := min c.end_ (if timed then at_ else s.ft .hel) } else c) ∧
      (s.role = 1 → ∀ k, k < 64 → t.downQ k stControl = s.downQ k stControl ++ [(s.ki.number, fwdRec 0x51 n (if timed then at_ else 0) n 0)]) ∧
      t.out = s.out ∧
      State.Same s t []) ∧
  (∀ (s : State) (a : Act),
    s.dueAct .hel = some a →
    a.kind = 0 →
    s.NoRouse →
    tget s.pw.jitter (a.handle * 16) = none →
    cutKindOf a = 0 →
    cutHaltOf a = false →
    s.ki.hel.halts = [] →
    a.handle < 2 ^ 32 →
    s.dozing = false →
    Does (.cutLatch) s fun t =>
      t.h O.HeladCutNumber = a.handle ∧
      t.ln.mark = s.ln.mark ++ (List.range 12).map (fun x => (x + 1, a.handle)) ∧
      t.ki = s.ki ∧
      t.laneQ stControl = s.laneQ stControl ++ [(a.handle, s.hRec 0xD0 7 0 0 ([(128, 32, a.handle), (160, 3, a.a), (168, 1, 0), (169, 1, 0), (170, 1, bits (s.stampOf .hel (s.ft .hel) a.stepped) 80 1), (171, 1, b2n a.stepped), (172, 1, b2n (!s.awake 3)), (192, 128, s.stampOf .hel (s.ft .hel) a.stepped), (384, 64, 0), (448, 64, 0), (512, 64, 0)] ++ ((List.range 16).map fun c => (320 + 4 * c, 4, 0)) ++ ((List.range 16).map fun c => (576 + 16 * c, 16, s.h (O.SnapLatency + c)))))] ∧
      State.Same s t [O.HeladCutNumber, O.ActionQueueFree]) ∧
  (∀ (s : State) (a : Act) (j : Nat),
    s.dueAct .hel = some a →
    a.kind = 0 →
    s.NoRouse →
    tget s.pw.jitter (a.handle * 16) = none →
    cutHaltOf a = true →
    s.awake 3 = true →
    s.bd.radio = 0 →
    s.ki.hel.halts = [] →
    j < 64 →
    bit a.c j = true →
    bit s.bd.hAck j = false →
    Does (.cutLatch) s fun t =>
      (∀ g, g < 64 → (bit a.c g = true → bit t.bd.hReq g = true) ∧ (bit a.c g = false → bit t.bd.hReq g = bit s.bd.hReq g)) ∧
      t.ki.hel.halts.map (fun c => (c.cut, c.end_)) = [(a.handle, a.at_ + us (if a.b = 0 then 10000000 else min a.b 10000000))]) ∧
  (∀ (s : State) (a : Act),
    s.dueAct .icd = some a →
    a.kind = 0 →
    Does (.icdonCutLatch) s fun t =>
      (t.ki.cuts.getLast?).map (fun c => (c.number, c.stepped, c.early)) = some (a.handle, a.stepped, false) ∧
      (t.ki.cuts.getLast?).map (fun c => c.latch) = some (some (s.stampOf .icd (s.ft .icd) a.stepped)) ∧
      (t.ki.cuts.getLast?).map (fun c => c.rx) = some ((s.ln.rx.filter fun p => s.linkInScope ((s.ki.cuts.find? fun c => c.number == a.handle).elim a.key (·.scope)) (p.1 / 16)).filterMap (fun p => p.2.expect.map fun e => (p.1, (e + 2 ^ 28 - 1) % 2 ^ 28))) ∧
      t.ki.number = a.handle ∧
      State.Same s t [O.ActionQueueFree]) ∧
  (∀ (s : State) (n : Nat) (l : Option (List (Nat × Nat))) (c : CutRec),
    s.ki.cuts.find? (fun c => c.number == n) = some c →
    s.ki.formed.contains n = false →
    (c.latch ≠ none ∨ c.cancelled = true) →
    c.at_ + s.level * us c.settle ≤ s.ft .icd →
    Does (.cutSummary ⟨n, l⟩) s fun t =>
      t.ki.formed = (n :: s.ki.formed).take 64 ∧
      t.ki.cuts = s.ki.cuts.filter (fun d => d.number != n) ∧
      t.ki.opened = s.ki.opened.filter (fun o => o.1 != n) ∧
      t.i O.CutsOpen = t.ki.opened.length ∧
      State.Kept s t ([O.CutsOpen] ++ queueKeys)) ∧
  (∀ (s : State) (k m e n u : Nat) (r : Rec) (c : CutRec),
    s.ki.cuts = [c] →
    c.number = n →
    c.cancelled = false →
    c.latch ≠ none →
    s.ki.formed.contains n = false →
    s.role = 1 →
    s.isLead = true →
    s.upPort = some u →
    bits c.arg 0 2 ≠ 2 →
    c.at_ + us c.settle ≤ s.ft .icd →
    (s.summaryRec c).1 = r →
    s.cutDies c = [(k, m, e)] →
    c.childs = [] →
    Does (.cutSummary ⟨n, none⟩) s fun t =>
      (t.portQ u 1).map (fun x => x.rec_) = (s.portQ u 1).map (fun x => x.rec_) ++ [r] ∧
      recFld r 163 2 = 1 ∧
      recFld r 184 8 = 1 ∧
      recFld r 512 32 = (if e ≤ 5 then 1 else 0) ∧
      recFld r 544 32 = (if e ≤ 2 then 1 else 0) ∧
      recFld r 576 32 = (if e = 2 then 1 else 0) ∧
      recFld r 608 32 = (if 3 ≤ e ∧ e ≤ 5 then 1 else 0) ∧
      recFld r 640 32 = (if e = 1 then 1 else 0) ∧
      recFld r 1024 32 = m % 2 ^ 32 ∧
      recFld r 1056 8 = e) ∧
  (∀ (s : State) (n : Nat) (l : Option (List (Nat × Nat))),
    s.ki.cuts.find? (fun c => c.number == n) = none →
    Does (.cutSummary ⟨n, l⟩) s fun t =>
      t.ki = s.ki ∧
      State.Same s t [])

/-- Ends of halts, and snapshot chains (R387, R388, R396, R403). -/
def Obligations.HaltsAndSnapshots : Prop :=
  (∀ (s : State) (n : Nat) (c : CutHalt),
    s.ki.hel.halts = [c] →
    c.cut = n →
    c.freeing = false →
    c.end_ ≤ s.ft .hel →
    Does (.cutHaltHoldEnd n) s fun t =>
      (∀ g, g < 64 → bit t.bd.hReq g = (bit s.bd.hReq g && !bit c.groups g)) ∧
      t.bd.hAck = s.bd.hAck ∧
      State.Same s t []) ∧
  (∀ (s : State) (n : Nat) (c : CutHalt),
    s.ki.hel.halts.find? (fun c => c.cut == n && !c.freeing) = some c →
    s.ft .hel < c.end_ →
    Does (.cutHaltHoldEnd n) s fun t =>
      t.ki = s.ki ∧
      t.bd = s.bd ∧
      State.Same s t []) ∧
  (∀ (s : State) (g : Nat),
    s.ki.hel.halts = [] →
    s.si.hel.deferred = [] →
    Does (.haltAckFall g) s fun t =>
      t.bd = { s.bd with hAck := setBit s.bd.hAck g false } ∧
      State.Same s t []) ∧
  (∀ (s : State) (g : Nat) (c : CutHalt),
    s.ki.hel.halts = [c] →
    c.freeing = true →
    c.halted = true →
    c.groups = 2 ^ g →
    g < 64 →
    bit s.bd.hReq g = false →
    s.si.hel.deferred = [] →
    Does (.haltAckFall g) s fun t =>
      t.ki.hel.halts = [] ∧
      t.laneQ stControl = s.laneQ stControl ++ [(s.h O.HeladCutNumber, s.hRec 0xD3 4 0 0 [(128, 32, c.cut), (160, 8, 1), (192, 128, s.stampOf .hel (s.ft .hel) (s.marked .hel fnRecord)), (320, 64, setBit s.bd.hAck g false), (384, 64, s.bd.hLate &&& c.groups), (448, 64, c.revoked)])] ∧
      State.Same s t []) ∧
  (∀ (s : State) (c : Nat) (bs : List Nat) (h : Shift),
    tget s.ki.hel.shifts c = some h →
    h.off + bs.length ≤ h.len →
    bs ≠ [] →
    bs.length ≤ 4064 →
    s.snapFill + bs.length ≤ 65536 →
    Does (.snapshotShiftResume [(c, bs)]) s fun t =>
      t.laneQ stEvent = s.laneQ stEvent ++ [(s.h O.HeladCutNumber, s.hRec 0xD1 (2 + (bs.length + 15) / 16) 0 0 [(128, 32, h.cut), (160, 4, c), (168, 8, 0), (176, 16, bs.length), (192, 32, h.off), (256, 8 * bs.length, bytesNat bs)])] ∧
      tget t.ki.hel.shifts c = some { h with off := h.off + bs.length } ∧
      t.h O.SnapBufferFill = t.snapFill ∧
      State.Same s t [O.SnapBufferFill]) ∧
  (∀ (s : State) (c r : Nat) (bs : List Nat) (h : Shift),
    s.ki.hel.shifts = [(c, h)] →
    h.off + bs.length = h.len →
    bs.length ≤ 4064 →
    s.snapFill + bs.length ≤ 65536 →
    Does (.snapshotShiftComplete [(c, bs)] r) s fun t =>
      t.laneQ stEvent = s.laneQ stEvent ++ [(s.h O.HeladCutNumber, s.hRec 0xD1 (2 + (bs.length + 15) / 16) 0 0 [(128, 32, h.cut), (160, 4, c), (168, 8, if bit r c then 3 else 1), (176, 16, bs.length), (192, 32, h.off), (256, 8 * bs.length, bytesNat bs)])] ∧
      tget t.ki.hel.shifts c = none ∧
      State.Same s t [O.SnapBufferFill]) ∧
  (∀ (s : State) (r : Nat),
    s.ki.hel.shifts = [] →
    Does (.snapshotShiftComplete [] r) s fun t =>
      t.ki = s.ki ∧
      State.Same s t [O.SnapBufferFill])

/-- Twins: heartbeats, silence, quorum, handover and link-up (R404, R405, R406, R407, R410, R411, R413). -/
def Obligations.TwinRoles : Prop :=
  (∀ (s : State) (p : Nat),
    s.tw.hbSent < s.ft .icd / us (max 1 (s.i O.HeartbeatInterval)) →
    s.role ≠ 0 →
    s.isLead = false →
    s.portOf 2 = some p →
    Does (.heartbeatSend) s fun t =>
      t.tw = { s.tw with hbSent := s.ft .icd / us (max 1 (s.i O.HeartbeatInterval)) } ∧
      (t.portQ p 1).map (fun e => (e.rec_, e.stream, e.link)) = (s.portQ p 1).map (fun e => (e.rec_, e.stream, e.link)) ++ [((s.heartbeat s.tw.departing).1, stControl, none)] ∧
      (∀ k, k ≠ p * 8 + 1 → tget t.up.q k = tget s.up.q k) ∧
      State.Same s t queueKeys) ∧
  (∀ (s : State) (p u : Nat),
    s.tw.hbSent < s.ft .icd / us (max 1 (s.i O.HeartbeatInterval)) →
    s.role ≠ 0 →
    s.isLead = true →
    s.upPort = some u →
    s.portOf 2 = some p →
    s.downPorts = [] →
    Does (.heartbeatSend) s fun t =>
      t.tw = { s.tw with hbSent := s.ft .icd / us (max 1 (s.i O.HeartbeatInterval)) } ∧
      (t.portQ p 1).map (fun e => (e.rec_, e.stream, e.link)) = (s.portQ p 1).map (fun e => (e.rec_, e.stream, e.link)) ++ [((s.heartbeat s.tw.departing).1, stControl, none)] ∧
      (t.portQ u 1).map (fun e => (e.rec_, e.stream, e.link)) = (s.portQ u 1).map (fun e => (e.rec_, e.stream, e.link)) ++ [((s.heartbeat s.tw.departing).1, stControl, none)] ∧
      State.Same s t queueKeys) ∧
  (∀ s : State,
    (s.ft .icd / us (max 1 (s.i O.HeartbeatInterval)) ≤ s.tw.hbSent ∨ s.role = 0) →
    Does (.heartbeatSend) s fun t =>
      t.tw = s.tw ∧
      t.up = s.up ∧
      State.Same s t []) ∧
  (∀ (s : State) (l : Nat) (r : Rec),
    l < 64 →
    tget s.tw.removed l = none →
    recFld r 137 1 = 0 →
    Does (.heartbeatReceive l r) s fun t =>
      tget t.tw.hbAt l = some (s.ft .icd) ∧
      tget t.tw.peer l = some (rSrc r) ∧
      tget t.tw.hbRun l = some (tgetD s.tw.hbRun l 0 + 1) ∧
      t.tw.silent = s.tw.silent.filter (· != l) ∧
      State.Same s t []) ∧
  (∀ (s : State) (r : Rec),
    recFld r 137 1 = 0 →
    tget s.tw.removed 64 = none →
    s.isLead = false →
    s.i O.TwinState ≠ 6 →
    s.tw.quorum = none →
    Does (.heartbeatReceive 64 r) s fun t =>
      t.tw.twinGid = rSrc r ∧
      t.tw.twinState = recFld r 128 8 ∧
      t.tw.twinDeg = (recFld r 136 1 == 1) ∧
      tget t.tw.hbAt 64 = some (s.ft .icd) ∧
      t.tw.silent = s.tw.silent.filter (· != 64) ∧
      t.i O.LeadTerm = (if recFld r 128 8 = 2 ∨ recFld r 128 8 = 6 then max (s.i O.LeadTerm) (recFld r 288 16) else s.i O.LeadTerm) ∧
      State.Same s t [O.LeadTerm]) ∧
  (∀ (s : State) (r : Rec),
    recFld r 137 1 = 0 →
    tget s.tw.removed 64 = none →
    s.i O.TwinState = 2 →
    (recFld r 128 8 = 4 ∨ recFld r 128 8 = 5) →
    s.tw.stopped = false →
    Does (.heartbeatReceive 64 r) s fun t =>
      t.i O.TwinState = 6 ∧
      t.tw.resyncAt.isSome = true ∧
      t.tw.twinState = recFld r 128 8 ∧
      State.Kept s t [O.TwinState]) ∧
  (∀ (s : State) (r : Rec),
    recFld r 137 1 = 0 →
    tget s.tw.removed 64 = none →
    s.isLead = true →
    (recFld r 128 8 = 2 ∨ recFld r 128 8 = 6) →
    s.i O.LeadTerm < recFld r 288 16 →
    Does (.heartbeatReceive 64 r) s fun t =>
      t.i O.TwinState = 5 ∧
      t.i O.LeadTerm = recFld r 288 16 ∧
      t.tw.resync = true ∧
      (∀ p, s.portUse p = 3 → p < 16 → (t.out.any fun o => o == ⟨.pin, 0x900 + p, [0]⟩) = true) ∧
      State.Kept s t [O.TwinState, O.LeadTerm]) ∧
  (∀ (s : State) (t0 : Nat),
    tget s.tw.hbAt 64 = some t0 →
    t0 + s.i O.HeartbeatMiss * us (s.i O.HeartbeatInterval) + us 50 ≤ s.ft .icd →
    s.tw.silent.contains 64 = false →
    s.i O.TwinState = 2 →
    Does (.heartbeatSilence 64) s fun t =>
      t.i O.TwinState = 6 ∧
      t.seqOf .icd 0xF3 = (s.seqOf .icd 0xF3 + 1) % 2 ^ 32 ∧
      t.tw.silent.contains 64 = true ∧
      t.tw.twinState = 0) ∧
  (∀ (s : State) (t0 : Nat),
    tget s.tw.hbAt 64 = some t0 →
    t0 + s.i O.HeartbeatMiss * us (s.i O.HeartbeatInterval) + us 50 ≤ s.ft .icd →
    s.tw.silent.contains 64 = false →
    s.i O.TwinState = 3 →
    Does (.heartbeatSilence 64) s fun t =>
      t.tw.quorum = some (s.ft .icd, s.ft .icd, [s.iGid]) ∧
      t.i O.TwinState = 3 ∧
      (t.out.any fun o => o == ⟨.eth, 0x410, [s.iGid, s.tw.twinGid, s.i O.LeadTerm] ++ s.witnesses⟩) = true) ∧
  (∀ (s : State) (l t0 : Nat),
    l < 64 →
    tget s.tw.hbAt l = some t0 →
    t0 + s.i O.HeartbeatMiss * us (s.i O.HeartbeatInterval) + us 50 ≤ s.ft .icd →
    s.tw.silent.contains l = false →
    Does (.heartbeatSilence l) s fun t =>
      t.tw.silent = (l :: s.tw.silent).eraseDups ∧
      tget t.tw.hbRun l = some 0 ∧
      t.i O.TwinState = s.i O.TwinState ∧
      t.out = s.out ∧
      State.Same s t []) ∧
  (∀ (s : State) (l t0 : Nat),
    tget s.tw.hbAt l = some t0 →
    s.ft .icd < t0 + s.i O.HeartbeatMiss * us (s.i O.HeartbeatInterval) + us 50 →
    Does (.heartbeatSilence l) s fun t =>
      t.tw = s.tw ∧
      State.Same s t []) ∧
  (∀ (s : State) (a l n p : Nat),
    (p, l) ∈ s.tw.peer →
    (tget s.tw.hbAt p).isSome = true →
    s.ft .icd < tgetD s.tw.hbAt p 0 + us 1050 →
    Does (.quorumQuery a l n) s fun t =>
      t.out = ⟨.eth, 0x411, [a, s.iGid, 0]⟩ :: s.out ∧
      t.tw = s.tw ∧
      State.Same s t []) ∧
  (∀ (s : State) (a l n : Nat),
    (∀ p, p ∈ s.tw.peer → p.2 ≠ l) →
    (∀ v, v ∈ s.tw.voted → v.1 ≠ l) →
    s.tw.quorum = none →
    Does (.quorumQuery a l n) s fun t =>
      t.out = ⟨.eth, 0x411, [a, s.iGid, 1]⟩ :: s.out ∧
      t.tw.voted = (l, n, a) :: s.tw.voted ∧
      State.Same s t []) ∧
  (∀ (s : State) (w t0 q : Nat) (l : List Nat),
    s.tw.quorum = some (t0, q, l) →
    w ∉ l →
    s.quorumNeed ≤ l.length + 1 →
    s.ft .icd ≤ t0 + ms 5 →
    s.i O.TwinState = 3 →
    (s.role = 3 → w ∈ s.witnesses) →
    Does (.quorumVote w true) s fun t =>
      t.i O.TwinState = 6 ∧
      t.i O.LeadTerm = (s.i O.LeadTerm + 1) % 2 ^ 16 ∧
      t.tw.quorum = none) ∧
  (∀ (s : State) (w t0 q : Nat) (l : List Nat),
    s.tw.quorum = some (t0, q, l) →
    Does (.quorumVote w false) s fun t =>
      t.tw = s.tw ∧
      State.Same s t []) ∧
  (∀ (s : State) (t0 q : Nat) (l : List Nat),
    s.tw.quorum = some (t0, q, l) →
    q + ms 1 ≤ s.ft .icd ∧ s.ft .icd < t0 + ms 5 →
    Does (.quorumRetry) s fun t =>
      t.tw = { s.tw with quorum := some (t0, s.ft .icd, l) } ∧
      t.out = ⟨.eth, 0x410, [s.iGid, s.tw.twinGid, s.i O.LeadTerm] ++ s.witnesses⟩ :: s.out ∧
      State.Same s t []) ∧
  (∀ (s : State) (t0 q : Nat) (l : List Nat),
    s.tw.quorum = some (t0, q, l) →
    t0 + ms 5 ≤ s.ft .icd →
    Does (.quorumDeadline) s fun t =>
      t.i O.TwinState = 5 ∧
      t.seqOf .icd 0xF3 = (s.seqOf .icd 0xF3 + 1) % 2 ^ 32 ∧
      t.tw.quorum = none ∧
      t.tw.resync = true) ∧
  (∀ (s : State) (q : Req),
    s.Accepts q O.LeadHandover 1 →
    s.tw.twinState = 3 →
    s.isLead = true →
    Does (.leadHandover q) s fun t =>
      t.tw.handover = some (s.boundaryAfter (s.ft .icd + ms 1)) ∧
      t.i O.TwinState = s.i O.TwinState ∧
      s.told t 0x413 ([s.i O.LeadTerm, s.boundaryAfter (s.ft .icd + ms 1), s.tw.posted] ++ s.pk.rings.flatMap (fun (p : Nat × Ring) => [p.1, p.2.cons])) = true) ∧
  (∀ (s : State) (q : Req),
    s.Accepts q O.LeadHandover 1 →
    s.tw.twinState ≠ 3 →
    Does (.leadHandover q) s fun t =>
      t = (s.answer q O.LeadHandover true (no stBusy) []).commit) ∧
  (∀ (s : State) (m : Option (Nat × Nat)) (b : Nat),
    s.i O.TwinState = 2 →
    s.tw.handover = some b →
    b ≤ s.ft .icd →
    s.tw.diverged = false →
    s.tw.twinState = 3 →
    Does (.handoverBoundary m) s fun t =>
      t.i O.TwinState = 3 ∧
      t.tw = { s.tw with handover := none, twinState := 2, diverged := false } ∧
      State.Kept s t [O.TwinState]) ∧
  (∀ (s : State) (m : Option (Nat × Nat)) (b : Nat),
    s.isLead = true →
    s.tw.handover = some b →
    b ≤ s.ft .icd →
    s.tw.twinState ≠ 3 →
    Does (.handoverBoundary m) s fun t =>
      t.tw = { s.tw with handover := none } ∧
      t.i O.TwinState = s.i O.TwinState ∧
      State.Same s t []) ∧
  (∀ (s : State) (n e : Nat),
    s.i O.TwinState = 3 →
    s.role ≠ 3 →
    n < 65536 →
    Does (.handoverBoundary (some (n, e))) s fun t =>
      t.i O.TwinState = 2 ∧
      t.i O.LeadTerm = (n + 1) % 2 ^ 16) ∧
  (∀ (s : State) (p g r x y n : Nat),
    s.portUse p = 2 →
    (r ≠ s.coldVal O.IcdonRole ∨ x ≠ s.coldVal O.SeriesHashSeed) →
    Does (.fabricLinkUp p g r x y n) s fun t =>
      t.i O.TwinState = 7 ∧
      t.seqOf .icd 0xF3 = (s.seqOf .icd 0xF3 + 1) % 2 ^ 32 ∧
      t.tw.quorum = none ∧
      s.told t 0x405 [s.iGid, s.coldVal O.IcdonRole, s.coldVal O.SeriesHashSeed, s.i O.TwinState, s.i O.LeadTerm] = true ∧
      t.tw.twinGid = g ∧
      t.tm.xlinkUp = true ∧
      State.Kept s t [O.TwinState]) ∧
  (∀ (s : State) (p g n : Nat),
    s.portUse p = 2 →
    s.isLead = false →
    s.i O.TwinState ≠ 7 →
    s.iGid % 2 ^ 24 < g % 2 ^ 24 →
    Does (.fabricLinkUp p g (s.coldVal O.IcdonRole) (s.coldVal O.SeriesHashSeed) 1 n) s fun t =>
      t.i O.TwinState = 2 ∧
      t.i O.LeadTerm = 1 ∧
      t.tw.twinState = 3 ∧
      State.Kept s t [O.TwinState, O.LeadTerm])

/-- Resync of a twin, and the writes it takes over (R414, R508). -/
def Obligations.TwinResync : Prop :=
  (∀ (s : State) (b : Nat),
    s.tw.resyncAt = some b →
    b ≤ s.ft .icd →
    s.isLead = true →
    Does (.resyncStart) s fun t =>
      t.tw = { s.tw with resyncAt := none, stopped := true, copied := false } ∧
      t.se = s.se ∧
      State.Same s t []) ∧
  (∀ (s : State) (b : Nat),
    s.tw.resyncAt = some b →
    b ≤ s.ft .icd →
    s.isLead = false →
    Does (.resyncStart) s fun t =>
      t.tw = { s.tw with resyncAt := none, stopped := true, copied := false } ∧
      t.se.ents = [] ∧
      t.se.steps = [] ∧
      t.gr.staging = [] ∧
      t.i O.SeriesEntries = 0 ∧
      (∀ x, x ∈ s.stepEntries → t.i (inst O.OpenSteps x.1) = 0) ∧
      State.Same s t (O.SeriesEntries :: s.stepEntries.map fun x => inst O.OpenSteps x.1)) ∧
  (∀ (s : State),
    s.isLead = true →
    s.tw.stopped = true →
    Does (.resyncCopyDone) s fun t =>
      t.tw = { s.tw with stopped := false, copied := true, resync := false } ∧
      State.Same s t []) ∧
  (∀ (s : State),
    (s.isLead = false ∨ s.tw.stopped = false) →
    Does (.resyncCopyDone) s fun t =>
      t.tw = s.tw ∧
      State.Same s t []) ∧
  (∀ (s : State) (d : Retained),
    s.isLead = false →
    s.tw.stopped = true →
    d.rebase = [] →
    d.supp = [] →
    d.steps = [] →
    Does (.resyncReceiveDone d) s fun t =>
      t.i O.TwinState = 3 ∧
      t.tw.stopped = false ∧
      t.se.ents = d.series.foldl (fun l p => tset l p.1 (serOf p.2)) [] ∧
      t.iSeq = d.seqs.foldl (fun l p => tset l p.1 p.2) s.iSeq ∧
      t.tw.parts.map (fun p => (p.1, p.2.state, p.2.effective, p.2.home, p.2.words)) =
        (d.parts.foldl (fun l p => tset l p.1 (p.2.1, p.2.2.1, p.2.2.2.1, unitsWords p.2.2.2.2)) []) ∧
      State.Kept s t [O.TwinState, O.SeriesEntries, O.PartitionsActive, O.PartitionQueueFree, O.PartitionStateOf]) ∧
  (∀ (s : State),
    s.isLead = true →
    s.tw.stopped = true →
    Does (.resyncOverrun) s fun t =>
      t.tw.stopped = false ∧
      t.tw.resync = true ∧
      t.tw.resyncAt = some (s.boundaryAfter (max (s.ft .icd + ms 1) (s.ft .icd + ms (s.i O.ResyncRetry)))) ∧
      t.gr.over_ = setBit s.gr.over_ 0 true ∧
      State.Same s t []) ∧
  (∀ (s : State) (p k v : Nat) (down : Option (Nat × Rec)) (e : WriteEnv),
    s.isLead = false →
    s.mo.pos ≤ p →
    holds .icd k = false →
    (down = none ∨ s.role ≠ 1) →
    Does (.twinWriteApply p k v down e) s fun t =>
      t.mo.pos = p ∧
      t.ln = s.ln ∧
      t.up = (s.xMsg 0x5081 [p]).up ∧
      State.Same s t []) ∧
  (∀ (s : State) (p k v : Nat) (down : Option (Nat × Rec)) (e : WriteEnv),
    (s.isLead = true ∨ p < s.mo.pos) →
    Does (.twinWriteApply p k v down e) s fun t =>
      t.mo = s.mo ∧
      State.Same s t []) ∧
  (∀ (s : State) (p v : Nat) (e : WriteEnv),
    s.isLead = false →
    s.mo.pos ≤ p →
    inRange O.HeartbeatMiss v = true →
    Does (.twinWriteApply p O.HeartbeatMiss v none e) s fun t =>
      t.mo.pos = p ∧
      t.i O.HeartbeatMiss = v ∧
      State.Same s t [O.HeartbeatMiss]) ∧
  (∀ (s : State) (p : Nat),
    s.isLead = true →
    0 < p ∧ p ≤ s.mo.pos →
    Does (.twinWriteAckTimeout p) s fun t =>
      t.tw.twinState = 5 ∧
      t.tw.resync = true ∧
      State.Same s t [])

/-- Membership of dies and the broadcast tree (R415, R416, R423, R424, R490). -/
def Obligations.MembersAndBroadcasts : Prop :=
  (∀ (s : State) (k g t0 : Nat),
    tget s.tw.badFrom k = some t0 →
    tget s.ln.dieGid k = some g →
    s.observeOnly = false →
    (s.i (O.SlotState + k) = 5 ∨ s.i (O.SlotState + k) = 6) →
    t0 + ms (s.i O.FailedRemoveHold) ≤ s.ft .icd →
    s.isMember g = true →
    (∀ c, c ∈ s.tw.changes → c.gid ≠ g) →
    Does (.failedRemoveHold k) s fun t =>
      t.tw.changes = s.tw.changes ++ [⟨g, true, 1, s.boundaryAfter (s.ft .icd)⟩] ∧
      t.tw.members = s.tw.members ∧
      State.Kept s t queueKeys) ∧
  (∀ (s : State) (k : Nat),
    s.i (O.SlotState + k) ≠ 5 ∧ s.i (O.SlotState + k) ≠ 6 →
    Does (.failedRemoveHold k) s fun t =>
      t.tw = s.tw ∧
      State.Same s t []) ∧
  (∀ (s : State) (p t0 : Nat),
    tget s.tw.hbAt p = some t0 →
    s.tw.silent.contains p = true →
    t0 + s.i O.HeartbeatMiss * us (s.i O.HeartbeatInterval) + us 50 + ms (s.i O.ChildRemoveHold) ≤ s.ft .icd →
    tget s.tw.removed p = none →
    Does (.childRemoveHold p) s fun t =>
      t.tw.changes = s.tw.changes ++ (wordsDies (tgetD s.tw.below p [])).map (fun g => ⟨g, true, 3, s.boundaryAfter (s.ft .icd)⟩) ∧
      tget t.tw.removed p = some (tgetD s.tw.below p []) ∧
      t.tw.members = s.tw.members ∧
      State.Kept s t queueKeys) ∧
  (∀ (s : State) (p : Nat),
    s.tw.silent.contains p = false →
    Does (.childRemoveHold p) s fun t =>
      t.tw = s.tw ∧
      State.Same s t []) ∧
  (∀ (s : State) (q : Req) (g : Nat),
    s.AcceptsDesc q →
    s.isMember g = true →
    g / 2 ^ 24 = 1 →
    (s.dieLink g).isSome = true →
    (s.tw.changes.any fun c => c.gid == g && c.leave) = false →
    s.role = 1 →
    Does (.dieRemove q false g) s fun t =>
      t.tw.changes = s.tw.changes ++ [⟨g, true, 2, s.boundaryAfter (s.ft .icd + ms 1)⟩] ∧
      t.tw.members = s.tw.members ∧
      State.Kept s t queueKeys) ∧
  (∀ (s : State) (q : Req) (g : Nat),
    s.AcceptsDesc q →
    s.isMember g = false →
    (s.tw.changes.any fun c => c.gid == g && !c.leave) = false →
    Does (.dieRemove q false g) s fun t =>
      t.tw = s.tw ∧
      State.Same s t (refusalKeys ++ queueKeys)) ∧
  (∀ (s : State) (q : Req) (im : List Nat),
    s.AcceptsDesc q →
    s.apexLead = true →
    s.signed (mfKind (bytesNat (im.take 128))) true (sigBlock im) = true →
    1 ≤ mfKind (bytesNat (im.take 128)) ∧ mfKind (bytesNat (im.take 128)) ≤ 5 →
    0 < bits (bytesNat (im.take 128)) 64 64 ∧ bits (bytesNat (im.take 128)) 64 64 ≤ 335544320 →
    im.length = bits (bytesNat (im.take 128)) 64 64 + 384 →
    s.tw.transfers = [] →
    mfLevel (bytesNat (im.take 128)) 3 = false →
    Does (.broadcast q im true) s fun t =>
      t.tw.nextTransfer = (s.tw.nextTransfer + 1) % 2 ^ 32 ∧
      (tget t.tw.transfers s.tw.nextTransfer).map (fun x => (x.manifest, x.size, x.since, x.cause, x.done)) = some (bytesNat (im.take 128), im.length, s.ft .icd, 0, true) ∧
      State.Kept s t ([O.TransfersOpen] ++ queueKeys)) ∧
  (∀ (s : State) (q : Req) (im : List Nat) (b : Bool),
    s.AcceptsDesc q →
    s.apexLead = true →
    (b = false ∨ (sigBlock im).getD 0 0 ≠ 1 ∨ 8 ≤ (sigBlock im).getD 1 0 ∨ bit (s.i (O.SignerKinds + (sigBlock im).getD 1 0)) 7 = false ∨
      bit (s.i (O.SignerKinds + (sigBlock im).getD 1 0)) (mfKind (bytesNat (im.take 128))) = false ∨ im.length ≠ bits (bytesNat (im.take 128)) 64 64 + 384) →
    Does (.broadcast q im b) s fun t =>
      t.tw = s.tw ∧
      State.Same s t refusalKeys) ∧
  (∀ (s : State) (r : Rec) (b : Bool),
    s.tw.transfers = [] →
    recFld r 176 8 = 1 →
    mfLevel (bytesNat ((((recBytes r).drop 48).take (recFld r 160 16)).take 128)) s.role = false →
    Does (.broadcastChunk r b) s fun t =>
      tget t.tw.transfers (recFld r 128 32) = some ⟨bytesNat ((((recBytes r).drop 48).take (recFld r 160 16)).take 128), [(recFld r 192 64, ((recBytes r).drop 48).take (recFld r 160 16))], bits (bytesNat ((((recBytes r).drop 48).take (recFld r 160 16)).take 128)) 64 64 + 384, s.ft .icd, 0, false, 0, 0, 0, 0, [], false⟩ ∧
      t.i O.TransfersOpen = 1 ∧
      State.Same s t ([O.TransfersOpen] ++ queueKeys)) ∧
  (∀ (s : State) (r : Rec) (m : Nat) (im : List Nat) (b : Bool),
    s.tw.transfers = [] →
    recFld r 176 8 = 1 →
    im = ((recBytes r).drop 48).take (recFld r 160 16) →
    m = bytesNat (im.take 128) →
    s.castOwn m = true →
    s.signerOk (mfKind m) (sigBlock im) = false →
    mfKind m ≠ 5 →
    Does (.broadcastChunk r b) s fun t =>
      (tget t.tw.transfers (recFld r 128 32)).map (fun x => (x.cause, x.done)) = some (1, true) ∧
      t.i O.BroadcastFailed = (s.i O.BroadcastFailed + 1) % 2 ^ 32 ∧
      t.i O.TransfersOpen = 0 ∧
      State.Kept s t ([O.TransfersOpen, O.BroadcastFailed] ++ queueKeys)) ∧
  (∀ (s : State) (r : Rec) (b : Bool) (x : Transfer),
    tget s.tw.transfers (recFld r 128 32) = some x →
    x.done = false →
    bit (recFld r 176 8) 1 = false →
    lsum ((tset x.chunks (recFld r 192 64) (((recBytes r).drop 48).take (recFld r 160 16))).map fun p => p.2.length) < x.size →
    Does (.broadcastChunk r b) s fun t =>
      tget t.tw.transfers (recFld r 128 32) = some { x with chunks := tset x.chunks (recFld r 192 64) (((recBytes r).drop 48).take (recFld r 160 16)) } ∧
      State.Same s t queueKeys) ∧
  (∀ (s : State) (p i o : Nat) (x : Transfer) (d : List Nat),
    tget s.tw.transfers i = some x →
    tget x.chunks o = some d →
    s.isLead = true →
    Does (.broadcastResendRequest p i [o]) s fun t =>
      t.tw = s.tw ∧
      tgetD t.iSeq 0xE4 0 = (tgetD s.iSeq 0xE4 0 + 1) % 2 ^ 32 ∧
      State.Same s t queueKeys) ∧
  (∀ (s : State) (p : Nat) (r : Rec) (x : Transfer),
    tget s.tw.transfers (recFld r 128 32) = some x →
    x.heard.contains p = false →
    x.done = false →
    Does (.broadcastStatus p r) s fun t =>
      (tget t.tw.transfers (recFld r 128 32)).map (fun y => (y.complete, y.failed, y.heard)) = some (x.complete + recFld r 160 32, x.failed + recFld r 192 32, p :: x.heard) ∧
      t.i O.BroadcastFailed = (s.i O.BroadcastFailed + recFld r 192 32) % 2 ^ 32 ∧
      State.Same s t [O.BroadcastFailed]) ∧
  (∀ (s : State) (i : Nat) (x : Transfer),
    tget s.tw.transfers i = some x →
    x.done = false →
    x.since + ms (s.i O.BroadcastTimeout) ≤ s.ft .icd →
    mfLevel x.manifest s.role = false →
    Does (.broadcastTimeout i) s fun t =>
      (tget t.tw.transfers i).map (fun y => (y.done, y.cause)) = some (true, 4) ∧
      t.i O.BroadcastFailed = (s.i O.BroadcastFailed + 1) % 2 ^ 32 ∧
      State.Kept s t ([O.BroadcastFailed, O.TransfersOpen] ++ queueKeys)) ∧
  (∀ (s : State) (i : Nat),
    tget s.tw.transfers i = none →
    Does (.broadcastTimeout i) s fun t =>
      t.tw = s.tw ∧
      State.Same s t [])

/-- Partitions: the queue of operations, their application, and the end of a partition (R418, R419, R420, R421, R422). -/
def Obligations.Partitions : Prop :=
  (∀ (s : State) (q : Req) (p : Nat) (b : Bool) (x : Rec),
    s.AcceptsDesc q →
    s.apexLead = true →
    p ≠ 0 ∧ p ≠ 0xFFFF →
    s.tw.ops.length < 256 →
    Does (.partitionCreate q p b x) s fun t =>
      t.tw.ops = s.tw.ops ++ [⟨0, p, b, unitsWords x, q⟩] ∧
      t.tw.parts = s.tw.parts ∧
      t.i O.PartitionQueueFree = 255 - s.tw.ops.length ∧
      State.Same s t [O.PartitionsActive, O.PartitionQueueFree, O.PartitionStateOf]) ∧
  (∀ (s : State) (q : Req) (p : Nat) (x : Rec),
    s.AcceptsDesc q →
    s.apexLead = true →
    p ≠ 0 ∧ p ≠ 0xFFFF →
    s.tw.ops.length < 256 →
    Does (.partitionAdd q p x) s fun t =>
      t.tw.ops = s.tw.ops ++ [⟨1, p, false, unitsWords x, q⟩] ∧
      t.tw.parts = s.tw.parts ∧
      State.Same s t [O.PartitionsActive, O.PartitionQueueFree, O.PartitionStateOf]) ∧
  (∀ (s : State) (q : Req) (p : Nat) (x : Rec),
    s.AcceptsDesc q →
    s.apexLead = true →
    p ≠ 0 ∧ p ≠ 0xFFFF →
    s.tw.ops.length < 256 →
    Does (.partitionRemove q p x) s fun t =>
      t.tw.ops = s.tw.ops ++ [⟨2, p, false, unitsWords x, q⟩] ∧
      t.tw.parts = s.tw.parts ∧
      State.Same s t [O.PartitionsActive, O.PartitionQueueFree, O.PartitionStateOf]) ∧
  (∀ (s : State) (q : Req) (p : Nat),
    s.AcceptsDesc q →
    s.apexLead = true →
    p ≠ 0 ∧ p ≠ 0xFFFF →
    s.tw.ops.length < 256 →
    Does (.partitionTeardown q p) s fun t =>
      t.tw.ops = s.tw.ops ++ [⟨3, p, false, [], q⟩] ∧
      t.tw.parts = s.tw.parts ∧
      State.Same s t [O.PartitionsActive, O.PartitionQueueFree, O.PartitionStateOf]) ∧
  (∀ (s : State) (q : Req) (p : Nat) (x : Rec),
    s.AcceptsDesc q →
    s.apexLead = true →
    (p = 0 ∨ p = 0xFFFF) →
    Does (.partitionAdd q p x) s fun t =>
      t.tw = s.tw) ∧
  (∀ (s : State) (o : PartOp) (l : List PartOp),
    s.tw.ops = o :: l →
    s.apexLead = true →
    o.op = 0 →
    s.partState o.part = 0 →
    (s.tw.parts.filter fun p => 1 ≤ p.2.state && p.2.state ≤ 5).length < 1024 →
    (wordsSub o.words s.tw.members).isEmpty = true →
    Does (.partitionOpProcess) s fun t =>
      t.tw.ops = l ∧
      tget t.tw.parts o.part = some ⟨1, s.epochFrom (s.boundaryAfter (s.ft .icd + ms 1)), o.test, o.words, s.stepHomeOf o.words, [], 0, [], 0⟩ ∧
      t.tw.members = s.tw.members) ∧
  (∀ (s : State) (o : PartOp) (l : List PartOp),
    s.tw.ops = o :: l →
    s.apexLead = true →
    o.op = 0 →
    s.partState o.part ≠ 0 →
    Does (.partitionOpProcess) s fun t =>
      t.tw.ops = l ∧
      t.tw.parts = s.tw.parts) ∧
  (∀ (s : State) (o : PartOp) (l : List PartOp) (x : Part),
    s.tw.ops = o :: l →
    s.apexLead = true →
    (o.op = 1 ∨ o.op = 2) →
    tget s.tw.parts o.part = some x →
    (x.state = 2 ∨ x.state = 3) →
    (wordsSub o.words s.tw.members).isEmpty = true →
    Does (.partitionOpProcess) s fun t =>
      t.tw.ops = l ∧
      tget t.tw.parts o.part = some { x with pend := x.pend ++ [(s.epochFrom (s.boundaryAfter (s.ft .icd + ms 1)), o.op, o.words)], home := s.stepHomeOf (wordsOp o.op x.after o.words) }) ∧
  (∀ (s : State),
    (s.tw.ops = [] ∨ s.apexLead = false) →
    Does (.partitionOpProcess) s fun t =>
      t.tw = s.tw ∧
      State.Same s t []) ∧
  (∀ (s : State) (r : Rec) (b : Bool),
    s.role = 1 →
    recFld r 128 8 = 0 →
    Does (.partitionOpApply r b) s fun t =>
      tget t.tw.parts (rPart r) = some ⟨1, recFld r 160 48, b, unitsWords ((r.drop 2).take (recFld r 240 16)), recFld r 152 8, [], 0, [], 0⟩) ∧
  (∀ (s : State) (r : Rec) (b : Bool) (x : Part),
    s.role = 1 →
    1 ≤ recFld r 128 8 ∧ recFld r 128 8 ≤ 3 →
    tget s.tw.parts (rPart r) = some x →
    Does (.partitionOpApply r b) s fun t =>
      tget t.tw.parts (rPart r) = some { x with pend := x.pend ++ [(recFld r 160 48, recFld r 128 8, unitsWords ((r.drop 2).take (recFld r 240 16)))], home := (if recFld r 128 8 = 3 then x.home else recFld r 152 8) }) ∧
  (∀ (s : State) (p : Nat) (x : Part),
    tget s.tw.parts p = some x →
    x.state = 4 →
    ns (s.i O.EpochStartNs + (x.endEpoch - s.i O.EpochNow) * s.rd.len - (s.i O.EpochNow - x.endEpoch) * s.rd.len) + ms (s.i O.SupplementHold) + 3 * us (s.i O.GracePerLevel) ≤ s.ft .icd →
    Does (.partitionDrainEnd p) s fun t =>
      tget t.tw.parts p = some { x with state := 5 }) ∧
  (∀ (s : State) (p : Nat) (x : Part),
    tget s.tw.parts p = some x →
    x.state ≠ 4 →
    Does (.partitionDrainEnd p) s fun t =>
      t.tw = s.tw ∧
      State.Same s t []) ∧
  (∀ (s : State) (p g : Nat) (x : Part),
    tget s.tw.parts p = some x →
    x.state = 5 →
    (x.sealed.contains s.iGid = true ∨ g = s.iGid) →
    (s.holders x).all (fun h => h == g || x.sealed.contains h) = true →
    Does (.partitionSealed p g) s fun t =>
      tget t.tw.parts p = some { x with sealed := (g :: x.sealed).eraseDups, state := 6, since := s.ft .icd }) ∧
  (∀ (s : State) (p g : Nat) (x : Part),
    tget s.tw.parts p = some x →
    x.state = 5 →
    x.sealed.contains s.iGid = false →
    g ≠ s.iGid →
    Does (.partitionSealed p g) s fun t =>
      tget t.tw.parts p = some { x with sealed := (g :: x.sealed).eraseDups } ∧
      State.Same s t []) ∧
  (∀ (s : State) (p : Nat) (x : Part),
    tget s.tw.parts p = some x →
    x.state = 6 →
    x.since + s.i O.PartitionQuarantine * ns 1000000000 ≤ s.ft .icd →
    Does (.partitionQuarantineEnd p) s fun t =>
      tget t.tw.parts p = none)

/-- Uplink: flits, shapers, samples, deferral and decimation (R428, R430, R433, R434, R435, R436, R437, R438, R440, R441). -/
def Obligations.UplinkScheduler : Prop :=
  (∀ (s : State) (p w : Nat),
    p < 16 →
    s.portLit p = true →
    s.waveLit p w = true →
    s.portQ p timeClass = [] →
    tget s.up.prog p = none →
    s.portPick p = none →
    Does (.flitSchedule p w) s fun t =>
      t.out = ⟨.port, p, mkFlit ⟨0, p * 16 + w, 0, 0, s.ki.number % 2, false, s.ki.number % 256, false, w == 8, false, s.portUse p == 1 && s.isLead, false, 15, 0⟩ []⟩ :: s.out ∧
      t.up = { s.up with frame := tset s.up.frame (p * 16 + w) ((tgetD s.up.frame (p * 16 + w) 0 + 1) % 1285) } ∧
      State.Same s t []) ∧
  (∀ (s : State) (p w : Nat),
    p < 16 →
    (s.portLit p = false ∨ s.waveLit p w = false) →
    Does (.flitSchedule p w) s fun t =>
      t.up = s.up ∧
      t.out = s.out ∧
      State.Same s t []) ∧
  (∀ (s : State) (p w n : Nat) (e : UpEnt),
    p < 16 →
    s.portLit p = true →
    s.waveLit p w = true →
    s.portQ p timeClass = [] →
    tget s.up.prog p = some (e, n) →
    n + 15 < e.rec_.length →
    n ≠ 0 →
    s.ki.mark = [] →
    s.up.bulkLoss = [] →
    e.link = none →
    Does (.flitSchedule p w) s fun t =>
      tget t.up.prog p = some (e, n + 15) ∧
      tget t.up.seq (p * 128 * 16 + e.stream) = some ((tgetD s.up.seq (p * 128 * 16 + e.stream) 0 + 1) % 2 ^ 28) ∧
      t.out = ⟨.port, p, mkFlit ⟨e.stream, p * 16 + w, rPart e.rec_, tgetD s.up.seq (p * 128 * 16 + e.stream) 0, e.cut % 2, false, e.cut % 256, false, w == 8, false, s.portUse p == 1 && s.isLead, false, 15, 15⟩ ((e.rec_.drop n).take 15)⟩ :: s.out ∧
      t.up.q = s.up.q ∧
      State.Same s t []) ∧
  (∀ (s : State) (q : Req) (k v : Nat),
    isShaper k = true →
    s.Accepts q k v →
    s.shaperBad k v = false →
    Does (.shaperWrite q k v) s fun t =>
      t.i k = v ∧
      tget t.up.tokens (shaperBucket k) = (if bit v 56 then some 0 else none) ∧
      t.up.spare = [] ∧
      State.Same s t [k]) ∧
  (∀ (s : State) (q : Req) (k v : Nat),
    isShaper k = true →
    s.Accepts q k v →
    s.shaperBad k v = true →
    Does (.shaperWrite q k v) s fun t =>
      t.up = s.up ∧
      State.Same s t refusalKeys) ∧
  (∀ (s : State),
    s.up.sampleK < s.ft .icd / us 1 →
    s.upPort = none →
    Does (.queueSample) s fun t =>
      t.up.sampleK = s.ft .icd / us 1 ∧
      t.up.q = s.up.q ∧
      State.Same s t []) ∧
  (∀ (s : State),
    s.ft .icd / us 1 ≤ s.up.sampleK →
    Does (.queueSample) s fun t =>
      t.up = s.up ∧
      State.Same s t []) ∧
  (∀ (s : State),
    s.up.histK < s.ft .icd / ms (max 1 (s.i O.HistogramPeriod)) →
    Does (.queueHistogram) s fun t =>
      t.up = { s.up with hist := [], histK := s.ft .icd / ms (max 1 (s.i O.HistogramPeriod)), histFrom := s.ft .icd / ms (max 1 (s.i O.HistogramPeriod)) * ms (max 1 (s.i O.HistogramPeriod)) } ∧
      State.Kept s t []) ∧
  (∀ (s : State) (r : Rec),
    s.role = 1 →
    recFld r 128 8 ≤ 1 →
    recFld r 192 32 ≠ s.tw.twinGid →
    Does (.bulkDefer r) s fun t =>
      t.up = { s.up with sched := s.up.sched ++ [(recFld r 192 32, recFld r 128 8, recFld r 256 80)] } ∧
      State.Same s t []) ∧
  (∀ (s : State) (r : Rec),
    1 < recFld r 128 8 →
    Does (.bulkDefer r) s fun t =>
      t.up = s.up ∧
      State.Same s t []) ∧
  (∀ (s : State) (o e : Nat),
    s.up.sched = [(o, 1, e)] →
    e ≤ s.ft .icd →
    s.up.origins = [] →
    Does (.bulkDeferEffective) s fun t =>
      t.up.origins = [(o, e)] ∧
      t.up.sched = [] ∧
      t.up.range = s.up.range ∧
      State.Same s t []) ∧
  (∀ (s : State) (o e f : Nat),
    s.up.sched = [(o, 0, e)] →
    e ≤ s.ft .icd →
    s.up.origins = [(o, f)] →
    Does (.bulkDeferEffective) s fun t =>
      t.up.origins = [] ∧
      t.up.resend = s.up.resend ++ sortBy rSrc s.up.range ∧
      t.up.range = [] ∧
      State.Same s t []) ∧
  (∀ (s : State) (r : Rec) (l : List Rec) (p : Nat),
    s.up.resend = r :: l →
    s.upPort = some p →
    s.up.origins = [] →
    s.up.resendAt ≤ s.ft .icd →
    s.portQ p 4 = [] →
    s.staleRecord (rPart r) (recStamp r) = false →
    Does (.deferRangeResend) s fun t =>
      t.up.resend = l ∧
      t.up.resendAt = s.ft .icd + 16 * r.length * 65536 * 1000 / max 1 (s.i O.DeferResendRate) ∧
      State.Same s t queueKeys) ∧
  (∀ (s : State) (r : Rec) (l : List Rec) (p : Nat),
    s.up.resend = r :: l →
    s.upPort = some p →
    s.up.origins = [] →
    s.up.resendAt ≤ s.ft .icd →
    s.portQ p 4 = [] →
    s.staleRecord (rPart r) (recStamp r) = true →
    Does (.deferRangeResend) s fun t =>
      t.up = { s.up with resend := l } ∧
      t.i O.StalePartitionRecords = (s.i O.StalePartitionRecords + 1) % 2 ^ 32 ∧
      State.Same s t [O.StalePartitionRecords]) ∧
  (∀ (s : State),
    s.up.resend = [] →
    Does (.deferRangeResend) s fun t =>
      t.up = s.up ∧
      State.Same s t []) ∧
  (∀ (s : State) (p : Nat),
    s.upPort = some p →
    s.up.windowK < s.ft .icd / ms 1 →
    s.isLead = false →
    Does (.resumeWindow) s fun t =>
      t.up = { s.up with windowK := s.ft .icd / ms 1, spare := ((s.effRate p - s.up.sentMs) :: s.up.spare).take (max 1 (s.i O.ResumeWindows)), sentMs := 0, bulkRate := s.up.bulkWindow, bulkWindow := 0 } ∧
      State.Same s t []) ∧
  (∀ (s : State) (p : Nat),
    s.upPort = some p →
    s.up.windowK < s.ft .icd / ms 1 →
    s.isLead = true →
    1 < s.i (inst O.DecimationFactor p) →
    max 1 (s.i O.ResumeWindows) ≤ s.up.spare.length + 1 →
    s.up.lastSet * max 1 (s.i O.ResumeWindows) ≤ lsum (((s.effRate p - s.up.sentMs) :: s.up.spare).take (max 1 (s.i O.ResumeWindows))) * (s.i (inst O.DecimationFactor p) * s.i O.ForwardInterval) →
    Does (.resumeWindow) s fun t =>
      t.i (inst O.DecimationFactor p) = s.i (inst O.DecimationFactor p) / 2 ∧
      State.Same s t [inst O.DecimationFactor p]) ∧
  (∀ (s : State) (p : Nat) (r : Rec),
    s.upPort = some p →
    s.isLead = false →
    Does (.decimationReceive 64 r) s fun t =>
      t.i (inst O.DecimationFactor p) = recFld r 136 8 ∧
      t.up.decOwed = some (s.up.decOwed.getD (s.i (inst O.DecimationFactor p))) ∧
      t.se = s.se ∧
      State.Same s t [inst O.DecimationFactor p]) ∧
  (∀ (s : State) (l : Nat) (r : Rec),
    l ≠ 64 →
    s.se.ents = [] →
    Does (.decimationReceive l r) s fun t =>
      t.se = s.se ∧
      State.Same s t []) ∧
  (∀ (s : State) (l k : Nat) (r : Rec) (e : SerEnt),
    l ≠ 64 →
    s.se.ents = [(k, e)] →
    spTransform (s.i (serParam (e.key % 4096))) = 2 →
    s.dieLink (2 ^ 24 + e.key / 4096) = some l →
    Does (.decimationReceive l r) s fun t =>
      t.se = { s.se with rebase := e.key :: s.se.rebase } ∧
      State.Same s t [])

/-- Tier 1: patrol, row and bank retirement, fill (R447, R448, R450, R451, R453, R455, R456, R199). -/
def Obligations.Tier1Maintenance : Prop :=
  (∀ (s : State) (y : Nat),
    s.pw.initDone = true →
    s.i O.ThrottleStep < 3 →
    s.me.poison = [] →
    s.me.ce = [] →
    s.me.patrol < t1Size / 64 →
    Does (.patrolRead 0 y) s fun t =>
      t.me = { s.me with patrol := s.me.patrol + 1 } ∧
      t.i O.PatrolProgress = (s.me.patrol + 1) * 1000 / (t1Size / 64) ∧
      t.gr.t2 = s.gr.t2 ∧
      (∀ sd k, k ∉ [O.PatrolProgress] → t.ob sd k = s.ob sd k)) ∧
  (∀ (s : State) (y : Nat),
    s.pw.initDone = true →
    s.i O.ThrottleStep < 3 →
    s.me.poison = [] →
    s.me.ce = [] →
    t1Size / 64 ≤ s.me.patrol →
    s.me.patrolAt + s.i O.PatrolPeriod * ns 3600000000000 ≤ s.ft .icd →
    Does (.patrolRead 0 y) s fun t =>
      t.me = { s.me with patrol := 1, patrolAt := s.me.patrolAt + s.i O.PatrolPeriod * ns 3600000000000 } ∧
      t.gr.t2 = s.gr.t2 ∧
      (∀ sd k, k ∉ [O.PatrolProgress] → t.ob sd k = s.ob sd k)) ∧
  (∀ (s : State) (y : Nat),
    s.pw.initDone = true →
    s.i O.ThrottleStep < 3 →
    s.me.poison = [] →
    s.me.patrol < t1Size / 64 →
    Does (.patrolRead 2 y) s fun t =>
      t.i O.UncorrectableCount = (s.i O.UncorrectableCount + 1) % 2 ^ 64 ∧
      t.me.poison = t.me.uncor.take 1 ∧
      t.me.uncor.drop 1 = s.me.uncor ∧
      t.me.poison.length = 1 ∧
      t.me.t1 = s.me.t1 ∧
      t.me.patrol = s.me.patrol + 1) ∧
  (∀ (s : State) (v y : Nat),
    (s.pw.initDone = false ∨ 3 ≤ s.i O.ThrottleStep ∨ (t1Size / 64 ≤ s.me.patrol ∧ s.ft .icd < s.me.patrolAt + s.i O.PatrolPeriod * ns 3600000000000)) →
    Does (.patrolRead v y) s fun t =>
      t.me = s.me ∧
      State.Same s t []) ∧
  (∀ (s : State) (q : Req) (v : Nat),
    s.Accepts q O.RowRetire v →
    v % 32 < 20 →
    bits v 15 13 < 6144 →
    bits v 28 4 = 0 →
    s.me.map.contains v = false →
    s.me.map.length < 8192 →
    Does (.rowRetire q v) s fun t =>
      t.me = { s.me with map := s.me.map ++ [v] } ∧
      t.i O.MapEntries = s.me.map.length + 1 ∧
      t.gr.t2 = s.gr.t2 ∧
      (∀ sd k, k ∉ [O.MapEntries] → t.ob sd k = s.ob sd k)) ∧
  (∀ (s : State) (q : Req) (v : Nat),
    s.Accepts q O.RowRetire v →
    (20 ≤ v % 32 ∨ 6144 ≤ bits v 15 13 ∨ bits v 28 4 ≠ 0 ∨ s.me.map.contains v = true) →
    Does (.rowRetire q v) s fun t =>
      State.Same s t refusalKeys) ∧
  (∀ (s : State) (q : Req) (v : Nat),
    s.Accepts q O.BankRetire v →
    v % 32 < 20 →
    bit v 15 = false →
    tget s.me.copying (v % 32) = none →
    s.i (O.SparesFree + v % 32) ≠ 0 →
    Does (.bankRetire q v) s fun t =>
      t.me = { s.me with copying := tset s.me.copying (v % 32) v } ∧
      t.i O.BankCopyStatus = 1 ∧
      t.gr.t2 = s.gr.t2 ∧
      (∀ sd k, k ∉ [O.BankCopyStatus] → t.ob sd k = s.ob sd k)) ∧
  (∀ (s : State) (q : Req) (v : Nat),
    s.Accepts q O.BankRetire v →
    v % 32 < 20 →
    bit v 15 = false →
    (tget s.me.copying (v % 32) ≠ none ∨ s.i (O.SparesFree + v % 32) = 0) →
    Does (.bankRetire q v) s fun t =>
      t.i O.BankCopyStatus = (if tget s.me.copying (v % 32) ≠ none then 3 else 2) ∧
      State.Same s t ([O.BankCopyStatus] ++ refusalKeys)) ∧
  (∀ (s : State) (j v : Nat),
    tget s.me.copying j = some v →
    s.i O.ThrottleStep < 3 →
    s.me.poison = [] →
    1 ≤ s.i (O.SparesFree + j) ∧ s.i (O.SparesFree + j) ≤ 16 →
    j < 20 →
    Does (.bankCopyDone j) s fun t =>
      tget t.me.banks v = some (16 - s.i (O.SparesFree + j)) ∧
      t.i (O.SparesFree + j) = s.i (O.SparesFree + j) - 1 ∧
      tget t.me.copying j = none ∧
      t.me.t1 = s.me.t1 ∧
      t.gr.t2 = s.gr.t2 ∧
      (∀ sd k, k < 0x590000 → k ∉ [O.SparesFree + j, O.BankCopyStatus] → t.ob sd k = s.ob sd k)) ∧
  (∀ (s : State) (k : Nat),
    (tget s.me.copying k = none ∨ 3 ≤ s.i O.ThrottleStep) →
    Does (.bankCopyDone k) s fun t =>
      State.Same s t []) ∧
  (∀ (s : State) (q : Req) (v : Nat),
    s.Accepts q O.FillSubmit v →
    v + s.i O.FillLength ≤ t1Size / 4096 →
    s.me.fill = none →
    Does (.fillSubmit q v) s fun t =>
      t.me = { s.me with fill := some (v, s.i O.FillLength, s.i O.FillPattern) } ∧
      t.gr.t2 = s.gr.t2 ∧
      (∀ sd k, t.ob sd k = s.ob sd k)) ∧
  (∀ (s : State) (q : Req) (v : Nat),
    s.Accepts q O.FillSubmit v →
    (t1Size / 4096 < v + s.i O.FillLength ∨ s.me.fill ≠ none) →
    Does (.fillSubmit q v) s fun t =>
      State.Same s t refusalKeys) ∧
  (∀ (s : State),
    (s.me.fill = none ∨ 3 ≤ s.i O.ThrottleStep) →
    Does (.fillDone) s fun t =>
      State.Same s t []) ∧
  (∀ (s : State) (a n pat : Nat),
    s.me.fill = some (a, n, pat) →
    s.i O.ThrottleStep < 3 →
    Memory.wf s.me.t1 = true →
    Does (.fillDone) s fun t =>
      t.me.fill = none ∧
      (∀ x, 4096 * a + 4096 * n ≤ x ∨ x < 4096 * a → memRead t.me.t1 x 1 = memRead s.me.t1 x 1) ∧
      (∀ x, 4096 * a ≤ x ∧ x < 4096 * a + 4096 * n → memRead t.me.t1 x 1 = [pat / 2 ^ (8 * ((x - 4096 * a) % 8)) % 256]) ∧
      (∀ b, b ∈ t.me.poison → 64 * b < 4096 * a ∨ 4096 * a + 4096 * n ≤ 64 * b) ∧
      t.gr.t2 = s.gr.t2 ∧
      (∀ sd k, k < 0x590000 → k ∉ [] → t.ob sd k = s.ob sd k))

/-- Message and level sources, completions, queue pointers and privileged sources (R459, R461, R462, R463, R464, R465, R466, R467). -/
def Obligations.InterruptQueues : Prop :=
  (∀ (s : State) (n q : Nat) (r : Rec),
    n < 0x200 →
    bit (s.i (inst128 O.IrqSource n)) 0 = true →
    bit (s.i (inst128 O.IrqSource n)) 2 = false →
    bits (s.i (inst128 O.IrqSource n)) 8 6 = q →
    bits (s.i (inst128 O.IrqSource n)) 32 3 < s.i O.RecorderMinSeverity →
    bits (s.i (inst128 O.IrqStatus n)) 0 8 < 255 →
    s.queueOn q = true →
    s.queueFull q = false →
    s.queueFull 0 = false →
    q ≠ 0 →
    n ≠ 8 →
    rType r ≠ 0xF3 ∧ rType r ≠ 0xF4 →
    Does (.eventPost n r) s fun t =>
      t.i (inst128 O.IrqStatus n) = statusWord (bits (s.i (inst128 O.IrqStatus n)) 0 8 + 1) true false 0 ∧
      t.i (inst O.QueueProducer q) = (s.i (inst O.QueueProducer q) + 1) % 2 ^ 32 ∧
      (tgetD t.ir.queues q []).length = (tgetD s.ir.queues q []).length + 1 ∧
      ((tgetD t.ir.queues q []).getLast?).map (fun e => (bits e.word 0 12, bits e.word 16 8, bits e.word 24 8, bits e.word 32 3, bits e.word 96 32, bits e.word 128 128)) = some (n, bits (s.i (inst128 O.IrqStatus n)) 0 8 + 1, bits (s.i (inst128 O.IrqStatus n)) 16 8, bits (s.i (inst128 O.IrqSource n)) 32 3, s.i (inst O.QueueProducer q), (s.takeStamp .icd fnQueue).1) ∧
      State.Same s t [inst128 O.IrqStatus n, inst O.QueueProducer q]) ∧
  (∀ (s : State) (n q : Nat) (r : Rec),
    n < 0x200 →
    bit (s.i (inst128 O.IrqSource n)) 0 = true →
    bit (s.i (inst128 O.IrqSource n)) 2 = false →
    bits (s.i (inst128 O.IrqSource n)) 8 6 = q →
    s.queueOn q = false →
    s.queueFull 0 = false →
    n ≠ 8 →
    rType r ≠ 0xF4 →
    Does (.eventPost n r) s fun t =>
      t.i (inst128 O.IrqStatus n) = statusWord (bits (s.i (inst128 O.IrqStatus n)) 0 8) (decide (0 < bits (s.i (inst128 O.IrqStatus n)) 0 8)) false (min 255 (bits (s.i (inst128 O.IrqStatus n)) 16 8 + 1)) ∧
      t.ir = { s.ir with conds := s.ir.conds.filter (· != 8) } ∧
      State.Same s t [inst128 O.IrqStatus n]) ∧
  (∀ (s : State) (n : Nat) (r : Rec),
    n < 0x200 →
    bit (s.i (inst128 O.IrqSource n)) 2 = false →
    s.queueFull 0 = false →
    rType r ≠ 0xF4 →
    bit (s.i (inst128 O.IrqSource n)) 0 = false →
    Does (.eventPost n r) s fun t =>
      t.ir = { s.ir with conds := s.ir.conds.filter (· != 8) } ∧
      State.Same s t []) ∧
  (∀ (s : State) (n q : Nat),
    n < 0x200 →
    s.ir.conds.contains n = false →
    bit (s.i (inst128 O.IrqSource n)) 0 = true →
    bit (s.i (inst128 O.IrqSource n)) 2 = false →
    bits (s.i (inst128 O.IrqSource n)) 8 6 = q →
    bits (s.i (inst128 O.IrqSource n)) 32 3 < s.i O.RecorderMinSeverity →
    bit (s.i (inst128 O.IrqStatus n)) 8 = false →
    s.queueOn q = true →
    s.queueFull q = false →
    n ≠ 8 →
    (q ≠ 0 ∧ s.queueFull 0 = false) →
    Does (.levelSourceRise n) s fun t =>
      t.ir.conds = (n :: s.ir.conds).filter (· != 8) ∧
      t.i (inst128 O.IrqStatus n) = statusWord 0 true true 0 ∧
      t.i (inst O.QueueProducer q) = (s.i (inst O.QueueProducer q) + 1) % 2 ^ 32 ∧
      State.Same s t [inst128 O.IrqStatus n, inst O.QueueProducer q]) ∧
  (∀ (s : State) (n : Nat),
    s.ir.conds.contains n = true →
    Does (.levelSourceRise n) s fun t =>
      t.ir = s.ir ∧
      State.Same s t []) ∧
  (∀ (s : State) (n q : Nat),
    n < 0x200 →
    n ≠ 8 →
    s.ir.conds.contains n = false →
    bit (s.i (inst128 O.IrqSource n)) 0 = true →
    bit (s.i (inst128 O.IrqSource n)) 2 = false →
    bits (s.i (inst128 O.IrqSource n)) 8 6 = q →
    bit (s.i (inst128 O.IrqStatus n)) 8 = false →
    s.queueOn q = true →
    s.queueFull q = true →
    Does (.levelSourceRise n) s fun t =>
      t.ir = { s.ir with conds := n :: s.ir.conds, owed := s.ir.owed ++ [2 * n] } ∧
      t.i (inst128 O.IrqStatus n) = statusWord 0 true true (bits (s.i (inst128 O.IrqStatus n)) 16 8) ∧
      State.Same s t [inst128 O.IrqStatus n]) ∧
  (∀ (s : State) (n q : Nat),
    n < 0x200 →
    s.ir.conds.contains n = false →
    bit (s.i (inst128 O.IrqSource n)) 0 = true →
    bit (s.i (inst128 O.IrqSource n)) 2 = false →
    bits (s.i (inst128 O.IrqSource n)) 8 6 = q →
    bit (s.i (inst128 O.IrqStatus n)) 8 = false →
    s.queueOn q = false →
    Does (.levelSourceRise n) s fun t =>
      t.ir = { s.ir with conds := n :: s.ir.conds } ∧
      t.i (inst128 O.IrqStatus n) = statusWord 0 false true (min 255 (bits (s.i (inst128 O.IrqStatus n)) 16 8 + 1)) ∧
      State.Same s t [inst128 O.IrqStatus n]) ∧
  (∀ (s : State) (n : Nat),
    s.ir.conds.contains n = false →
    bit (s.i (inst128 O.IrqStatus n)) 8 = true →
    Does (.levelSourceRise n) s fun t =>
      t.ir = { s.ir with conds := n :: s.ir.conds } ∧
      State.Same s t []) ∧
  (∀ (s : State) (q : Req) (v n : Nat),
    s.Accepts q O.IrqCompletion v →
    bits v 0 12 = n →
    0x100 ≤ n ∧ n < 0x200 →
    bit (s.i (inst128 O.IrqStatus n)) 8 = true →
    bit (s.i (inst128 O.IrqSource n)) 1 = true →
    s.ir.conds.contains n = false →
    s.queueFull 0 = false →
    Does (.completion q v) s fun t =>
      t.i (inst128 O.IrqStatus n) = statusWord 0 false false (bits (s.i (inst128 O.IrqStatus n)) 16 8) ∧
      State.Same s t [inst128 O.IrqStatus n]) ∧
  (∀ (s : State) (q : Req) (v n m : Nat),
    s.Accepts q O.IrqCompletion v →
    bits v 0 12 = n →
    0x100 ≤ n ∧ n < 0x200 →
    bit (s.i (inst128 O.IrqStatus n)) 8 = true →
    bit (s.i (inst128 O.IrqSource n)) 1 = true →
    bit (s.i (inst128 O.IrqSource n)) 2 = false →
    bits (s.i (inst128 O.IrqSource n)) 8 6 = m →
    bits (s.i (inst128 O.IrqSource n)) 32 3 < s.i O.RecorderMinSeverity →
    s.ir.conds.contains n = true →
    m ≠ 0 →
    s.queueOn m = true →
    s.queueFull m = false →
    s.queueFull 0 = false →
    Does (.completion q v) s fun t =>
      t.i (inst128 O.IrqStatus n) = statusWord 0 true true 0 ∧
      t.i (inst O.QueueProducer m) = (s.i (inst O.QueueProducer m) + 1) % 2 ^ 32 ∧
      ((tgetD t.ir.queues m []).getLast?).map (fun e => (bits e.word 0 12, bits e.word 12 2, bits e.word 96 32)) = some (n, 3, s.i (inst O.QueueProducer m)) ∧
      State.Same s t [inst128 O.IrqStatus n, inst O.QueueProducer m]) ∧
  (∀ (s : State) (q : Req) (v : Nat),
    s.Accepts q O.IrqCompletion v →
    16 ≤ bits v 0 12 →
    bit (s.i (inst128 O.IrqStatus (bits v 0 12))) 8 = true →
    bit (s.i (inst128 O.IrqSource (bits v 0 12))) 1 = false →
    bits v 12 8 ≤ bits (s.i (inst128 O.IrqStatus (bits v 0 12))) 0 8 →
    s.queueFull 0 = false →
    Does (.completion q v) s fun t =>
      t.i (inst128 O.IrqStatus (bits v 0 12)) = statusWord (bits (s.i (inst128 O.IrqStatus (bits v 0 12))) 0 8 - bits v 12 8) (decide (0 < bits (s.i (inst128 O.IrqStatus (bits v 0 12))) 0 8 - bits v 12 8)) false (bits (s.i (inst128 O.IrqStatus (bits v 0 12))) 16 8) ∧
      t.i O.StrayCompletions = s.i O.StrayCompletions ∧
      State.Same s t [inst128 O.IrqStatus (bits v 0 12)]) ∧
  (∀ (s : State) (q : Req) (v : Nat),
    s.Accepts q O.IrqCompletion v →
    16 ≤ bits v 0 12 →
    bit (s.i (inst128 O.IrqStatus (bits v 0 12))) 8 = false →
    s.queueFull 0 = false →
    Does (.completion q v) s fun t =>
      t.i O.StrayCompletions = (s.i O.StrayCompletions + 1) % 2 ^ 32 ∧
      State.Same s t [O.StrayCompletions]) ∧
  (∀ (s : State) (q : Req) (v n : Nat),
    s.Accepts q O.SoftPost v →
    0xF00 ≤ v ∧ v ≤ 0xFFF →
    bit (s.i (inst128 O.IrqSource v)) 0 = true →
    bit (s.i (inst128 O.IrqSource v)) 2 = false →
    bits (s.i (inst128 O.IrqSource v)) 8 6 = n →
    n ≠ 0 →
    bits (s.i (inst128 O.IrqSource v)) 32 3 < s.i O.RecorderMinSeverity →
    bits (s.i (inst128 O.IrqStatus v)) 0 8 < 255 →
    s.queueOn n = true →
    s.queueFull n = false →
    s.queueFull 0 = false →
    Does (.softPost q v) s fun t =>
      t.i (inst128 O.IrqStatus v) = statusWord (bits (s.i (inst128 O.IrqStatus v)) 0 8 + 1) true false 0 ∧
      t.i (inst O.QueueProducer n) = (s.i (inst O.QueueProducer n) + 1) % 2 ^ 32 ∧
      State.Same s t [inst128 O.IrqStatus v, inst O.QueueProducer n]) ∧
  (∀ (s : State) (q : Req) (v : Nat),
    s.Accepts q O.SoftPriv v →
    (v = 14 ∨ v = 15) →
    tgetD s.ir.wait (s.i (inst O.PrivTarget v)) [] = [] →
    tgetD s.ir.nest (s.i (inst O.PrivTarget v)) [] = [] →
    Does (.softPriv q v) s fun t =>
      tgetD t.ir.nest (s.i (inst O.PrivTarget v)) [] = [v] ∧
      tget t.ir.vec (s.i (inst O.PrivTarget v)) = some (s.i (inst O.PrivVector v)) ∧
      bit (t.i (inst128 O.IrqStatus v)) 8 = true) ∧
  (∀ (s : State) (p d m : Nat),
    p < 16 →
    privIsLevel p = false →
    tgetD s.ir.wait (s.i (inst O.PrivTarget p)) [] = [] →
    tgetD s.ir.nest (s.i (inst O.PrivTarget p)) [] = [m] →
    m ≤ p →
    Does (.privilegedSource p d) s fun t =>
      tgetD t.ir.nest (s.i (inst O.PrivTarget p)) [] = [m] ∧
      tgetD t.ir.wait (s.i (inst O.PrivTarget p)) [] = [p] ∧
      bit (t.i (inst128 O.IrqStatus p)) 8 = true) ∧
  (∀ (s : State) (p d : Nat),
    privIsLevel p = true →
    s.ir.conds.contains p = true →
    Does (.privilegedSource p d) s fun t =>
      t.ir = s.ir ∧
      State.Same s t []) ∧
  (∀ (s : State) (q : Req) (n v : Nat),
    s.Accepts q (inst O.QueueConsumer n) v →
    n < 64 →
    n ≠ 0 →
    (v + 2 ^ 32 - s.i (inst O.QueueConsumer n)) % 2 ^ 32 ≤ (s.i (inst O.QueueProducer n) + 2 ^ 32 - s.i (inst O.QueueConsumer n)) % 2 ^ 32 →
    v < 2 ^ 32 →
    s.ir.owed = [] →
    s.queueFull 0 = false →
    Does (.consumerWrite q n v) s fun t =>
      t.i (inst O.QueueConsumer n) = v ∧
      tgetD t.ir.queues n [] = (tgetD s.ir.queues n []).drop ((v + 2 ^ 32 - s.i (inst O.QueueConsumer n)) % 2 ^ 32) ∧
      State.Same s t [inst O.QueueConsumer n]) ∧
  (∀ (s : State) (q : Req) (n v : Nat),
    s.Accepts q (inst O.QueueConsumer n) v →
    n < 64 →
    n ≠ 0 →
    (s.i (inst O.QueueProducer n) + 2 ^ 32 - s.i (inst O.QueueConsumer n)) % 2 ^ 32 < (v + 2 ^ 32 - s.i (inst O.QueueConsumer n)) % 2 ^ 32 →
    s.ir.owed = [] →
    s.queueFull 0 = false →
    Does (.consumerWrite q n v) s fun t =>
      t.i (inst O.QueueConsumer n) = s.i (inst O.QueueProducer n) ∧
      State.Same s t [inst O.QueueConsumer n]) ∧
  (∀ (s : State) (q : Req) (n v : Nat),
    s.Accepts q (inst O.QueueBase n) v →
    n < 64 →
    v % 4096 = 0 →
    s.queueOverlap n (s.i (inst O.QueueControl n)) v = false →
    s.i (inst O.QueueProducer n) = s.i (inst O.QueueConsumer n) →
    Does (.queueControlWrite q n true v) s fun t =>
      t.i (inst O.QueueBase n) = v ∧
      t.ir = s.ir ∧
      State.Same s t [inst O.QueueBase n]) ∧
  (∀ (s : State) (q : Req) (n v : Nat),
    s.Accepts q (inst O.QueueBase n) v →
    v % 4096 ≠ 0 →
    Does (.queueControlWrite q n true v) s fun t =>
      t.ir = s.ir ∧
      State.Same s t refusalKeys) ∧
  (∀ (s : State) (q : Req) (n v : Nat),
    s.Accepts q (inst O.QueueControl n) v →
    n < 64 →
    n ≠ 0 →
    bits v 27 37 = 0 ∧ bits v 1 3 ≤ 4 ∧ bits v 4 12 ≤ 2047 ∧ 6 ≤ bits v 16 5 ∧ bits v 16 5 ≤ 16 ∧ 12 ≤ bits v 21 5 ∧ bits v 21 5 ≤ 26 →
    s.queueOverlap n v (s.i (inst O.QueueBase n)) = false →
    s.i (inst O.QueueProducer n) = s.i (inst O.QueueConsumer n) →
    bit v 26 = true →
    s.ir.owed = [] →
    s.queueFull 0 = false →
    Does (.queueControlWrite q n false v) s fun t =>
      t.i (inst O.QueueControl n) = v - 2 ^ 26 ∧
      State.Same s t [inst O.QueueControl n])

/-- Error contexts, observe-only mode and the event recorder (R471, R472, R473, R474, R476, R477, R469). -/
def Obligations.EventRecorder : Prop :=
  (∀ (s : State) (n u : Nat) (r : Rec),
    n < 0x200 →
    rType r ≠ 0xF3 ∧ rType r ≠ 0xF4 →
    bit (s.i (inst128 O.IrqSource n)) 2 = true →
    bits (s.i (inst128 O.IrqSource n)) 16 16 = u →
    (s.ir.ctxs.find? fun p => p.2.unit == u) = none →
    s.freeCtx = none →
    s.ir.pend.any (fun c => c.unit == u) = false →
    s.ir.pend.length < 256 →
    Does (.eventPost n r) s fun t =>
      t.ir.ctxs = s.ir.ctxs ∧
      t.ir.pend = s.ir.pend ++ [⟨u, bits (s.i (inst128 O.IrqSource n)) 32 3, 1, n, n, s.stampOf .icd (s.ft .icd) (s.marked .icd fnContext), s.stampOf .icd (s.ft .icd) (s.marked .icd fnContext)⟩] ∧
      t.i O.PendingUnits = s.ir.pend.length + 1) ∧
  (∀ (s : State) (n u k : Nat) (r : Rec),
    n < 0x200 →
    rType r ≠ 0xF3 ∧ rType r ≠ 0xF4 →
    bit (s.i (inst128 O.IrqSource n)) 2 = true →
    bits (s.i (inst128 O.IrqSource n)) 16 16 = u →
    (s.ir.ctxs.find? fun p => p.2.unit == u) = none →
    s.freeCtx = some k →
    Does (.eventPost n r) s fun t =>
      tget t.ir.ctxs k = some ⟨u, bits (s.i (inst128 O.IrqSource n)) 32 3, 1, n, n, s.stampOf .icd (s.ft .icd) (s.marked .icd fnContext), s.stampOf .icd (s.ft .icd) (s.marked .icd fnContext)⟩ ∧
      (∀ j, j ≠ k → tget t.ir.ctxs j = tget s.ir.ctxs j) ∧
      t.ir.pend = s.ir.pend) ∧
  (∀ (s : State) (n u k : Nat) (c : ErrCtx) (r : Rec),
    n < 0x200 →
    rType r ≠ 0xF3 ∧ rType r ≠ 0xF4 →
    bit (s.i (inst128 O.IrqSource n)) 2 = true →
    bits (s.i (inst128 O.IrqSource n)) 16 16 = u →
    (s.ir.ctxs.find? fun p => p.2.unit == u) = some (k, c) →
    Does (.eventPost n r) s fun t =>
      tget t.ir.ctxs k = some { c with joined := min (2 ^ 32 - 1) (c.joined + 1), sev := max c.sev (bits (s.i (inst128 O.IrqSource n)) 32 3), last := n, lastFt := s.stampOf .icd (s.ft .icd) (s.marked .icd fnContext) } ∧
      (∀ j, j ≠ k → tget t.ir.ctxs j = tget s.ir.ctxs j) ∧
      t.ir.pend = s.ir.pend) ∧
  (∀ (s : State) (n u : Nat) (r : Rec),
    n < 0x200 →
    rType r ≠ 0xF3 ∧ rType r ≠ 0xF4 →
    bit (s.i (inst128 O.IrqSource n)) 2 = true →
    bits (s.i (inst128 O.IrqSource n)) 16 16 = u →
    (s.ir.ctxs.find? fun p => p.2.unit == u) = none →
    s.freeCtx = none →
    s.ir.pend.any (fun c => c.unit == u) = false →
    256 ≤ s.ir.pend.length →
    Does (.eventPost n r) s fun t =>
      t.i O.ObserveOnly = 1 ∧
      t.ir.ctxs = s.ir.ctxs ∧
      t.ir.pend = s.ir.pend) ∧
  (∀ (s : State) (q : Req) (v n : Nat),
    s.Accepts q O.ErrorClose v →
    bits v 0 4 = n →
    tget s.ir.ctxs n = none →
    Does (.errorClose q v) s fun t =>
      t.i O.StrayCompletions = (s.i O.StrayCompletions + 1) % 2 ^ 32 ∧
      t.ir = s.ir ∧
      State.Same s t [O.StrayCompletions]) ∧
  (∀ (s : State) (q : Req) (v n : Nat) (c : ErrCtx),
    s.Accepts q O.ErrorClose v →
    bits v 0 4 = n →
    tget s.ir.ctxs n = some c →
    c.joined ≤ bits v 32 32 →
    s.ir.pend = [] →
    Does (.errorClose q v) s fun t =>
      tget t.ir.ctxs n = none ∧
      t.i O.PendingUnits = 0) ∧
  (∀ (s : State) (q : Req) (v n : Nat) (c p : ErrCtx) (l : List ErrCtx),
    s.Accepts q O.ErrorClose v →
    bits v 0 4 = n →
    tget s.ir.ctxs n = some c →
    c.joined ≤ bits v 32 32 →
    s.ir.pend = p :: l →
    Does (.errorClose q v) s fun t =>
      tget t.ir.ctxs n = some p ∧
      t.ir.pend = l) ∧
  (∀ (s : State) (q : Req) (v n : Nat) (c : ErrCtx),
    s.Accepts q O.ErrorClose v →
    bits v 0 4 = n →
    tget s.ir.ctxs n = some c →
    bits v 32 32 < c.joined →
    Does (.errorClose q v) s fun t =>
      t.ir.ctxs = s.ir.ctxs ∧
      t.ir.pend = s.ir.pend) ∧
  (∀ (s : State) (q : Req),
    s.Accepts q O.ObserveOnlyExit 1 →
    s.ir.pend.length < 128 →
    s.i O.ObserveOnly = 1 →
    Does (.observeOnlyExit q 1) s fun t =>
      t.i O.ObserveOnly = 0 ∧
      t.ir.conds.contains 3 = false) ∧
  (∀ (s : State) (q : Req) (v : Nat),
    s.Accepts q O.ObserveOnlyExit v →
    (v ≠ 1 ∨ 128 ≤ s.ir.pend.length) →
    Does (.observeOnlyExit q v) s fun t =>
      t.ir = s.ir ∧
      State.Same s t refusalKeys) ∧
  (∀ (s : State) (q : Req) (v : Nat),
    s.Accepts q O.RecorderWrite v →
    bits v 48 10 ≤ 960 →
    bits v 58 6 = 0 →
    bits v 0 48 + bits v 48 10 ≤ t1Size →
    s.inRegion mgmtReads (bits v 0 48) (bits v 48 10) = true →
    s.me.poison = [] →
    s.me.ce = [] →
    s.ir.rateSec = s.ft .icd / ns 1000000000 →
    s.ir.rateCnt < 10000 →
    Does (.recorderWrite q v) s fun t =>
      t.ir.rateCnt = s.ir.rateCnt + 1 ∧
      t.me = s.me ∧
      (t.ir.log.getLast?).map (fun e => (recFld e.2.2 216 12, recFld e.2.2 203 5)) = some (0x0B0, 0)) ∧
  (∀ (s : State) (q : Req) (v : Nat),
    s.Accepts q O.RecorderWrite v →
    (960 < bits v 48 10 ∨ bits v 58 6 ≠ 0) →
    Does (.recorderWrite q v) s fun t =>
      t.ir = s.ir ∧
      State.Same s t refusalKeys) ∧
  (∀ (s : State),
    s.ir.rateSec ≠ s.ft .icd / ns 1000000000 →
    s.ir.dropSum = 0 →
    Does (.recorderSummary) s fun t =>
      t.ir = { s.ir with rateSec := s.ft .icd / ns 1000000000, rateCnt := 0 } ∧
      State.Same s t []) ∧
  (∀ (s : State),
    s.ir.rateSec ≠ s.ft .icd / ns 1000000000 →
    s.ir.dropSum ≠ 0 →
    Does (.recorderSummary) s fun t =>
      t.ir.dropSum = 0 ∧
      (t.ir.log.getLast?).map (fun e => (recFld e.2.2 203 5, recFld e.2.2 216 12)) = some (8, 0x0B0)) ∧
  (∀ (s : State) (q : Req) (v : Nat),
    s.Accepts q O.RecorderCursor v →
    (s.ir.log = [] ∨ s.i O.RecorderFirst ≤ v) →
    Does (.recorderCursor q v) s fun t =>
      t.i O.RecorderCursor = v ∧
      bit (t.i O.RecorderStatus) 0 = false ∧
      t.ir.window.length = 256 ∧
      t.ir.log = s.ir.log ∧
      State.Same s t [O.RecorderCursor, O.RecorderStatus]) ∧
  (∀ (s : State) (q : Req) (v : Nat),
    s.Accepts q O.RecorderCursor v →
    s.ir.log ≠ [] →
    v < s.i O.RecorderFirst →
    Does (.recorderCursor q v) s fun t =>
      t.i O.RecorderCursor = s.i O.RecorderFirst ∧
      bit (t.i O.RecorderStatus) 0 = true ∧
      State.Same s t [O.RecorderCursor, O.RecorderStatus]) ∧
  (∀ (s : State) (q : Req) (v : Nat),
    s.Accepts q O.RecorderClearArm v →
    Does (.recorderClearArm q v) s fun t =>
      t.ir = { s.ir with arm := some (v, s.ft .icd, s.i O.RecorderLast) } ∧
      bit (t.i O.RecorderStatus) 1 = true ∧
      State.Same s t [O.RecorderStatus]) ∧
  (∀ (s : State) (q : Req) (v a l : Nat),
    s.Accepts q O.RecorderClear v →
    s.ir.arm = some (v, a, l) →
    s.ft .icd ≤ a + ms 10000 →
    Does (.recorderClear q v) s fun t =>
      t.ir.arm = none ∧
      (∀ e, e ∈ t.ir.log → v < e.1 ∨ l < e.1 ∨ e.1 = s.ir.recSeq) ∧
      (t.ir.log.getLast?).map (fun e => recFld e.2.2 203 5) = some 16) ∧
  (∀ (s : State) (q : Req) (v w a l : Nat),
    s.Accepts q O.RecorderClear v →
    s.ir.arm = some (w, a, l) →
    (w ≠ v ∨ a + ms 10000 < s.ft .icd) →
    Does (.recorderClear q v) s fun t =>
      t.ir = { s.ir with arm := none } ∧
      State.Same s t ([O.RecorderStatus] ++ refusalKeys)) ∧
  (∀ (s : State) (w a l : Nat),
    s.ir.arm = some (w, a, l) →
    a + ms 10000 ≤ s.ft .icd →
    Does (.recorderClearArmExpiry) s fun t =>
      t.ir = { s.ir with arm := none } ∧
      bit (t.i O.RecorderStatus) 1 = false ∧
      State.Same s t [O.RecorderStatus])

/-- VFs, IDE streams, TDISP states and the tenants' power tick (R119, R483, R484, R485, R486, R501). -/
def Obligations.TenantInterfaces : Prop :=
  (∀ (s : State) (q : Req) (v p : Nat),
    s.Accepts q (vfKey O.VfPartition v) p →
    1 ≤ v ∧ v ≤ s.i O.VfCount →
    s.i (vfKey O.TdiState v) = 0 →
    (p = 0 ∨ ((s.partState p = 2 ∨ s.partState p = 3) ∧ s.vfOf p = none)) →
    Does (.vfBind q v p) s fun t =>
      t.i (vfKey O.VfPartition v) = p ∧
      State.Same s t [vfKey O.VfPartition v]) ∧
  (∀ (s : State) (q : Req) (v p : Nat),
    s.Accepts q (vfKey O.VfPartition v) p →
    1 ≤ v ∧ v ≤ s.i O.VfCount →
    s.i (vfKey O.TdiState v) ≠ 0 →
    Does (.vfBind q v p) s fun t =>
      t = (s.answer q (vfKey O.VfPartition v) true (no stBusy) []).commit) ∧
  (∀ (s : State) (q : Req) (v p : Nat),
    s.Accepts q (vfKey O.VfPartition v) p →
    1 ≤ v ∧ v ≤ s.i O.VfCount →
    s.i (vfKey O.TdiState v) = 0 →
    p ≠ 0 →
    ((s.partState p ≠ 2 ∧ s.partState p ≠ 3) ∨ (s.vfOf p).any (fun w => w != v) = true) →
    Does (.vfBind q v p) s fun t =>
      t = (s.answer q (vfKey O.VfPartition v) true (no stBusy) []).commit) ∧
  (∀ (s : State) (e v : Nat),
    s.doeUp = true →
    s.secured e = true →
    Does (.ideQuery e v) s fun t =>
      t.out = ⟨.reply, 0x3002, [1, v, 1, 1, 2, b2n (s.ideOf v).set_.isSome]⟩ :: s.out ∧
      t.sc = s.sc ∧
      State.Same s t []) ∧
  (∀ (s : State) (e v x y z : Nat),
    s.doeUp = true →
    s.secured e = true →
    (s.ideOf v).set_ ≠ some x →
    Does (.keyProg e v x y z) s fun t =>
      t.ideOf v = { s.ideOf v with keys := tset (s.ideOf v).keys (x * 2 + y) z } ∧
      State.Same s t []) ∧
  (∀ (s : State) (e v x y z : Nat),
    (s.doeUp = false ∨ s.secured e = false ∨ (s.ideOf v).set_ = some x) →
    Does (.keyProg e v x y z) s fun t =>
      t.sc = s.sc ∧
      State.Same s t []) ∧
  (∀ (s : State) (e v x a b : Nat),
    s.doeUp = true →
    s.secured e = true →
    tget (s.ideOf v).keys (x * 2) = some a →
    tget (s.ideOf v).keys (x * 2 + 1) = some b →
    Does (.kSetGo e v x) s fun t =>
      t.ideOf v = { s.ideOf v with set_ := some x } ∧
      State.Same s t []) ∧
  (∀ (s : State) (e v x : Nat),
    s.doeUp = true →
    s.secured e = true →
    1 ≤ v ∧ v ≤ 256 →
    (s.ideOf v).set_ = some x →
    (s.i (vfKey O.TdiState v) = 1 ∨ s.i (vfKey O.TdiState v) = 2) →
    Does (.kSetStop e v x) s fun t =>
      t.ideOf v = ⟨[], none⟩ ∧
      t.i (vfKey O.TdiState v) = 3 ∧
      State.Same s t [vfKey O.TdiState v]) ∧
  (∀ (s : State) (e v x : Nat),
    s.doeUp = true →
    s.secured e = true →
    (s.ideOf v).set_ ≠ some x →
    Does (.kSetStop e v x) s fun t =>
      t.ideOf v = { s.ideOf v with keys := (s.ideOf v).keys.filter (fun k => k.1 / 2 != x) } ∧
      State.Same s t []) ∧
  (∀ (s : State) (v : Nat),
    1 ≤ v ∧ v ≤ 256 →
    (s.i (vfKey O.TdiState v) = 1 ∨ s.i (vfKey O.TdiState v) = 2) →
    Does (.ideIntegrityFail v) s fun t =>
      t.ideOf v = ⟨[], none⟩ ∧
      t.i (vfKey O.TdiState v) = 3 ∧
      State.Same s t [vfKey O.TdiState v]) ∧
  (∀ (s : State) (v : Nat),
    (s.i (vfKey O.TdiState v) = 0 ∨ s.i (vfKey O.TdiState v) = 3 ∨ v = 0) →
    Does (.ideIntegrityFail v) s fun t =>
      t.ideOf v = ⟨[], none⟩ ∧
      State.Same s t []) ∧
  (∀ (s : State) (v : Nat),
    s.doeUp = true →
    Does (.getTdispVersion v) s fun t =>
      t.out = ⟨.reply, 0x3003, [v, 1, 0x10]⟩ :: s.out ∧
      State.Same s t []) ∧
  (∀ (s : State) (v : Nat),
    s.doeUp = true →
    Does (.getTdispCapabilities v) s fun t =>
      t.out = ⟨.reply, 0x3003, [v, 2, 7]⟩ :: s.out ∧
      State.Same s t []) ∧
  (∀ (s : State) (v : Nat),
    s.doeUp = true →
    s.i (vfKey O.TdiState v) = 0 →
    s.i (vfKey O.VfPartition v) ≠ 0 →
    (s.ideOf v).set_ ≠ none →
    1 ≤ v ∧ v ≤ 256 →
    Does (.lockInterfaceRequest v) s fun t =>
      t.i (vfKey O.TdiState v) = 1 ∧
      State.Same s t [vfKey O.TdiState v]) ∧
  (∀ (s : State) (v : Nat),
    s.doeUp = true →
    (s.i (vfKey O.TdiState v) ≠ 0 ∨ s.i (vfKey O.VfPartition v) = 0 ∨ (s.ideOf v).set_ = none) →
    Does (.lockInterfaceRequest v) s fun t =>
      t.out = ⟨.reply, 0x3003, [v, 0x7F]⟩ :: s.out ∧
      State.Same s t []) ∧
  (∀ (s : State) (v : Nat),
    s.doeUp = true →
    Does (.getDeviceInterfaceReport v) s fun t =>
      t.out = ⟨.reply, 0x3003, [v, 4, 65536, 0]⟩ :: s.out ∧
      State.Same s t []) ∧
  (∀ (s : State) (v : Nat),
    s.doeUp = true →
    Does (.getDeviceInterfaceState v) s fun t =>
      t.out = ⟨.reply, 0x3003, [v, 5, s.i (vfKey O.TdiState v)]⟩ :: s.out ∧
      State.Same s t []) ∧
  (∀ (s : State) (v : Nat),
    s.doeUp = true →
    s.i (vfKey O.TdiState v) = 1 →
    1 ≤ v ∧ v ≤ 256 →
    Does (.startInterfaceRequest v) s fun t =>
      t.i (vfKey O.TdiState v) = 2 ∧
      State.Same s t [vfKey O.TdiState v]) ∧
  (∀ (s : State) (v : Nat),
    s.doeUp = true →
    s.i (vfKey O.TdiState v) ≠ 1 →
    Does (.startInterfaceRequest v) s fun t =>
      State.Same s t []) ∧
  (∀ (s : State) (v : Nat),
    s.doeUp = true →
    1 ≤ v ∧ v ≤ 256 →
    Does (.stopInterfaceRequest v) s fun t =>
      t.i (vfKey O.TdiState v) = 0 ∧
      (tget t.pk.rings (1024 + v)).map (fun r => r.enable) = (tget s.pk.rings (1024 + v)).map (fun _ => false) ∧
      State.Same s t [vfKey O.TdiState v]) ∧
  (∀ (s : State) (p v u : Nat) (x : Part),
    s.role = 1 →
    s.isLead = true →
    s.ct.powerK < s.ft .icd / ms 100 →
    s.tw.parts = [(p, x)] →
    x.tenant = true →
    s.vfOf p = some v →
    s.i (vfKey O.TdiState v) = 2 →
    s.upPort = some u →
    s.i (inst O.BulkDeferred u) ≠ 1 →
    Does (.partitionPowerTick) s fun t =>
      t.ct.powerK = s.ft .icd / ms 100 ∧
      t.ct.power = s.ct.power.filter (fun e => s.ft .icd / ms 100 ≤ e.1 % 2 ^ 40) ∧
      (t.portQ u 4).map (fun e => e.rec_) = (s.portQ u 4).map (fun e => e.rec_) ++
        [s.iRec 0x33 3 0 p [(128, 128, s.stampAt .icd ((s.ft .icd / ms 100 - 1) * ms 100)),
           (256, 32, (tgetD s.ct.power (p * 2 ^ 40 + (s.ft .icd / ms 100 - 1)) (0, 0, 0)).1 / 100000),
           (288, 32, (tgetD s.ct.power (p * 2 ^ 40 + (s.ft .icd / ms 100 - 1)) (0, 0, 0)).2.1)],
         s.iRec 0x35 3 0 p [(128, 128, s.stampAt .icd ((s.ft .icd / ms 100 - 1) * ms 100)),
           (256, 16, match (s.tempOf (tgetD s.ct.power (p * 2 ^ 40 + (s.ft .icd / ms 100 - 1)) (0, 0, 0)).2.2).1 with | some c => ofS 16 (c / 16) | none => 0x8000),
           (272, 16, (s.tempOf (tgetD s.ct.power (p * 2 ^ 40 + (s.ft .icd / ms 100 - 1)) (0, 0, 0)).2.2).2)]] ∧
      (t.out.any fun o => o.chan == .host && o.idx == 1024 + v && rType o.body == 0x33) = true ∧
      (t.out.any fun o => o.chan == .host && o.idx == 1024 + v && rType o.body == 0x35) = true ∧
      State.Same s t queueKeys) ∧
  (∀ (s : State),
    s.role = 1 →
    s.ct.powerK < s.ft .icd / ms 100 →
    (∀ p ∈ s.tw.parts, p.2.tenant = false) →
    Does (.partitionPowerTick) s fun t =>
      t.ct.powerK = s.ft .icd / ms 100 ∧
      t.ct.power = s.ct.power.filter (fun p => s.ft .icd / ms 100 ≤ p.1 % 2 ^ 40) ∧
      State.Same s t []) ∧
  (∀ (s : State),
    (s.role ≠ 1 ∨ s.ft .icd / ms 100 ≤ s.ct.powerK) →
    Does (.partitionPowerTick) s fun t =>
      t.ct = s.ct ∧
      State.Same s t [])

/-- SPDM: negotiation, certificates, measurements, sessions, and ResponseNotReady (R491, R492, R493, R526). -/
def Obligations.SpdmRequests : Prop :=
  (∀ (s : State) (b : Nat),
    s.SpdmUp b →
    Does (.getVersion b) s fun t =>
      tget t.sc.phase b = some 1 ∧
      t.out = ⟨.reply, 0x3000 + b, [4, 0x12, 0x13]⟩ :: s.out ∧
      State.Same s t []) ∧
  (∀ (s : State) (b : Nat),
    s.SpdmUp b →
    1 ≤ tgetD s.sc.phase b 0 →
    Does (.getCapabilities b) s fun t =>
      tget t.sc.phase b = some (max 2 (tgetD s.sc.phase b 0)) ∧
      t.out = ⟨.reply, 0x3000 + b, [0x61, 4096]⟩ :: s.out ∧
      State.Same s t []) ∧
  (∀ (s : State) (b : Nat),
    s.SpdmUp b →
    2 ≤ tgetD s.sc.phase b 0 →
    Does (.negotiateAlgorithms b true) s fun t =>
      tget t.sc.phase b = some 3 ∧
      t.out = ⟨.reply, 0x3000 + b, [0x63, 384, 384, 384, 256]⟩ :: s.out ∧
      State.Same s t []) ∧
  (∀ (s : State) (b : Nat),
    s.SpdmUp b →
    2 ≤ tgetD s.sc.phase b 0 →
    Does (.negotiateAlgorithms b false) s fun t =>
      t.sc = s.sc ∧
      t.out = ⟨.reply, 0x3000 + b, [0x7F, 1]⟩ :: s.out ∧
      State.Same s t []) ∧
  (∀ (s : State) (b k o n x e : Nat) (g w c : Bool),
    s.SpdmUp b →
    EachSpdm b k o n x e g w c fun code need _ r =>
      s.pw.phase ≠ 1 ∨ bootCode code = true →
      tgetD s.sc.phase b 0 < need →
      Does r s fun t =>
        t.out = ⟨.reply, 0x3000 + b, [0x7F, 4]⟩ :: s.out ∧
        t.sc = s.sc ∧
        State.Same s t []) ∧
  (∀ (s : State) (b : Nat),
    s.SpdmReady b →
    Does (.getDigests b) s fun t =>
      t.out = ⟨.reply, 0x3000 + b, [1, 1, Config.sha384 s.chain]⟩ :: s.out ∧
      t.sc = s.sc ∧
      State.Same s t []) ∧
  (∀ (s : State) (b o n : Nat),
    s.SpdmReady b →
    Does (.getCertificate b 0 o n) s fun t =>
      t.out = ⟨.reply, 0x3000 + b, (2 :: (s.chain.drop o).take (min n 4096))⟩ :: s.out ∧
      State.Same s t []) ∧
  (∀ (s : State) (b k o n : Nat),
    s.SpdmReady b →
    k ≠ 0 →
    Does (.getCertificate b k o n) s fun t =>
      t.out = ⟨.reply, 0x3000 + b, [0x7F, 1]⟩ :: s.out ∧
      State.Same s t []) ∧
  (∀ (s : State) (b x : Nat),
    s.SpdmReady b →
    Does (.challenge b 0 x) s fun t =>
      (t.out.head?).map (fun o => (o.chan, o.idx, o.body.take 2, o.body.length)) = some (.reply, 0x3000 + b, [3, Config.sha384 s.chain], 4) ∧
      t.out.tail = s.out ∧
      t.freeCtr = s.freeCtr + 1 ∧
      State.Same s t []) ∧
  (∀ (s : State) (b k x : Nat),
    s.SpdmReady b →
    k ≠ 0 →
    Does (.challenge b k x) s fun t =>
      t.out = ⟨.reply, 0x3000 + b, [0x7F, 1]⟩ :: s.out ∧
      State.Same s t []) ∧
  (∀ (s : State) (b n x : Nat) (g : Bool),
    s.SpdmUp b →
    3 ≤ tgetD s.sc.phase b 0 →
    n ≠ 0 →
    s.measBlocks n ≠ [] →
    Does (.getMeasurements b n g x) s fun t =>
      t.out = ⟨.reply, 0x3000 + b, (0x60 :: ((s.measBlocks n).flatMap fun p => [p.1, p.2.1, p.2.2]) ++ if g = true ∧ (s.pw.phase ≠ 1 ∨ s.pw.recOk = true) then [Config.signature (if s.pw.phase = 1 then s.deviceKey else s.aliasKey) (((s.measBlocks n).flatMap fun p => [p.1, p.2.1, p.2.2]).flatMap (natBytes 48) ++ natBytes 32 x)] else [])⟩ :: s.out ∧
      t.sc = s.sc ∧
      State.Same s t []) ∧
  (∀ (s : State) (b x : Nat),
    s.SpdmUp b →
    3 ≤ tgetD s.sc.phase b 0 →
    Does (.getMeasurements b 0 false x) s fun t =>
      t.out = ⟨.reply, 0x3000 + b, [0x60, (s.measBlocks 255).length]⟩ :: s.out ∧
      t.sc = s.sc ∧
      State.Same s t []) ∧
  (∀ (s : State) (b n x : Nat) (g : Bool),
    s.SpdmUp b →
    3 ≤ tgetD s.sc.phase b 0 →
    n ≠ 0 →
    s.measBlocks n = [] →
    Does (.getMeasurements b n g x) s fun t =>
      t.out = ⟨.reply, 0x3000 + b, [0x7F, 1]⟩ :: s.out ∧
      t.sc = s.sc ∧
      State.Same s t []) ∧
  (∀ s : State,
    s.pw.phase = 1 →
    s.pw.recOk = false →
    s.measBlocks 4 = [(4, 2, 2 ^ 384 - 1)] ∧ s.measBlocks 2 = [] ∧ s.measBlocks 3 = [] ∧ s.measBlocks 9 = []) ∧
  (∀ (s : State) (b : Nat),
    s.SpdmReady b →
    (s.sc.sess.filter fun p => p.2.binding == b).length < 8 →
    Does (.keyExchange b) s fun t =>
      tget t.sc.sess s.sc.nextSess = some ⟨b, false, 0⟩ ∧
      t.sc.nextSess = s.sc.nextSess + 1 ∧
      (t.out.head?).map (fun o => (o.chan, o.idx, o.body.take 2, o.body.length)) = some (.reply, 0x3000 + b, [0x64, s.sc.nextSess], 4) ∧
      t.out.tail = s.out ∧
      State.Same s t []) ∧
  (∀ (s : State) (b : Nat),
    s.SpdmReady b →
    8 ≤ (s.sc.sess.filter fun p => p.2.binding == b).length →
    Does (.keyExchange b) s fun t =>
      t.out = ⟨.reply, 0x3000 + b, [0x7F, 0x0A]⟩ :: s.out ∧
      t.sc = s.sc ∧
      State.Same s t []) ∧
  (∀ (s : State) (b e : Nat) (x : SpdmSess),
    s.SpdmReady b →
    tget s.sc.sess e = some x →
    x.binding = b →
    Does (.finish b e true) s fun t =>
      tget t.sc.sess e = some { x with ready := true } ∧
      t.out = ⟨.reply, 0x3000 + b, [0x65, e]⟩ :: s.out ∧
      State.Same s t []) ∧
  (∀ (s : State) (b e : Nat) (x : SpdmSess),
    s.SpdmReady b →
    tget s.sc.sess e = some x →
    x.binding = b →
    Does (.finish b e false) s fun t =>
      tget t.sc.sess e = none ∧
      t.out = ⟨.reply, 0x3000 + b, [0x7F, 6]⟩ :: s.out ∧
      State.Same s t []) ∧
  (∀ (s : State) (b e : Nat) (x : SpdmSess),
    s.SpdmReady b →
    tget s.sc.sess e = some x →
    x.binding = b ∧ x.ready = true →
    Does (.spdmHeartbeat b e) s fun t =>
      t.out = ⟨.reply, 0x3000 + b, [0x68, e]⟩ :: s.out ∧
      t.sc = s.sc ∧
      State.Same s t []) ∧
  (∀ (s : State) (b e : Nat) (x : SpdmSess),
    s.SpdmReady b →
    tget s.sc.sess e = some x →
    x.binding = b ∧ x.ready = true →
    Does (.keyUpdate b e) s fun t =>
      tget t.sc.sess e = some { x with keyGen := x.keyGen + 1 } ∧
      t.out = ⟨.reply, 0x3000 + b, [0x69, e]⟩ :: s.out ∧
      State.Same s t []) ∧
  (∀ (s : State) (b e : Nat) (x : SpdmSess),
    s.SpdmReady b →
    tget s.sc.sess e = some x →
    x.binding = b ∧ x.ready = true →
    Does (.endSession b e) s fun t =>
      tget t.sc.sess e = none ∧
      t.out = ⟨.reply, 0x3000 + b, [0x6C, e]⟩ :: s.out ∧
      State.Same s t []) ∧
  (∀ (s : State) (b e : Nat) (w : Bool),
    s.SpdmReady b →
    (match tget s.sc.sess e with | some x => x.binding != b | none => true) = true →
    Does (.finish b e w) s fun t =>
      t.out = ⟨.reply, 0x3000 + b, [0x7F, 2]⟩ :: s.out ∧
      t.sc = s.sc ∧
      State.Same s t []) ∧
  (∀ (s : State) (b e : Nat),
    s.SpdmReady b →
    (match tget s.sc.sess e with | some x => x.binding != b || !x.ready | none => true) = true →
    EachInSession b e fun r =>
      Does r s fun t =>
        t.out = ⟨.reply, 0x3000 + b, [0x7F, 2]⟩ :: s.out ∧
        t.sc = s.sc ∧
        State.Same s t []) ∧
  (∀ (s : State) (b k o n x e : Nat) (g w c : Bool),
    s.spdmUp b = true →
    s.pw.switching = true →
    EachSpdm b k o n x e g w c fun code _ ix r =>
      s.pw.phase ≠ 1 ∨ bootCode code = true →
      Does r s fun t =>
        t.sc = { s.sc with token := some (s.sc.nextToken, b, code, ix), nextToken := (s.sc.nextToken + 1) % 256 } ∧
        t.out = ⟨.reply, 0x3000 + b, if b = 0 then [0x7F, 0x42, 16, s.sc.nextToken, 1, code] else [stNotReady, 66]⟩ :: s.out ∧
        State.Same s t []) ∧
  (∀ (s : State) (b y k o n x : Nat) (g c : Bool),
    s.SpdmUp b →
    EachRedeemed b k o n x g c fun code args r =>
      s.sc.token = some (y, b, code, args) →
      Does (.respondIfReady b y) s fun t =>
        t.sc.token = none ∧
        Does r { s with sc := { s.sc with token := none, phase := tset s.sc.phase b 3 } } fun u => u = t ∧
        State.Same s t []) ∧
  (∀ (s : State) (b k code : Nat),
    s.SpdmUp b →
    s.sc.token = some (k, b, code, []) →
    code ∈ [0xE5, 0xE8, 0xE9, 0xEC] →
    Does (.respondIfReady b k) s fun t =>
      t.out = ⟨.reply, 0x3000 + b, [0x7F, 0x02]⟩ :: s.out ∧
      t.sc = { s.sc with token := none, phase := tset s.sc.phase b 3 } ∧
      State.Same s t []) ∧
  (∀ (s : State) (b k code : Nat) (ix : List Nat),
    s.spdmUp b = true →
    s.pw.switching = true →
    s.sc.token = some (k, b, code, ix) →
    Does (.respondIfReady b k) s fun t =>
      t.out = ⟨.reply, 0x3000 + b, [0x7F, 0x42, 16, k, 1, code]⟩ :: s.out ∧
      t.sc = s.sc ∧
      State.Same s t []) ∧
  (∀ (s : State) (b k : Nat),
    s.spdmUp b = true →
    (match s.sc.token with | some y => y.1 != k || y.2.1 != b | none => true) = true →
    Does (.respondIfReady b k) s fun t =>
      t.out = ⟨.reply, 0x3000 + b, [0x7F, 1]⟩ :: s.out ∧
      t.sc = s.sc ∧
      State.Same s t []) ∧
  (∀ (s : State) (b k o n x e : Nat) (g w c : Bool),
    s.pw.phase = 1 →
    s.spdmUp b = true →
    EachSpdm b k o n x e g w c fun code _ _ r =>
      bootCode code = false →
      Does r s fun t =>
        t.out = (if b = 0 then s.out else ⟨.reply, 0x3000 + b, [stDenied, 0]⟩ :: s.out) ∧
        t.sc = s.sc ∧
        State.Same s t []) ∧
  (∀ (s : State) (b k o n x e : Nat) (g w c : Bool),
    s.spdmUp b = false →
    EachSpdm b k o n x e g w c fun _ _ _ r =>
      Does r s fun t =>
        t.out = s.out ∧
        t.sc = s.sc ∧
        State.Same s t [])

/-- Helad identity, credentials, handshakes, and the sealing of the audit cask (R488, R494, R496, R497, R498, R500). -/
def Obligations.IdentityAndAudit : Prop :=
  (∀ (s : State) (k x : Nat),
    s.role = 1 →
    tget s.sc.dieKey k = some x →
    Does (.heladIdentityResponse k x true) s fun t =>
      tget t.tm.ohBase k = some ((tgetD s.tm.ohBase k (0, 0)).1, ((tgetD s.tm.ohBase k (0, 0)).2 + 1) % 2 ^ 32) ∧
      t.sc = s.sc ∧
      t.si = s.si ∧
      State.Same s t []) ∧
  (∀ (s : State) (k x : Nat),
    s.role = 1 →
    tget s.sc.dieKey k ≠ some x →
    k < 64 →
    Does (.heladIdentityResponse k x true) s fun t =>
      tget t.sc.dieKey k = some x ∧
      tget t.tm.ohBase k = some (0, 1) ∧
      t.si.perDie = s.si.perDie.filter (fun p => p.1 / 256 != k) ∧
      t.i (O.SlotState + k) = s.i (O.SlotState + k) ∧
      State.Kept s t []) ∧
  (∀ (s : State) (k x : Nat),
    s.role = 1 →
    k < 64 →
    Does (.heladIdentityResponse k x false) s fun t =>
      t.i (O.SlotState + k) = 6 ∧
      t.sc.dieKey = s.sc.dieKey ∧
      State.Kept s t [O.SlotState + k]) ∧
  (∀ (s : State) (q : Req) (n v : Nat),
    n < 64 →
    s.Accepts q (O.CredentialRole + n) v →
    (s.iSet (O.CredentialRole + n) v).hasMaintainer = true →
    Does (.credentialWrite q (O.CredentialRole + n) v) s fun t =>
      t.i (O.CredentialRole + n) = v ∧
      t.mo.sessions = (if v = 0 then s.mo.sessions.filter (fun p => p.2.cred != n) else s.mo.sessions) ∧
      State.Same s t [O.CredentialRole + n]) ∧
  (∀ (s : State) (q : Req) (n v : Nat),
    n < 64 →
    s.Accepts q (O.CredentialRole + n) v →
    s.hasMaintainer = true →
    (s.iSet (O.CredentialRole + n) v).hasMaintainer = false →
    Does (.credentialWrite q (O.CredentialRole + n) v) s fun t =>
      State.Same s t refusalKeys) ∧
  (∀ (s : State) (p x n : Nat),
    s.pw.phase ≠ 1 →
    n < 64 →
    s.i (O.CredentialRole + n) = 2 →
    s.i (O.CredentialKey + n) = x →
    (∀ m, m < n → s.i (O.CredentialRole + m) = 0) →
    tget s.mo.sessions 0 = none →
    Does (.dtlsHandshake p x) s fun t =>
      tget t.mo.sessions 0 = some ⟨n, .mt, 0, p, [], 0, []⟩ ∧
      t.out = ⟨.eth, p, [0, 1, Config.sha384 s.chain]⟩ :: s.out ∧
      State.Same s t []) ∧
  (∀ (s : State) (p x : Nat),
    (∀ m, m < 64 → s.i (O.CredentialRole + m) = 0) →
    Does (.dtlsHandshake p x) s fun t =>
      t.out = ⟨.eth, p, [0]⟩ :: s.out ∧
      t.mo = s.mo ∧
      State.Same s t []) ∧
  (∀ (s : State) (k : Nat) (l : Option (List (Nat × Nat × Nat) × List (Nat × Nat × Nat))),
    k * ns 1000000000 ≤ s.ft .icd →
    s.i O.LastSealInterval < k →
    s.isLead = true →
    Does (.auditSealAgree k l) s fun t =>
      t.sc = { s.sc with agreed := some (k, lastPositions s.sc.entries (k * ns 1000000000)), refused := [] } ∧
      t.up = (s.xMsg 0x497 ([k, (lastPositions s.sc.entries (k * ns 1000000000)).length] ++ (lastPositions s.sc.entries (k * ns 1000000000)).flatMap (fun x => [x.1, x.2.1, x.2.2]) ++ s.sc.refused.flatMap (fun x => [x.1, x.2.1, x.2.2]))).up ∧
      t.out = s.out ∧
      State.Same s t []) ∧
  (∀ (s : State) (k : Nat) (l x : List (Nat × Nat × Nat)),
    k * ns 1000000000 ≤ s.ft .icd →
    s.i O.LastSealInterval < k →
    s.isLead = false →
    s.sc.entries.any (fun e => x.contains (entryId e.2)) = false →
    Does (.auditSealAgree k (some (l, x))) s fun t =>
      t.sc = { s.sc with agreed := some (k, l) } ∧
      State.Same s t []) ∧
  (∀ (s : State) (k : Nat) (l x : List (Nat × Nat × Nat)),
    k * ns 1000000000 ≤ s.ft .icd →
    s.i O.LastSealInterval < k →
    s.isLead = false →
    s.sc.entries.any (fun e => x.contains (entryId e.2)) = true →
    Does (.auditSealAgree k (some (l, x))) s fun t =>
      t.sc.agreed = some (k, l) ∧
      t.sc.gapDue = true ∧
      t.sc.lost = s.sc.lost + (s.sc.entries.filter fun e => x.contains (entryId e.2)).length ∧
      t.sc.entries = s.sc.entries.filter (fun e => !x.contains (entryId e.2)) ∧
      State.Kept s t [O.AuditFill]) ∧
  (∀ (s : State) (k : Nat) (l : List (Nat × Nat × Nat)),
    s.sc.agreed = some (k, l) →
    k * ns 1000000000 + ms 1 ≤ s.ft .icd →
    s.sc.slots = [] →
    s.sc.closing = [] →
    k < 2 ^ 64 →
    Does (.auditSealForm k) s fun t =>
      t.i O.LastSealInterval = k ∧
      t.i O.LastRoot = t.sc.prevRoot ∧
      t.sc.agreed = none ∧
      t.sc.first = false ∧
      t.sc.lost = 0 ∧
      t.sc.entries = s.sc.entries.filter (fun e => !(l.any fun p => p.1 == rSrc e.2 && p.2.1 == rType e.2 && decide (rSeq e.2 ≤ p.2.2))) ∧
      t.i O.AuditLost = (s.i O.AuditLost + s.sc.lost) % 2 ^ 64 ∧
      t.i O.AuditFill = s.i O.AuditFill + 272 ∧
      State.Kept s t ([O.LastSealInterval, O.LastRoot, O.AuditLost, O.AuditFill] ++ queueKeys)) ∧
  (∀ (s : State) (k p : Nat) (l : List Rec),
    tget s.sc.sealed k = some l →
    (List.range 4).find? (fun p => bit (s.i O.Tier2Present) p) = some p →
    s.sc.archive = [] →
    lsum (l.map (fun r => 16 * r.length)) ≤ s.i O.AuditArchiveSize * 1073741824 →
    Does (.auditRack k) s fun t =>
      tget t.sc.sealed k = none ∧
      t.sc.archive = [(k, l)] ∧
      t.i O.AuditFill = s.i O.AuditFill - lsum (l.map (fun r => 16 * r.length)) ∧
      State.Kept s t [O.AuditFill])

/-- The Helad's resets, its clock and its power domains (R50, R51, R69, R73, R74, R75, R76, R110, R163, R168, R528, R547). -/
def Obligations.HeladResetsAndDomains : Prop :=
  (∀ (s : State),
    Does (.haoReset) s fun t =>
      t.hd = [] ∧
      t.hSeq = [] ∧
      t.tm.hc = State.reset.tm.hc ∧
      t.tm.hActs = [] ∧
      t.ct = { State.reset.ct with power := s.ct.power, powerK := s.ct.powerK, copySets := s.ct.copySets } ∧
      t.tr = { State.reset.tr with bench := s.tr.bench, gapRecs := s.tr.gapRecs, gapBytes := s.tr.gapBytes } ∧
      t.si.hel = State.reset.si.hel ∧
      t.bd.haoReset = true ∧
      t.bd.hmainReset = true ∧
      t.cd = s.cd ∧
      t.me = s.me ∧
      t.gr = s.gr) ∧
  (∀ (s : State),
    s.bd.haoReset = true →
    Does (.haoResetRelease) s fun t =>
      t.h O.PowerCycles = (s.h O.PowerCycles + 1) % 2 ^ 32 ∧
      t.bd.haoReset = false ∧
      t.bd.hmainReset = (if s.bd.hmainEarly = true then false else s.bd.hmainReset) ∧
      t.i O.PowerCycles = s.i O.PowerCycles ∧
      State.Same s t [O.PowerCycles]) ∧
  (∀ (s : State),
    s.bd.haoReset = false →
    Does (.haoResetRelease) s fun t =>
      t.bd = s.bd ∧
      State.Same s t []) ∧
  (∀ (s : State),
    Does (.hmainReset) s fun t =>
      t.bd.hmainReset = true ∧
      t.bd.dom = [] ∧
      t.bd.reads = [] ∧
      t.ct.opens = [] ∧
      t.ct.fifo = [] ∧
      t.si.hel.requests = [] ∧
      t.si.hel.jobs = [] ∧
      t.tr.fifo = [] ∧
      t.h O.LaneState = 0 ∧
      t.tm.hc = s.tm.hc ∧
      t.tm.hActs = s.tm.hActs ∧
      t.bd.hReq = s.bd.hReq ∧
      t.h O.FtState = s.h O.FtState ∧
      t.h O.FtSegment = s.h O.FtSegment ∧
      t.h O.TraceEnable = s.h O.TraceEnable ∧
      t.h O.SlotNumber = s.h O.SlotNumber ∧
      t.cd = s.cd ∧
      t.me = s.me) ∧
  (∀ (s : State),
    s.bd.haoReset = true →
    Does (.hmainResetRelease) s fun t =>
      t.bd = { s.bd with hmainEarly := true } ∧
      State.Same s t []) ∧
  (∀ (s : State),
    s.bd.haoReset = false →
    Does (.hmainResetRelease) s fun t =>
      t.bd = { s.bd with hmainReset := false, dom := [] } ∧
      State.Same s t []) ∧
  (∀ (s : State),
    Does (.aoClkAbsent) s fun t =>
      t.h O.FtState = 0 ∧
      t.bd.clkLost = true ∧
      State.Kept s t [O.FtState]) ∧
  (∀ (s : State) (n : Nat),
    s.bd.clkLost = false →
    Does (.aoClkReturn n) s fun t =>
      t.bd = s.bd ∧
      State.Same s t []) ∧
  (∀ (s : State) (n : Nat),
    s.bd.clkLost = true →
    Does (.aoClkReturn n) s fun t =>
      t.bd.clkLost = false ∧
      State.Kept s t []) ∧
  (∀ (s : State) (d g : Nat),
    s.heladReset = false →
    d ≠ 2 →
    s.domState d = 0 →
    Does (.domainWakeRequest d g) s fun t =>
      t.domState d = 1 ∧
      tget t.bd.wakeAt d = some s.tm.hc.ft ∧
      t.bd.grpActive = g ∧
      (∀ x, x ≠ d → t.domState x = s.domState x) ∧
      State.Same s t []) ∧
  (∀ (s : State) (d g : Nat),
    (s.bd.hmainReset = true ∨ s.domState d ≠ 0 ∨ (d = 2 ∧ (g &&& s.wiredGroups) = 0 ∧ s.ct.cbFill = 0 ∧ g ≠ 0)) →
    Does (.domainWakeRequest d g) s fun t =>
      t.bd = { s.bd with grpActive := g } ∧
      State.Same s t []) ∧
  (∀ (s : State) (d g : Nat),
    s.bd.hmainReset = false →
    s.bd.haoReset = false →
    s.domState 2 = 0 →
    ((g &&& s.wiredGroups) ≠ 0 ∨ s.ct.cbFill ≠ 0 ∨ g = 0) →
    Does (.domainWakeRequest 2 g) s fun t =>
      t.domState 2 = 1 ∧
      State.Same s t []) ∧
  (∀ (s : State) (d : Nat),
    s.domState d ≠ 1 →
    Does (.domainReady d) s fun t =>
      t.bd = s.bd ∧
      State.Same s t []) ∧
  (∀ (s : State) (d : Nat),
    s.heladReset = true →
    Does (.domainReady d) s fun t =>
      t.bd = s.bd ∧
      t.tm = s.tm ∧
      State.Same s t []) ∧
  (∀ (s : State) (u : Nat),
    s.bd.haoReset = true →
    Does (.fenceRequest u) s fun t =>
      t.bd = s.bd ∧
      t.pins = s.pins ∧
      State.Same s t []) ∧
  (∀ (s : State) (port inc tag evt : Nat) (e : Option Nat),
    s.bd.haoReset = true →
    Does (.tapIncrement port inc tag evt e) s fun t =>
      t.ct = s.ct ∧
      State.Same s t []) ∧
  (∀ (s : State) (d : Nat),
    s.domState d = 1 →
    (d = 2 ∨ d = 3 ∨ d = 5) →
    (d = 2 → s.si.hel.deferred = []) →
    s.heladReset = false →
    Does (.domainReady d) s fun t =>
      t.domState d = 2 ∧
      tget t.bd.busyAt d = some (s.ft .hel) ∧
      t.tm = s.tm ∧
      State.Same s t []) ∧
  (∀ (s : State),
    s.domState 1 = 1 →
    s.heladReset = false →
    Does (.domainReady 1) s fun t =>
      t.domState 1 = 2 ∧
      s.tm.hc.ft ≤ t.tm.hc.ft ∧
      t.tm.hc.ft < s.tm.hc.ft + ns 20 ∧
      State.Same s t []) ∧
  (∀ (s : State),
    s.domState 4 = 1 →
    s.h O.LaneState = 3 →
    s.bd.syncLeft = 0 →
    s.ln.retune = none →
    s.heladReset = false →
    Does (.domainReady 4) s fun t =>
      t.domState 4 = 2 ∧
      t.h O.LaneState = 2 ∧
      t.ir.ao = [] ∧
      t.cd = s.cd) ∧
  (∀ (s : State) (d g : Nat),
    (s.domState d ≠ 2 ∨ s.ft .hel < tgetD s.bd.busyAt d 0 + us 10) →
    Does (.domainSleep d g) s fun t =>
      t.bd = { s.bd with grpActive := g } ∧
      State.Same s t []) ∧
  (∀ (s : State) (d g : Nat),
    s.domState d = 2 →
    ({ s with bd := { s.bd with grpActive := g } }).domainHeld d = true →
    Does (.domainSleep d g) s fun t =>
      t.bd = { s.bd with grpActive := g } ∧
      State.Same s t []) ∧
  (∀ (s : State) (d g : Nat),
    s.domState d = 2 →
    (d = 3 ∨ d = 5) →
    ({ s with bd := { s.bd with grpActive := g } }).domainHeld d = false →
    tgetD s.bd.busyAt d 0 + us 10 ≤ s.ft .hel →
    Does (.domainSleep d g) s fun t =>
      t.domState d = 0 ∧
      t.tm = s.tm ∧
      t.ct = s.ct ∧
      State.Same s t []) ∧
  (∀ (s : State) (g : Nat),
    s.domState 2 = 2 →
    ({ s with bd := { s.bd with grpActive := g } }).domainHeld 2 = false →
    tgetD s.bd.busyAt 2 0 + us 10 ≤ s.ft .hel →
    Does (.domainSleep 2 g) s fun t =>
      t.domState 2 = 0 ∧
      t.ct = { s.ct with slept := some (s.ft .hel / 65536) } ∧
      State.Same s t []) ∧
  (∀ (s : State) (g : Nat),
    s.domState 4 = 2 →
    ({ s with bd := { s.bd with grpActive := g } }).domainHeld 4 = false →
    tgetD s.bd.busyAt 4 0 + us 10 ≤ s.ft .hel →
    Does (.domainSleep 4 g) s fun t =>
      t.domState 4 = 0 ∧
      t.h O.LaneState = (if s.h O.LaneState = 2 then 3 else s.h O.LaneState) ∧
      t.cd = s.cd)

/-- Power-up, input loss, cold and warm resets, domains, recovery (R60, R198, R200, R452, R467, R524, R525, R526, R527, R529, R530, R540). -/
def Obligations.PowerUpAndResets : Prop :=
  (∀ (s m : State) (pu : PowerUp) (img ser : Nat × Nat),
    m = s.mramLose pu.badPages →
    m.provision pu = some ser →
    (m.i O.TrialState ≠ 1 ∨ m.pw.trialKeep = true) →
    m.imageOf pu (m.i O.ImageSelect) = some img →
    Does (.powerOn pu) s fun t =>
      t.pw.phase = 2 ∧
      t.pw.initDone = false ∧
      t.pw.stackBad = pu.badStack.isSome ∧
      t.pk.inputLow = false ∧
      t.i O.FirmwareVersion = img.1 ∧
      t.pw.imgDigest = img.2 ∧
      t.i O.SerialNumber = ser.1 ∧
      t.i O.ProvVersion = ser.2 ∧
      t.i O.OhSeconds = m.tm.savedOh.1 ∧
      t.i O.PowerCycles = (m.tm.savedOh.2 + 1) % 2 ^ 32 ∧
      t.i O.MeasEpoch = (m.i O.MeasEpoch + 1) % 2 ^ 32 ∧
      t.sc.alias_ = s.sc.alias_ + 1 ∧
      t.i O.LastResetCause = 0 ∧
      t.i O.Tier2Present = pu.cxl % 16 ∧
      (∀ p, p ∈ m.cd → keptAtCold p.1 = true → p.1 ∉ [O.FirmwareVersion, O.SerialNumber, O.ProvVersion, O.OhSeconds, O.PowerCycles, O.MeasEpoch, O.LastResetCause, O.SiliconRevision, O.RecorderFirst, O.RecorderLast] → t.i p.1 = p.2) ∧
      t.hd = s.hd ∧
      t.gr.t2 = s.gr.t2) ∧
  (∀ (s m : State) (pu : PowerUp),
    m = s.mramLose pu.badPages →
    m.provision pu = none →
    Does (.powerOn pu) s fun t =>
      t.pw.phase = 1 ∧
      t.i O.PowerCycles = (m.tm.savedOh.2 + 1) % 2 ^ 32 ∧
      t.i O.MeasEpoch = m.i O.MeasEpoch ∧
      t.hd = s.hd) ∧
  (∀ (s m : State) (pu : PowerUp),
    m = s.mramLose pu.badPages →
    m.imageOf pu 0 = none ∧ m.imageOf pu 1 = none →
    m.i O.ImageSelect < 2 →
    Does (.powerOn pu) s fun t =>
      t.pw.phase = 1 ∧
      t.i O.MeasEpoch = m.i O.MeasEpoch ∧
      t.i O.PowerCycles = (m.tm.savedOh.2 + 1) % 2 ^ 32 ∧
      t.hd = s.hd) ∧
  (∀ (s m : State) (pu : PowerUp) (img ser : Nat × Nat),
    m = s.mramLose pu.badPages →
    m.provision pu = some ser →
    (m.i O.TrialState ≠ 1 ∨ m.pw.trialKeep = true) →
    m.imageOf pu (m.i O.ImageSelect) = none →
    m.imageOf pu (1 - m.i O.ImageSelect) = some img →
    Does (.powerOn pu) s fun t =>
      t.pw.phase = 2 ∧
      t.i O.ImageSelect = 1 - m.i O.ImageSelect ∧
      t.i O.FirmwareVersion = img.1 ∧
      t.hd = s.hd) ∧
  (∀ (s m : State) (pu : PowerUp) (img ser : Nat × Nat),
    m = s.mramLose pu.badPages →
    m.provision pu = some ser →
    m.pw.trialKeep = true →
    m.imageOf pu (m.i O.ImageSelect) = some img →
    Does (.powerOn pu) s fun t =>
      t.pw.phase = 2 ∧
      t.i O.ImageSelect = m.i O.ImageSelect ∧
      t.i O.FirmwareVersion = img.1 ∧
      t.pw.trialFrom.isSome = true ∧
      t.pw.trialKeep = false ∧
      t.hd = s.hd) ∧
  (∀ (s : State) (volt : Nat),
    Does (.inputLow volt) s fun t =>
      t.i O.InputVoltage = volt ∧
      t.pk.inputLow = true ∧
      t.tm.savedOh = (s.i O.OhSeconds, s.i O.PowerCycles) ∧
      t.ir.tail = [] ∧
      t.tw.departing = true ∧
      (∀ p, s.portOf 2 = some p → ((t.portQ p 1).any fun e => e.rec_ == (s.heartbeat true).1 && e.stream == stControl) = true) ∧
      t.pw = s.pw ∧
      t.hd = s.hd ∧
      t.me = s.me) ∧
  (∀ (s : State) (volt : Nat),
    Does (.inputRestored volt) s fun t =>
      t.i O.InputVoltage = volt ∧
      t.pk = { s.pk with inputLow := false } ∧
      t.tw = { s.tw with departing := false } ∧
      t.tm = s.tm ∧
      State.Kept s t [O.InputVoltage]) ∧
  (∀ (s : State),
    Does (.inputTurnOff) s fun t =>
      t.pw.phase = 0 ∧
      t.pw.trialKeep = (s.pw.trialKeep || (s.pw.switching && !s.pw.reverting)) ∧
      t.hd = s.hd ∧
      t.gr.t2 = s.gr.t2 ∧
      t.tm.savedOh = s.tm.savedOh ∧
      (∀ p, p ∈ s.cd → keptAtCold p.1 = true → t.i p.1 = p.2) ∧
      (∀ p, p ∈ t.cd → keptAtCold p.1 = true)) ∧
  (∀ (s : State) (q : Req) (gid : Nat) (pu : PowerUp),
    s.pw.phase ≠ 4 →
    Does (.coldReset q gid true pu) s fun t =>
      t.pw = s.pw ∧
      State.Same s t []) ∧
  (∀ (s m : State) (q : Req) (gid : Nat) (pu : PowerUp) (img ser : Nat × Nat),
    s.pw.phase = 4 →
    m = s.mramLose pu.badPages →
    m.provision pu = some ser →
    (m.i O.TrialState ≠ 1 ∨ m.pw.trialKeep = true) →
    m.imageOf pu (m.i O.ImageSelect) = some img →
    Does (.coldReset q gid true pu) s fun t =>
      t.pw.phase = 2 ∧
      t.i O.LastResetCause = 2 ∧
      t.i O.FirmwareVersion = img.1 ∧
      t.i O.PowerCycles = s.i O.PowerCycles ∧
      t.hd = s.hd) ∧
  (∀ (s m : State) (q : Req) (gid : Nat) (pu : PowerUp) (img ser : Nat × Nat),
    s.Accepts q O.ColdReset gid →
    gid = s.iGid →
    m = s.mramLose pu.badPages →
    m.provision pu = some ser →
    (m.i O.TrialState ≠ 1 ∨ m.pw.trialKeep = true) →
    m.imageOf pu (m.i O.ImageSelect) = some img →
    Does (.coldReset q gid false pu) s fun t =>
      t.pw.phase = 2 ∧
      t.i O.LastResetCause = 1 ∧
      t.i O.FirmwareVersion = img.1 ∧
      t.i O.SerialNumber = ser.1 ∧
      t.i O.PowerCycles = s.i O.PowerCycles ∧
      t.i O.MeasEpoch = (m.i O.MeasEpoch + 1) % 2 ^ 32 ∧
      t.hd = s.hd ∧
      t.gr.t2 = s.gr.t2) ∧
  (∀ (s : State) (q : Req) (gid p : Nat) (pu : PowerUp),
    s.Accepts q O.ColdReset gid →
    gid = s.iGid →
    s.portOf 2 = some p →
    s.pk.dark_ = false →
    s.waveLit p 0 = true →
    Does (.coldReset q gid false pu) s fun t =>
      t.hd = s.hd ∧
      (⟨.port, p, outFlit stControl (p * 16) 0 (tgetD s.up.seq (flitKey p none stControl) 0) s.ki.number (owes s.ki.mark (flitKey p none stControl) s.ki.number) false false false ((s.heartbeat true).1, some 0)⟩ ∈ t.out)) ∧
  (∀ (s : State) (q : Req) (gid : Nat) (pu : PowerUp),
    s.Accepts q O.ColdReset gid →
    gid ≠ s.iGid →
    Does (.coldReset q gid false pu) s fun t =>
      t.pw = s.pw ∧
      State.Same s t []) ∧
  (∀ (s : State) (q : Req) (gid : Nat) (pu : PowerUp) (img : Nat × Nat),
    s.Accepts q O.WarmReset gid →
    gid = s.iGid →
    s.i O.TrialState ≠ 1 →
    s.imageOf pu (s.i O.ImageSelect) = some img →
    Does (.warmReset q gid pu) s fun t =>
      t.pw.phase = 2 ∧
      t.pw.warm = (s.pw.initDone || s.pw.warm) ∧
      t.i O.LastResetCause = 3 ∧
      t.i O.FirmwareVersion = img.1 ∧
      t.i O.RoleActive = s.i O.RoleActive ∧
      t.i O.FtSegment = s.i O.FtSegment ∧
      t.i O.FtState = s.i O.FtState ∧
      t.i O.SerialNumber = s.i O.SerialNumber ∧
      t.i O.MeasEpoch = (if s.pw.imgDigest = img.2 then s.i O.MeasEpoch else (s.i O.MeasEpoch + 1) % 2 ^ 32) ∧
      t.pk.use = s.pk.use ∧
      t.pk.width = s.pk.width ∧
      t.hd = s.hd ∧
      t.gr.t2 = s.gr.t2) ∧
  (∀ (s : State) (q : Req) (gid : Nat) (pu : PowerUp) (img : Nat × Nat),
    s.Accepts q O.WarmReset gid →
    gid = s.iGid →
    s.i O.TrialState = 1 →
    s.pw.trialKeep = false →
    s.imageOf pu (1 - s.i O.ImageSelect % 2) = some img →
    Does (.warmReset q gid pu) s fun t =>
      t.pw.phase = 2 ∧
      t.i O.LastResetCause = 3 ∧
      t.i O.ImageSelect = 1 - s.i O.ImageSelect % 2 ∧
      t.i O.TrialState = 0 ∧
      t.i O.FirmwareVersion = img.1 ∧
      t.hd = s.hd) ∧
  (∀ (s : State) (q : Req) (gid : Nat) (pu : PowerUp),
    s.Accepts q O.WarmReset gid →
    gid ≠ s.iGid →
    Does (.warmReset q gid pu) s fun t =>
      t.pw = s.pw ∧
      State.Same s t []) ∧
  (∀ (s : State) (q : Req) (gid p : Nat) (pu : PowerUp),
    s.Accepts q O.WarmReset gid →
    gid = s.iGid →
    s.portOf 2 = some p →
    s.pk.dark_ = false →
    s.waveLit p 0 = true →
    Does (.warmReset q gid pu) s fun t =>
      t.hd = s.hd ∧
      (⟨.port, p, outFlit stControl (p * 16) 0 (tgetD s.up.seq (flitKey p none stControl) 0) s.ki.number (owes s.ki.mark (flitKey p none stControl) s.ki.number) false false false ((s.heartbeat true).1, some 0)⟩ ∈ t.out)) ∧
  (∀ (s : State) (pu : PowerUp) (img : Nat × Nat),
    s.i O.TrialState ≠ 1 →
    s.imageOf pu (s.i O.ImageSelect) = some img →
    Does (.watchdogExpiry 15 pu) s fun t =>
      t.pw.phase = 2 ∧
      t.i O.LastResetCause = 4 ∧
      t.i O.RoleActive = s.i O.RoleActive ∧
      t.hd = s.hd) ∧
  (∀ (s : State) (n : Nat) (pu : PowerUp),
    0 < n ∧ n < 15 →
    Does (.watchdogExpiry n pu) s fun t =>
      t.pw = s.pw ∧
      bit (t.i (inst128 O.IrqStatus 10)) 8 = true ∧
      bits (t.i (inst128 O.IrqStatus 10)) 0 8 = min 255 (bits (s.i (inst128 O.IrqStatus 10)) 0 8 + 1) ∧
      State.Kept s t []) ∧
  (∀ (s : State) (pu : PowerUp),
    Does (.watchdogExpiry 0 pu) s fun t =>
      t.pw = s.pw ∧
      State.Same s t []) ∧
  (∀ (s : State) (q : Req) (v : Nat),
    s.Accepts q O.DomainReset v →
    (96 ≤ bits v 32 7 ∨ domainFixed (bits v 32 7) = true) →
    Does (.domainReset q v) s fun t =>
      t = (s.answer q O.DomainReset true (no (if 96 ≤ bits v 32 7 then stRange else stBusy)) []).commit ∧
      t.pk.domOn = s.pk.domOn ∧
      State.Same s t refusalKeys) ∧
  (∀ (s : State) (q : Req) (v : Nat),
    s.Accepts q O.DomainReset v →
    bits v 0 32 = 0 →
    52 ≤ bits v 32 7 ∧ bits v 32 7 ≤ 75 →
    Does (.domainReset q v) s fun t =>
      s.ft .icd ≤ tgetD t.pk.domReset (bits v 32 7) 0 ∧
      tgetD t.pk.domReset (bits v 32 7) 0 ≤ s.ft .icd + us 32 ∧
      t.hd = s.hd ∧
      t.me = s.me ∧
      t.tw.resync = s.tw.resync) ∧
  (∀ (s : State) (q : Req) (v : Nat),
    s.Accepts q O.DomainReset v →
    bits v 0 32 ≠ 0 ∧ bits v 0 32 = s.iGid →
    domainFixed (bits v 32 7) = false ∧ bits v 32 7 < 96 →
    Does (.domainReset q v) s fun t =>
      (tget t.pk.domReset (bits v 32 7)).isSome = true ∧
      t.hd = s.hd ∧
      t.tw.resync = true) ∧
  (∀ (s : State) (d : Nat),
    onDemand d = true →
    d ∈ s.pk.domOn →
    s.domainBusy d = false →
    tgetD s.pk.domWork d 0 + ms 1 ≤ s.ft .icd →
    Does (.domainIdleOff d) s fun t =>
      t.pk = { s.pk with domOn := s.pk.domOn.filter (· != d) } ∧
      State.Same s t []) ∧
  (∀ (s : State) (d : Nat),
    (onDemand d = false ∨ s.domainBusy d = true ∨ s.ft .icd < tgetD s.pk.domWork d 0 + ms 1) →
    Does (.domainIdleOff d) s fun t =>
      t.pk = s.pk ∧
      State.Same s t []) ∧
  (∀ (s : State) (q : Req) (v : Nat),
    s.Accepts q O.InitDone v →
    (v ≠ 1 ∨ s.pw.initDone = true ∨ s.pw.phase ≠ 2) →
    Does (.initDone q v) s fun t =>
      t = (s.answer q O.InitDone true (no (if v ≠ 1 then stRange else stBusy)) []).commit ∧
      t.pw = s.pw ∧
      State.Same s t refusalKeys) ∧
  (∀ (s : State) (q : Req),
    s.Accepts q O.InitDone 1 →
    s.pw.initDone = false ∧ s.pw.phase = 2 →
    s.pw.stackBad = true →
    Does (.initDone q 1) s fun t =>
      t.pw = { s.pw with initDone := true, phase := 5 } ∧
      State.Same s t []) ∧
  (∀ (s : State) (q : Req),
    s.Accepts q O.InitDone 1 →
    s.pw.initDone = false ∧ s.pw.phase = 2 →
    s.pw.stackBad = false →
    s.pw.warm = false →
    s.coldVal O.IcdonRole ≠ 0 →
    Does (.initDone q 1) s fun t =>
      t.pw.initDone = true ∧
      t.pw.phase = 3 ∧
      t.i O.RoleActive = s.coldVal O.IcdonRole ∧
      t.hd = s.hd ∧
      t.me = { s.me with patrol := 0, patrolAt := s.ft .icd }) ∧
  (∀ (s : State) (q : Req),
    s.Accepts q O.InitDone 1 →
    s.pw.initDone = false ∧ s.pw.phase = 2 →
    s.pw.stackBad = false →
    s.pw.warm = false →
    s.i O.IcdonRole = 0 →
    Does (.initDone q 1) s fun t =>
      t.pw.phase = 5 ∧
      t.i O.RoleActive = 0 ∧
      t.hd = s.hd) ∧
  (∀ (s : State) (port : Nat) (data : List Nat),
    s.pw.phase = 1 →
    data.length = 128 →
    Does (.recoveryData ⟨port, data⟩) s fun t =>
      tget t.pw.recov (s.i O.RecoveryOffset) = some data ∧
      t.i O.RecoveryOffset = (s.i O.RecoveryOffset + 128) % 2 ^ 32 ∧
      t.out = ⟨.eth, port, [stOk]⟩ :: s.out ∧
      State.Same s t [O.RecoveryOffset]) ∧
  (∀ (s : State) (port : Nat) (data : List Nat),
    s.pw.phase ≠ 1 →
    Does (.recoveryData ⟨port, data⟩) s fun t =>
      t.out = ⟨.eth, port, [stDenied]⟩ :: s.out ∧
      t.pw = s.pw ∧
      State.Same s t []) ∧
  (∀ (s : State) (port kind : Nat) (a b : Bool) (pu : PowerUp),
    (s.pw.phase ≠ 1 ∨ (kind ≠ 1 ∧ kind ≠ 2)) →
    Does (.recoveryCommit ⟨port, kind⟩ a b pu) s fun t =>
      t.out = ⟨.eth, port, [if s.pw.phase ≠ 1 then stDenied else stRange]⟩ :: s.out ∧
      State.Same s t []) ∧
  (∀ (s : State) (port kind : Nat) (a b : Bool) (pu : PowerUp),
    (s.pw.phase = 1 ∧ (kind = 1 ∨ kind = 2)) →
    (a = false ∨ b = false) →
    Does (.recoveryCommit ⟨port, kind⟩ a b pu) s fun t =>
      t.i O.RecoveryStatus = (if a = false then 2 else 3) ∧
      t.pw = s.pw ∧
      State.Same s t [O.RecoveryStatus]) ∧
  (∀ (s : State) (port : Nat) (pu : PowerUp) (ser : Nat × Nat),
    s.pw.phase = 1 →
    pu.badPages = [] →
    ((s.recordOf pu (1 - s.i O.ImageSelect % 2)).or (s.recordOf pu (s.i O.ImageSelect % 2))) = some ser →
    s.i O.TrialState ≠ 1 →
    pu.badStack = none →
    pu.cxl = 0 →
    Does (.recoveryCommit ⟨port, 2⟩ true true pu) s fun t =>
      t.i O.RecoveryStatus = 1 ∧
      t.i O.ImageSelect = 1 - s.i O.ImageSelect % 2 ∧
      t.i O.LastResetCause = 5 ∧
      t.pw.phase = 2 ∧
      t.i O.SerialNumber = ser.1 ∧
      t.i O.FirmwareVersion = bits (bytesNat (s.recovBytes.take 8)) 32 32 ∧
      t.hd = s.hd)

/-- Staging, activation, confirmation of firmware; arming rouse entries (R531, R532, R533, R535, R537, R538, R540, R490, R549). -/
def Obligations.FirmwareAndRouse : Prop :=
  (∀ (s : State) (q : Req) (v : Nat) (im : List Nat) (b : Bool),
    s.Accepts q O.StageStart v →
    s.pw.staging = none →
    4096 ≤ s.i O.StageLength →
    bit (s.i O.StageSource) 63 = false →
    Does (.stageStart q v im b) s fun t =>
      t.i O.StageStatus = 1 ∧
      t.pw = { s.pw with staging := some (s.firmwareOk (im.take (s.i O.StageLength)) b, bits (bytesNat ((im.take (s.i O.StageLength)).take 8)) 32 32, Config.sha384 (im.take (s.i O.StageLength))), staged := none } ∧
      State.Same s t [O.StageStatus]) ∧
  (∀ (s : State) (q : Req) (v a : Nat) (im bs : List Nat) (b : Bool),
    s.Accepts q O.StageStart v →
    s.pw.staging = none →
    4096 ≤ s.i O.StageLength →
    s.i O.StageSource = 2 ^ 63 + a →
    a < 2 ^ 63 →
    s.inRegion [12] a (s.i O.StageLength) = true →
    s.me.poison = [] →
    s.me.ce = [] →
    bs = s.t1Read a (s.i O.StageLength) →
    Does (.stageStart q v im b) s fun t =>
      t.i O.StageStatus = 1 ∧
      t.pw = { s.pw with staging := some (s.firmwareOk bs b, bits (bytesNat (bs.take 8)) 32 32, Config.sha384 bs), staged := none } ∧
      State.Same s t [O.StageStatus]) ∧
  (∀ (s : State) (q : Req) (v : Nat) (im : List Nat) (b : Bool),
    s.Accepts q O.StageStart v →
    s.pw.staging = none →
    4096 ≤ s.i O.StageLength →
    ((bit (s.i O.StageSource) 63 = true ∧ s.inRegion [12] (s.i O.StageSource % 2 ^ 63) (s.i O.StageLength) = false) ∨ (bit (s.i O.StageSource) 63 = false ∧
      (b = false ∨ (sigBlock (im.take (s.i O.StageLength))).getD 0 0 ≠ 1 ∨ bit (s.i (O.SignerKinds + (sigBlock (im.take (s.i O.StageLength))).getD 1 0)) 7 = false ∨
        bit (s.i (O.SignerKinds + (sigBlock (im.take (s.i O.StageLength))).getD 1 0)) 0 = false))) →
    Does (.stageStart q v im b) s fun t =>
      t.i O.StageStatus = 1 ∧
      t.pw.staging.map (fun x => x.1) = some false) ∧
  (∀ (s : State) (q : Req) (v : Nat) (im : List Nat) (b : Bool),
    s.Accepts q O.StageStart v →
    (s.pw.staging ≠ none ∨ s.i O.StageLength < 4096) →
    Does (.stageStart q v im b) s fun t =>
      t = (s.answer q O.StageStart true (no (if s.pw.staging ≠ none then stBusy else stRange)) []).commit ∧
      t.pw = s.pw ∧
      State.Same s t refusalKeys) ∧
  (∀ (s : State) (ok_ fl : Bool) (v d : Nat),
    s.pw.staging = some (ok_, v, d) →
    Does (.stageComplete fl) s fun t =>
      t.i O.StageStatus = (if ok_ = false then 4 else if fl = false then 5 else 3) ∧
      t.pw = { s.pw with staging := none, staged := if ok_ = true ∧ fl = true then some (v, d) else s.pw.staged, imgs := if ok_ = true ∧ fl = true then tset s.pw.imgs (1 - s.i O.ImageSelect % 2) (v, d) else s.pw.imgs } ∧
      State.Same s t [O.StageStatus]) ∧
  (∀ (s : State) (fl : Bool),
    s.pw.staging = none →
    Does (.stageComplete fl) s fun t =>
      t.pw = s.pw ∧
      State.Same s t []) ∧
  (∀ (s : State) (q : Req) (g : Nat),
    s.Accepts q O.FwActivate g →
    g = s.iGid →
    (s.i O.StageStatus ≠ 3 ∨ s.pw.switching = true ∨ s.pw.switchAt ≠ none ∨ ¬((s.i O.TwinState = 2 ∧ s.tw.twinState = 3) ∨ (s.i O.TwinState = 3 ∧ (s.tw.twinState = 2 ∨ s.tw.twinState = 6)) ∨ (s.i O.TwinState = 6 ∧ s.tw.twinState = 3))) →
    Does (.activate q g) s fun t =>
      t = (s.answer q O.FwActivate true (no stBusy) []).commit ∧
      t.pw = s.pw ∧
      State.Same s t refusalKeys) ∧
  (∀ (s : State) (q : Req) (g : Nat),
    s.Accepts q O.FwActivate g →
    g = s.iGid →
    s.i O.StageStatus = 3 →
    s.pw.switching = false ∧ s.pw.switchAt = none →
    s.i O.TwinState = 3 →
    (s.tw.twinState = 2 ∨ s.tw.twinState = 6) →
    Does (.activate q g) s fun t =>
      t.pw = { s.pw with switchAt := some (s.boundaryAfter (s.ft .icd + ms 1)) } ∧
      State.Same s t []) ∧
  (∀ (s : State) (q : Req) (g : Nat),
    s.Accepts q O.FwActivate g →
    g = s.iGid →
    s.i O.StageStatus = 3 →
    s.pw.switching = false ∧ s.pw.switchAt = none →
    (s.i O.TwinState = 2 ∨ s.i O.TwinState = 6) →
    s.tw.twinState = 3 →
    Does (.activate q g) s fun t =>
      t.pw = { s.pw with switchAt := some (s.boundaryAfter (s.ft .icd + ms 1)) } ∧
      t.tw.handover = some (s.boundaryAfter (s.ft .icd + ms 1)) ∧
      State.Same s t []) ∧
  (∀ (s : State) (p : Nat) (e : WriteEnv),
    s.i O.TwinState = 3 →
    (s.tw.twinState = 2 ∨ s.tw.twinState = 6) →
    s.mo.pos ≤ p →
    s.i O.StageStatus = 3 →
    s.pw.switching = false ∧ s.pw.switchAt = none →
    Does (.twinWriteApply p O.FwActivate s.iGid none e) s fun t =>
      t.mo.pos = p ∧
      t.pw = { s.pw with switchAt := some (s.boundaryAfter (s.ft .icd + ms 1)) } ∧
      State.Same s t []) ∧
  (∀ (s : State) (q : Req) (g : Nat),
    s.Accepts q O.FwActivate g →
    g ≠ s.iGid →
    Does (.activate q g) s fun t =>
      t.pw = s.pw ∧
      State.Same s t []) ∧
  (∀ (s : State),
    s.pw.switchAt = none →
    Does (.activationSwitch) s fun t =>
      t.pw = s.pw ∧
      State.Same s t []) ∧
  (∀ (s : State) (b : Nat),
    s.pw.switchAt = some b →
    s.ft .icd < b →
    Does (.activationSwitch) s fun t =>
      t.pw = s.pw ∧
      State.Same s t []) ∧
  (∀ (s : State),
    s.isLead = true →
    Does (.activationSwitch) s fun t =>
      t.pw = s.pw ∧
      State.Same s t []) ∧
  (∀ (s : State) (b : Nat),
    s.pw.switchAt = some b →
    b ≤ s.ft .icd →
    s.isLead = false →
    Does (.activationSwitch) s fun t =>
      t.pw.switching = true ∧
      t.pw.switchAt = none ∧
      t.i O.TwinState = 4 ∧
      t.i O.TrialState = b2n (!s.pw.reverting) ∧
      t.i O.ImageSelect = 1 - s.i O.ImageSelect % 2 ∧
      bit (t.i (inst128 O.IrqStatus 12)) 8 = true ∧
      t.hd = s.hd ∧
      t.me = s.me) ∧
  (∀ (s : State),
    s.pw.switching = false →
    Does (.activationDone) s fun t =>
      t.pw = s.pw ∧
      State.Same s t []) ∧
  (∀ (s : State) (v d : Nat),
    s.pw.switching = true →
    s.tw.silent.contains xLinkNo = false →
    s.pw.reverting = false →
    tget s.pw.imgs (s.i O.ImageSelect) = some (v, d) →
    Does (.activationDone) s fun t =>
      t.i O.FirmwareVersion = v ∧
      t.i O.TrialState = 1 ∧
      t.i O.StageStatus = (if s.pw.staged = some (v, d) ∧ s.pw.staging = none then 0 else s.i O.StageStatus) ∧
      t.i O.MeasEpoch = (s.i O.MeasEpoch + 1) % 2 ^ 32 ∧
      t.sc.alias_ = s.sc.alias_ + 1 ∧
      t.sc.sess = [] ∧
      t.tw.resync = true ∧
      t.pw = { s.pw with imgDigest := d, trialFrom := some (s.ft .icd), prevImg := some (s.i O.FirmwareVersion, s.pw.imgDigest), staged := if s.pw.staged = some (v, d) then none else s.pw.staged, switching := false } ∧
      t.hd = s.hd) ∧
  (∀ (s : State) (p : Nat × Nat),
    s.pw.switching = true →
    s.tw.silent.contains xLinkNo = false →
    s.pw.reverting = true →
    s.pw.prevImg = some p →
    Does (.activationDone) s fun t =>
      t.i O.FirmwareVersion = p.1 ∧
      t.i O.TrialState = 0 ∧
      t.i O.MeasEpoch = (s.i O.MeasEpoch + 1) % 2 ^ 32 ∧
      t.sc.alias_ = s.sc.alias_ + 1 ∧
      t.pw = { s.pw with imgDigest := p.2, trialFrom := none, prevImg := none, reverting := false, switching := false } ∧
      t.tw.resync = true ∧
      t.hd = s.hd) ∧
  (∀ (s : State) (v d : Nat),
    s.pw.switching = true →
    s.pw.reverting = false →
    tget s.pw.imgs (s.i O.ImageSelect) = some (v, d) →
    s.tw.silent.contains xLinkNo = true →
    s.i O.TwinState = 4 →
    Does (.activationDone) s fun t =>
      t.i O.TwinState = 6 ∧
      t.pw.switching = false ∧
      t.i O.TrialState = 1 ∧
      t.hd = s.hd) ∧
  (∀ (s : State) (q : Req) (g : Nat),
    s.Accepts q O.ImageConfirm g →
    g = s.iGid →
    Does (.imageConfirm q g) s fun t =>
      t.i O.TrialState = 0 ∧
      t.pw = { s.pw with trialFrom := none, prevImg := none } ∧
      State.Same s t [O.TrialState]) ∧
  (∀ (s : State) (q : Req) (g : Nat),
    s.Accepts q O.ImageConfirm g →
    g ≠ s.iGid →
    Does (.imageConfirm q g) s fun t =>
      t.pw = s.pw ∧
      State.Same s t []) ∧
  (∀ (s : State),
    s.pw.trialFrom = none →
    Does (.confirmTimeout) s fun t =>
      t.pw = s.pw ∧
      State.Same s t []) ∧
  (∀ (s : State) (n : Nat),
    s.pw.trialFrom = some n →
    s.ft .icd < n + s.i O.ConfirmTimeout * ns 1000000000 →
    Does (.confirmTimeout) s fun t =>
      t.pw = s.pw ∧
      State.Same s t []) ∧
  (∀ (s : State) (n : Nat),
    s.pw.trialFrom = some n →
    n + s.i O.ConfirmTimeout * ns 1000000000 ≤ s.ft .icd →
    Does (.confirmTimeout) s fun t =>
      t.pw = { s.pw with trialFrom := none, reverting := true, switchAt := some (s.boundaryAfter (s.ft .icd + ms 1)) } ∧
      t.seqOf .icd 0xF3 = (s.seqOf .icd 0xF3 + 1) % 2 ^ 32 ∧
      (s.isLead = true → s.tw.twinState = 3 → t.tw.handover = some (s.boundaryAfter (s.ft .icd + ms 1))) ∧
      t.hd = s.hd ∧
      t.me = s.me) ∧
  (∀ (s : State) (q : Req) (n v cr : Nat),
    n < 16 →
    s.Accepts q (inst O.RouseConfig n) v →
    (bits v 5 3 ≠ 0 ∨ bits v 12 4 ≠ 0 ∨ bits v 49 15 ≠ 0 ∨ 5 < bits v 0 4 ∨ 16 < bits v 44 5) →
    Does (.rouseArm q n v cr) s fun t =>
      t = (s.answer q (inst O.RouseConfig n) true (no stRange) []).commit ∧
      t.pw = s.pw ∧
      State.Same s t refusalKeys) ∧
  (∀ (s : State) (q : Req) (n v cr : Nat),
    n < 16 →
    s.Accepts q (inst O.RouseConfig n) v →
    bit v 4 = true →
    (s.partState (bits v 16 16) ≠ partTest ∨ s.partMember (bits v 16 16) (s.rouseDie n) = false ∨ s.dieInActive (s.rouseDie n) = true) →
    Does (.rouseArm q n v cr) s fun t =>
      t = (s.answer q (inst O.RouseConfig n) true (no stRange) []).commit ∧
      t.pw = s.pw ∧
      State.Same s t refusalKeys) ∧
  (∀ (s : State) (q : Req) (n v cr : Nat),
    n < 16 →
    s.Accepts q (inst O.RouseConfig n) v →
    bit v 4 = false →
    bits v 5 3 = 0 ∧ bits v 12 4 = 0 ∧ bits v 49 15 = 0 ∧ bits v 0 4 ≤ 5 ∧ bits v 44 5 ≤ 16 →
    Does (.rouseArm q n v cr) s fun t =>
      t.i (inst O.RouseConfig n) = v ∧
      t.pw = { s.pw with injectors := tdel s.pw.injectors n } ∧
      t.seqOf .icd 0xF8 = (if bit (s.i (inst O.RouseConfig n)) 4 then (s.seqOf .icd 0xF8 + 1) % 2 ^ 32 else s.seqOf .icd 0xF8) ∧
      State.Kept s t [inst O.RouseConfig n]) ∧
  (∀ (s : State) (q : Req) (n v cr : Nat),
    n < 16 →
    s.Accepts q (inst O.RouseConfig n) v →
    bit v 4 = true →
    bits v 5 3 = 0 ∧ bits v 12 4 = 0 ∧ bits v 49 15 = 0 ∧ bits v 0 4 ≤ 5 ∧ bits v 44 5 ≤ 16 →
    s.partState (bits v 16 16) = partTest ∧ s.partMember (bits v 16 16) (s.rouseDie n) = true ∧ s.dieInActive (s.rouseDie n) = false →
    Does (.rouseArm q n v cr) s fun t =>
      t.i (inst O.RouseConfig n) = v ∧
      t.i (inst O.RouseCount n) = 0 ∧
      tget t.pw.rouseCred n = some cr ∧
      tget t.pw.rouseSeen n = some 0 ∧
      t.seqOf .icd 0xF8 = (s.seqOf .icd 0xF8 + 1) % 2 ^ 32 ∧
      State.Kept s t [inst O.RouseConfig n, inst O.RouseCount n])

/-- Object reads and writes: control space, proxies, MOP requests, descriptors, subscriptions (R9, R15, R504, R509, R510, R512, R513, R514, R515, R516, R517, R518). -/
def Obligations.ManagementAccess : Prop :=
  (∀ k : Nat, k < 2 ^ 24 → addrKey (objAddr k) = some k) ∧
  (∀ k : Nat, keySub k = 0 → subTop objTable (keyIdx k) ≠ 0 → (objSpec k).map (fun o => o.dflt) = some (subTop objTable (keyIdx k))) ∧
  (∀ (s : State) (q : Req) (gid : Nat),
    Does (.objectRead q gid none) s fun t =>
      t = (if s.acked q then s.answer q 0 false (no stArg) [] else s).commit ∧
      State.Same s t refusalKeys ∧
      t.mo.proxies = s.mo.proxies) ∧
  (∀ (s : State) (q : Req) (gid n : Nat) (l : List Item),
    s.here gid = true →
    q.who = .ring n →
    s.isLead = true →
    (∀ it, it ∈ l → s.itemWhy .icd q false false it = none) →
    Does (.objectRead q gid (some l)) s fun t =>
      t.out = ⟨.host, n, mkRec 0x61 2 0 (s.srcGid .icd 0x61) (s.seqOf .icd 0x61) 0 [(128, 32, q.tag), (160, 16, 0), (176, 1, 0), (184, 8, 0), (192, 32, 0)]⟩ :: ⟨.host, n, 0x521 :: l.flatMap fun it => [it.key, 0, 0, s.readValue .icd it.key]⟩ :: s.out ∧
      State.Same s t []) ∧
  (∀ (s : State) (q : Req) (gid : Nat) (tm : Option Nat) (env : WriteEnv),
    Does (.objectWrite q gid none tm env) s fun t =>
      t = (if s.acked q then s.answer q 0 true (no stArg) [] else s).commit ∧
      State.Same s t refusalKeys) ∧
  (∀ (s : State) (q : Req) (gid : Nat) (it : Item) (env : WriteEnv),
    s.here gid = true →
    s.itemWhy .icd q true false it = none →
    s.twinReach it.key = true ∧ s.observeBlocks q = false ∧ s.forwards it.key = false →
    State.icdonOpA it.key it.val env = none ∧ State.icdonOpB it.key it.val = none ∧ State.icdonOpC q it.key it.val env = none →
    s.icdonBad it.key it.val = none →
    env.mramFail = false →
    it.key ∉ [O.GracePerLevel, O.ResultBudget, O.SupplementHold, O.PartitionQuery] ∧ keyIdx it.key ≠ 0x2001 →
    (q.who ≠ .pf ∧ (∀ j, j < 4 → q.who ≠ .core j)) →
    Does (.objectWrite q gid (some [it]) none env) s fun t =>
      t.i it.key = s.written .icd it.key it.val ∧
      State.Same s t [it.key]) ∧
  (∀ (s : State) (q : Req) (u : Side) (k v : Nat) (env : WriteEnv),
    holds u k = false →
    Does (.registerWrite q u k v env) s fun t =>
      t = (s.answer q k true (no stNoObject) []).commit ∧
      State.Same s t refusalKeys) ∧
  (∀ (s : State) (q : Req) (k v : Nat) (env : WriteEnv),
    holds .icd k = true →
    s.Accepts q k v →
    State.icdonOpA k v env = none ∧ State.icdonOpB k v = none ∧ State.icdonOpC q k v env = none →
    s.icdonBad k v = none →
    env.mramFail = false →
    k ∉ [O.GracePerLevel, O.ResultBudget, O.SupplementHold, O.PartitionQuery] ∧ keyIdx k ≠ 0x2001 →
    Does (.registerWrite q .icd k v env) s fun t =>
      t.i k = s.written .icd k v ∧
      State.Same s t [k]) ∧
  (∀ (s : State) (q : Req) (k v : Nat) (env : WriteEnv) (r : Res),
    holds .icd k = true →
    s.Accepts q k v →
    State.icdonOpA k v env = none ∧ State.icdonOpB k v = none ∧ State.icdonOpC q k v env = none →
    s.icdonBad k v = some r →
    r.st ≠ 0 →
    Does (.registerWrite q .icd k v env) s fun t =>
      t = (s.answer q k true r []).commit ∧
      State.Same s t refusalKeys) ∧
  (∀ (s : State) (q : Req) (k v : Nat) (env : WriteEnv),
    holds .hel k = true →
    s.AcceptsProxy q k v →
    s.heladBad k v = false →
    ¬(0x3000 ≤ keyIdx k ∧ keyIdx k ≤ 0x301F) ∧ keyIdx k ∉ [0x305C, 0x4E10, 0x4E11, 0x4E04, 0x4E05, 0x3400] ∧ k ∉ [O.SetCommit, O.ActionCancel, O.TraceCadence, O.SeqControl, O.PitchDuty, O.TraceEnable] →
    ¬(0x2100 ≤ keyIdx k ∧ keyIdx k ≤ 0x2103 ∧ keySub k = 1) →
    Does (.registerWrite q .hel k v env) s fun t =>
      t.h k = s.written .hel k v ∧
      (tget t.ln.copies (s.h O.SlotNumber * 2 ^ 24 + k) = some v ∨ k = O.SlotNumber) ∧
      t.domState 4 ≠ 0 ∧
      State.Same s t [k]) ∧
  (∀ (s : State) (q : Req) (k : Nat),
    (wideBlock q = none ∨ holds .icd k = false ∨ s.readRight q k ≠ none) →
    Does (.wideRead q k) s fun t =>
      t.mo.wide = s.mo.wide ∧
      State.Same s t refusalKeys) ∧
  (∀ (s : State) (q : Req) (k : Nat),
    q.who = .pf →
    holds .icd k = true →
    s.readRight q k = none →
    Does (.wideRead q k) s fun t =>
      tget t.mo.wide 0 = some (s.readValue .icd k) ∧
      t.out = ⟨.reply, 0x2000, [s.readValue .icd k % 2 ^ 32]⟩ :: s.out ∧
      State.Same s t []) ∧
  (∀ (s : State) (q : Req) (k n : Nat),
    q.who = .core n →
    holds .icd k = true →
    s.readRight q k = none →
    Does (.wideRead q k) s fun t =>
      tget t.mo.wide (1 + n % 4) = some (s.readValue .icd k) ∧
      State.Same s t []) ∧
  (∀ (s : State) (q : Req) (k lo hi : Nat) (env : WriteEnv),
    (wideBlock q = none ∨ holds .icd k = false) →
    Does (.wideWriteCommit q k lo hi env) s fun t =>
      State.Same s t refusalKeys) ∧
  (∀ (s : State) (q : Req) (k lo hi v : Nat) (n : Nat) (env : WriteEnv),
    (wideBlock q).isSome = true →
    holds .icd k = true →
    (objSpec k).map (·.bits) = some n ∧ v = (lo + hi * 2 ^ 32) % 2 ^ n →
    s.Accepts q k v →
    State.icdonOpA k v env = none ∧ State.icdonOpB k v = none ∧ State.icdonOpC q k v env = none →
    s.icdonBad k v = none →
    env.mramFail = false →
    k ∉ [O.GracePerLevel, O.ResultBudget, O.SupplementHold, O.PartitionQuery] ∧ keyIdx k ≠ 0x2001 →
    Does (.wideWriteCommit q k lo hi env) s fun t =>
      t.i k = s.written .icd k v ∧
      State.Same s t [k]) ∧
  (∀ (s : State) (id gid : Nat) (r : Role) (wr : Bool) (tm : Option Nat) (l : List Item) (env : WriteEnv) (a : List (Nat × Nat × Nat)),
    gid = s.hGid ∧ gid ≠ 0 →
    (s.heladReset = true ∨ s.h O.LaneState = 4) →
    Does (.proxyRequest id gid r wr tm l env a) s fun t =>
      t.mo = s.mo ∧
      t.out = s.out ∧
      State.Same s t []) ∧
  (∀ (s : State) (id gid : Nat) (r : Role) (k ty sz x : Nat) (env : WriteEnv) (a : List (Nat × Nat × Nat)),
    gid = s.hGid ∧ gid ≠ 0 →
    s.heladReset = false ∧ s.h O.LaneState ≠ 4 →
    tget s.mo.proxies id = none →
    holds .hel k = true →
    k ≠ O.FtNow ∧ k ≠ O.RtNow →
    Does (.proxyRequest id gid r false none [⟨k, ty, sz, x⟩] env a) s fun t =>
      t.out = ⟨.reply, 0x4000, [id, gid, 0, 0, s.readValue .hel k]⟩ :: s.out ∧
      t.domState 4 ≠ 0 ∧
      State.Same s t []) ∧
  (∀ (s : State) (id gid : Nat) (r : Role) (k ty sz v : Nat) (env : WriteEnv) (a : List (Nat × Nat × Nat)),
    gid = s.hGid ∧ gid ≠ 0 →
    s.heladReset = false ∧ s.h O.LaneState ≠ 4 →
    tget s.mo.proxies id = none →
    holds .hel k = true →
    trayOnly k = false →
    s.heladBad k v = false →
    ¬(0x3000 ≤ keyIdx k ∧ keyIdx k ≤ 0x301F) ∧ keyIdx k ∉ [0x305C, 0x4E10, 0x4E11, 0x4E04, 0x4E05, 0x3400] ∧ k ∉ [O.SetCommit, O.ActionCancel, O.TraceCadence, O.SeqControl, O.PitchDuty, O.TraceEnable] →
    ¬(0x2100 ≤ keyIdx k ∧ keyIdx k ≤ 0x2103 ∧ keySub k = 1) →
    Does (.proxyRequest id gid r true none [⟨k, ty, sz, v⟩] env a) s fun t =>
      t.out = ⟨.reply, 0x4000, [id, gid, 0, 0, 0]⟩ :: s.out ∧
      t.h k = s.written .hel k v ∧
      State.Same s t [k]) ∧
  (∀ (s : State) (id gid : Nat) (r : Role) (wr : Bool) (tm : Option Nat) (l : List Item) (env : WriteEnv) (a : List (Nat × Nat × Nat)) (p : Proxy),
    tget s.mo.proxies id = some p →
    gid ∉ p.left →
    Does (.proxyRequest id gid r wr tm l env a) s fun t =>
      t.mo = s.mo ∧
      t.out = s.out ∧
      State.Same s t []) ∧
  (∀ (s : State) (id gid x v w : Nat) (q : Req) (env f : WriteEnv) (a : List (Nat × Nat × Nat)) (p : Proxy),
    gid = s.hGid ∧ gid ≠ 0 →
    s.heladReset = false ∧ s.h O.LaneState ≠ 4 →
    p = ⟨q, false, true, [⟨O.ReadBudget, 2, 2, v⟩, ⟨O.LaneWeight, 1, 1, w⟩], [(0, 0, 0), (0, 0, 0)], none, f, x, false, [gid], 0, 0, 0, 1, true⟩ →
    tget s.mo.proxies id = some p →
    s.heladBad O.LaneWeight w = true →
    Does (.proxyRequest id gid q.role true none [⟨O.ReadBudget, 2, 2, v⟩, ⟨O.LaneWeight, 1, 1, w⟩] env a) s fun t =>
      t.h O.ReadBudget = s.h O.ReadBudget ∧
      tget t.mo.proxies id = none) ∧
  (∀ (s : State) (id : Nat) (p : Proxy),
    tget s.mo.proxies id = some p →
    s.ft .icd < p.since + ms (s.i O.ProxyTimeout) →
    Does (.proxyTimeout id) s fun t =>
      t.mo = s.mo ∧
      State.Same s t []) ∧
  (∀ (s : State) (id n : Nat) (p : Proxy) (se : Session),
    tget s.mo.proxies id = some p →
    p.since + ms (s.i O.ProxyTimeout) ≤ s.ft .icd →
    p.below = false ∧ p.desc = false ∧ p.write = true ∧ p.req.who = .session n →
    tget s.mo.sessions n = some se →
    Does (.proxyTimeout id) s fun t =>
      tget t.mo.proxies id = none ∧
      (t.out = ⟨.reply, n, [p.req.tag, (overall ((p.pre.map fun r => if r.1 = 0 then (stTimeout, 0, 0) else r).zip p.items |>.map fun x => ⟨x.1.1, 0, 0⟩)).st, 0] ++ (p.items.zip p.pre).flatMap fun x => [x.1.key, if x.2.1 = 0 then stTimeout else x.2.1, if x.2.1 = 0 then 0 else x.2.2.1]⟩ :: s.out ∨ p.items.length ≠ p.pre.length) ∧
      State.Same s t []) ∧
  (∀ (s : State) (id : Nat),
    tget s.mo.proxies id = none →
    Does (.proxyTimeout id) s fun t =>
      t.mo = s.mo ∧
      State.Same s t []) ∧
  (∀ (s : State) (h : MopHdr) (l : List Item),
    s.pw.phase = 1 →
    tget s.mo.sessions h.sess = none →
    h.ver = 1 ∧ h.rsv = 0 ∧ h.below = false ∧ h.timed = none →
    s.here h.gid = true →
    (∀ it, it ∈ l → keyIdx it.key = 0x1000 ∧ 1 ≤ keySub it.key ∧ keySub it.key ≤ 6 ∧ s.itemWhy .icd ⟨.mt, 0, .device 0, h.tag⟩ false false it = none) →
    Does (.read h l) s fun t =>
      t.out = ⟨.reply, h.sess, [h.tag, 0, 0] ++ l.flatMap fun it => [it.key, 0, 0, s.readValue .icd it.key]⟩ :: s.out ∧
      State.Same s t []) ∧
  (∀ (s : State) (h : MopHdr) (l : List Item),
    s.pw.phase = 1 →
    tget s.mo.sessions h.sess = none →
    h.ver = 1 ∧ h.rsv = 0 ∧ h.below = false ∧ h.timed = none →
    (∃ it, it ∈ l ∧ keyIdx it.key ≠ 0x1000) →
    Does (.read h l) s fun t =>
      t.out = ⟨.reply, h.sess, [h.tag, stDenied, 0]⟩ :: s.out ∧
      State.Same s t []) ∧
  (∀ (s : State) (h : MopHdr) (v : Nat) (env : WriteEnv),
    s.pw.phase = 1 →
    tget s.mo.sessions h.sess = none →
    h.ver = 1 ∧ h.rsv = 0 ∧ h.below = false ∧ h.timed = none →
    s.here h.gid = true →
    v < 2 ^ 32 →
    Does (.write h [⟨O.RecoveryOffset, 3, 4, v⟩] env) s fun t =>
      t.out = ⟨.reply, h.sess, [h.tag, stOk, 0, O.RecoveryOffset, 0, 0]⟩ :: s.out ∧
      t.i O.RecoveryOffset = v ∧
      State.Same s t [O.RecoveryOffset]) ∧
  (∀ (s : State) (h : MopHdr) (l : List Item) (se : Session),
    s.pw.switching = false →
    tget s.mo.sessions h.sess = some se →
    (se.tags.find? fun x => x.1 == h.tag && decide (s.ft .icd < x.2.1 + ms 1000)) = none →
    s.sessionBusy h.sess < 16 →
    h.ver = 1 ∧ h.rsv = 0 ∧ h.below = false ∧ h.timed = none →
    s.here h.gid = true →
    (∀ it, it ∈ l → s.itemWhy .icd ⟨se.role, se.part, .session h.sess, h.tag⟩ false false it = none) →
    Does (.read h l) s fun t =>
      (t.out = ⟨.reply, h.sess, [h.tag, 0, 0] ++ l.flatMap fun it => [it.key, 0, 0, s.readValue .icd it.key]⟩ :: s.out ∨ ∃ it, it ∈ l ∧ (it.key = O.SessionsOpen ∨ it.key = O.AttestFlags)) ∧
      State.Same s t []) ∧
  (∀ (s : State) (h : MopHdr) (l : List Item) (env : WriteEnv) (off len : Nat) (d : DescIn) (id : Nat) (en : Bool) (m : Nat),
    s.pw.switching = true →
    (tget s.mo.sessions h.sess).isSome = true →
    EachMop h l env off len d id en m fun r =>
      Does r s fun t =>
        t.out = ⟨.reply, h.sess, [h.tag, stNotReady, 66]⟩ :: s.out ∧
        t.mo = s.mo ∧
        State.Same s t []) ∧
  (∀ (s : State) (h : MopHdr) (l : List Item) (env : WriteEnv) (off len : Nat) (d : DescIn) (id : Nat) (en : Bool) (m : Nat) (se : Session) (x : Nat × Nat × List Nat),
    s.pw.switching = false →
    tget s.mo.sessions h.sess = some se →
    (se.tags.find? fun x => x.1 == h.tag && decide (s.ft .icd < x.2.1 + ms 1000)) = some x →
    x.2.2 ≠ [] →
    EachMop h l env off len d id en m fun r =>
      Does r s fun t =>
        t.out = ⟨.reply, h.sess, x.2.2⟩ :: s.out ∧
        t.mo = s.mo ∧
        State.Same s t []) ∧
  (∀ (s : State) (h : MopHdr) (l : List Item) (env : WriteEnv) (off len : Nat) (d : DescIn) (id : Nat) (en : Bool) (m : Nat) (se : Session),
    s.pw.switching = false →
    tget s.mo.sessions h.sess = some se →
    (se.tags.find? fun x => x.1 == h.tag && decide (s.ft .icd < x.2.1 + ms 1000)) = none →
    s.sessionBusy h.sess < 16 →
    (h.ver ≠ 1 ∨ h.rsv ≠ 0) →
    EachMop h l env off len d id en m fun r =>
      Does r s fun t =>
        t.out = ⟨.reply, h.sess, [h.tag, stMalformed, 0]⟩ :: s.out ∧
        State.Same s t []) ∧
  (∀ (s : State) (h : MopHdr) (it : Item) (env : WriteEnv) (se : Session) (q : Req),
    s.pw.switching = false →
    tget s.mo.sessions h.sess = some se →
    (se.tags.find? fun x => x.1 == h.tag && decide (s.ft .icd < x.2.1 + ms 1000)) = none →
    s.sessionBusy h.sess < 16 →
    q = ⟨se.role, se.part, .session h.sess, h.tag⟩ →
    h.ver = 1 ∧ h.rsv = 0 ∧ h.below = false ∧ h.timed = none →
    s.here h.gid = true →
    s.itemWhy .icd q true false it = none →
    s.twinReach it.key = true ∧ s.observeBlocks q = false ∧ s.forwards it.key = false →
    State.icdonOpA it.key it.val env = none ∧ State.icdonOpB it.key it.val = none ∧ State.icdonOpC q it.key it.val env = none →
    s.icdonBad it.key it.val = none →
    env.mramFail = false →
    it.key ∉ [O.GracePerLevel, O.ResultBudget, O.SupplementHold, O.PartitionQuery] ∧ keyIdx it.key ≠ 0x2001 →
    Does (.write h [it] env) s fun t =>
      t.i it.key = s.written .icd it.key it.val ∧
      State.Same s t [it.key]) ∧
  (∀ (s : State) (h : MopHdr) (off len : Nat) (se : Session),
    s.pw.switching = false →
    tget s.mo.sessions h.sess = some se →
    (se.tags.find? fun x => x.1 == h.tag && decide (s.ft .icd < x.2.1 + ms 1000)) = none →
    s.sessionBusy h.sess < 16 →
    h.ver = 1 ∧ h.rsv = 0 ∧ h.below = false ∧ h.timed = none →
    se.role ≠ .tp →
    16 ≤ len ∧ len ≤ 1024 ∧ len % 16 = 0 ∧ off + len ≤ 4096 →
    Does (.windowRead h off len) s fun t =>
      t.out = ⟨.reply, h.sess, [h.tag, stOk, 0] ++ (List.range len).map fun j => (recBytes s.ir.window).getD (off + j) 0⟩ :: s.out ∧
      State.Same s t []) ∧
  (∀ (s : State) (h : MopHdr) (off len : Nat) (se : Session),
    s.pw.switching = false →
    tget s.mo.sessions h.sess = some se →
    (se.tags.find? fun x => x.1 == h.tag && decide (s.ft .icd < x.2.1 + ms 1000)) = none →
    s.sessionBusy h.sess < 16 →
    h.ver = 1 ∧ h.rsv = 0 →
    (se.role = .tp ∨ h.below = true ∨ h.timed ≠ none ∨ len < 16 ∨ 1024 < len ∨ len % 16 ≠ 0 ∨ 4096 < off + len) →
    Does (.windowRead h off len) s fun t =>
      t.out = ⟨.reply, h.sess, [h.tag, if se.role = .tp then stDenied else stMalformed, 0]⟩ :: s.out ∧
      State.Same s t []) ∧
  (∀ (s : State) (h : MopHdr) (l : List Item) (se : Session),
    s.pw.switching = false →
    tget s.mo.sessions h.sess = some se →
    (se.tags.find? fun x => x.1 == h.tag && decide (s.ft .icd < x.2.1 + ms 1000)) = none →
    s.sessionBusy h.sess < 16 →
    h.ver = 1 ∧ h.rsv = 0 ∧ h.below = false ∧ h.timed = none →
    s.isLead = false →
    (∀ it, it ∈ l → s.itemWhy .icd ⟨se.role, se.part, .session h.sess, h.tag⟩ false false it = none) →
    Does (.descriptor h (.objectRead 0 l)) s fun t =>
      t.out = ⟨.reply, h.sess, [h.tag, 0, 0, 0]⟩ :: s.out ∧
      State.Same s t []) ∧
  (∀ (s : State) (h : MopHdr) (d : DescIn) (se : Session),
    s.pw.switching = false →
    tget s.mo.sessions h.sess = some se →
    (se.tags.find? fun x => x.1 == h.tag && decide (s.ft .icd < x.2.1 + ms 1000)) = none →
    s.sessionBusy h.sess < 16 →
    h.ver = 1 ∧ h.rsv = 0 →
    (h.below = true ∨ h.timed ≠ none) →
    Does (.descriptor h d) s fun t =>
      t.out = ⟨.reply, h.sess, [h.tag, stMalformed, 0]⟩ :: s.out ∧
      State.Same s t []) ∧
  (∀ (s : State) (h : MopHdr) (id m : Nat) (en : Bool) (se : Session),
    s.pw.switching = false →
    tget s.mo.sessions h.sess = some se →
    (se.tags.find? fun x => x.1 == h.tag && decide (s.ft .icd < x.2.1 + ms 1000)) = none →
    s.sessionBusy h.sess < 16 →
    h.ver = 1 ∧ h.rsv = 0 ∧ h.below = false ∧ h.timed = none →
    id < 4 →
    Does (.subscribe h id en m) s fun t =>
      (tget t.mo.sessions h.sess).map (·.subs) = some (tset se.subs id ⟨en, m, 0, 0⟩) ∧
      t.out = ⟨.reply, h.sess, [h.tag, stOk, 0]⟩ :: s.out ∧
      State.Same s t []) ∧
  (∀ (s : State) (h : MopHdr) (id m : Nat) (en : Bool) (se : Session),
    s.pw.switching = false →
    tget s.mo.sessions h.sess = some se →
    (se.tags.find? fun x => x.1 == h.tag && decide (s.ft .icd < x.2.1 + ms 1000)) = none →
    s.sessionBusy h.sess < 16 →
    h.ver = 1 ∧ h.rsv = 0 →
    (4 ≤ id ∨ h.below = true ∨ h.timed ≠ none) →
    Does (.subscribe h id en m) s fun t =>
      (tget t.mo.sessions h.sess).map (·.subs) = some se.subs ∧
      t.out = ⟨.reply, h.sess, [h.tag, stMalformed, 0]⟩ :: s.out ∧
      State.Same s t [])
end

