-- ==== Sys2Proof/Laws/Table.lean ====
section
/-! SUPPORT. What table and dictionary operations do: reading back what was stored, and the canonical forms. -/

namespace Sys2Proof.Machine

/-! ### Tables -/

@[simp] theorem tget_nil {α : Type} (k : Nat) : tget ([] : List (Nat × α)) k = none := rfl

theorem tget_cons {α : Type} (p : Nat × α) (t : List (Nat × α)) (k : Nat) :
    tget (p :: t) k = if p.1 = k then some p.2 else tget t k := rfl

@[simp] theorem tget_tset_self {α : Type} (t : List (Nat × α)) (k : Nat) (v : α) : tget (tset t k v) k = some v := by
  induction t with
  | nil => simp [tset, tget]
  | cons p t ih =>
    simp only [tset]
    split
    · simp [tget]
    · split
      · simp [tget]
      · have : ¬ p.1 = k := by omega
        simp [tget, this, ih]

theorem tget_tset_ne {α : Type} (t : List (Nat × α)) {k j : Nat} (v : α) (h : j ≠ k) : tget (tset t k v) j = tget t j := by
  induction t with
  | nil => simp [tset, tget, Ne.symm h]
  | cons p t ih =>
    simp only [tset]
    split
    · simp [tget, Ne.symm h]
    · split
      · next e => subst e; simp [tget, Ne.symm h]
      · simp [tget, ih]

theorem tget_tset {α : Type} (t : List (Nat × α)) (k j : Nat) (v : α) :
    tget (tset t k v) j = if j = k then some v else tget t j := by
  split
  · next e => subst e; simp
  · next e => exact tget_tset_ne t v e

@[simp] theorem tgetD_tset_self {α : Type} (t : List (Nat × α)) (k : Nat) (v d : α) : tgetD (tset t k v) k d = v := by
  simp [tgetD]

theorem tgetD_tset_ne {α : Type} (t : List (Nat × α)) {k j : Nat} (v d : α) (h : j ≠ k) :
    tgetD (tset t k v) j d = tgetD t j d := by
  simp [tgetD, tget_tset_ne t v h]

theorem tget_tdel_self {α : Type} (t : List (Nat × α)) (k : Nat) : tget (tdel t k) k = none := by
  induction t with
  | nil => rfl
  | cons p t ih =>
    by_cases e : p.1 = k
    · simpa [tdel, e] using ih
    · have : tdel (p :: t) k = p :: tdel t k := by simp [tdel, e]
      rw [this, tget_cons, if_neg e]; exact ih

theorem tget_tdel_ne {α : Type} (t : List (Nat × α)) {k j : Nat} (h : j ≠ k) : tget (tdel t k) j = tget t j := by
  induction t with
  | nil => rfl
  | cons p t ih =>
    by_cases e : p.1 = k
    · have : tdel (p :: t) k = tdel t k := by simp [tdel, e]
      rw [this, ih, tget_cons, if_neg (by omega)]
    · have : tdel (p :: t) k = p :: tdel t k := by simp [tdel, e]
      rw [this, tget_cons, tget_cons, ih]

/-! ### Dictionaries -/

theorem Dict.wf_tail {sd : Side} {p : Nat × Nat} {t : Dict} (h : Dict.wf sd (p :: t) = true) : Dict.wf sd t = true := by
  cases t with
  | nil => rfl
  | cons q t => simp only [Dict.wf, Bool.and_eq_true] at h; exact h.2

theorem Dict.wf_head {sd : Side} {p : Nat × Nat} {t : Dict} (h : Dict.wf sd (p :: t) = true) : p.2 ≠ objDefault sd p.1 := by
  cases t with
  | nil => simpa [Dict.wf] using h
  | cons q t => simp only [Dict.wf, Bool.and_eq_true, bne_iff_ne] at h; exact h.1.1

theorem Dict.wf_lt {sd : Side} {p : Nat × Nat} {t : Dict} (h : Dict.wf sd (p :: t) = true) : ∀ q ∈ t, p.1 < q.1 := by
  induction t generalizing p with
  | nil => simp
  | cons q t ih =>
    intro r hr
    have hq : p.1 < q.1 := by simp only [Dict.wf, Bool.and_eq_true, decide_eq_true_eq] at h; exact h.1.2
    rcases List.mem_cons.1 hr with rfl | hr
    · exact hq
    · exact Nat.lt_trans hq (ih (Dict.wf_tail h) r hr)

/-- A dictionary is canonical when its head is listed properly below a canonical rest. -/
theorem Dict.wf_cons {sd : Side} {p : Nat × Nat} {t : Dict} (ht : Dict.wf sd t = true) (hd : p.2 ≠ objDefault sd p.1)
    (hl : ∀ q ∈ t, p.1 < q.1) : Dict.wf sd (p :: t) = true := by
  cases t with
  | nil => simpa [Dict.wf] using hd
  | cons q t => simp [Dict.wf, ht, hd, hl q (by simp)]

theorem tget_none_of_lt {α : Type} {k : Nat} : ∀ {t : List (Nat × α)}, (∀ q ∈ t, k < q.1) → tget t k = none
  | [], _ => rfl
  | q :: t, h => by
    rw [tget_cons, if_neg (by have := h q (by simp); omega)]
    exact tget_none_of_lt fun r hr => h r (by simp [hr])

/-- Reading an object back from the canonical form. -/
theorem getD_dictPut {sd : Side} {d : Dict} (hd : Dict.wf sd d = true) (k v j : Nat) :
    (tget (dictPut sd k v d) j).getD (objDefault sd j) = if j = k then v else (tget d j).getD (objDefault sd j) := by
  induction d with
  | nil =>
    simp only [dictPut]
    by_cases e : j = k
    · subst e; split <;> simp_all [tget]
    · have : ¬ k = j := fun h => e h.symm
      split <;> simp [tget, e, this]
  | cons p t ih =>
    have lt := Dict.wf_lt hd
    simp only [dictPut]
    by_cases e : j = k
    · subst e
      simp only [if_pos]
      split
      · next h =>
        split
        · next hv =>
          rw [tget_none_of_lt (t := p :: t) (by intro q hq; rcases List.mem_cons.1 hq with rfl | hq; exact h; exact Nat.lt_trans h (lt q hq))]
          simp [hv]
        · simp [tget]
      · split
        · next h =>
          split
          · next hv => rw [tget_none_of_lt (by intro q hq; rw [h]; exact lt q hq)]; simp [hv]
          · simp [tget]
        · next h1 h2 => rw [tget_cons, if_neg (fun e => h2 e.symm), ih (Dict.wf_tail hd), if_pos rfl]
    · have e' : ¬ k = j := fun h => e h.symm
      rw [if_neg e]
      split
      · split
        · rfl
        · rw [tget_cons, if_neg e']
      · split
        · next h => split <;> simp [tget_cons, ← h, e']
        · rw [tget_cons, tget_cons]
          split
          · rfl
          · rw [ih (Dict.wf_tail hd), if_neg e]

theorem mem_dictPut {sd : Side} {k v : Nat} {d : Dict} {q : Nat × Nat} (h : q ∈ dictPut sd k v d) : q = (k, v) ∨ q ∈ d := by
  induction d with
  | nil => simp only [dictPut] at h; split at h <;> simp_all
  | cons p t ih =>
    simp only [dictPut] at h
    split at h
    · split at h <;> simp_all
    · split at h
      · split at h
        · exact Or.inr (List.mem_cons_of_mem _ h)
        · rcases List.mem_cons.1 h with e | h
          · exact Or.inl e
          · exact Or.inr (List.mem_cons_of_mem _ h)
      · rcases List.mem_cons.1 h with e | h
        · subst e; exact Or.inr (by simp)
        · rcases ih h with e | h
          · exact Or.inl e
          · exact Or.inr (List.mem_cons_of_mem _ h)

theorem dictPut_wf {sd : Side} {d : Dict} (hd : Dict.wf sd d = true) (k v : Nat) : Dict.wf sd (dictPut sd k v d) = true := by
  induction d with
  | nil =>
    simp only [dictPut]
    split
    · rfl
    · next h => exact Dict.wf_cons rfl h (by simp)
  | cons p t ih =>
    have lt := Dict.wf_lt hd
    simp only [dictPut]
    split
    · next h =>
      split
      · exact hd
      · next hv =>
        exact Dict.wf_cons hd hv (by intro q hq; rcases List.mem_cons.1 hq with rfl | hq; exact h; exact Nat.lt_trans h (lt q hq))
    · split
      · next h =>
        split
        · exact Dict.wf_tail hd
        · next hv => exact Dict.wf_cons (Dict.wf_tail hd) hv (by intro q hq; rw [h]; exact lt q hq)
      · next h1 h2 =>
        refine Dict.wf_cons (ih (Dict.wf_tail hd)) (Dict.wf_head hd) ?_
        intro q hq
        rcases mem_dictPut hq with e | hq
        · subst e; show p.1 < k; omega
        · exact lt q hq

/-- The canonical form is canonical. -/
theorem dictCanon_wf (sd : Side) (d : Dict) : Dict.wf sd (dictCanon sd d) = true := by
  induction d with
  | nil => rfl
  | cons p t ih => exact dictPut_wf ih p.1 p.2

/-- The canonical form reads as the list of writes does, the newest first. -/
@[simp] theorem getD_dictCanon (sd : Side) (d : Dict) (j : Nat) :
    (tget (dictCanon sd d) j).getD (objDefault sd j) = (tget d j).getD (objDefault sd j) := by
  induction d with
  | nil => rfl
  | cons p t ih =>
    rw [dictCanon, getD_dictPut (dictCanon_wf sd t), tget_cons, ih]
    by_cases e : j = p.1
    · simp [e]
    · rw [if_neg e, if_neg fun h => e h.symm]

theorem dictPut_of_lt {sd : Side} {p : Nat × Nat} {t : Dict} (hd : p.2 ≠ objDefault sd p.1) (hl : ∀ q ∈ t, p.1 < q.1) :
    dictPut sd p.1 p.2 t = p :: t := by
  cases t with
  | nil => simp [dictPut, hd]
  | cons q t => simp [dictPut, hd, hl q (by simp)]

/-- A canonical dictionary is its own canonical form. -/
theorem dictCanon_of_wf {sd : Side} {d : Dict} (h : Dict.wf sd d = true) : dictCanon sd d = d := by
  induction d with
  | nil => rfl
  | cons p t ih => rw [dictCanon, ih (Dict.wf_tail h), dictPut_of_lt (Dict.wf_head h) (Dict.wf_lt h)]

/-! ### Memories -/

theorem Memory.wf_tail {p : Host.Cell} {t : List Host.Cell} (h : Memory.wf (p :: t) = true) : Memory.wf t = true := by
  cases t with
  | nil => rfl
  | cons q t => simp only [Memory.wf, Bool.and_eq_true] at h; exact h.2

theorem Memory.wf_head {p : Host.Cell} {t : List Host.Cell} (h : Memory.wf (p :: t) = true) : p.2 ≠ 0#8 := by
  cases t with
  | nil => simpa [Memory.wf] using h
  | cons q t => simp only [Memory.wf, Bool.and_eq_true, bne_iff_ne] at h; exact h.1.1

theorem Memory.wf_lt {p : Host.Cell} {t : List Host.Cell} (h : Memory.wf (p :: t) = true) : ∀ q ∈ t, p.1 < q.1 := by
  induction t generalizing p with
  | nil => simp
  | cons q t ih =>
    intro r hr
    have hq : p.1 < q.1 := by simp only [Memory.wf, Bool.and_eq_true, decide_eq_true_eq] at h; exact h.1.2
    rcases List.mem_cons.1 hr with rfl | hr
    · exact hq
    · exact Nat.lt_trans hq (ih (Memory.wf_tail h) r hr)

theorem Memory.wf_cons {p : Host.Cell} {t : List Host.Cell} (ht : Memory.wf t = true) (hd : p.2 ≠ 0#8)
    (hl : ∀ q ∈ t, p.1 < q.1) : Memory.wf (p :: t) = true := by
  cases t with
  | nil => simpa [Memory.wf] using hd
  | cons q t => simp [Memory.wf, ht, hd, hl q (by simp)]

theorem mem_memPut {a : Nat} {b : BitVec 8} {m : List Host.Cell} {q : Host.Cell} (h : q ∈ memPut a b m) : q = (a, b) ∨ q ∈ m := by
  induction m with
  | nil => simp only [memPut] at h; split at h <;> simp_all
  | cons p t ih =>
    simp only [memPut] at h
    split at h
    · split at h <;> simp_all
    · split at h
      · split at h
        · exact Or.inr (List.mem_cons_of_mem _ h)
        · rcases List.mem_cons.1 h with e | h
          · exact Or.inl e
          · exact Or.inr (List.mem_cons_of_mem _ h)
      · rcases List.mem_cons.1 h with e | h
        · subst e; exact Or.inr (by simp)
        · rcases ih h with e | h
          · exact Or.inl e
          · exact Or.inr (List.mem_cons_of_mem _ h)

/-- A write of one byte keeps the canonical form. -/
theorem memPut_wf {m : List Host.Cell} (hm : Memory.wf m = true) (a : Nat) (b : BitVec 8) : Memory.wf (memPut a b m) = true := by
  induction m with
  | nil =>
    simp only [memPut]
    split
    · rfl
    · next h => exact Memory.wf_cons rfl h (by simp)
  | cons p t ih =>
    have lt := Memory.wf_lt hm
    simp only [memPut]
    split
    · next h =>
      split
      · exact hm
      · next hv =>
        exact Memory.wf_cons hm hv (by intro q hq; rcases List.mem_cons.1 hq with rfl | hq; exact h; exact Nat.lt_trans h (lt q hq))
    · split
      · next h =>
        split
        · exact Memory.wf_tail hm
        · next hv => exact Memory.wf_cons (Memory.wf_tail hm) hv (by intro q hq; rw [h]; exact lt q hq)
      · next h1 h2 =>
        refine Memory.wf_cons (ih (Memory.wf_tail hm)) (Memory.wf_head hm) ?_
        intro q hq
        rcases mem_memPut hq with e | hq
        · subst e; show p.1 < a; omega
        · exact lt q hq

/-- A write of bytes keeps the canonical form. -/
theorem memWrite_wf (bs : List Nat) : ∀ {m : List Host.Cell}, Memory.wf m = true → ∀ a, Memory.wf (memWrite a bs m) = true := by
  induction bs with
  | nil => intro m h a; exact h
  | cons b t ih => intro m h a; exact ih (memPut_wf h a _) (a + 1)

/-- Reading one byte after a write of one byte. -/
theorem memByte_memPut {m : List Host.Cell} (hm : Memory.wf m = true) (a : Nat) (b : BitVec 8) (c : Nat) :
    memByte (memPut a b m) c = if c = a then b else memByte m c := by
  unfold memByte
  induction m with
  | nil =>
    simp only [memPut]
    by_cases e : c = a
    · subst e; split <;> simp_all [tget]
    · have : ¬ a = c := fun h => e h.symm
      split <;> simp [tget, e, this]
  | cons p t ih =>
    have lt := Memory.wf_lt hm
    simp only [memPut]
    by_cases e : c = a
    · subst e
      simp only [if_pos]
      split
      · next h =>
        split
        · next hv =>
          rw [tget_none_of_lt (t := p :: t) (by intro q hq; rcases List.mem_cons.1 hq with rfl | hq; exact h; exact Nat.lt_trans h (lt q hq))]
          simp [hv]
        · simp [tget]
      · split
        · next h =>
          split
          · next hv => rw [tget_none_of_lt (by intro q hq; rw [h]; exact lt q hq)]; simp [hv]
          · simp [tget]
        · next h1 h2 => rw [tget_cons, if_neg (fun e => h2 e.symm), ih (Memory.wf_tail hm), if_pos rfl]
    · have e' : ¬ a = c := fun h => e h.symm
      rw [if_neg e]
      split
      · split
        · rfl
        · rw [tget_cons, if_neg e']
      · split
        · next h => split <;> simp [tget_cons, ← h, e']
        · rw [tget_cons, tget_cons]
          split
          · rfl
          · rw [ih (Memory.wf_tail hm), if_neg e]

end Sys2Proof.Machine
end

