-- ==== Sys2Proof/Laws/State.lean ====
section
/-! SUPPORT. One lemma per field per update of the state, and what the objects read after each. -/

namespace Sys2Proof.Machine

variable (s : State)

/-! ### Objects -/

@[simp] theorem State.ob_commit (sd : Side) (k : Nat) : s.commit.ob sd k = s.ob sd k := by
  cases sd <;> simp [State.ob, State.dict, State.commit]

theorem State.ob_setOb (sd sd' : Side) (k j v : Nat) :
    (s.setOb sd k v).ob sd' j = if sd = sd' ∧ j = k then v else s.ob sd' j := by
  cases sd <;> cases sd' <;> simp only [State.ob, State.dict, State.setOb, tget_cons]
  all_goals
    by_cases e : j = k
    · simp [e]
    · have : ¬ k = j := fun h => e h.symm
      simp [e, this]

@[simp] theorem State.ob_setOb_same (sd : Side) (k j v : Nat) : (s.setOb sd k v).ob sd j = if j = k then v else s.ob sd j := by
  simp [State.ob_setOb]

@[simp] theorem State.h_setOb_icd (k j v : Nat) : (s.setOb .icd k v).ob .hel j = s.ob .hel j := by simp [State.ob_setOb]

@[simp] theorem State.i_setOb_hel (k j v : Nat) : (s.setOb .hel k v).ob .icd j = s.ob .icd j := by simp [State.ob_setOb]

theorem State.ob_addOb (sd : Side) (k w n j : Nat) :
    (s.addOb sd k w n).ob sd j = if j = k then (s.ob sd k + n) % 2 ^ w else s.ob sd j := by simp [State.addOb]

@[simp] theorem State.h_addOb_icd (k w n j : Nat) : (s.addOb .icd k w n).ob .hel j = s.ob .hel j := by simp [State.addOb]

@[simp] theorem State.i_addOb_hel (k w n j : Nat) : (s.addOb .hel k w n).ob .icd j = s.ob .icd j := by simp [State.addOb]

@[simp] theorem State.ob_put (c : Chan) (i : Nat) (b : List Nat) (sd : Side) (k : Nat) : (s.put c i b).ob sd k = s.ob sd k := by
  cases sd <;> rfl

@[simp] theorem State.ob_pin (p v : Nat) (sd : Side) (k : Nat) : (s.pin p v).ob sd k = s.ob sd k := by cases sd <;> rfl

@[simp] theorem State.ob_setClk (sd' : Side) (c : Clock) (sd : Side) (k : Nat) : (s.setClk sd' c).ob sd k = s.ob sd k := by
  cases sd <;> cases sd' <;> rfl

/-! ### A state given field by field -/

@[simp] theorem State.ob_mk_hel (k : Nat) (a0 a1 a2 a3 a4 a5 a6 a7 a8 a9 a10 a11 a12 a13 a14 a15 a16 a17 a18 a19 a20 a21 a22 a23 a24 a25 a26 a27 a28) :
    State.ob .hel k (State.mk a0 a1 a2 a3 a4 a5 a6 a7 a8 a9 a10 a11 a12 a13 a14 a15 a16 a17 a18 a19 a20 a21 a22 a23 a24 a25 a26 a27 a28) = (tget a0 k).getD (objDefault .hel k) := rfl

@[simp] theorem State.ob_mk_icd (k : Nat) (a0 a1 a2 a3 a4 a5 a6 a7 a8 a9 a10 a11 a12 a13 a14 a15 a16 a17 a18 a19 a20 a21 a22 a23 a24 a25 a26 a27 a28) :
    State.ob .icd k (State.mk a0 a1 a2 a3 a4 a5 a6 a7 a8 a9 a10 a11 a12 a13 a14 a15 a16 a17 a18 a19 a20 a21 a22 a23 a24 a25 a26 a27 a28) = (tget a1 k).getD (objDefault .icd k) := rfl

@[simp] theorem State.getD_hd (k : Nat) : (tget s.hd k).getD (objDefault .hel k) = s.ob .hel k := rfl

@[simp] theorem State.getD_cd (k : Nat) : (tget s.cd k).getD (objDefault .icd k) = s.ob .icd k := rfl

/-! ### The end of a command -/

@[simp] theorem State.commit_hd : s.commit.hd = dictCanon .hel s.hd := rfl
@[simp] theorem State.commit_cd : s.commit.cd = dictCanon .icd s.cd := rfl
@[simp] theorem State.commit_out : s.commit.out = s.out := rfl
@[simp] theorem State.commit_freeCtr : s.commit.freeCtr = s.freeCtr := rfl
@[simp] theorem State.commit_pins : s.commit.pins = s.pins := rfl
@[simp] theorem State.commit_hSeq : s.commit.hSeq = s.hSeq := rfl
@[simp] theorem State.commit_iSeq : s.commit.iSeq = s.iSeq := rfl
@[simp] theorem State.commit_bd : s.commit.bd = s.bd := rfl
@[simp] theorem State.commit_tm : s.commit.tm = s.tm := rfl
@[simp] theorem State.commit_ct : s.commit.ct = s.ct := rfl
@[simp] theorem State.commit_tr : s.commit.tr = s.tr := rfl
@[simp] theorem State.commit_ln : s.commit.ln = s.ln := rfl
@[simp] theorem State.commit_pk : s.commit.pk = s.pk := rfl
@[simp] theorem State.commit_gr : s.commit.gr = s.gr := rfl
@[simp] theorem State.commit_se : s.commit.se = s.se := rfl
@[simp] theorem State.commit_rd : s.commit.rd = s.rd := rfl
@[simp] theorem State.commit_la : s.commit.la = s.la := rfl
@[simp] theorem State.commit_ma : s.commit.ma = s.ma := rfl
@[simp] theorem State.commit_sp : s.commit.sp = s.sp := rfl
@[simp] theorem State.commit_si : s.commit.si = s.si := rfl
@[simp] theorem State.commit_ki : s.commit.ki = s.ki := rfl
@[simp] theorem State.commit_tw : s.commit.tw = s.tw := rfl
@[simp] theorem State.commit_up : s.commit.up = s.up := rfl
@[simp] theorem State.commit_me : s.commit.me = s.me := rfl
@[simp] theorem State.commit_ir : s.commit.ir = s.ir := rfl
@[simp] theorem State.commit_sc : s.commit.sc = s.sc := rfl
@[simp] theorem State.commit_mo : s.commit.mo = s.mo := rfl
@[simp] theorem State.commit_pw : s.commit.pw = s.pw := rfl
@[simp] theorem State.commit_pending : s.commit.pending = s.pending := rfl

/-- A command that is carried out answers a next state, with the queue as it was. -/
theorem run_eq (f : State → State) : run f s = .next ({ f s with pending := s.pending }).commit := rfl

/-! ### Storing an object -/

@[simp] theorem State.setOb_hel_hd (k v : Nat) : (s.setOb .hel k v).hd = (k, v) :: s.hd := rfl
@[simp] theorem State.setOb_hel_cd (k v : Nat) : (s.setOb .hel k v).cd = s.cd := rfl
@[simp] theorem State.setOb_icd_hd (k v : Nat) : (s.setOb .icd k v).hd = s.hd := rfl
@[simp] theorem State.setOb_icd_cd (k v : Nat) : (s.setOb .icd k v).cd = (k, v) :: s.cd := rfl
@[simp] theorem State.setOb_out (sd : Side) (k v : Nat) : (s.setOb sd k v).out = s.out := by cases sd <;> rfl
@[simp] theorem State.setOb_freeCtr (sd : Side) (k v : Nat) : (s.setOb sd k v).freeCtr = s.freeCtr := by cases sd <;> rfl
@[simp] theorem State.setOb_pins (sd : Side) (k v : Nat) : (s.setOb sd k v).pins = s.pins := by cases sd <;> rfl
@[simp] theorem State.setOb_hSeq (sd : Side) (k v : Nat) : (s.setOb sd k v).hSeq = s.hSeq := by cases sd <;> rfl
@[simp] theorem State.setOb_iSeq (sd : Side) (k v : Nat) : (s.setOb sd k v).iSeq = s.iSeq := by cases sd <;> rfl
@[simp] theorem State.setOb_bd (sd : Side) (k v : Nat) : (s.setOb sd k v).bd = s.bd := by cases sd <;> rfl
@[simp] theorem State.setOb_tm (sd : Side) (k v : Nat) : (s.setOb sd k v).tm = s.tm := by cases sd <;> rfl
@[simp] theorem State.setOb_ct (sd : Side) (k v : Nat) : (s.setOb sd k v).ct = s.ct := by cases sd <;> rfl
@[simp] theorem State.setOb_tr (sd : Side) (k v : Nat) : (s.setOb sd k v).tr = s.tr := by cases sd <;> rfl
@[simp] theorem State.setOb_ln (sd : Side) (k v : Nat) : (s.setOb sd k v).ln = s.ln := by cases sd <;> rfl
@[simp] theorem State.setOb_pk (sd : Side) (k v : Nat) : (s.setOb sd k v).pk = s.pk := by cases sd <;> rfl
@[simp] theorem State.setOb_gr (sd : Side) (k v : Nat) : (s.setOb sd k v).gr = s.gr := by cases sd <;> rfl
@[simp] theorem State.setOb_se (sd : Side) (k v : Nat) : (s.setOb sd k v).se = s.se := by cases sd <;> rfl
@[simp] theorem State.setOb_rd (sd : Side) (k v : Nat) : (s.setOb sd k v).rd = s.rd := by cases sd <;> rfl
@[simp] theorem State.setOb_la (sd : Side) (k v : Nat) : (s.setOb sd k v).la = s.la := by cases sd <;> rfl
@[simp] theorem State.setOb_ma (sd : Side) (k v : Nat) : (s.setOb sd k v).ma = s.ma := by cases sd <;> rfl
@[simp] theorem State.setOb_sp (sd : Side) (k v : Nat) : (s.setOb sd k v).sp = s.sp := by cases sd <;> rfl
@[simp] theorem State.setOb_si (sd : Side) (k v : Nat) : (s.setOb sd k v).si = s.si := by cases sd <;> rfl
@[simp] theorem State.setOb_ki (sd : Side) (k v : Nat) : (s.setOb sd k v).ki = s.ki := by cases sd <;> rfl
@[simp] theorem State.setOb_tw (sd : Side) (k v : Nat) : (s.setOb sd k v).tw = s.tw := by cases sd <;> rfl
@[simp] theorem State.setOb_up (sd : Side) (k v : Nat) : (s.setOb sd k v).up = s.up := by cases sd <;> rfl
@[simp] theorem State.setOb_me (sd : Side) (k v : Nat) : (s.setOb sd k v).me = s.me := by cases sd <;> rfl
@[simp] theorem State.setOb_ir (sd : Side) (k v : Nat) : (s.setOb sd k v).ir = s.ir := by cases sd <;> rfl
@[simp] theorem State.setOb_sc (sd : Side) (k v : Nat) : (s.setOb sd k v).sc = s.sc := by cases sd <;> rfl
@[simp] theorem State.setOb_mo (sd : Side) (k v : Nat) : (s.setOb sd k v).mo = s.mo := by cases sd <;> rfl
@[simp] theorem State.setOb_pw (sd : Side) (k v : Nat) : (s.setOb sd k v).pw = s.pw := by cases sd <;> rfl
@[simp] theorem State.setOb_pending (sd : Side) (k v : Nat) : (s.setOb sd k v).pending = s.pending := by cases sd <;> rfl

/-! ### Sending -/

@[simp] theorem State.put_out (c : Chan) (i : Nat) (b : List Nat) : (s.put c i b).out = ⟨c, i, b⟩ :: s.out := rfl
@[simp] theorem State.put_hd (c : Chan) (i : Nat) (b : List Nat) : (s.put c i b).hd = s.hd := rfl
@[simp] theorem State.put_cd (c : Chan) (i : Nat) (b : List Nat) : (s.put c i b).cd = s.cd := rfl
@[simp] theorem State.put_freeCtr (c : Chan) (i : Nat) (b : List Nat) : (s.put c i b).freeCtr = s.freeCtr := rfl
@[simp] theorem State.put_pins (c : Chan) (i : Nat) (b : List Nat) : (s.put c i b).pins = s.pins := rfl
@[simp] theorem State.put_hSeq (c : Chan) (i : Nat) (b : List Nat) : (s.put c i b).hSeq = s.hSeq := rfl
@[simp] theorem State.put_iSeq (c : Chan) (i : Nat) (b : List Nat) : (s.put c i b).iSeq = s.iSeq := rfl
@[simp] theorem State.put_bd (c : Chan) (i : Nat) (b : List Nat) : (s.put c i b).bd = s.bd := rfl
@[simp] theorem State.put_tm (c : Chan) (i : Nat) (b : List Nat) : (s.put c i b).tm = s.tm := rfl
@[simp] theorem State.put_ct (c : Chan) (i : Nat) (b : List Nat) : (s.put c i b).ct = s.ct := rfl
@[simp] theorem State.put_tr (c : Chan) (i : Nat) (b : List Nat) : (s.put c i b).tr = s.tr := rfl
@[simp] theorem State.put_ln (c : Chan) (i : Nat) (b : List Nat) : (s.put c i b).ln = s.ln := rfl
@[simp] theorem State.put_pk (c : Chan) (i : Nat) (b : List Nat) : (s.put c i b).pk = s.pk := rfl
@[simp] theorem State.put_gr (c : Chan) (i : Nat) (b : List Nat) : (s.put c i b).gr = s.gr := rfl
@[simp] theorem State.put_se (c : Chan) (i : Nat) (b : List Nat) : (s.put c i b).se = s.se := rfl
@[simp] theorem State.put_rd (c : Chan) (i : Nat) (b : List Nat) : (s.put c i b).rd = s.rd := rfl
@[simp] theorem State.put_la (c : Chan) (i : Nat) (b : List Nat) : (s.put c i b).la = s.la := rfl
@[simp] theorem State.put_ma (c : Chan) (i : Nat) (b : List Nat) : (s.put c i b).ma = s.ma := rfl
@[simp] theorem State.put_sp (c : Chan) (i : Nat) (b : List Nat) : (s.put c i b).sp = s.sp := rfl
@[simp] theorem State.put_si (c : Chan) (i : Nat) (b : List Nat) : (s.put c i b).si = s.si := rfl
@[simp] theorem State.put_ki (c : Chan) (i : Nat) (b : List Nat) : (s.put c i b).ki = s.ki := rfl
@[simp] theorem State.put_tw (c : Chan) (i : Nat) (b : List Nat) : (s.put c i b).tw = s.tw := rfl
@[simp] theorem State.put_up (c : Chan) (i : Nat) (b : List Nat) : (s.put c i b).up = s.up := rfl
@[simp] theorem State.put_me (c : Chan) (i : Nat) (b : List Nat) : (s.put c i b).me = s.me := rfl
@[simp] theorem State.put_ir (c : Chan) (i : Nat) (b : List Nat) : (s.put c i b).ir = s.ir := rfl
@[simp] theorem State.put_sc (c : Chan) (i : Nat) (b : List Nat) : (s.put c i b).sc = s.sc := rfl
@[simp] theorem State.put_mo (c : Chan) (i : Nat) (b : List Nat) : (s.put c i b).mo = s.mo := rfl
@[simp] theorem State.put_pw (c : Chan) (i : Nat) (b : List Nat) : (s.put c i b).pw = s.pw := rfl
@[simp] theorem State.put_pending (c : Chan) (i : Nat) (b : List Nat) : (s.put c i b).pending = s.pending := rfl

/-! ### Lines -/

@[simp] theorem State.pin_pins (p v : Nat) : (s.pin p v).pins = tset s.pins p v := rfl
@[simp] theorem State.pin_hd (p v : Nat) : (s.pin p v).hd = s.hd := rfl
@[simp] theorem State.pin_cd (p v : Nat) : (s.pin p v).cd = s.cd := rfl
@[simp] theorem State.pin_out (p v : Nat) : (s.pin p v).out = s.out := rfl
@[simp] theorem State.pin_freeCtr (p v : Nat) : (s.pin p v).freeCtr = s.freeCtr := rfl
@[simp] theorem State.pin_hSeq (p v : Nat) : (s.pin p v).hSeq = s.hSeq := rfl
@[simp] theorem State.pin_iSeq (p v : Nat) : (s.pin p v).iSeq = s.iSeq := rfl
@[simp] theorem State.pin_bd (p v : Nat) : (s.pin p v).bd = s.bd := rfl
@[simp] theorem State.pin_tm (p v : Nat) : (s.pin p v).tm = s.tm := rfl
@[simp] theorem State.pin_ct (p v : Nat) : (s.pin p v).ct = s.ct := rfl
@[simp] theorem State.pin_tr (p v : Nat) : (s.pin p v).tr = s.tr := rfl
@[simp] theorem State.pin_ln (p v : Nat) : (s.pin p v).ln = s.ln := rfl
@[simp] theorem State.pin_pk (p v : Nat) : (s.pin p v).pk = s.pk := rfl
@[simp] theorem State.pin_gr (p v : Nat) : (s.pin p v).gr = s.gr := rfl
@[simp] theorem State.pin_se (p v : Nat) : (s.pin p v).se = s.se := rfl
@[simp] theorem State.pin_rd (p v : Nat) : (s.pin p v).rd = s.rd := rfl
@[simp] theorem State.pin_la (p v : Nat) : (s.pin p v).la = s.la := rfl
@[simp] theorem State.pin_ma (p v : Nat) : (s.pin p v).ma = s.ma := rfl
@[simp] theorem State.pin_sp (p v : Nat) : (s.pin p v).sp = s.sp := rfl
@[simp] theorem State.pin_si (p v : Nat) : (s.pin p v).si = s.si := rfl
@[simp] theorem State.pin_ki (p v : Nat) : (s.pin p v).ki = s.ki := rfl
@[simp] theorem State.pin_tw (p v : Nat) : (s.pin p v).tw = s.tw := rfl
@[simp] theorem State.pin_up (p v : Nat) : (s.pin p v).up = s.up := rfl
@[simp] theorem State.pin_me (p v : Nat) : (s.pin p v).me = s.me := rfl
@[simp] theorem State.pin_ir (p v : Nat) : (s.pin p v).ir = s.ir := rfl
@[simp] theorem State.pin_sc (p v : Nat) : (s.pin p v).sc = s.sc := rfl
@[simp] theorem State.pin_mo (p v : Nat) : (s.pin p v).mo = s.mo := rfl
@[simp] theorem State.pin_pw (p v : Nat) : (s.pin p v).pw = s.pw := rfl
@[simp] theorem State.pin_pending (p v : Nat) : (s.pin p v).pending = s.pending := rfl

/-! ### Clocks -/

@[simp] theorem State.clk_setClk (sd sd' : Side) (c : Clock) : (s.setClk sd c).clk sd' = if sd = sd' then c else s.clk sd' := by
  cases sd <;> cases sd' <;> rfl
@[simp] theorem State.setClk_hd (sd : Side) (c : Clock) : (s.setClk sd c).hd = s.hd := by cases sd <;> rfl
@[simp] theorem State.setClk_cd (sd : Side) (c : Clock) : (s.setClk sd c).cd = s.cd := by cases sd <;> rfl
@[simp] theorem State.setClk_out (sd : Side) (c : Clock) : (s.setClk sd c).out = s.out := by cases sd <;> rfl
@[simp] theorem State.setClk_freeCtr (sd : Side) (c : Clock) : (s.setClk sd c).freeCtr = s.freeCtr := by cases sd <;> rfl
@[simp] theorem State.setClk_pins (sd : Side) (c : Clock) : (s.setClk sd c).pins = s.pins := by cases sd <;> rfl
@[simp] theorem State.setClk_hSeq (sd : Side) (c : Clock) : (s.setClk sd c).hSeq = s.hSeq := by cases sd <;> rfl
@[simp] theorem State.setClk_iSeq (sd : Side) (c : Clock) : (s.setClk sd c).iSeq = s.iSeq := by cases sd <;> rfl
@[simp] theorem State.setClk_bd (sd : Side) (c : Clock) : (s.setClk sd c).bd = s.bd := by cases sd <;> rfl
@[simp] theorem State.setClk_ct (sd : Side) (c : Clock) : (s.setClk sd c).ct = s.ct := by cases sd <;> rfl
@[simp] theorem State.setClk_tr (sd : Side) (c : Clock) : (s.setClk sd c).tr = s.tr := by cases sd <;> rfl
@[simp] theorem State.setClk_ln (sd : Side) (c : Clock) : (s.setClk sd c).ln = s.ln := by cases sd <;> rfl
@[simp] theorem State.setClk_pk (sd : Side) (c : Clock) : (s.setClk sd c).pk = s.pk := by cases sd <;> rfl
@[simp] theorem State.setClk_gr (sd : Side) (c : Clock) : (s.setClk sd c).gr = s.gr := by cases sd <;> rfl
@[simp] theorem State.setClk_se (sd : Side) (c : Clock) : (s.setClk sd c).se = s.se := by cases sd <;> rfl
@[simp] theorem State.setClk_rd (sd : Side) (c : Clock) : (s.setClk sd c).rd = s.rd := by cases sd <;> rfl
@[simp] theorem State.setClk_la (sd : Side) (c : Clock) : (s.setClk sd c).la = s.la := by cases sd <;> rfl
@[simp] theorem State.setClk_ma (sd : Side) (c : Clock) : (s.setClk sd c).ma = s.ma := by cases sd <;> rfl
@[simp] theorem State.setClk_sp (sd : Side) (c : Clock) : (s.setClk sd c).sp = s.sp := by cases sd <;> rfl
@[simp] theorem State.setClk_si (sd : Side) (c : Clock) : (s.setClk sd c).si = s.si := by cases sd <;> rfl
@[simp] theorem State.setClk_ki (sd : Side) (c : Clock) : (s.setClk sd c).ki = s.ki := by cases sd <;> rfl
@[simp] theorem State.setClk_tw (sd : Side) (c : Clock) : (s.setClk sd c).tw = s.tw := by cases sd <;> rfl
@[simp] theorem State.setClk_up (sd : Side) (c : Clock) : (s.setClk sd c).up = s.up := by cases sd <;> rfl
@[simp] theorem State.setClk_me (sd : Side) (c : Clock) : (s.setClk sd c).me = s.me := by cases sd <;> rfl
@[simp] theorem State.setClk_ir (sd : Side) (c : Clock) : (s.setClk sd c).ir = s.ir := by cases sd <;> rfl
@[simp] theorem State.setClk_sc (sd : Side) (c : Clock) : (s.setClk sd c).sc = s.sc := by cases sd <;> rfl
@[simp] theorem State.setClk_mo (sd : Side) (c : Clock) : (s.setClk sd c).mo = s.mo := by cases sd <;> rfl
@[simp] theorem State.setClk_pw (sd : Side) (c : Clock) : (s.setClk sd c).pw = s.pw := by cases sd <;> rfl
@[simp] theorem State.setClk_pending (sd : Side) (c : Clock) : (s.setClk sd c).pending = s.pending := by cases sd <;> rfl

end Sys2Proof.Machine
end

