-- ==== Sys2Proof/Laws/Events.lean ====
section
/-! SUPPORT. What posting an event does and leaves alone: sources, queues, error contexts, alarms and the recorder change nothing but the interrupt state, its objects, the sequence counters and what is sent. -/

namespace Sys2Proof.Machine

/-- What the operations of the interrupt controller and the recorder leave as it was: every part of the state but the objects from index 0x5900 up, the interrupt state, the sequence counters of the Icdon IX40, its owed marks of a step and what has been sent. -/
structure EventFrame (s t : State) : Prop where
  hd : t.hd = s.hd
  freeCtr : t.freeCtr = s.freeCtr
  pins : t.pins = s.pins
  hSeq : t.hSeq = s.hSeq
  bd : t.bd = s.bd
  tm : ∃ x, t.tm = { s.tm with ic := { s.tm.ic with owed := x } }
  ct : t.ct = s.ct
  tr : t.tr = s.tr
  ln : t.ln = s.ln
  pk : t.pk = s.pk
  gr : t.gr = s.gr
  se : t.se = s.se
  rd : t.rd = s.rd
  la : t.la = s.la
  ma : t.ma = s.ma
  sp : t.sp = s.sp
  si : t.si = s.si
  ki : t.ki = s.ki
  tw : t.tw = s.tw
  up : t.up = s.up
  me : t.me = s.me
  sc : t.sc = s.sc
  mo : t.mo = s.mo
  pw : t.pw = s.pw
  pending : t.pending = s.pending
  obj : ∀ k, k < 0x590000 → t.i k = s.i k

namespace EventFrame

theorem refl (s : State) : EventFrame s s := by constructor <;> intros <;> first | rfl | exact ⟨_, rfl⟩

theorem trans {s t u : State} (a : EventFrame s t) (b : EventFrame t u) : EventFrame s u where
  hd := b.hd.trans a.hd
  freeCtr := b.freeCtr.trans a.freeCtr
  pins := b.pins.trans a.pins
  hSeq := b.hSeq.trans a.hSeq
  bd := b.bd.trans a.bd
  tm := by
    obtain ⟨x, hx⟩ := b.tm
    obtain ⟨y, hy⟩ := a.tm
    exact ⟨x, by rw [hx, hy]⟩
  ct := b.ct.trans a.ct
  tr := b.tr.trans a.tr
  ln := b.ln.trans a.ln
  pk := b.pk.trans a.pk
  gr := b.gr.trans a.gr
  se := b.se.trans a.se
  rd := b.rd.trans a.rd
  la := b.la.trans a.la
  ma := b.ma.trans a.ma
  sp := b.sp.trans a.sp
  si := b.si.trans a.si
  ki := b.ki.trans a.ki
  tw := b.tw.trans a.tw
  up := b.up.trans a.up
  me := b.me.trans a.me
  sc := b.sc.trans a.sc
  mo := b.mo.trans a.mo
  pw := b.pw.trans a.pw
  pending := b.pending.trans a.pending
  obj k h := (b.obj k h).trans (a.obj k h)

/-- The objects of the Helad are as they were. -/
theorem h {s t : State} (a : EventFrame s t) (k : Nat) : t.h k = s.h k := by
  show (tget t.hd k).getD _ = (tget s.hd k).getD _
  rw [a.hd]

theorem setOb (s : State) {k : Nat} (v : Nat) (h : 0x590000 ≤ k) : EventFrame s (s.setOb .icd k v) := by
  constructor <;> first | rfl | exact ⟨_, rfl⟩ | skip
  intro j hj
  have : j ≠ k := by omega
  simp [this]

theorem ir (s : State) (x : IrqSt) : EventFrame s { s with ir := x } := by constructor <;> intros <;> first | rfl | exact ⟨_, rfl⟩

theorem iSeq (s : State) (x : Tbl Nat) : EventFrame s { s with iSeq := x } := by constructor <;> intros <;> first | rfl | exact ⟨_, rfl⟩

/-- A stamp taken pays the mark of a step that its function owes (R544). -/
theorem takeStamp (s : State) (fn : Nat) : EventFrame s (s.takeStamp .icd fn).2 := by
  constructor <;> intros <;> first | rfl | exact ⟨_, rfl⟩

theorem put (s : State) (c : Chan) (i : Nat) (b : List Nat) : EventFrame s (s.put c i b) := by
  constructor <;> intros <;> first | rfl | exact ⟨_, rfl⟩ | simp

theorem ite {s a b : State} {p : Prop} [Decidable p] (ha : EventFrame s a) (hb : EventFrame s b) :
    EventFrame s (if p then a else b) := by split <;> assumption

/-- One more operation, or none. -/
theorem more {s a b : State} {p : Prop} [Decidable p] (ha : EventFrame s a) (hb : EventFrame a b) :
    EventFrame s (if p then b else a) := by split; exact ha.trans hb; exact ha

theorem foldl {α : Type} {s : State} (f : State → α → State) (hf : ∀ t a, EventFrame t (f t a)) (l : List α) :
    EventFrame s (l.foldl f s) := by
  induction l generalizing s with
  | nil => exact refl s
  | cons a l ih => exact (hf s a).trans ih

end EventFrame

open EventFrame

/-- Forming a record that no output digest covers advances a sequence counter and nothing else. -/
theorem form_frame (s : State) (ty len flags part : Nat) (fs : List (Nat × Nat × Nat)) (h : digestTypes.contains ty = false) :
    EventFrame s (s.form .icd ty len flags part fs).2 := by
  have : State.form .icd ty len flags part fs s = (mkRec ty len flags (s.srcGid .icd ty) (s.seqOf .icd ty) part fs, s.bumpSeq .icd ty) := by
    simp only [State.form, h, Bool.false_eq_true, and_false, if_false]
  rw [this]; exact iSeq s _

theorem recAppendN_frame (s : State) (sev eflags source nb : Nat) (r : Rec) : EventFrame s (s.recAppendN sev eflags source nb r) := by
  refine (takeStamp s fnRecorder).trans ((ir _ _).trans (.trans (setOb _ _ ?_) (setOb _ _ ?_))) <;> decide

theorem recSecond_frame (s : State) : EventFrame s s.recSecond := by
  unfold State.recSecond
  refine ite (refl s) (ite (ir s _) ((ir s _).trans (recAppendN_frame _ _ _ _ _ _)))

theorem recordN_frame (s : State) (sev eflags source nb : Nat) (r : Rec) : EventFrame s (s.recordN sev eflags source nb r) := by
  unfold State.recordN
  refine (recSecond_frame s).trans ?_
  refine ite (.trans (setOb _ _ (by decide)) (ir _ _)) ((ir _ _).trans (recAppendN_frame _ _ _ _ _ _))

theorem privDeliver_frame (s : State) (core : Nat) : EventFrame s (s.privDeliver core) := by
  unfold State.privDeliver
  dsimp only
  split
  · exact refl s
  · exact ite (ir s _) (refl s)

theorem priv_frame (s : State) (p detail : Nat) : EventFrame s (s.priv p detail) := by
  unfold State.priv
  refine .trans (ir s _) (.trans (setOb _ _ ?_) (.trans (recordN_frame _ _ _ _ _ _) (privDeliver_frame _ _)))
  show 0x590000 ≤ 0x592001 + 256 * (p / 128) + p % 128
  omega

theorem privLevel_frame (s : State) (p : Nat) (on : Bool) (detail : Nat) : EventFrame s (s.privLevel p on detail) := by
  unfold State.privLevel
  exact ite (ite (refl s) ((ir s _).trans (priv_frame _ _ _))) (ir s _)

theorem queueSignal_frame (s : State) (q : Nat) (b : Bool) : EventFrame s (s.queueSignal q b) := by
  unfold State.queueSignal
  exact ite (ir s _) (ite (put s _ _ _) (refl s))

theorem postEntry_frame (s : State) (q hdr stamp : Nat) (r : Rec) : EventFrame s (s.postEntry q hdr stamp r) := by
  unfold State.postEntry
  refine .trans (ir s _) (.trans (setOb _ _ ?_) (queueSignal_frame _ _ _))
  show 0x590000 ≤ 0x595003 + 256 * q
  omega

theorem queue0Check_frame (s : State) : EventFrame s s.queue0Check := privLevel_frame _ _ _ _

theorem IrqStatus_event (src : Nat) : 0x590000 ≤ inst128 O.IrqStatus src := by
  show 0x590000 ≤ 0x592001 + 256 * (src / 128) + src % 128; omega

theorem QueueControl_event (q : Nat) : 0x590000 ≤ inst O.QueueControl q := by show 0x590000 ≤ 0x595001 + 256 * q; omega

theorem msgPost_frame (s : State) (src q sv : Nat) (r : Rec) : EventFrame s (s.msgPost src q sv r) := by
  have hs := takeStamp s fnQueue
  have hk := setOb s (k := inst128 O.IrqStatus src)
  unfold State.msgPost
  generalize s.takeStamp .icd fnQueue = p at hs ⊢
  obtain ⟨st, t⟩ := p
  dsimp only
  exact ite (refl s) (ite (hs.trans ((setOb t _ (IrqStatus_event src)).trans (postEntry_frame _ _ _ _ _)))
    (more (hk _ (IrqStatus_event src)) (setOb _ _ (QueueControl_event q))))

theorem ctxPost_frame (s : State) (n ev : Nat) (c : ErrCtx) : EventFrame s (s.ctxPost n ev c) := by
  unfold State.ctxPost
  dsimp only
  exact .trans (form_frame s 0xF2 4 0 0 (ctxFields n ev c) (by decide))
    (.trans (msgPost_frame _ _ _ _ _) (.trans (recordN_frame _ _ _ _ _ _) (queue0Check_frame _)))

theorem ctxCounts_frame (s : State) : EventFrame s s.ctxCounts :=
  .trans (setOb _ _ (by decide)) (.trans (setOb _ _ (by decide)) (privLevel_frame _ _ _ _))

theorem errorOn_frame (s : State) (unit sev src : Nat) (r : Rec) : EventFrame s (s.errorOn unit sev src r) := by
  have hs := takeStamp s fnContext
  unfold State.errorOn
  generalize s.takeStamp .icd fnContext = p at hs ⊢
  obtain ⟨st, t⟩ := p
  dsimp only at hs ⊢
  refine hs.trans (.trans ?_ (ctxCounts_frame _))
  split
  · exact ite ((ir t _).trans (ctxPost_frame _ _ _ _)) (ir t _)
  · split
    · exact (ir t _).trans (ctxPost_frame _ _ _ _)
    · refine ite (ir t _) (ite (ir t _) ?_)
      refine .trans (recordN_frame t _ _ _ _ _) (ite (refl _) (.trans (setOb _ _ (by decide)) (.trans (recordN_frame _ _ _ _ _ _) (privLevel_frame _ _ _ _))))

/-- An occurrence of a message source (R461, R465, R469, R473). -/
theorem occur_frame (s : State) (src : Nat) (sev : Option Nat) (r : Rec) : EventFrame s (s.occur src sev r) := by
  unfold State.occur
  dsimp only
  exact .trans (more (more (msgPost_frame _ _ _ _ _) (errorOn_frame _ _ _ _ _)) (recordN_frame _ _ _ _ _ _)) (queue0Check_frame _)

theorem levelEntry_frame (s : State) (src : Nat) (b : Bool) : EventFrame s (s.levelEntry src b) := by
  have hs := takeStamp s fnQueue
  unfold State.levelEntry
  generalize s.takeStamp .icd fnQueue = p at hs ⊢
  obtain ⟨st, t⟩ := p
  dsimp only at hs ⊢
  exact hs.trans (.trans (more ((setOb _ _ (IrqStatus_event src)).trans (postEntry_frame _ _ _ _ _)) (recordN_frame _ _ _ _ _ _)) (queue0Check_frame _))

theorem levelPost_frame (s : State) (src : Nat) (b : Bool) : EventFrame s (s.levelPost src b) := by
  unfold State.levelPost
  dsimp only
  have hk := setOb s (k := inst128 O.IrqStatus src)
  exact more (ite (hk _ (IrqStatus_event src)) (ite ((hk _ (IrqStatus_event src)).trans (ir _ _)) ((hk _ (IrqStatus_event src)).trans (levelEntry_frame _ _ _)))) (errorOn_frame _ _ _ _ _)

/-- A condition of R546 becomes true or false (R462). -/
theorem cond_frame (s : State) (src : Nat) (b : Bool) : EventFrame s (s.cond src b) := by
  unfold State.cond
  exact ite (more (ir s _) (levelPost_frame _ _ _)) (ite (ir s _) (refl s))

end Sys2Proof.Machine
end

