-- ==== Sys2Proof/Laws/Exec.lean ====
section
/-! SUPPORT. What every command has in common: it is carried out by `run`, so it answers a next state in canonical form and leaves the queue alone. -/

namespace Sys2Proof.Machine

/-- Every command is an effect that `run` carries out. -/
theorem exec_run (c : Instr) : ∃ f : State → State, ∀ s, exec c s = run f s := by
  cases c <;> exact ⟨_, fun _ => rfl⟩

/-- What a command that `run` carries out leaves of the queue and the dictionaries. -/
theorem run_spec {f : State → State} {s t : State} (h : run f s = .next t) :
    t.pending = s.pending ∧ t.dictsWf ∧ (∀ sd k, t.ob sd k = (f s).ob sd k) := by
  cases h
  refine ⟨rfl, ⟨dictCanon_wf _ _, dictCanon_wf _ _⟩, fun sd k => ?_⟩
  rw [State.ob_commit]
  cases sd <;> rfl

end Sys2Proof.Machine
end

