-- ==== Sys2Proof/Laws/Requests.lean ====
section
/-! SUPPORT. What answering a request leaves alone, and what a write, a proxied write and a descriptor that pass their checks come to. -/

namespace Sys2Proof.Machine

/-- What an answer leaves as it was: every object of both parts and every part of the state but what is sent or queued for a fabric port, the sequence counters, the completions of the rings and the sessions. -/
structure AnswerFrame (s t : State) : Prop where
  freeCtr : t.freeCtr = s.freeCtr
  pins : t.pins = s.pins
  hSeq : t.hSeq = s.hSeq
  bd : t.bd = s.bd
  tm : t.tm = s.tm
  ct : t.ct = s.ct
  tr : t.tr = s.tr
  ln : t.ln = s.ln
  gr : t.gr = s.gr
  se : t.se = s.se
  rd : t.rd = s.rd
  la : t.la = s.la
  ma : t.ma = s.ma
  sp : t.sp = s.sp
  si : t.si = s.si
  ki : t.ki = s.ki
  tw : t.tw = s.tw
  up : { t.up with q := s.up.q } = s.up
  me : t.me = s.me
  ir : t.ir = s.ir
  sc : t.sc = s.sc
  pw : t.pw = s.pw
  pending : t.pending = s.pending
  obj : ∀ sd k, t.ob sd k = s.ob sd k

namespace AnswerFrame

theorem refl (s : State) : AnswerFrame s s := by constructor <;> intros <;> rfl

theorem trans {s t u : State} (a : AnswerFrame s t) (b : AnswerFrame t u) : AnswerFrame s u where
  freeCtr := b.freeCtr.trans a.freeCtr
  pins := b.pins.trans a.pins
  hSeq := b.hSeq.trans a.hSeq
  bd := b.bd.trans a.bd
  tm := b.tm.trans a.tm
  ct := b.ct.trans a.ct
  tr := b.tr.trans a.tr
  ln := b.ln.trans a.ln
  gr := b.gr.trans a.gr
  se := b.se.trans a.se
  rd := b.rd.trans a.rd
  la := b.la.trans a.la
  ma := b.ma.trans a.ma
  sp := b.sp.trans a.sp
  si := b.si.trans a.si
  ki := b.ki.trans a.ki
  tw := b.tw.trans a.tw
  up := by
    have e := a.up; rw [← b.up] at e; exact e
  me := b.me.trans a.me
  ir := b.ir.trans a.ir
  sc := b.sc.trans a.sc
  pw := b.pw.trans a.pw
  pending := b.pending.trans a.pending
  obj sd k := (b.obj sd k).trans (a.obj sd k)

theorem ite {s a b : State} {p : Prop} [Decidable p] (ha : AnswerFrame s a) (hb : AnswerFrame s b) : AnswerFrame s (if p then a else b) := by
  split <;> assumption

theorem more {s a b : State} {p : Prop} [Decidable p] (ha : AnswerFrame s a) (hb : AnswerFrame a b) : AnswerFrame s (if p then b else a) := by
  split; exact ha.trans hb; exact ha

theorem foldl {α : Type} {s : State} (f : State → α → State) (hf : ∀ t a, AnswerFrame t (f t a)) (l : List α) : AnswerFrame s (l.foldl f s) := by
  induction l generalizing s with
  | nil => exact refl s
  | cons a l ih => exact (hf s a).trans ih

end AnswerFrame

open AnswerFrame

theorem AnswerFrame.put (s : State) (c : Chan) (i : Nat) (b : List Nat) : AnswerFrame s (s.put c i b) := by
  constructor <;> intros <;> first | rfl | simp

theorem ringPost_frame (s : State) (ring : Nat) : AnswerFrame s (s.ringPost ring) := by
  unfold State.ringPost
  split
  · exact put _ _ _ _
  · exact refl s

theorem complete_frame (s : State) (ring tag : Nat) (b : Bool) (r : Res) : AnswerFrame s (s.complete ring tag b r) := by
  unfold State.complete
  refine AnswerFrame.ite ?_ ?_
  · have e : ∀ fs, State.form .icd 0x61 2 0 0 fs s = (mkRec 0x61 2 0 (s.srcGid .icd 0x61) (s.seqOf .icd 0x61) 0 fs, s.bumpSeq .icd 0x61) := by
      intro fs
      have : digestTypes.contains 0x61 = false := by decide
      simp only [State.form, this, Bool.false_eq_true, and_false, if_false]
    rw [e]
    refine trans ?_ (ringPost_frame _ _)
    constructor <;> first | rfl | (intro sd k; cases sd <;> rfl)
  · constructor <;> first | rfl | (intro sd k; cases sd <;> rfl)

theorem reply_frame (s : State) (n tag : Nat) (body : List Nat) : AnswerFrame s (s.reply n tag body) := by
  unfold State.reply
  split
  · exact refl s
  · constructor <;> first | rfl | (intro sd k; cases sd <;> rfl)

/-- An answer that says OK, or any answer to a session, a ring, a VF or a device, changes no object. -/
theorem answer_frame (s : State) (q : Req) (k : Nat) (wr : Bool) {r : Res} (h : r.st = 0) (vals : List Nat) :
    AnswerFrame s (s.answer q k wr r vals) := by
  unfold State.answer
  split
  · exact complete_frame _ _ _ _ _
  · exact reply_frame _ _ _ _
  · exact put _ _ _ _
  · exact put _ _ _ _
  · rw [if_pos h]; exact ite (refl s) (put _ _ _ _)
  · rw [if_pos h]; exact ite (refl s) (put _ _ _ _)

theorem xOwn_frame (s : State) (st : Nat) (r : Rec) : AnswerFrame s (s.xOwn st r) := by
  unfold State.xOwn
  split
  · constructor <;> first | rfl | (intro sd k; cases sd <;> rfl)
  · exact refl s

/-- A message to the twin changes nothing but the queues of the fabric ports. -/
theorem xMsg_frame (s : State) (tag : Nat) (body : List Nat) : AnswerFrame s (s.xMsg tag body) :=
  AnswerFrame.foldl _ (fun t r => xOwn_frame t stControl r) _

theorem twinOrder_frame (s : State) (k v : Nat) : AnswerFrame s (s.twinOrder k v) := by
  unfold State.twinOrder
  refine ite (refl s) (trans ?_ (xMsg_frame _ _ _))
  constructor <;> first | rfl | (intro sd k; cases sd <;> rfl)

theorem holdAnswer_frame (s : State) (k : Nat) (a : HeldAnswer) : AnswerFrame s (s.holdAnswer k a) := by
  unfold State.holdAnswer
  split
  · constructor <;> first | rfl | (intro sd k; cases sd <;> rfl)
  · exact refl s

/-- A write that passes its checks and that the object's own operation accepts (R504–R508). -/
theorem reqWrite_ok {q : Req} {k v : Nat} {f : Op} {s : State} (h : s.Accepts q k v) (hr : (f s).2.st = 0) :
    AnswerFrame (f s).1 (s.reqWrite q k v f) := by
  obtain ⟨h1, h2, h3, h4, h5⟩ := h
  have e : s.reqWrite q k v f = if ((tget ((f s).1.twinOrder k v).mo.applying k).isSome) = true then ((f s).1.twinOrder k v).holdAnswer k ⟨q, false, false, [], []⟩
      else ((f s).1.twinOrder k v).answer q k true (f s).2 [] := by
    simp [State.reqWrite, h1, h2, h3, h4, State.writeThrough, h5, hr]
  rw [e]
  exact (twinOrder_frame _ _ _).trans (AnswerFrame.ite (holdAnswer_frame _ _ _) (answer_frame _ _ _ _ hr _))

/-- A write that passes its checks and that the object's own operation refuses, to a requester that is answered outside the dictionary. -/
theorem reqWrite_no {q : Req} {k v : Nat} {f : Op} {s : State} (h : s.Accepts q k v) (hr : (f s).2.st ≠ 0) :
    s.reqWrite q k v f = (f s).1.answer q k true (f s).2 [] := by
  obtain ⟨h1, h2, h3, h4, h5⟩ := h
  simp [State.reqWrite, h1, h2, h3, h4, State.writeThrough, h5, hr]

/-- A descriptor from a requester that may submit it (R190, R495). -/
theorem descriptor_ok {q : Req} {f : Op} {s : State} (h : s.AcceptsDesc q) (hr : (f s).2.st = 0) :
    AnswerFrame (f s).1 (s.descriptor q f) := by
  obtain ⟨h1, h2, h3⟩ := h
  have e : s.descriptor q f = (f s).1.answer q 0 true (f s).2 [] := by simp [State.descriptor, h1, h2, h3]
  rw [e]
  exact answer_frame _ _ _ _ hr _

/-- What a proxied write leaves as it was beside what an answer touches: all but the Tray's copies of Helad objects (R548). -/
theorem proxyWrite_ok {q : Req} {k v : Nat} {f : Op} {s : State} (h : s.AcceptsProxy q k v) (hr : (f (s.wakeFor k)).2.st = 0) :
    AnswerFrame ((f (s.wakeFor k)).1.copySet ((f (s.wakeFor k)).1.h O.SlotNumber) k v) (s.proxyWrite q k v f) := by
  obtain ⟨h1, h2, h3, h4, h5, h6⟩ := h
  have e : s.proxyWrite q k v f =
      ((f (s.wakeFor k)).1.copySet ((f (s.wakeFor k)).1.h O.SlotNumber) k v).answer q k true (f (s.wakeFor k)).2 [] := by
    simp [State.proxyWrite, h1, h2, h3, h4, h5, h6, hr]
  rw [e]
  exact answer_frame _ _ _ _ hr _

/-- Waking a domain changes the domains alone (R74). -/
theorem wake_eq (s : State) (d : Nat) : ∃ x, s.wake d = { s with bd := x } := by
  unfold State.wake
  split
  · exact ⟨_, rfl⟩
  · exact ⟨s.bd, rfl⟩

theorem wakeFor_eq (s : State) (k : Nat) : ∃ x, s.wakeFor k = { s with bd := x } := by
  unfold State.wakeFor
  split
  · obtain ⟨x, hx⟩ := wake_eq s 4
    rw [hx]
    rename_i d _
    obtain ⟨y, hy⟩ := wake_eq { s with bd := x } d
    exact ⟨y, by rw [hy]⟩
  · exact wake_eq s 4

end Sys2Proof.Machine
end

