-- ==== Sys2Proof/Laws/Helad.lean ====
section
/-! SUPPORT. What the Helad's queues, AO ring and alarms leave alone. -/

namespace Sys2Proof.Machine

/-- What queuing records at the Helad leaves as it was: every object and every part of the state but the lane, the domains, the AO ring, the sequence counters and the Helad's owed marks of a step. -/
structure LaneFrame (s t : State) : Prop where
  out : t.out = s.out
  freeCtr : t.freeCtr = s.freeCtr
  pins : t.pins = s.pins
  iSeq : t.iSeq = s.iSeq
  tm : ∃ x, t.tm = { s.tm with hc := { s.tm.hc with owed := x } }
  ct : t.ct = s.ct
  tr : t.tr = s.tr
  pk : t.pk = s.pk
  gr : t.gr = s.gr
  se : t.se = s.se
  rd : t.rd = s.rd
  la : t.la = s.la
  ma : t.ma = s.ma
  sp : t.sp = s.sp
  si : t.si = s.si
  ki : t.ki = s.ki
  tw : t.tw = s.tw
  up : t.up = s.up
  me : t.me = s.me
  sc : t.sc = s.sc
  mo : t.mo = s.mo
  pw : t.pw = s.pw
  pending : t.pending = s.pending
  obj : ∀ sd k, t.ob sd k = s.ob sd k

namespace LaneFrame

theorem refl (s : State) : LaneFrame s s := by constructor <;> intros <;> first | rfl | exact ⟨_, rfl⟩

theorem trans {s t u : State} (a : LaneFrame s t) (b : LaneFrame t u) : LaneFrame s u where
  out := b.out.trans a.out
  freeCtr := b.freeCtr.trans a.freeCtr
  pins := b.pins.trans a.pins
  iSeq := b.iSeq.trans a.iSeq
  tm := by
    obtain ⟨x, hx⟩ := b.tm
    obtain ⟨y, hy⟩ := a.tm
    exact ⟨x, by rw [hx, hy]⟩
  ct := b.ct.trans a.ct
  tr := b.tr.trans a.tr
  pk := b.pk.trans a.pk
  gr := b.gr.trans a.gr
  se := b.se.trans a.se
  rd := b.rd.trans a.rd
  la := b.la.trans a.la
  ma := b.ma.trans a.ma
  sp := b.sp.trans a.sp
  si := b.si.trans a.si
  ki := b.ki.trans a.ki
  tw := b.tw.trans a.tw
  up := b.up.trans a.up
  me := b.me.trans a.me
  sc := b.sc.trans a.sc
  mo := b.mo.trans a.mo
  pw := b.pw.trans a.pw
  pending := b.pending.trans a.pending
  obj sd k := (b.obj sd k).trans (a.obj sd k)

theorem ite {s a b : State} {p : Prop} [Decidable p] (ha : LaneFrame s a) (hb : LaneFrame s b) : LaneFrame s (if p then a else b) := by
  split <;> assumption

theorem more {s a b : State} {p : Prop} [Decidable p] (ha : LaneFrame s a) (hb : LaneFrame a b) : LaneFrame s (if p then b else a) := by
  split; exact ha.trans hb; exact ha

theorem foldl {α : Type} {s : State} (f : State → α → State) (hf : ∀ t a, LaneFrame t (f t a)) (l : List α) : LaneFrame s (l.foldl f s) := by
  induction l generalizing s with
  | nil => exact refl s
  | cons a l ih => exact (hf s a).trans ih

end LaneFrame

open LaneFrame

theorem LaneFrame.bd (s : State) (x : BoundSt) : LaneFrame s { s with bd := x } := by
  constructor <;> first | rfl | exact ⟨_, rfl⟩ | (intro sd k; cases sd <;> rfl)

theorem LaneFrame.ln (s : State) (x : LaneSt) : LaneFrame s { s with ln := x } := by
  constructor <;> first | rfl | exact ⟨_, rfl⟩ | (intro sd k; cases sd <;> rfl)

theorem LaneFrame.ir (s : State) (x : IrqSt) : LaneFrame s { s with ir := x } := by
  constructor <;> first | rfl | exact ⟨_, rfl⟩ | (intro sd k; cases sd <;> rfl)

theorem hQueue_frame (s : State) (st : Nat) (r : Rec) : LaneFrame s (s.hQueue st r) := ln s _

theorem wake_frame (s : State) (d : Nat) : LaneFrame s (s.wake d) := by
  obtain ⟨x, h⟩ := wake_eq s d
  rw [h]; exact LaneFrame.bd s x

theorem hQueueW_frame (s : State) (st : Nat) (r : Rec) : LaneFrame s (s.hQueueW st r) :=
  (hQueue_frame s st r).trans (wake_frame _ _)

theorem formH_frame (s : State) (ty len flags part : Nat) (fs : List (Nat × Nat × Nat)) :
    LaneFrame s (s.form .hel ty len flags part fs).2 := by
  constructor <;> first | rfl | exact ⟨_, rfl⟩ | (intro sd k; cases sd <;> rfl)

/-- A stamp taken pays the mark of a step that its function owes (R544). -/
theorem takeStampH_frame (s : State) (fn : Nat) : LaneFrame s (s.takeStamp .hel fn).2 := by
  constructor <;> first | rfl | exact ⟨_, rfl⟩ | (intro sd k; cases sd <;> rfl)

theorem aoFlush_frame (s : State) : LaneFrame s s.aoFlush := by
  unfold State.aoFlush
  exact ite ((foldl _ (fun t a => hQueue_frame t _ _) _).trans (ir _ _)) (refl s)

/-- A record written to the AO ring (R478). -/
theorem hRing_frame (s : State) (sev : Nat) (r : Rec) : LaneFrame s (s.hRing sev r) := by
  unfold State.hRing
  exact (takeStampH_frame s fnRecorder).trans ((LaneFrame.ir _ _).trans (aoFlush_frame _))

end Sys2Proof.Machine
end

