-- ==== Sys2Proof/Laws/Time.lean ====
section
/-! SUPPORT. What a change of FtState does (R46), what a forward step does (R47), and what the queue of timed actions does. -/

namespace Sys2Proof.Machine

/-- The clocks with other owed marks of a step: what taking a stamp may change (R544). -/
def paidMarks (m : TimeSt) (x y : Nat) : TimeSt := { m with hc := { m.hc with owed := x }, ic := { m.ic with owed := y } }

theorem paidMarks_clk {s t : State} {x y : Nat} (h : t.tm = paidMarks s.tm x y) (sd : Side) :
    t.ft sd = s.ft sd ∧ (t.clk sd).lockRate = (s.clk sd).lockRate := by
  cases sd <;> simp only [State.ft, State.clk, h] <;> exact ⟨rfl, rfl⟩

theorem LaneFrame.paid {t u : State} (f : LaneFrame t u) : ∃ x y, u.tm = paidMarks t.tm x y := by
  obtain ⟨x, h⟩ := f.tm
  exact ⟨x, t.tm.ic.owed, h⟩

theorem EventFrame.paid {t u : State} (f : EventFrame t u) : ∃ x y, u.tm = paidMarks t.tm x y := by
  obtain ⟨y, h⟩ := f.tm
  exact ⟨t.tm.hc.owed, y, h⟩

/-- What a change of FtState leaves as it was, and what it sets. -/
structure FtChanged (sd : Side) (new : Nat) (s t : State) : Prop where
  st : t.ob sd O.FtState = new
  ob : ∀ sd' k, k < 0x590000 → (sd' ≠ sd ∨ k ≠ O.FtState) → t.ob sd' k = s.ob sd' k
  tm : new ≠ 2 → ∃ x y, t.tm = paidMarks s.tm x y
  ft : ∀ sd', t.ft sd' = s.ft sd'
  rate : ∀ sd', (t.clk sd').lockRate = (s.clk sd').lockRate
  me : t.me = s.me
  gr : t.gr = s.gr
  rd : t.rd = s.rd
  tw : t.tw = s.tw

theorem FtChanged.of_lane {sd : Side} {new : Nat} {s t u : State} (h : FtChanged sd new s t) (f : LaneFrame t u) : FtChanged sd new s u where
  st := (f.obj _ _).trans h.st
  ob sd' k hk hn := (f.obj _ _).trans (h.ob sd' k hk hn)
  tm hn := by
    obtain ⟨x, y, e⟩ := f.paid
    obtain ⟨x', y', e'⟩ := h.tm hn
    exact ⟨x, y, by rw [e, e']; rfl⟩
  ft sd' := by
    obtain ⟨x, y, e⟩ := f.paid
    exact (paidMarks_clk e sd').1.trans (h.ft sd')
  rate sd' := by
    obtain ⟨x, y, e⟩ := f.paid
    exact (paidMarks_clk e sd').2.trans (h.rate sd')
  me := f.me.trans h.me
  gr := f.gr.trans h.gr
  rd := f.rd.trans h.rd
  tw := f.tw.trans h.tw

theorem FtChanged.of_event {sd : Side} {new : Nat} {s t u : State} (h : FtChanged sd new s t) (f : EventFrame t u) : FtChanged sd new s u where
  st := by
    cases sd with
    | hel => exact (f.h _).trans h.st
    | icd => exact (f.obj _ (by decide)).trans h.st
  ob sd' k hk hn := by
    cases sd' with
    | hel => exact (f.h _).trans (h.ob .hel k hk hn)
    | icd => exact (f.obj _ hk).trans (h.ob .icd k hk hn)
  tm hn := by
    obtain ⟨x, y, e⟩ := f.paid
    obtain ⟨x', y', e'⟩ := h.tm hn
    exact ⟨x, y, by rw [e, e']; rfl⟩
  ft sd' := by
    obtain ⟨x, y, e⟩ := f.paid
    exact (paidMarks_clk e sd').1.trans (h.ft sd')
  rate sd' := by
    obtain ⟨x, y, e⟩ := f.paid
    exact (paidMarks_clk e sd').2.trans (h.rate sd')
  me := f.me.trans h.me
  gr := f.gr.trans h.gr
  rd := f.rd.trans h.rd
  tw := f.tw.trans h.tw

theorem FtChanged.ite {sd : Side} {new : Nat} {s a b : State} {p : Prop} [Decidable p] (ha : FtChanged sd new s a) (hb : FtChanged sd new s b) :
    FtChanged sd new s (if p then a else b) := by split <;> assumption

theorem FtChanged.ob_sets {sd : Side} {new : Nat} {s t : State} (hd : ∀ sd' k, t.ob sd' k = (s.setOb sd O.FtState new).ob sd' k) (tm : t.tm = s.tm)
    (me : t.me = s.me) (gr : t.gr = s.gr) (rd : t.rd = s.rd) (tw : t.tw = s.tw) : FtChanged sd new s t where
  st := by rw [hd]; simp
  ob sd' k _ hn := by
    rw [hd, State.ob_setOb, if_neg]
    rintro ⟨rfl, rfl⟩
    rcases hn with h | h <;> exact h rfl
  tm _ := ⟨s.tm.hc.owed, s.tm.ic.owed, tm⟩
  ft sd' := by cases sd' <;> simp only [State.ft, State.clk, tm]
  rate sd' := by cases sd' <;> simp only [State.clk, tm]
  me := me
  gr := gr
  rd := rd
  tw := tw

/-- A change of FtState writes it and a TimeStateRecord, and changes no other object below the interrupt controller's (R46). -/
theorem ftChange_spec (sd : Side) (new : Nat) (off : Int) (sk : Nat) (stepped : Bool) (s : State) :
    FtChanged sd new s (s.ftChange sd new off sk stepped) := by
  unfold State.ftChange
  dsimp only
  have base : ∀ (fs : List (Nat × Nat × Nat)), FtChanged sd new s (State.form sd 0x20 3 0 0 fs (s.setOb sd O.FtState new)).2 := by
    intro fs
    cases sd with
    | hel => exact .ob_sets (fun sd' k => (formH_frame _ _ _ _ _ _).obj sd' k) rfl rfl rfl rfl rfl
    | icd =>
      refine .of_event (.ob_sets (fun _ _ => rfl) rfl rfl rfl rfl rfl) (form_frame _ 0x20 3 0 0 fs (by decide))
  have last : ∀ (u : State), FtChanged sd new s u →
      FtChanged sd new s (if new = 2 then u.setClk sd { u.clk sd with wasLocked := true } else u) := by
    intro u h
    by_cases e : new = 2
    · rw [if_pos e]
      exact {
        st := by rw [State.ob_setClk]; exact h.st
        ob := by intro sd' k hk hn; rw [State.ob_setClk]; exact h.ob sd' k hk hn
        tm := fun hn => absurd e hn
        ft := by intro sd'; have := h.ft sd'; cases sd' <;> cases sd <;> exact this
        rate := by intro sd'; have := h.rate sd'; cases sd' <;> cases sd <;> exact this
        me := by rw [State.setClk_me]; exact h.me
        gr := by rw [State.setClk_gr]; exact h.gr
        rd := by rw [State.setClk_rd]; exact h.rd
        tw := by rw [State.setClk_tw]; exact h.tw }
    · rw [if_neg e]; exact h
  apply last
  cases sd with
  | hel =>
    rw [if_neg (by rintro ⟨h, _⟩; cases h)]
    exact ((base _).of_lane (hRing_frame _ _ _)).of_lane (hQueue_frame _ _ _)
  | icd => exact .ite (((base _).of_event (occur_frame _ _ _ _)).of_event (priv_frame _ _ _)) ((base _).of_event (occur_frame _ _ _ _))

end Sys2Proof.Machine
end

