-- ==== Sys2Proof/WellFormed.lean ====
section
/-! DEFINITION. Well-formed commands: operands within the widths and kinds that the row's rule gives them. -/

namespace Sys2Proof

open Machine

/-- Whether a command's operands are of the form its rule gives them. -/
def Instr.wf (i : Instr) : Bool :=
  match i with
  | .powerOn _ => true
  | .inputLow volt => decide (volt < 2 ^ 16)
  | .inputRestored volt => decide (volt < 2 ^ 16)
  | .inputTurnOff => true
  | .coldReset _ gid _ _ => decide (gid < 2 ^ 32)
  | .warmReset _ gid _ => decide (gid < 2 ^ 32)
  | .watchdogExpiry cores _ => decide (cores < 16)
  | .domainReset _ v => decide (v < 2 ^ 64)
  | .domainIdleOff d => decide (d < 96)
  | .initDone _ v => decide (v < 256)
  | .fillSubmit _ v => decide (v < 2 ^ 64)
  | .fillDone => true
  | .recoveryData data => decide (data.port < 2 ∧ data.data.length = 128)
  | .recoveryCommit kind _ _ _ => decide (kind.port < 2 ∧ kind.kind < 256)
  | .haoReset => true
  | .haoResetRelease => true
  | .hmainReset => true
  | .hmainResetRelease => true
  | .aoClkAbsent => true
  | .aoClkReturn _ => true
  | .domainWakeRequest d groups => decide (1 ≤ d ∧ d ≤ 5 ∧ groups < 2 ^ 16)
  | .domainReady d => decide (1 ≤ d ∧ d ≤ 5)
  | .domainSleep d groups => decide (1 ≤ d ∧ d ≤ 5 ∧ groups < 2 ^ 16)
  | .syncTagSend _ w => decide (w ≤ 8)
  | .syncTag _ _ w r => decide (w ≤ 8 ∧ rType r = 0x23)
  | .delayReq _ w r => decide (w ≤ 8 ∧ rType r = 0x24)
  | .servoUpdate _ => true
  | .holdoverTimeout _ => true
  | .rootFtStart _ => true
  | .rootFtPersist => true
  | .ohSecondTick _ => true
  | .dozeSyncWake => true
  | .rtPulse => true
  | .rtTodSample tod => decide (tod < 2 ^ 24)
  | .rtPulseTimeout => true
  | .rtHoldoverLimit => true
  | .guardDrainStart => true
  | .guardRegionEnd => true
  | .utSample _ _ _ => true
  | .timedActionReceive _ a => decide (a.handle < 2 ^ 32 ∧ a.kind ≤ 6)
  | .actionCancel _ handle => decide (handle < 2 ^ 32)
  | .cancelReceive _ handle => decide (handle < 2 ^ 32)
  | .timedObjectWrite _ => true
  | .pulseArm _ _ n v => decide (n < 8 ∧ v < 2 ^ 32)
  | .pulseStart _ n => decide (n < 8)
  | .pulseEdge _ n => decide (n < 8)
  | .captureEdge _ n _ => decide (n < 8)
  | .epochBoundary => true
  | .epochAnchorSend _ => true
  | .epochAnchor r => decide (rType r = 0x25)
  | .epochClose _ _ _ => true
  | .contributionReceive port r => decide (port < 64 ∧ (rType r = 0x90 ∨ rType r = 0x92))
  | .resultPost _ => true
  | .supplementClose _ _ => true
  | .epochLengthWrite _ v => decide (v < 2 ^ 32)
  | .reductionCommit _ => true
  | .twinDigestSend _ kind => decide (kind < 2)
  | .twinDigestCompare r => decide (rType r = 0xE1)
  | .twinDigestAbsent _ kind => decide (kind < 2)
  | .repairRequest _ st _ => decide (st < 16)
  | .repairAnswer _ st _ => decide (st < 16)
  | .repairHoldExpiry _ st => decide (st < 16)
  | .tapIncrement port inc tag evt _ => decide (port < 256 ∧ inc < 2 ^ 32 ∧ tag < 16 ∧ evt < 256)
  | .conditionHoldExpiry u => decide (u < 256)
  | .commandStart stream cmdid part => decide (stream < 16 ∧ cmdid < 2 ^ 64 ∧ part < 2 ^ 16)
  | .commandEnd stream cmdid part _ => decide (stream < 16 ∧ cmdid < 2 ^ 64 ∧ part < 2 ^ 16)
  | .counterConfigWrite _ n v => decide (n < 4096 ∧ v < 2 ^ 64)
  | .counterClear _ k mask => decide (1 ≤ k ∧ k ≤ 128 ∧ mask < 2 ^ 32)
  | .setCommit _ mask => decide (mask < 256)
  | .counterSample => true
  | .partitionPowerTick => true
  | .configCopyReadback slot _ _ => decide (slot < 64)
  | .tracePacket src data bad => decide (src < 64 ∧ 1 ≤ data.length ∧ (data.length ≤ 256 ∨ bad = 3) ∧ (bad = 0 ∨ bad = 3 ∨ bad = 4))
  | .traceCadenceBoundary => true
  | .traceCadenceWrite _ v => decide (v < 2 ^ 16)
  | .traceBlockFlush src => decide (src < 64)
  | .tfDozeRise src data => decide (src < 64 ∧ data.length ≤ 256)
  | .tfDozeFall src => decide (src < 64)
  | .seqEnable _ v => decide (v < 256)
  | .seqCounterTarget => true
  | .compFtInstant k => decide (k < 8)
  | .triggerCode code => decide (code < 2 ^ 16)
  | .readRequestIssue => true
  | .readResponse tag data _ err => decide (tag < 64 ∧ data.length = 64 ∧ err < 4)
  | .readTimeout tag => decide (tag < 64)
  | .fenceRequest u => decide (u < 256)
  | .fenceAckRise u => decide (u < 256)
  | .fenceRelease u => decide (u < 256)
  | .fenceAckFall u => decide (u < 256)
  | .fenceAckTimeout u => decide (u < 256)
  | .fenceMapLoad => true
  | .fenceEntryWrite _ u v => decide (u < 256 ∧ v < 2 ^ 64)
  | .haltAckRise g => decide (g < 64)
  | .haltAckTimeout g => decide (g < 64)
  | .radioGroupRise g => decide (g < 64)
  | .pitchRunStart u => decide (u < 256)
  | .pitchResponse tag status cmdid => decide (tag < 256 ∧ status < 8 ∧ cmdid < 2 ^ 64)
  | .pitchTimeout u => decide (u < 256)
  | .pitchOutputChecked u => decide (u < 256)
  | .snapshotShiftResume _ => true
  | .snapshotShiftComplete _ reset => decide (reset < 2 ^ 16)
  | .hvFtnowLatch => true
  | .hvHoursLatch => true
  | .oeFault => true
  | .flitTransmit _ => true
  | .flitSchedule port wave => decide (port < 80 ∧ wave < 9)
  | .flitReceive _ flit _ corrected _ => decide (flit.length = 16 ∧ corrected ≤ 15)
  | .downstreamChannelLost ch => decide (ch < 2)
  | .fabricSkewHoldExpiry _ st => decide (st < 16)
  | .recordIngest _ st => decide (st < 16)
  | .lightDetect slot => decide (slot < 64)
  | .lossOfLight slot _ held => decide (slot < 64) && held.all (fun p => decide (p.1 < 8 ∧ p.2 < 2 ^ 28))
  | .fecFailCount slot n _ held => decide (slot < 64 ∧ 0 < n) && held.all (fun p => decide (p.1 < 8 ∧ p.2 < 2 ^ 28))
  | .slotAssign ch r => decide (ch < 2 ∧ rType r = 0x53)
  | .trainDone ch r => decide (ch < 2 ∧ rType r = 0x54)
  | .trainDoneWaitExpiry => true
  | .laneDoze => true
  | .laneKeepalive => true
  | .dozeSilentTimeout slot _ held => decide (slot < 64) && held.all (fun p => decide (p.1 < 8 ∧ p.2 < 2 ^ 28))
  | .slotReset _ slot => decide (slot < 256)
  | .retuneCommand ch r => decide (ch < 2 ∧ rType r = 0x52)
  | .retuneSettleExpiry => true
  | .retuneAcquireTimeout slot _ => decide (slot < 64)
  | .spareTrainSlot _ slot => decide (slot < 256)
  | .revertSlot _ slot => decide (slot < 256)
  | .fabricWavelengthFail port wave => decide (port < 16 ∧ wave < 9)
  | .standbyUplinkSwitch => true
  | .d2dFatal link => decide (link < 6)
  | .cxlLinkFail port => decide (port < 4)
  | .thermalThreshold sensor temp => decide (sensor < 36 ∧ temp < 2 ^ 16)
  | .thermalCritical sensor => decide (sensor < 36)
  | .throttleStep power => decide (power < 2 ^ 32)
  | .ringFetch ctls => decide (ctls.all fun c => decide (c.prod < 2 ^ 32 ∧ c.ccons < 2 ^ 32 ∧ 6 ≤ c.log2e ∧ c.log2e ≤ 16))
  | .consumerAck _ pos _ => decide (pos < 2 ^ 32)
  | .objectRead _ gid _ => decide (gid < 2 ^ 32)
  | .objectWrite _ gid _ _ _ => decide (gid < 2 ^ 32)
  | .caskSeal q _ _ _ => decide (q.tag < 2 ^ 32)
  | .finingJob _ _ v _ => decide (v < 2 ^ 64)
  | .modelSwitch _ _ b c at_ => decide (b < 16 ∧ c < 8 ∧ at_ < 2 ^ 80)
  | .mashSwitch _ _ r i at_ => decide (r < 16 ∧ i < 256 ∧ at_ < 2 ^ 80)
  | .steepSwitch _ _ g i at_ => decide (g < 8 ∧ i < 256 ∧ at_ < 2 ^ 80)
  | .patternStage _ image _ => decide (384 ≤ image.length)
  | .replicaDefine _ g _ => decide (g < 256)
  | .cut _ _ _ arg scope => decide (arg < 2 ^ 256 ∧ scope < 2 ^ 32)
  | .cutRelease _ _ _ _ n => decide (n < 2 ^ 32)
  | .partitionCreate _ part _ _ => decide (part < 2 ^ 16)
  | .partitionAdd _ part _ => decide (part < 2 ^ 16)
  | .partitionRemove _ part _ => decide (part < 2 ^ 16)
  | .partitionTeardown _ part => decide (part < 2 ^ 16)
  | .dieRemove _ _ gid => decide (gid < 2 ^ 32)
  | .broadcast _ image _ => decide (384 ≤ image.length)
  | .ringDropRunEnd slot pri => decide (slot < 128 ∧ pri < 4)
  | .chunkMaxAge slot pri => decide (slot < 128 ∧ pri < 4)
  | .chunkFined _ => true
  | .indexAnchor => true
  | .caskTrigger => true
  | .caskOpenReceive _ _ _ => true
  | .postWindowEnd id => decide (id < 2 ^ 32)
  | .rackCask => true
  | .rackComplete => true
  | .caskRelease _ id => decide (id < 2 ^ 32)
  | .tier2Free _ id => decide (id < 2 ^ 32)
  | .finingJobDone inst => decide (inst.inst < 4) && inst.bad.all fun b => decide (b < 2 ^ 40)
  | .finingAbort _ tag _ => decide (tag < 2 ^ 32)
  | .seriesSample => true
  | .seriesForward => true
  | .rebaseline _ v => decide (v < 2 ^ 64)
  | .stepRecord r => decide (rType r = 0x82)
  | .stepTimeout part _ _ => decide (part < 2 ^ 16)
  | .modelImageComplete slot => decide (slot < 8)
  | .modelValidationDone slot => decide (slot < 8)
  | .slotClear _ slot v => decide (slot < 8 ∧ v < 256)
  | .lauterBindingWrite _ b v => decide (b < 16 ∧ v < 2 ^ 64)
  | .vectorEnqueue b => decide (b < 16)
  | .batchClose b slot => decide (b < 16 ∧ slot < 8)
  | .batchStart c _ => decide (c < 4)
  | .batchDone c => decide (c < 4)
  | .stopEpochReceive slot _ epoch => decide (slot < 8 ∧ epoch < 2 ^ 48)
  | .modelSwitchLaunch => true
  | .slotRetireEnd slot => decide (slot < 8)
  | .mashRecord r c what => decide (r < 16 ∧ c < 64 ∧ what < 3)
  | .mashEpochEmit r => decide (r < 16)
  | .graphImageValidate i => decide (i < 64)
  | .imageClear _ _ i v => decide (i < 64 ∧ v < 256)
  | .regionSwitchLaunch => true
  | .regionLoadStart r => decide (r < 16)
  | .regionLoadDone r => decide (r < 16)
  | .regionRecordTimeout r => decide (r < 16)
  | .groupSwitchLaunch => true
  | .groupLoadDone g => decide (g < 8)
  | .steepImageValidate i => decide (i < 64)
  | .steepEntryTimeout k => decide (k < 32)
  | .macq k => decide (k < 32)
  | .msuq k => decide (k < 32)
  | .mpyq k => decide (k < 32)
  | .macd k => decide (k < 32)
  | .msud k => decide (k < 32)
  | .mpyd k => decide (k < 32)
  | .narrow16 k => decide (k < 32)
  | .narrow24 k => decide (k < 32)
  | .narrow32 k => decide (k < 32)
  | .mova k => decide (k < 32)
  | .movxa k => decide (k < 32)
  | .clra k => decide (k < 32)
  | .ld16 k _ => decide (k < 32)
  | .ld16x k _ => decide (k < 32)
  | .ld32x k _ => decide (k < 32)
  | .ld64 k _ => decide (k < 32)
  | .ld24x k _ => decide (k < 32)
  | .ldd k _ => decide (k < 32)
  | .st16 k => decide (k < 32)
  | .st32 k => decide (k < 32)
  | .st64 k => decide (k < 32)
  | .st24 k => decide (k < 32)
  | .br k => decide (k < 32)
  | .loop k => decide (k < 32)
  | .loops k => decide (k < 32)
  | .next k => decide (k < 32)
  | .done k => decide (k < 32)
  | .emit k _ => decide (k < 32)
  | .add k slot => decide (k < 32 ∧ slot < 2)
  | .sub k slot => decide (k < 32 ∧ slot < 2)
  | .adds k slot => decide (k < 32 ∧ slot < 2)
  | .subs k slot => decide (k < 32 ∧ slot < 2)
  | .andX k slot => decide (k < 32 ∧ slot < 2)
  | .orX k slot => decide (k < 32 ∧ slot < 2)
  | .xor k slot => decide (k < 32 ∧ slot < 2)
  | .shl k slot => decide (k < 32 ∧ slot < 2)
  | .shr k slot => decide (k < 32 ∧ slot < 2)
  | .sar k slot => decide (k < 32 ∧ slot < 2)
  | .min k slot => decide (k < 32 ∧ slot < 2)
  | .max k slot => decide (k < 32 ∧ slot < 2)
  | .mul k slot => decide (k < 32 ∧ slot < 2)
  | .abs k slot => decide (k < 32 ∧ slot < 2)
  | .mov k slot => decide (k < 32 ∧ slot < 2)
  | .cvtf k slot => decide (k < 32 ∧ slot < 2)
  | .aluiAdd k slot => decide (k < 32 ∧ slot < 2)
  | .aluiSub k slot => decide (k < 32 ∧ slot < 2)
  | .aluiAdds k slot => decide (k < 32 ∧ slot < 2)
  | .aluiSubs k slot => decide (k < 32 ∧ slot < 2)
  | .aluiAnd k slot => decide (k < 32 ∧ slot < 2)
  | .aluiOr k slot => decide (k < 32 ∧ slot < 2)
  | .aluiXor k slot => decide (k < 32 ∧ slot < 2)
  | .aluiShl k slot => decide (k < 32 ∧ slot < 2)
  | .aluiShr k slot => decide (k < 32 ∧ slot < 2)
  | .aluiSar k slot => decide (k < 32 ∧ slot < 2)
  | .aluiMin k slot => decide (k < 32 ∧ slot < 2)
  | .aluiMax k slot => decide (k < 32 ∧ slot < 2)
  | .pset k slot => decide (k < 32 ∧ slot < 2)
  | .nset k slot => decide (k < 32 ∧ slot < 2)
  | .padd k slot => decide (k < 32 ∧ slot < 2)
  | .movp k slot => decide (k < 32 ∧ slot < 2)
  | .movxp k slot => decide (k < 32 ∧ slot < 2)
  | .movxn k slot => decide (k < 32 ∧ slot < 2)
  | .cmpEq k slot => decide (k < 32 ∧ slot < 2)
  | .cmpNe k slot => decide (k < 32 ∧ slot < 2)
  | .cmpLt k slot => decide (k < 32 ∧ slot < 2)
  | .cmpGe k slot => decide (k < 32 ∧ slot < 2)
  | .cmpLtu k slot => decide (k < 32 ∧ slot < 2)
  | .cmpGeu k slot => decide (k < 32 ∧ slot < 2)
  | .nop k slot => decide (k < 32 ∧ slot < 2)
  | .movc k slot => decide (k < 32 ∧ slot < 2)
  | .movtc k slot => decide (k < 32 ∧ slot < 2)
  | .limmLow k => decide (k < 32)
  | .limmHigh k => decide (k < 32)
  | .patternDescriptorReceive slot r _ => decide (slot < 256 ∧ rType r = 0xC6)
  | .patternVerify slot => decide (slot < 256)
  | .libraryActivate _ v => decide (v < 2 ^ 32)
  | .librarySwap => true
  | .replicaSweep g => decide (g < 2 ^ 40)
  | .replicaSweepDone g => decide (g < 2 ^ 40)
  | .replicaCompare g n => decide (g < 256 ∧ n < 2 ^ 32)
  | .replicaCompareDeadline g n => decide (g < 256 ∧ n.num < 2 ^ 32) && (n.agreed.getD []).all fun x => decide (x < 2 ^ 32)
  | .provenanceComplete stream cmdid => decide (stream < 16 ∧ cmdid < 2 ^ 64)
  | .provenanceTimeout stream cmdid => decide (stream < 16 ∧ cmdid < 2 ^ 64)
  | .taintOrder gid group _ cause _ _ _ => decide (gid < 2 ^ 32 ∧ group < 256 ∧ (cause = 1 ∨ cause = 2))
  | .taintNoticeForm _ => true
  | .taintFollowUp _ => true
  | .cutLatch => true
  | .icdonCutLatch => true
  | .cutHaltHoldEnd n => decide (n < 2 ^ 32)
  | .cutSummary n => decide (n.num < 2 ^ 32) && (n.lead.getD []).all fun x => decide (x.2 < 2 ^ 28)
  | .heartbeatSend => true
  | .heartbeatReceive link r => decide (link ≤ 65 ∧ rType r = 0xE0)
  | .heartbeatSilence link => decide (link ≤ 65)
  | .quorumQuery asker lead term => decide (asker < 2 ^ 32 ∧ lead < 2 ^ 32 ∧ term < 2 ^ 16)
  | .quorumVote witness _ => decide (witness < 2 ^ 32)
  | .quorumRetry => true
  | .quorumDeadline => true
  | .leadHandover _ => true
  | .handoverBoundary _ => true
  | .resyncStart => true
  | .resyncCopyDone => true
  | .resyncReceiveDone _ => true
  | .resyncOverrun => true
  | .twinWriteApply _ _ _ down _ => down.all fun d => decide (d.1 < 2 ^ 32)
  | .twinWriteAckTimeout _ => true
  | .failedRemoveHold slot => decide (slot < 64)
  | .childRemoveHold port => decide (port < 64)
  | .partitionOpProcess => true
  | .partitionOpApply r _ => decide (rType r = 0xE3)
  | .partitionDrainEnd part => decide (part < 2 ^ 16)
  | .partitionSealed part gid => decide (part < 2 ^ 16 ∧ gid < 2 ^ 32)
  | .partitionQuarantineEnd part => decide (part < 2 ^ 16)
  | .broadcastChunk r _ => decide (rType r = 0xE4)
  | .broadcastResendRequest port _ _ => decide (port < 64)
  | .broadcastStatus port r => decide (port < 64 ∧ rType r = 0xE5)
  | .broadcastTimeout id => decide (id < 2 ^ 32)
  | .queueSample => true
  | .queueHistogram => true
  | .bulkDefer r => decide (r.length = 3)
  | .bulkDeferEffective => true
  | .deferRangeResend => true
  | .resumeWindow => true
  | .decimationReceive link r => decide (link ≤ 64 ∧ r.length = 3)
  | .shaperWrite _ k v => decide (k < 2 ^ 24 ∧ v < 2 ^ 64)
  | .patrolRead verdict symbol => decide (verdict < 3 ∧ symbol < 36)
  | .rowRetire _ v => decide (v < 2 ^ 32)
  | .bankRetire _ v => decide (v < 2 ^ 16)
  | .bankCopyDone stack => decide (stack < 20)
  | .eventPost src _ => decide ((0x010 ≤ src ∧ src ≤ 0x0AF) ∨ (0x200 ≤ src ∧ src ≤ 0x5FF))
  | .levelSourceRise src => decide (0x100 ≤ src ∧ src ≤ 0x14D)
  | .completion _ v => decide (v < 2 ^ 32)
  | .softPost _ v => decide (v < 2 ^ 16)
  | .softPriv _ v => decide (v < 2 ^ 8)
  | .privilegedSource p _ => decide (p < 16)
  | .consumerWrite _ n v => decide (n < 64 ∧ v < 2 ^ 32)
  | .queueControlWrite _ n _ v => decide (n < 64 ∧ v < 2 ^ 64)
  | .errorClose _ v => decide (v < 2 ^ 64)
  | .observeOnlyExit _ v => decide (v < 2 ^ 8)
  | .recorderWrite _ v => decide (v < 2 ^ 64)
  | .recorderSummary => true
  | .recorderCursor _ v => decide (v < 2 ^ 64)
  | .recorderClearArm _ v => decide (v < 2 ^ 64)
  | .recorderClear _ v => decide (v < 2 ^ 64)
  | .recorderClearArmExpiry => true
  | .vfBind _ vf part => decide (1 ≤ vf ∧ vf ≤ 256 ∧ part < 2 ^ 16)
  | .ideQuery _ vf => decide (vf ≤ 256)
  | .keyProg _ vf set half key => decide (vf ≤ 256 ∧ set < 2 ∧ half < 2 ∧ key < 2 ^ 256)
  | .kSetGo _ vf set => decide (vf ≤ 256 ∧ set < 2)
  | .kSetStop _ vf set => decide (vf ≤ 256 ∧ set < 2)
  | .ideIntegrityFail vf => decide (vf ≤ 256)
  | .getTdispVersion vf => decide (1 ≤ vf ∧ vf ≤ 256)
  | .getTdispCapabilities vf => decide (1 ≤ vf ∧ vf ≤ 256)
  | .lockInterfaceRequest vf => decide (1 ≤ vf ∧ vf ≤ 256)
  | .getDeviceInterfaceReport vf => decide (1 ≤ vf ∧ vf ≤ 256)
  | .getDeviceInterfaceState vf => decide (1 ≤ vf ∧ vf ≤ 256)
  | .startInterfaceRequest vf => decide (1 ≤ vf ∧ vf ≤ 256)
  | .stopInterfaceRequest vf => decide (1 ≤ vf ∧ vf ≤ 256)
  | .getVersion b => decide (b < 2)
  | .getCapabilities b => decide (b < 2)
  | .negotiateAlgorithms b _ => decide (b < 2)
  | .getDigests b => decide (b < 2)
  | .getCertificate b slot _ _ => decide (b < 2 ∧ slot < 8)
  | .challenge b slot nonce => decide (b < 2 ∧ slot < 8 ∧ nonce < 2 ^ 256)
  | .getMeasurements b index _ nonce => decide (b < 2 ∧ index < 256 ∧ nonce < 2 ^ 256)
  | .keyExchange b => decide (b < 2)
  | .finish b _ _ => decide (b < 2)
  | .spdmHeartbeat b _ => decide (b < 2)
  | .keyUpdate b _ => decide (b < 2)
  | .endSession b _ => decide (b < 2)
  | .respondIfReady b _ => decide (b < 2)
  | .heladIdentityResponse slot key _ => decide (slot < 64 ∧ 0 < key)
  | .credentialWrite _ key _ => decide (0x5A1001 ≤ key ∧ key ≤ 0x5A1240)
  | .auditSealAgree _ _ => true
  | .auditSealForm _ => true
  | .auditRack _ => true
  | .read _ items => decide (items.length ≤ 64)
  | .write _ items _ => decide (items.length ≤ 64)
  | .windowRead _ off len => decide (off < 2 ^ 16 ∧ len < 2 ^ 16)
  | .descriptor _ _ => true
  | .subscribe _ id _ mask => decide (id < 256 ∧ mask < 2 ^ 256)
  | .registerWrite _ _ key _ _ => decide (key < 2 ^ 24)
  | .wideRead _ key => decide (key < 2 ^ 24)
  | .wideWriteCommit _ key lo _ _ => decide (key < 2 ^ 24 ∧ lo < 2 ^ 32)
  | .proxyRequest _ gid _ _ _ _ _ _ => decide (gid < 2 ^ 32)
  | .proxyTimeout _ => true
  | .stageStart _ v _ _ => decide (v < 256)
  | .stageComplete _ => true
  | .activate _ gid => decide (gid < 2 ^ 32)
  | .activationSwitch => true
  | .activationDone => true
  | .imageConfirm _ gid => decide (gid < 2 ^ 32)
  | .confirmTimeout => true
  | .rouseArm _ n v _ => decide (n < 16 ∧ v < 2 ^ 64)
  | .fabricLinkUp port peer role _ state _ => decide (port < 16 ∧ peer < 2 ^ 32 ∧ role < 4 ∧ state < 8)
  | .haltAckFall g => decide (g < 64)
  | .receiverAdaptationDone slot twin => decide (slot < 64 ∧ twin < 2 ^ 32)
  | .steepDeliveryEntry g c _ => decide (g < 8 ∧ c < 64)
  | .pcieLinkDown => true
  | .dtlsHandshake port _ => decide (port < 2)

end Sys2Proof
end

