-- ==== Sys2Proof/Tests/Slice0.lean ====
section
/-! SUPPORT. Small tests: commands with an operand outside its form, worked examples of the spec, and for every statement states and operands that meet its hypotheses. -/

namespace Sys2Proof.Tests

open Sys2Proof.Machine

set_option maxRecDepth 20000
set_option Elab.async false
set_option linter.unusedVariables false

/-! ### Helpers -/

/-- A reset block with these objects set at the Helad and at the Icdon IX40. -/
def st (h c : List (Nat × Nat)) : State := { State.reset with hd := dictCanon .hel h, cd := dictCanon .icd c }
/-- The same with slot 0 ACTIVE. -/
def stp (h c : List (Nat × Nat)) : State := st ((O.SlotNumber, 0) :: h) ((O.SlotState, 2) :: c)
/-- The same at an FT of both parts. -/
def atFt (x : Nat) (s : State) : State := { s with tm := { s.tm with hc := { s.tm.hc with ft := x }, ic := { s.tm.ic with ft := x } } }
/-- The same with every Helad domain awake. -/
def up (s : State) : State := { s with bd := { s.bd with dom := [(1, 2), (2, 2), (3, 2), (4, 2), (5, 2)] } }
/-- An operator in session 1. -/
def qs : Req := ⟨.op, 0, .session 1, 7⟩
/-- A maintainer in session 1. -/
def qm : Req := ⟨.mt, 0, .session 1, 7⟩
/-- An operator on ring 1. -/
def qr : Req := ⟨.op, 0, .ring 1, 7⟩
/-- A device. -/
def qd : Req := ⟨.op, 0, .device 9, 7⟩
/-- What a good start finds. -/
def pu0 : PowerUp := ⟨true, true, 9, 1, 9, 1, some (1, 7), some (1, 7), none, 0, 0, [], []⟩
/-- A write that finds it. -/
def env0 : WriteEnv := ⟨pu0, true, [], 0, 0, false⟩
/-- Core 5 (group 1, RUNNING) at the bundle in its first eight bytes of code, with the registers and effects given. -/
def sc (w0 w1 : Nat) (regs : List (Nat × Nat)) (es : List SEff) : SCore :=
  ⟨0, (regs.foldl (fun r p => tset r p.1 p.2) []), memWrite 64 (natBytes 8 0x1122334455667788) (memWrite 0 (natBytes 4 w0 ++ natBytes 4 w1) []), [], es, none, [], 0, none⟩
/-- A Steep image header: 64 bytes of code and of data, contexts of 64 bytes, a ring of 4096. -/
def simg : Rec := mkRec 0xB2 8 0 0 0 0 [(144, 16, 1), (168, 16, 64), (192, 32, 64), (224, 32, 64), (256, 32, 4096)]
/-- Core 5 in its running group. -/
def scst (c : SCore) : State :=
  let s := st [] [(kState 17, 1)]
  { s with ma := { s.ma with units := [(17, { Feed.new with img := simg })] }, sp := { s.sp with cores := [(5, c)] } }
/-- The same with an EPOCH image. -/
def scse (c : SCore) : State :=
  let s := st [] [(kState 17, 1)]
  { s with ma := { s.ma with units := [(17, { Feed.new with img := mkRec 0xB2 8 0 0 0 0 [(136, 1, 1), (144, 16, 1), (168, 16, 64), (192, 32, 64), (224, 32, 64), (256, 32, 4096)] })] }, sp := { s.sp with cores := [(5, c)] } }
/-- A NOP has executed in a slot. -/
def nopIn (slot : Nat) : List SEff := [{ effRegs [] with slot := slot }]

/-! ### Ill-formed commands -/

/-- Commands of chapter 02 each with one operand outside its form are refused. -/
theorem test_wf_02_time_0 :
    ([.syncTag .hel (.slot 0) 0 (mkRec 0x7F 4 0 0 0 0 []),
      .delayReq (.slot 0) 0 (mkRec 0x7F 4 0 0 0 0 []),
      .delayReq (.slot 0) 9 (mkRec 0x24 2 0 0 0 0 []),
      .rtTodSample (2 ^ 24),
      .timedActionReceive .hel ⟨2 ^ 32, 0, 0, 0, 0, 0, 0, 0⟩,
      .timedActionReceive .hel ⟨0, 7, 0, 0, 0, 0, 0, 0⟩,
      .actionCancel qs (2 ^ 32),
      .cancelReceive .hel (2 ^ 32),
      .pulseArm qs .hel (8) 0,
      .pulseArm qs .hel 0 (2 ^ 32),
      .pulseStart .hel (8),
      .pulseEdge .hel (8),
      .captureEdge .hel (8) true] : List Instr).all (fun c => !c.wf) = true := by
  decide +kernel

/-- Commands of chapter 03 each with one operand outside its form are refused. -/
theorem test_wf_03_boundary_0 :
    ([.readResponse (64) (List.replicate 64 0) true 0,
      .readResponse 0 (List.replicate 65 0) true 0,
      .readResponse 0 (List.replicate 64 0) true (4),
      .readTimeout (64),
      .fenceRequest (256),
      .fenceAckRise (256),
      .fenceRelease (256),
      .fenceAckFall (256),
      .fenceAckTimeout (256),
      .fenceEntryWrite qs (256) 0,
      .fenceEntryWrite qs 0 (2 ^ 64),
      .haltAckRise (64),
      .haltAckTimeout (64),
      .radioGroupRise (64),
      .pitchRunStart (256),
      .pitchResponse (256) 0 0,
      .pitchResponse 0 (8) 0,
      .pitchResponse 0 0 (2 ^ 64),
      .pitchTimeout (256),
      .pitchOutputChecked (256)] : List Instr).all (fun c => !c.wf) = true := by
  decide +kernel

/-- Commands of chapter 04 each with one operand outside its form are refused. -/
theorem test_wf_04_counters_0 :
    ([.tapIncrement (256) 0 0 0 none,
      .tapIncrement 0 (2 ^ 32) 0 0 none,
      .tapIncrement 0 0 (16) 0 none,
      .tapIncrement 0 0 0 (256) none,
      .conditionHoldExpiry (256),
      .commandStart (16) 0 0,
      .commandStart 0 (2 ^ 64) 0,
      .commandStart 0 0 (2 ^ 16),
      .commandEnd (16) 0 0 true,
      .commandEnd 0 (2 ^ 64) 0 true,
      .commandEnd 0 0 (2 ^ 16) true,
      .counterConfigWrite qs (4096) 0,
      .counterConfigWrite qs 0 (2 ^ 64),
      .counterClear qs (1 - 1) 0,
      .counterClear qs (128 + 1) 0,
      .counterClear qs 1 (2 ^ 32),
      .setCommit qs (256),
      .configCopyReadback (64) [] []] : List Instr).all (fun c => !c.wf) = true := by
  decide +kernel

/-- Commands of chapter 05 each with one operand outside its form are refused. -/
theorem test_wf_05_trace_0 :
    ([.tracePacket 64 [0] 0,
      .tracePacket 0 [] 0,
      .tracePacket 0 (List.replicate 257 0) 0,
      .tfDozeRise 0 (List.replicate 257 0),
      .tracePacket 0 [0] 1,
      .traceCadenceWrite qs (2 ^ 16),
      .traceBlockFlush (64),
      .tfDozeRise (64) [],
      .tfDozeFall (64),
      .seqEnable qs (256),
      .compFtInstant (8),
      .triggerCode (2 ^ 16)] : List Instr).all (fun c => !c.wf) = true := by
  decide +kernel

/-- Commands of chapter 06 each with one operand outside its form are refused. -/
theorem test_wf_06_lane_0 :
    ([.flitReceive (.slot 0) (List.replicate 17 0) true 0 true,
      .flitReceive (.slot 0) (List.replicate 16 0) false (16) true,
      .downstreamChannelLost (2),
      .fabricSkewHoldExpiry (.slot 0) (16),
      .lightDetect (64),
      .lossOfLight (64) true [],
      .fecFailCount (64) 1 true [],
      .fecFailCount 0 0 true [],
      .slotAssign (2) (mkRec 0x53 4 0 0 0 0 []),
      .slotAssign 0 (mkRec 0x7F 4 0 0 0 0 []),
      .trainDone 0 (mkRec 0x7F 4 0 0 0 0 []),
      .dozeSilentTimeout (64) true [],
      .slotReset qs (256),
      .retuneCommand 0 (mkRec 0x7F 4 0 0 0 0 []),
      .retuneAcquireTimeout (64) true,
      .spareTrainSlot qs (256),
      .revertSlot qs (256),
      .receiverAdaptationDone (64) 0,
      .receiverAdaptationDone 0 (2 ^ 32),
      .repairRequest (.slot 0) (16) [],
      .repairAnswer (.slot 0) (16) [],
      .repairHoldExpiry (.slot 0) (16)] : List Instr).all (fun c => !c.wf) = true := by
  decide +kernel

/-- Commands of chapter 07 each with one operand outside its form are refused. -/
theorem test_wf_07_package_0 :
    ([.fabricWavelengthFail (16) 0,
      .fabricWavelengthFail 0 (9),
      .d2dFatal (6),
      .cxlLinkFail (4),
      .thermalThreshold (36) 0,
      .thermalThreshold 0 (2 ^ 16),
      .thermalCritical (36),
      .throttleStep (2 ^ 32),
      .ringFetch [⟨0, 0, 6, 2 ^ 32, 0, 0, 0, true, 0⟩],
      .ringFetch [⟨0, 0, 6, 0, 0, 0, 2 ^ 32, true, 0⟩],
      .ringFetch [⟨0, 0, 5, 0, 0, 0, 0, true, 0⟩],
      .ringFetch [⟨0, 0, 17, 0, 0, 0, 0, true, 0⟩],
      .consumerAck 0 (2 ^ 32) []] : List Instr).all (fun c => !c.wf) = true := by
  decide +kernel

/-- Commands of chapter 08 each with one operand outside its form are refused. -/
theorem test_wf_08_grist_0 :
    ([.caskSeal { qs with tag := 2 ^ 32 } true true 0,
      .finingJob qs true (2 ^ 64) [],
      .ringDropRunEnd (128) 0,
      .ringDropRunEnd 0 (4),
      .chunkMaxAge (128) 0,
      .chunkMaxAge 0 (4),
      .postWindowEnd (2 ^ 32),
      .caskRelease qs (2 ^ 32),
      .tier2Free qs (2 ^ 32),
      .finingJobDone ⟨4, []⟩,
      .finingJobDone ⟨0, [2 ^ 40]⟩,
      .finingAbort qs (2 ^ 32) 0,
      .recordIngest (.slot 0) (16)] : List Instr).all (fun c => !c.wf) = true := by
  decide +kernel

/-- Commands of chapter 09 each with one operand outside its form are refused. -/
theorem test_wf_09_series_0 :
    ([.rebaseline qs (2 ^ 64),
      .stepRecord (mkRec 0x7F 4 0 0 0 0 []),
      .stepTimeout (2 ^ 16) 0 none] : List Instr).all (fun c => !c.wf) = true := by
  decide +kernel

/-- Commands of chapter 10 each with one operand outside its form are refused. -/
theorem test_wf_10_reduction_0 :
    ([.epochAnchor (mkRec 0x7F 4 0 0 0 0 []),
      .contributionReceive 64 (mkRec 0x90 4 0 0 0 0 []),
      .contributionReceive 0 (mkRec 0x91 4 0 0 0 0 []),
      .epochLengthWrite qs (2 ^ 32),
      .twinDigestSend 0 (2),
      .twinDigestCompare (mkRec 0x7F 4 0 0 0 0 []),
      .twinDigestAbsent 0 (2)] : List Instr).all (fun c => !c.wf) = true := by
  decide +kernel

/-- Commands of chapter 11 each with one operand outside its form are refused. -/
theorem test_wf_11_lauter_0 :
    ([.modelSwitch qs true (16) 0 0,
      .modelSwitch qs true 0 (8) 0,
      .modelSwitch qs true 0 0 (2 ^ 80),
      .modelImageComplete (8),
      .modelValidationDone (8),
      .slotClear qs (8) 0,
      .slotClear qs 0 (256),
      .lauterBindingWrite qs (16) 0,
      .lauterBindingWrite qs 0 (2 ^ 64),
      .vectorEnqueue (16),
      .batchClose (16) 0,
      .batchClose 0 (8),
      .batchStart (4) [],
      .batchDone (4),
      .stopEpochReceive (8) 0 0,
      .stopEpochReceive 0 0 (2 ^ 48),
      .slotRetireEnd (8)] : List Instr).all (fun c => !c.wf) = true := by
  decide +kernel

/-- Commands of chapter 12 each with one operand outside its form are refused. -/
theorem test_wf_12_mash_0 :
    ([.mashSwitch qs true (16) 0 0,
      .mashSwitch qs true 0 (256) 0,
      .mashSwitch qs true 0 0 (2 ^ 80),
      .mashRecord (16) 0 0,
      .mashRecord 0 (64) 0,
      .mashRecord 0 0 (3),
      .mashEpochEmit (16),
      .graphImageValidate (64),
      .imageClear qs true (64) 0,
      .imageClear qs true 0 (256),
      .regionLoadStart (16),
      .regionLoadDone (16),
      .regionRecordTimeout (16)] : List Instr).all (fun c => !c.wf) = true := by
  decide +kernel

/-- Commands of chapter 13 each with one operand outside its form are refused. -/
theorem test_wf_13_steepops_0 :
    ([.macq (32),
      .msuq (32),
      .mpyq (32),
      .macd (32),
      .msud (32),
      .mpyd (32),
      .narrow16 (32),
      .narrow24 (32),
      .narrow32 (32),
      .mova (32),
      .movxa (32),
      .clra (32),
      .ld16 (32) true,
      .ld16x (32) true,
      .ld32x (32) true,
      .ld64 (32) true,
      .ld24x (32) true,
      .ldd (32) true,
      .st16 (32),
      .st32 (32),
      .st64 (32),
      .st24 (32),
      .br (32),
      .loop (32),
      .loops (32),
      .next (32),
      .done (32),
      .emit (32) true,
      .add (32) 0,
      .add 0 (2)] : List Instr).all (fun c => !c.wf) = true := by
  decide +kernel

/-- Commands of chapter 13 each with one operand outside its form are refused. -/
theorem test_wf_13_steepops_1 :
    ([.sub (32) 0,
      .sub 0 (2),
      .adds (32) 0,
      .adds 0 (2),
      .subs (32) 0,
      .subs 0 (2),
      .andX (32) 0,
      .andX 0 (2),
      .orX (32) 0,
      .orX 0 (2),
      .xor (32) 0,
      .xor 0 (2),
      .shl (32) 0,
      .shl 0 (2),
      .shr (32) 0,
      .shr 0 (2),
      .sar (32) 0,
      .sar 0 (2),
      .min (32) 0,
      .min 0 (2),
      .max (32) 0,
      .max 0 (2),
      .mul (32) 0,
      .mul 0 (2),
      .abs (32) 0,
      .abs 0 (2),
      .mov (32) 0,
      .mov 0 (2),
      .cvtf (32) 0,
      .cvtf 0 (2)] : List Instr).all (fun c => !c.wf) = true := by
  decide +kernel

/-- Commands of chapter 13 each with one operand outside its form are refused. -/
theorem test_wf_13_steepops_2 :
    ([.aluiAdd (32) 0,
      .aluiAdd 0 (2),
      .aluiSub (32) 0,
      .aluiSub 0 (2),
      .aluiAdds (32) 0,
      .aluiAdds 0 (2),
      .aluiSubs (32) 0,
      .aluiSubs 0 (2),
      .aluiAnd (32) 0,
      .aluiAnd 0 (2),
      .aluiOr (32) 0,
      .aluiOr 0 (2),
      .aluiXor (32) 0,
      .aluiXor 0 (2),
      .aluiShl (32) 0,
      .aluiShl 0 (2),
      .aluiShr (32) 0,
      .aluiShr 0 (2),
      .aluiSar (32) 0,
      .aluiSar 0 (2),
      .aluiMin (32) 0,
      .aluiMin 0 (2),
      .aluiMax (32) 0,
      .aluiMax 0 (2),
      .pset (32) 0,
      .pset 0 (2),
      .nset (32) 0,
      .nset 0 (2),
      .padd (32) 0,
      .padd 0 (2)] : List Instr).all (fun c => !c.wf) = true := by
  decide +kernel

/-- Commands of chapter 13 each with one operand outside its form are refused. -/
theorem test_wf_13_steepops_3 :
    ([.movp (32) 0,
      .movp 0 (2),
      .movxp (32) 0,
      .movxp 0 (2),
      .movxn (32) 0,
      .movxn 0 (2),
      .cmpEq (32) 0,
      .cmpEq 0 (2),
      .cmpNe (32) 0,
      .cmpNe 0 (2),
      .cmpLt (32) 0,
      .cmpLt 0 (2),
      .cmpGe (32) 0,
      .cmpGe 0 (2),
      .cmpLtu (32) 0,
      .cmpLtu 0 (2),
      .cmpGeu (32) 0,
      .cmpGeu 0 (2),
      .nop (32) 0,
      .nop 0 (2),
      .movc (32) 0,
      .movc 0 (2),
      .movtc (32) 0,
      .movtc 0 (2),
      .limmLow (32),
      .limmHigh (32)] : List Instr).all (fun c => !c.wf) = true := by
  decide +kernel

/-- Commands of chapter 13 each with one operand outside its form are refused. -/
theorem test_wf_13a_steepctl_0 :
    ([.steepSwitch qs true (8) 0 0,
      .steepSwitch qs true 0 (256) 0,
      .steepSwitch qs true 0 0 (2 ^ 80),
      .groupLoadDone (8),
      .steepImageValidate (64),
      .steepEntryTimeout (32),
      .steepDeliveryEntry (8) 0 true,
      .steepDeliveryEntry 0 (64) true] : List Instr).all (fun c => !c.wf) = true := by
  decide +kernel

/-- Commands of chapter 14 each with one operand outside its form are refused. -/
theorem test_wf_14_silent_0 :
    ([.patternDescriptorReceive (256) (mkRec 0xC6 4 0 0 0 0 []) true,
      .patternDescriptorReceive 0 (mkRec 0x7F 4 0 0 0 0 []) true,
      .patternVerify (256),
      .libraryActivate qs (2 ^ 32),
      .replicaSweep (2 ^ 40),
      .replicaSweepDone (2 ^ 40),
      .replicaCompare (256) 0,
      .replicaCompare 0 (2 ^ 32),
      .replicaCompareDeadline (256) ⟨0, none⟩,
      .replicaCompareDeadline 0 ⟨2 ^ 32, none⟩,
      .replicaCompareDeadline 0 ⟨0, some [2 ^ 32]⟩,
      .provenanceComplete (16) 0,
      .provenanceComplete 0 (2 ^ 64),
      .provenanceTimeout (16) 0,
      .provenanceTimeout 0 (2 ^ 64),
      .taintOrder (2 ^ 32) 0 0 1 0 0 0,
      .taintOrder 0 256 0 1 0 0 0,
      .taintOrder 0 0 0 3 0 0 0,
      .replicaDefine qs (256) [],
      .patternStage qs (List.replicate 383 0) true] : List Instr).all (fun c => !c.wf) = true := by
  decide +kernel

/-- Commands of chapter 15 each with one operand outside its form are refused. -/
theorem test_wf_15_kiln_0 :
    ([.snapshotShiftComplete [] (2 ^ 16),
      .cutHaltHoldEnd (2 ^ 32),
      .cutSummary ⟨2 ^ 32, none⟩,
      .cutSummary ⟨0, some [(0, 2 ^ 28)]⟩,
      .haltAckFall (64),
      .cut qs true 0 (2 ^ 256) 0,
      .cut qs true 0 0 (2 ^ 32),
      .cutRelease qs true true 0 (2 ^ 32)] : List Instr).all (fun c => !c.wf) = true := by
  decide +kernel

/-- Commands of chapter 16 each with one operand outside its form are refused. -/
theorem test_wf_16_fleet_0 :
    ([.heartbeatReceive (65 + 1) (mkRec 0xE0 4 0 0 0 0 []),
      .heartbeatReceive 0 (mkRec 0x7F 4 0 0 0 0 []),
      .heartbeatSilence (65 + 1),
      .quorumQuery (2 ^ 32) 0 0,
      .quorumQuery 0 (2 ^ 32) 0,
      .quorumQuery 0 0 (2 ^ 16),
      .quorumVote (2 ^ 32) true,
      .failedRemoveHold (64),
      .childRemoveHold (64),
      .partitionOpApply (mkRec 0x7F 4 0 0 0 0 []) true,
      .partitionDrainEnd (2 ^ 16),
      .partitionSealed (2 ^ 16) 0,
      .partitionSealed 0 (2 ^ 32),
      .partitionQuarantineEnd (2 ^ 16),
      .broadcastChunk (mkRec 0x7F 4 0 0 0 0 []) true,
      .broadcastResendRequest (64) 0 [],
      .broadcastStatus (64) (mkRec 0xE5 4 0 0 0 0 []),
      .broadcastStatus 0 (mkRec 0x7F 4 0 0 0 0 []),
      .broadcastTimeout (2 ^ 32),
      .partitionCreate qs (2 ^ 16) true [],
      .partitionAdd qs (2 ^ 16) [],
      .partitionRemove qs (2 ^ 16) [],
      .partitionTeardown qs (2 ^ 16),
      .dieRemove qs true (2 ^ 32),
      .broadcast qs (List.replicate 383 0) true,
      .fabricLinkUp (16) 0 0 0 0 0,
      .fabricLinkUp 0 (2 ^ 32) 0 0 0 0,
      .fabricLinkUp 0 0 (4) 0 0 0,
      .fabricLinkUp 0 0 0 0 (8) 0] : List Instr).all (fun c => !c.wf) = true := by
  decide +kernel

/-- Commands of chapter 17 each with one operand outside its form are refused. -/
theorem test_wf_17_uplink_0 :
    ([.flitSchedule (80) 0,
      .flitSchedule 0 (9),
      .bulkDefer [0, 0],
      .decimationReceive (65) (mkRec 0x55 3 0 0 0 0 []),
      .shaperWrite qs (2 ^ 24) 0,
      .shaperWrite qs 0 (2 ^ 64)] : List Instr).all (fun c => !c.wf) = true := by
  decide +kernel

/-- Commands of chapter 18 each with one operand outside its form are refused. -/
theorem test_wf_18_memory_0 :
    ([.patrolRead (3) 0,
      .patrolRead 0 (36),
      .rowRetire qs (2 ^ 32),
      .bankRetire qs (2 ^ 16),
      .bankCopyDone (20)] : List Instr).all (fun c => !c.wf) = true := by
  decide +kernel

/-- Commands of chapter 19 each with one operand outside its form are refused. -/
theorem test_wf_19_irq_0 :
    ([.eventPost 0x0B0 [],
      .eventPost 0x600 [],
      .levelSourceRise (0x100 - 1),
      .levelSourceRise (0x14D + 1),
      .completion qs (2 ^ 32),
      .softPost qs (2 ^ 16),
      .softPriv qs (2 ^ 8),
      .privilegedSource (16) 0,
      .consumerWrite qs (64) 0,
      .consumerWrite qs 0 (2 ^ 32),
      .queueControlWrite qs (64) true 0,
      .queueControlWrite qs 0 true (2 ^ 64),
      .errorClose qs (2 ^ 64),
      .observeOnlyExit qs (2 ^ 8),
      .recorderWrite qs (2 ^ 64),
      .recorderCursor qs (2 ^ 64),
      .recorderClearArm qs (2 ^ 64),
      .recorderClear qs (2 ^ 64)] : List Instr).all (fun c => !c.wf) = true := by
  decide +kernel

/-- Commands of chapter 20 each with one operand outside its form are refused. -/
theorem test_wf_20_security_0 :
    ([.vfBind qs (1 - 1) 0,
      .vfBind qs (256 + 1) 0,
      .vfBind qs 1 (2 ^ 16),
      .ideQuery 0 (256 + 1),
      .keyProg 0 (256 + 1) 0 0 0,
      .keyProg 0 0 (2) 0 0,
      .keyProg 0 0 0 (2) 0,
      .keyProg 0 0 0 0 (2 ^ 256),
      .kSetGo 0 (256 + 1) 0,
      .kSetGo 0 0 (2),
      .kSetStop 0 (256 + 1) 0,
      .kSetStop 0 0 (2),
      .ideIntegrityFail (256 + 1),
      .getTdispVersion (1 - 1),
      .getTdispVersion (256 + 1),
      .getTdispCapabilities (1 - 1),
      .getTdispCapabilities (256 + 1),
      .lockInterfaceRequest (1 - 1),
      .lockInterfaceRequest (256 + 1),
      .getDeviceInterfaceReport (1 - 1),
      .getDeviceInterfaceReport (256 + 1),
      .getDeviceInterfaceState (1 - 1),
      .getDeviceInterfaceState (256 + 1),
      .startInterfaceRequest (1 - 1),
      .startInterfaceRequest (256 + 1),
      .stopInterfaceRequest (1 - 1),
      .stopInterfaceRequest (256 + 1),
      .getVersion (2),
      .getCapabilities (2),
      .negotiateAlgorithms (2) true] : List Instr).all (fun c => !c.wf) = true := by
  decide +kernel

/-- Commands of chapter 20 each with one operand outside its form are refused. -/
theorem test_wf_20_security_1 :
    ([.getDigests (2),
      .getCertificate (2) 0 0 0,
      .getCertificate 0 (8) 0 0,
      .challenge (2) 0 0,
      .challenge 0 (8) 0,
      .challenge 0 0 (2 ^ 256),
      .getMeasurements (2) 0 true 0,
      .getMeasurements 0 (256) true 0,
      .getMeasurements 0 0 true (2 ^ 256),
      .keyExchange (2),
      .finish (2) 0 true,
      .spdmHeartbeat (2) 0,
      .keyUpdate (2) 0,
      .endSession (2) 0,
      .respondIfReady (2) 0,
      .heladIdentityResponse (64) 1 true,
      .heladIdentityResponse 0 0 true,
      .credentialWrite qs (0x5A1001 - 1) 0,
      .credentialWrite qs (0x5A1240 + 1) 0,
      .dtlsHandshake (2) 0] : List Instr).all (fun c => !c.wf) = true := by
  decide +kernel

/-- Commands of chapter 22 each with one operand outside its form are refused. -/
theorem test_wf_22_power_0 :
    ([.inputLow (2 ^ 16),
      .inputRestored (2 ^ 16),
      .coldReset qs (2 ^ 32) true pu0,
      .warmReset qs (2 ^ 32) pu0,
      .watchdogExpiry (16) pu0,
      .domainReset qs (2 ^ 64),
      .domainIdleOff (96),
      .initDone qs (256),
      .fillSubmit qs (2 ^ 64),
      .recoveryData ⟨0, List.replicate 129 0⟩,
      .recoveryData ⟨2, List.replicate 128 0⟩,
      .recoveryCommit ⟨0, 256⟩ true true pu0,
      .recoveryCommit ⟨2, 1⟩ true true pu0,
      .domainWakeRequest (1 - 1) 0,
      .domainWakeRequest (5 + 1) 0,
      .domainWakeRequest 1 (2 ^ 16),
      .domainReady (1 - 1),
      .domainReady (5 + 1),
      .domainSleep (1 - 1) 0,
      .domainSleep (5 + 1) 0,
      .domainSleep 1 (2 ^ 16)] : List Instr).all (fun c => !c.wf) = true := by
  decide +kernel

/-- Commands of chapter 22 each with one operand outside its form are refused. -/
theorem test_wf_22b_update_0 :
    ([.stageStart qs (256) [] true,
      .activate qs (2 ^ 32),
      .imageConfirm qs (2 ^ 32),
      .rouseArm qs (16) 0 0,
      .rouseArm qs 0 (2 ^ 64) 0] : List Instr).all (fun c => !c.wf) = true := by
  decide +kernel

/-- Commands of chapter 23 each with one operand outside its form are refused. -/
theorem test_wf_23_mop_0 :
    ([.objectRead qs (2 ^ 32) none,
      .objectWrite qs (2 ^ 32) none none env0,
      .registerWrite qs .hel (2 ^ 24) 0 env0,
      .wideRead qs (2 ^ 24),
      .wideWriteCommit qs (2 ^ 24) 0 0 env0,
      .wideWriteCommit qs 0 (2 ^ 32) 0 env0,
      .proxyRequest 0 (2 ^ 32) .op true none [] env0 [],
      .read ⟨5, 1, false, none, false, 0, 3, 0⟩ (List.replicate 65 ⟨0, 0, 0, 0⟩),
      .write ⟨5, 1, false, none, false, 0, 3, 0⟩ (List.replicate 65 ⟨0, 0, 0, 0⟩) env0,
      .windowRead ⟨5, 1, false, none, false, 0, 3, 0⟩ (2 ^ 16) 0,
      .windowRead ⟨5, 1, false, none, false, 0, 3, 0⟩ 0 (2 ^ 16),
      .subscribe ⟨5, 1, false, none, false, 0, 3, 0⟩ (256) true 0,
      .subscribe ⟨5, 1, false, none, false, 0, 3, 0⟩ 0 true (2 ^ 256)] : List Instr).all (fun c => !c.wf) = true := by
  decide +kernel

/-! ### Worked examples of the spec -/

/-- R217: the CRC-64 of the ASCII bytes "123456789". -/
theorem test_crc64_check_value : crc64 [0x31, 0x32, 0x33, 0x34, 0x35, 0x36, 0x37, 0x38, 0x39] = 0x995DC9BBDF1939FA := by
  decide +kernel

/-- R220, "Worked example: three residues": 10, -3 and 130 at K_INIT 4 take 33 bits. -/
theorem test_rice_three_residues : (riceEncode 16 1 [10, ofS 64 (-3), 130]).1 = 33 := by
  decide +kernel

/-- R220, the same example: the adaptive state before each word and its k. -/
theorem test_rice_states : (riceK 16 1, riceNext 16 1 20, riceK 36 2, riceNext 36 2 5, riceK 41 3) = (4, (36, 2), 5, (41, 3), 4) := by
  decide +kernel

/-- R222: what the three residues code decodes back. -/
theorem test_rice_decodes :
    (riceDecode 3 16 1 33 (riceEncode 16 1 [10, ofS 64 (-3), 130]).2).map (·.1) = some [10, ofS 64 (-3), 130] := by
  decide +kernel

/-- Chapter 13, "Worked example: a four-channel filter": slot 0 of bundle K is a MACQ under guard 9, slot 1 an LDD under guard 8. -/
theorem test_steep_bundle_K :
    let c := sc 0x0C450039 0x01211558 [] []
    (bits (c.slotWord 0) 0 4, bits (c.slotWord 1) 0 4, bits (c.slotWord 0) 4 4, bits (c.slotWord 1) 4 4) = (9, 8, 3, 5) := by
  decide +kernel

/-- Chapter 10, "Worked example: five values in two trays": the merged accumulator is 2 + 2^-30 and rounds to 2.0. -/
theorem test_exact_sum :
    (rround false ([0x4B800000, 0x3F800000, 0x3F800000, 0xCB800000, 0x30800000].foldl (fun a v => rfold 0 v 0 0 false a) (rzero 0 3))).1 = 0x40000000 := by
  decide +kernel

/-- The model of chapter 11, "Worked example: three vectors through a small model", in slot 2. -/
def lauterNode (th f l r flags cs : Nat) : List Nat :=
  natBytes 16 (packFields [(0, 32, th), (32, 16, f), (48, 24, l), (72, 24, r), (96, 8, flags), (104, 24, cs)])

/-- Its state: header, tree table, nodes and category set 0. -/
def lauterState : State :=
  let s := st [] []
  let m := memWrite (s.setBase 2) (natBytes 128 (packFields [(136, 8, 1), (160, 32, 3), (192, 32, 11), (224, 32, 3), (256, 32, 1), (512, 32, 0xBFC00000)])) []
  let m := memWrite (s.setBase 2 + 4096) (natBytes 24 (packFields [(0, 24, 0), (24, 24, 5), (64, 24, 5), (88, 24, 3), (128, 24, 8), (152, 24, 3)])) m
  let m := memWrite (s.setBase 2 + 528384) (natBytes 32 (2 ^ 3 + 2 ^ 7 + 2 ^ 200)) m
  let m := memWrite (s.nodeBase 2)
    (lauterNode 0x3F000000 0 1 2 0 0 ++ lauterNode 0x3E800000 0 0 0 1 0 ++ lauterNode 0 2 3 4 6 0 ++ lauterNode 0x3F800000 0 0 0 1 0 ++
     lauterNode 0x40000000 0 0 0 1 0 ++ lauterNode 0 1 6 7 0x1A 0 ++ lauterNode 0xBE000000 0 0 0 1 0 ++ lauterNode 0x3F400000 0 0 0 1 0 ++
     lauterNode 0x3F000000 0 9 10 6 0 ++ lauterNode 0x32800000 0 0 0 1 0 ++ lauterNode 0xBF000000 0 0 0 1 0) m
  { s with me := { s.me with t1 := m } }

/-- A FeatureVectorRecord of three features. -/
def lauterVec (f0 f1 f2 miss : Nat) : Rec := mkRec 0xA2 4 0 5 0 0 [(352, 32, 3), (384, 32, f0), (416, 32, f1), (448, 32, f2), (480, 3, miss)]

/-- SCORE[0] of a vector and whether a default was taken. -/
def lauterScore (r : Rec) : List Nat × Bool := let w := lauterState.walkAll 2 r; (w.1.map fun a => (rround false a).1, w.2.1)

/-- Nodes 0 and 5 are stored as the example writes them (R278, R279). -/
theorem test_lauter_node_words :
    (lauterState.node 2 0, lauterState.node 2 5) =
      (0x0000000000000200 * 2 ^ 64 + 0x000100003F000000, 0x0000001A00000700 * 2 ^ 64 + 0x0006000100000000) := by
  decide +kernel

/-- V0 scores 0.25: minus zero is not above plus zero, and the tie rounds to even. -/
theorem test_lauter_V0 : lauterScore (lauterVec 0x3F000000 7 0x80000000 0) = ([0x3E800000], false) := by
  decide +kernel

/-- V1 scores -1.0 by defaults. -/
theorem test_lauter_V1 : lauterScore (lauterVec 0x7FC00000 9 0x3F800000 2) = ([0xBF800000], true) := by
  decide +kernel

/-- V2 scores -0.125: the smallest subnormal is above zero. -/
theorem test_lauter_V2 : lauterScore (lauterVec 0x7F800000 300 1 0) = ([0xBE000000], false) := by
  decide +kernel

/-- No word spells a command, as the table gives no row a word. -/
theorem test_decode_none : decodeTableWord 32 0x01211558 = none := rfl

/-! ### Hypotheses that are met -/

/-- A signature block with the four conditions of R490 is accepted. -/
theorem signed_of {s : State} {k : Nat} {blk : List Nat} (h1 : s.signerOk k blk = true) (h2 : (blk.drop 16).take 16 = s.signerKeyId (blk.getD 1 0)) :
    s.signed k true blk = true := by
  simp [State.signed, h1, h2]

theorem witness_StepTakesTheFrontCommand :
  (let s : State := { st [] [] with pending := [.rtPulse, .hvFtnowLatch] }; s.pending = .rtPulse :: [.hvFtnowLatch]) ∧
  (let s := st [] []; s.pending = []) := by
  decide +kernel

theorem witness_EveryCommandCompletes :
  (let s : State := { st [] [] with pending := [.rtPulse, .hvFtnowLatch] }; s.pending = .rtPulse :: [.hvFtnowLatch]) ∧
  (let s := st [] []; s.pending = []) := by
  decide +kernel

theorem witness_StepKeepsCanonicalForm :
  (let s : State := { st [(O.SlotNumber, 5)] [] with pending := [.rtPulse] }; s.dictsWf ∧ s.memsWf ∧ (match step s with | .next _ => true | _ => false) = true)  := by
  decide +kernel

theorem witness_FtNeverDecreases :
  (let s : State := { st [] [] with pending := [.rtPulse] }; s.pending.head? ≠ some .haoReset ∧ (match step s with | .next _ => true | _ => false) = true) := by
  decide +kernel

theorem witness_MemoryReadsBackWrites :
  (let m : List Host.Cell := [(5, 7#8), (9, 1#8)]; let bs := [255, 0, 3]; Memory.wf m = true ∧ (∀ b ∈ bs, b < 256)) ∧
  (let m : List Host.Cell := [(5, 7#8), (9, 1#8)]; let bs := [255, 0, 3]; let a := 6; let c := 9; Memory.wf m = true ∧ (c < a ∨ a + bs.length ≤ c)) ∧
  (let m : List Host.Cell := [(5, 7#8), (9, 1#8)]; Memory.wf m = true) := by
  decide +kernel

theorem witness_ApexOnlyWrites :
  (let s := st [] []; let q := qm; let k := O.EpochLength; (objSpec k).any (fun o => o.apex && o.acc q.role != .none && o.acc q.role != .ro) = true ∧ (q.role = .tp → False) ∧ s.apexLead = false) ∧
  (let s := st [] []; let q := qm; let it : Item := ⟨O.EpochLength, 3, 4, 2000⟩; (objSpec it.key).any (fun o => o.apex && o.acc q.role != .none && o.acc q.role != .ro) = true ∧ holds .icd it.key = true ∧ s.apexLead = false) ∧
  (let s := st [] [(O.RoleActive, 3), (O.TwinState, 2)]; let q := qm; (objSpec O.EpochLength).any (fun o => o.apex && o.acc q.role != .none && o.acc q.role != .ro) = true ∧ s.apexLead = true) ∧
  (let q : Req := { qm with who := .pf, role := .op }; (objSpec O.EpochLength).any (fun o => o.apex && o.acc q.role != .none) = true ∧ holds .icd O.EpochLength = true ∧ q.who = .pf) := by
  decide +kernel

theorem witness_GuardRegion :
  (let s := st [(inst O.GuardEnable 7, 1), (O.RtState, 2)] []; s.dictsWf ∧ s.h (inst O.GuardEnable 7) = 1 ∧ s.h O.RtState = 2) ∧
  (let s := st [(inst O.GuardEnable 7, 1), (O.RtState, 3)] []; s.h (inst O.GuardEnable 7) = 1 ∧ s.h O.RtState = 3) ∧
  (let s := st [(O.RtState, 3)] []; ∀ n, n < 8 → s.h (inst O.GuardEnable n) ≠ 1) := by
  decide +kernel

theorem witness_TimeExchange :
  (let s : State := atFt 5000 (st [] [(O.SyncInterval, 0)]); let n : Nat := 3; (((tget s.tm.tagAt (waveNum (.slot n) 0)).all fun x => decide (x + ns (s.i O.SyncInterval) ≤ s.ft .icd)) = true) ∧ (s.pk.dark_ = false)) ∧
  (let s : State := (fun s => { s with pk := { s.pk with use := [(0, 1)] } }) (st [] [(O.TwinState, 6), (O.SyncInterval, 0)]); let n : Nat := 0; let p : Nat := 0; let w : Nat := 0; (((tget s.tm.tagAt (waveNum (.down n) w)).all fun x => decide (x + ns (s.i O.SyncInterval) ≤ s.ft .icd)) = true) ∧ (s.isLead = true) ∧ (s.downLinks.contains n = true) ∧ (s.linkPort n = some p) ∧ ((s.downWaves p n).contains w = true) ∧ (s.pk.dark_ = false)) ∧
  (let s : State := st [] []; let n : Nat := 3; let w : Nat := 0; (s.isLead = false)) ∧
  (let s : State := up (st [(O.LaneState, 2), (O.SelectedChannel, 0)] []); let n : Nat := 0; let r : Rec := State.iRec (st [] []) 0x23 4 0 0 [(128, 128, 77)]; (s.isMaster .hel (.chan n) = true) ∧ (s.h O.LaneState = 2) ∧ ((s.tm.hc.master = 0 ∨ s.tm.hc.master = rSrc r)) ∧ (s.tm.hc.pend = none) ∧ (s.bd.hmainReset = false)) ∧
  (let s : State := st [] []; let u : Side := .icd; let l : Link := .slot 4; let w : Nat := 1; let r : Rec := []; ((s.isMaster u l = false ∨ (u = .hel ∧ s.bd.hmainReset = true)))) ∧
  (let s : State := st [] []; let l : Link := .slot 4; let w : Nat := 1; let r : Rec := [5]; (s.dictsWf)) := by
  refine ⟨?_, ?_, ?_, ?_, ?_, ?_⟩ <;> decide +kernel

theorem witness_TimeServoAndRoot :
  (let s : State := (fun s => { s with tm := { s.tm with hc := { s.tm.hc with ft := 2 ^ 50, thetas := [-40000, -50000] } } }) (st [(O.FtState, 0)] []); let u : Side := .hel; ((s.clk u).servoAt + ms 1 ≤ s.ft u) ∧ ((u = .icd → s.apexLead = false)) ∧ ((s.clk u).thetas ≠ []) ∧ (s.ob u O.FtState = 0)) ∧
  (let s : State := (fun s => { s with tm := { s.tm with hc := { s.tm.hc with ft := 2 ^ 50, thetas := [-(2 ^ 70)] } } }) (st [(O.FtState, 2)] []); let u : Side := .hel; ((s.clk u).servoAt + ms 1 ≤ s.ft u) ∧ ((u = .icd → s.apexLead = false)) ∧ ((s.clk u).thetas ≠ []) ∧ (s.ob u O.FtState = 2) ∧ (ns (s.ob u O.StepForwardThreshold) < (Int.toNat (-meanI (s.clk u).thetas)) / 1000)) ∧
  (let s : State := (fun s => { s with tm := { s.tm with ic := { s.tm.ic with ft := 2 ^ 50, thetas := [4000] } } }) (st [] [(O.FtState, 2)]); let u : Side := .icd; ((s.clk u).servoAt + ms 1 ≤ s.ft u) ∧ ((u = .icd → s.apexLead = false)) ∧ ((s.clk u).thetas ≠ []) ∧ (s.ob u O.FtState = 2) ∧ ((Int.toNat (-meanI (s.clk u).thetas)) / 1000 ≤ ns (s.ob u O.StepForwardThreshold))) ∧
  (let s : State := (fun s => { s with tm := { s.tm with hc := { s.tm.hc with ft := 2 ^ 50, thetas := [4000], good := 15 } } }) (st [(O.FtState, 1)] []); let u : Side := .hel; ((s.clk u).servoAt + ms 1 ≤ s.ft u) ∧ ((u = .icd → s.apexLead = false)) ∧ ((s.clk u).thetas ≠ []) ∧ (s.ob u O.FtState = 1) ∧ (15 ≤ (s.clk u).good) ∧ ((psOf (meanI (s.clk u).thetas)).natAbs ≤ s.ob u O.LockThreshold)) ∧
  (let s : State := (fun s => { s with tm := { s.tm with hc := { s.tm.hc with ft := 2 ^ 60, lockRate := 77 } } }) (st [(O.FtState, 2)] []); let u : Side := .hel; ((if u = .hel ∧ s.dozing = false then max (s.clk u).lastTag (tgetD s.bd.wakeAt 1 0) else (s.clk u).lastTag) + us (s.ob u O.HoldoverTimeout) + (if u = .hel ∧ s.dozing = true then ms (s.h O.DozeSyncLimit) else 0) ≤ s.ft u) ∧ (((u = .icd → s.apexLead = false))) ∧ ((s.ob u O.FtState = 2 ∨ s.ob u O.FtState = 4))) ∧
  (let s : State := (fun s => { s with tm := { s.tm with hc := { s.tm.hc with ft := 2 ^ 60, lockRate := 77 } } }) (st [(O.FtState, 1)] []); let u : Side := .hel; ((if u = .hel ∧ s.dozing = false then max (s.clk u).lastTag (tgetD s.bd.wakeAt 1 0) else (s.clk u).lastTag) + us (s.ob u O.HoldoverTimeout) + (if u = .hel ∧ s.dozing = true then ms (s.h O.DozeSyncLimit) else 0) ≤ s.ft u) ∧ (((u = .icd → s.apexLead = false))) ∧ (s.ob u O.FtState = 1)) ∧
  (let s : State := atFt (2 ^ 60) (st [(O.LaneState, 2)] []); (s.domState 1 = 0) ∧ (s.bd.hmainReset = false ∧ s.bd.haoReset = false) ∧ (s.bd.syncLeft = 0) ∧ ((s.h O.LaneState = 0 ∨ s.tm.hc.lastTag + ms (s.h O.DozeSyncLimit) ≤ s.tm.hc.ft))) ∧
  (let s : State := st [] [(O.RoleActive, 3)]; let c : List Nat := [2 ^ 44, 5]; (s.i O.RoleActive = 3) ∧ (s.tm.rootOn = false)) ∧
  (let s : State := atFt (2 ^ 60) (st [] [(O.RoleActive, 3), (O.TwinState, 6)]); (s.apexLead = true) ∧ (s.tm.savedFt = none ∨ s.tm.savedAt + ns 1000000000 ≤ s.ft .icd)) ∧
  (let s : State := st [(O.OhSeconds, 41)] []; let u : Side := .hel; ((u = .hel → s.bd.haoReset = false))) ∧
  (let s : State := st [] [(O.RoleActive, 3), (O.TwinState, 6), (O.LeapSeconds, 37)]; let q : Req := qr; let utc : Nat := 2 ^ 60; let ft : Nat := 2 ^ 40; (s.AcceptsDesc q) ∧ (s.apexLead = true)) := by
  refine ⟨?_, ?_, ?_, ?_, ?_, ?_, ?_, ?_, ?_, ?_, ?_⟩ <;> decide +kernel

theorem witness_RadioTime :
  (let s : State := atFt 99 (st [] []); (s.bd.haoReset = false)) ∧
  (let s : State := (fun s => { s with tm := { s.tm with rt := { s.tm.rt with fresh := true, run := 3 } } }) (atFt (2 ^ 40) (st [] [])); let tod : Nat := 5; (s.tm.rt.fresh = true) ∧ (s.tm.rt.pulse.getD 0 + ns 100 ≤ s.ft .hel) ∧ (bit tod 21 = false)) ∧
  (let s : State := st [] []; let tod : Nat := 5; ((s.tm.rt.fresh = false ∨ s.ft .hel < s.tm.rt.pulse.getD 0 + ns 100))) ∧
  (let s : State := (fun s => { s with tm := { s.tm with rt := { s.tm.rt with fresh := true, run := 3, sfn := 4 } } }) (atFt (2 ^ 40) (st [] [])); let tod : Nat := 5 + 2 ^ 21 + 2 ^ 20; (s.tm.rt.fresh = true) ∧ (s.tm.rt.pulse.getD 0 + ns 100 ≤ s.ft .hel) ∧ (bit tod 21 = true) ∧ ((s.tm.rt.named = none ∨ (s.tm.rt.jumped = false ∧ bits tod 0 10 = (s.tm.rt.sfn + s.framesTo (s.tm.rt.pulse.getD 0)) % 1024))) ∧ (s.tm.rt.sinceMap < 100)) ∧
  (let s : State := (fun s => { s with tm := { s.tm with rt := { s.tm.rt with fresh := true, run := 3, sfn := 9, jumped := true, named := some 5 } } }) (atFt (2 ^ 40) (st [] [])); let tod : Nat := 5 + 2 ^ 21 + 2 ^ 20; (s.tm.rt.fresh = true) ∧ (s.tm.rt.pulse.getD 0 + ns 100 ≤ s.ft .hel) ∧ (bit tod 21 = true) ∧ (s.tm.rt.named ≠ none) ∧ ((s.tm.rt.jumped = true ∨ bits tod 0 10 ≠ (s.tm.rt.sfn + s.framesTo (s.tm.rt.pulse.getD 0)) % 1024))) ∧
  (let s : State := atFt (2 ^ 60) ((fun s => { s with tm := { s.tm with rt := { s.tm.rt with pulse := some 5 } } }) (st [(O.RtState, 1)] [])); let p : Nat := 5; (s.tm.rt.pulse = some p) ∧ (s.h O.RtState = 1) ∧ (p + frameFt + us 1 < s.ft .hel)) ∧
  (let s : State := atFt (2 ^ 80) (st [(O.RtState, 2)] []); (s.h O.RtState = 2) ∧ (s.tm.rt.holdFrom + s.h O.RtHoldoverLimit * frameFt < s.ft .hel)) ∧
  (let s : State := st [(O.GuardEnable, 1)] []; (s.inDrain (s.ft .hel) = true)) ∧
  (let s : State := st [] []; (s.inGuard (s.ft .hel) = false) ∧ (s.inDrain (s.ft .hel) = false) ∧ (s.condUnits = []) ∧ (s.si.hel.deferred = [])) := by
  refine ⟨?_, ?_, ?_, ?_, ?_, ?_, ?_, ?_, ?_⟩ <;> decide +kernel

theorem witness_TimedActions :
  (let s : State := st [] []; let u : Side := .icd; let a : ActionIn := ⟨5, 6, 2 ^ 50, 0, 0, 0, O.EpochLength, 50⟩; (s.ft u ≤ a.at_) ∧ ((s.acts u).length < actCap u)) ∧
  (let s : State := atFt (2 ^ 51) (st [] []); let a : ActionIn := ⟨5, 6, 2 ^ 50, 0, 0, 0, O.EpochLength, 50⟩; (a.at_ < s.ft .hel)) ∧
  (let s : State := (fun s => { s with tm := { s.tm with hActs := List.replicate 64 ⟨1, 6, 2 ^ 50, 0, 0, 0, 0, 0, false, false, 0⟩ } }) (st [] []); let a : ActionIn := ⟨5, 6, 2 ^ 50, 0, 0, 0, O.EpochLength, 50⟩; (s.ft .hel ≤ a.at_) ∧ (64 ≤ (s.acts .hel).length)) ∧
  (let s : State := (fun s => { s with tm := { s.tm with iActs := [⟨9, 6, 2 ^ 50, 0, 0, 0, O.EpochLength, 50, false, false, 0⟩] } }) (st [] []); let q : Req := qr; let h : Nat := 9; let a : Act := ⟨9, 6, 2 ^ 50, 0, 0, 0, O.EpochLength, 50, false, false, 0⟩; (askedByRing q = true) ∧ (s.AcceptsDesc q) ∧ ((s.acts .icd).find? (fun b => b.handle == h) = some a) ∧ (s.ft .icd < a.at_) ∧ (s.ft .icd + us 50 ≤ a.at_) ∧ (a.kind = 6)) ∧
  (let s : State := (fun s => { s with tm := { s.tm with iActs := [⟨9, 6, 2 ^ 50, 0, 0, 0, O.EpochLength, 50, false, false, 0⟩] } }) (st [] []); let q : Req := qs; let h : Nat := 9; let a : Act := ⟨9, 6, 2 ^ 50, 0, 0, 0, O.EpochLength, 50, false, false, 0⟩; (askedByRing q = false) ∧ (s.Accepts q O.ActionCancel h) ∧ ((s.acts .icd).find? (fun b => b.handle == h) = some a) ∧ (s.ft .icd < a.at_) ∧ (s.ft .icd + us 50 ≤ a.at_) ∧ (a.kind = 6)) ∧
  (let s : State := (fun s => { s with tm := { s.tm with hActs := [⟨9, 6, 2 ^ 50, 0, 0, 0, O.EpochLength, 50, false, false, 0⟩] } }) (st [] []); let h : Nat := 9; let a : Act := ⟨9, 6, 2 ^ 50, 0, 0, 0, O.EpochLength, 50, false, false, 0⟩; ((s.acts .hel).find? (fun b => b.handle == h) = some a) ∧ (a.kind ≠ 5)) ∧
  (let s : State := (fun s => { s with tm := { s.tm with hDone := [9] } }) (st [] []); let h : Nat := 9; ((s.acts .hel).find? (fun b => b.handle == h) = none) ∧ (h ∈ s.done .hel)) ∧
  (let s : State := (fun s => { s with tm := { s.tm with iActs := [⟨9, 6, 0, 0, 0, 0, O.EpochLength, 5000, false, false, 0⟩] } }) (st [] []); let a : Act := ⟨9, 6, 0, 0, 0, 0, O.EpochLength, 5000, false, false, 0⟩; (s.dueAct .icd = some a) ∧ (a.kind = 6) ∧ (a.key ∈ [O.EpochLength, O.GracePerLevel, O.ResultBudget, O.SupplementHold])) := by
  refine ⟨?_, ?_, ?_, ?_, ?_, ?_, ?_, ?_⟩ <;> decide +kernel

theorem witness_PulsesAndCapture :
  (let s : State := st [] [(inst O.PulseWidth 2, 1000), (inst O.PulsePeriod 2, 2 ^ 60), (inst O.PulseStartFt 2, 2 ^ 40)]; let q : Req := qs; let n : Nat := 2; let v : Nat := 1 + 2 ^ 8; (s.Accepts q (inst O.PulseControl n) v) ∧ (n < 8) ∧ (bit v 7 = false) ∧ (bits v 11 5 = 0) ∧ (bit v 0 = true) ∧ (bits v 8 3 < 8) ∧ (ns 20 ≤ ns (s.i (inst O.PulseWidth n))) ∧ (us 1 ≤ s.i (inst O.PulsePeriod n) ∧ ns (s.i (inst O.PulseWidth n)) + ns 20 ≤ s.i (inst O.PulsePeriod n)) ∧ (bit (s.i (inst O.PulseControl n)) 3 = false) ∧ (s.outputTaken .icd n (bits v 8 3) = false) ∧ (s.ft .icd ≤ s.i (inst O.PulseStartFt n)) ∧ (s.tm.iActs.length < 1024)) ∧
  (let s : State := stp [(inst O.PulseWidth 2, 1000), (inst O.PulsePeriod 2, 2 ^ 60), (inst O.PulseStartFt 2, 2 ^ 40)] []; let q : Req := qs; let n : Nat := 2; let v : Nat := 1 + 2 ^ 8; (s.AcceptsProxy q (inst O.PulseControl n) v) ∧ (n < 4) ∧ (bit v 7 = false) ∧ (bits v 11 5 = 0) ∧ (bit v 0 = true) ∧ (bits v 8 3 < 4) ∧ (ns 20 ≤ ns (s.h (inst O.PulseWidth n))) ∧ (us 1 ≤ s.h (inst O.PulsePeriod n) ∧ ns (s.h (inst O.PulseWidth n)) + ns 20 ≤ s.h (inst O.PulsePeriod n)) ∧ (bit (s.h (inst O.PulseControl n)) 3 = false) ∧ (s.outputTaken .hel n (bits v 8 3) = false) ∧ (s.ft .hel ≤ s.h (inst O.PulseStartFt n)) ∧ (s.tm.hActs.length < 64)) ∧
  (let s : State := (fun s => { s with tm := { s.tm with iActs := [⟨9, 5, 0, 2, 0, 0, 0, 0, false, false, 0⟩] } }) (st [] [(inst O.PulseControl 2, 9)]); let n : Nat := 2; let a : Act := ⟨9, 5, 0, 2, 0, 0, 0, 0, false, false, 0⟩; (n < 8) ∧ (s.dueAct .icd = some a) ∧ (a.kind = 5) ∧ (a.a = n) ∧ (bit (s.i (inst O.PulseControl n)) 3 = true)) ∧
  (let s : State := (fun s => { s with tm := { s.tm with pulseOn := [18] } }) (st [] [(inst O.PulseControl 2, 9)]); let u : Side := .icd; let n : Nat := 2; (pulseNum u n ∈ s.tm.pulseOn) ∧ ((s.ob u (inst O.PulseCount n) = 0 ∨ tgetD s.tm.pulseK (pulseNum u n) 0 < s.ob u (inst O.PulseCount n))) ∧ (s.ob u (inst O.PulseStartFt n) + tgetD s.tm.pulseK (pulseNum u n) 0 * s.ob u (inst O.PulsePeriod n) ≤ s.ft u)) ∧
  (let s : State := atFt 50 (st [(O.CaptureEnable + 1, 3)] []); let n : Nat := 1; (s.h (O.CaptureEnable + n) = 3) ∧ ((((tgetD s.tm.caps n ⟨none, 0⟩).last).all fun x => decide (x + us 1 ≤ s.ft .hel)) = true) ∧ (s.bd.haoReset = false)) ∧
  (let s : State := (fun s => { s with tm := { s.tm with caps := [(1, ⟨some 40, 3⟩)] } }) (atFt 50 (st [(O.CaptureEnable + 1, 3)] [])); let u : Side := .hel; let n : Nat := 1; let r : Bool := true; let x : Nat := 40; (s.ob u (O.CaptureEnable + n) = 3) ∧ ((tgetD s.tm.caps (pulseNum u n) ⟨none, 0⟩).last = some x) ∧ (s.ft u < x + us 1) ∧ ((u = .hel → s.bd.haoReset = false))) := by
  refine ⟨?_, ?_, ?_, ?_, ?_, ?_⟩ <;> decide +kernel

theorem witness_HostReads :
  (let s : State := up ((fun s => { s with si := { s.si with hel := { s.si.hel with jobs := [⟨7, 5, 0, 0, [(64, 128)], 0, 0, 0, [], 0, 0, 0⟩] } }, bd := { s.bd with tokens := 10 ^ 12 } }) (st [(O.HostMemBandwidth, 5)] [])); let j : Job := ⟨7, 5, 0, 0, [(64, 128)], 0, 0, 0, [], 0, 0, 0⟩; let tag : Nat := 0; let g : Nat × Nat := (64, 128); (s.h O.HostMemBandwidth ≠ 0) ∧ (s.awake 5 = true) ∧ (s.tm.guardHold = false) ∧ (s.inDrain (s.ft .hel) = false) ∧ (s.nextRead = some j) ∧ (s.freeTag = some tag) ∧ (j.segs[j.cur]? = some g) ∧ (min 4096 (segSpan g - j.off) * 1000000 ≤ s.bd.tokens)) ∧
  (let s : State := (fun s => { s with si := { s.si with hel := { s.si.hel with jobs := [⟨7, 5, 0, 0, [(64, 128)], 0, 0, 0, [], 0, 0, 0⟩] } } }) (st [(O.HostMemBandwidth, 0)] []); (s.h O.HostMemBandwidth = 0) ∧ ((∀ j ∈ s.si.hel.jobs, 4 < j.kind))) ∧
  (let s : State := (fun s => { s with tm := { s.tm with guardHold := true } }) (st [(O.HostMemBandwidth, 5)] []); (s.h O.HostMemBandwidth ≠ 0) ∧ (s.tm.guardHold = true ∨ s.inDrain (s.ft .hel) = true)) ∧
  (let s : State := (fun s => { s with bd := { s.bd with reads := [(3, ⟨7, 64, 128, 0, 0, 0, 0, []⟩)] } }) (st [] []); let tag : Nat := 3; let data : List Nat := [1, 2]; let r : ReadReq := ⟨7, 64, 128, 0, 0, 0, 0, []⟩; (tget s.bd.reads tag = some r)) ∧
  (let s : State := (fun s => { s with bd := { s.bd with reads := [(3, ⟨7, 64, 128, 0, 0, 0, 0, []⟩)] }, si := { s.si with hel := { s.si.hel with jobs := [⟨7, 5, 0, 0, [(64, 128)], 0, 0, 1, [], 0, 0, 0⟩] } } }) (st [] []); let tag : Nat := 3; let data : List Nat := [1, 2]; let r : ReadReq := ⟨7, 64, 128, 0, 0, 0, 0, []⟩; (tget s.bd.reads tag = some r) ∧ (∀ j ∈ s.si.hel.jobs, 4 < j.kind)) ∧
  (let s : State := (fun s => { s with bd := { s.bd with retired := [3] } }) (st [] []); let tag : Nat := 3; let err : Nat := 1; let data : List Nat := [1, 2]; (tget s.bd.reads tag = none) ∧ (tag ∈ s.bd.retired)) ∧
  (let s : State := atFt (2 ^ 60) ((fun s => { s with bd := { s.bd with reads := [(3, ⟨7, 64, 128, 0, 0, 0, 0, []⟩)] }, si := { s.si with hel := { s.si.hel with jobs := [⟨7, 5, 0, 0, [(64, 128)], 0, 0, 1, [], 0, 0, 0⟩] } } }) (st [] [])); let tag : Nat := 3; let r : ReadReq := ⟨7, 64, 128, 0, 0, 0, 0, []⟩; (tget s.bd.reads tag = some r) ∧ (r.at_ + us (s.h O.ReadTimeout) ≤ s.ft .hel) ∧ (∀ j ∈ s.si.hel.jobs, 4 < j.kind)) := by
  refine ⟨?_, ?_, ?_, ?_, ?_, ?_, ?_⟩ <;> decide +kernel

theorem witness_Fences :
  (let s : State := st [(inst128 O.FenceEntry 5, 2)] []; let u : Nat := 5; (u < 256) ∧ (s.fenceWanted u = true) ∧ (bit s.bd.fReq u = false) ∧ (bit s.bd.fAck u = false) ∧ ((s.radioUnit u && s.inGuard (s.ft .hel)) = false) ∧ (s.bd.haoReset = false)) ∧
  (let s : State := st [] []; let u : Nat := 5; (u < 256) ∧ (s.fenceWanted u = false ∨ bit s.bd.fReq u = true ∨ bit s.bd.fAck u = true ∨ (s.radioUnit u && s.inGuard (s.ft .hel)) = true)) ∧
  (let s : State := st [(inst128 O.FenceEntry 5, 2)] []; let u : Nat := 5; (u < 256) ∧ (s.fenceWanted u = true)) ∧
  (let s : State := (fun s => { s with bd := { s.bd with fReq := 32, fAck := 32 } }) (st [] []); let u : Nat := 5; (u < 256) ∧ (s.fenceWanted u = false) ∧ (bit s.bd.fReq u = true) ∧ (bit s.bd.fAck u = true) ∧ (s.bd.haoReset = false)) ∧
  (let s : State := (fun s => { s with bd := { s.bd with fReq := 32, fAck := 32 } }) (st [] []); let u : Nat := 5; (u < 256) ∧ (s.fenceWanted u = false)) ∧
  (let s : State := atFt (2 ^ 60) ((fun s => { s with bd := { s.bd with fReq := 32 } }) (st [] [])); let u : Nat := 5; (u < 256) ∧ (bit s.bd.fReq u = true) ∧ (bit s.bd.fAck u = false) ∧ (bit s.bd.fLate u = false) ∧ (tgetD s.bd.fAt u 0 + us (s.h O.FenceAckLimit) ≤ s.ft .hel)) ∧
  (let s : State := st [] []; (s.si.perDie = []) ∧ ((∀ u, u < 256 → tget s.hd (inst128 O.FenceEntry u) = none)) ∧ (s.bd.haoReset = false)) ∧
  (let s : State := stp [] []; let q : Req := qs; let u : Nat := 5; let v : Nat := 15; (u < 256) ∧ (s.AcceptsProxy q (inst128 O.FenceEntry u) v) ∧ (bits v 58 6 = 0) ∧ (bits v 0 2 = 3) ∧ (bits v 2 2 = 3) ∧ (bit s.bd.fReq u = false)) := by
  refine ⟨?_, ?_, ?_, ?_, ?_, ?_, ?_, ?_⟩ <;> decide +kernel

theorem witness_HaltsAndLatches :
  (let s : State := st [] []; let g : Nat := 3; (g < 64)) ∧
  (let s : State := atFt (2 ^ 60) ((fun s => { s with bd := { s.bd with hReq := 8 } }) (st [] [])); let g : Nat := 3; (g < 64) ∧ (bit s.bd.hReq g = true) ∧ (bit s.bd.hAck g = false) ∧ (bit s.bd.hLate g = false) ∧ (tgetD s.bd.hAt g 0 + us (s.h O.HaltAckLimit) ≤ s.ft .hel)) ∧
  (let s : State := (fun s => { s with bd := { s.bd with hReq := 8 } }) (st [] []); let g : Nat := 3; (g < 64) ∧ (bit s.bd.hReq g = true)) ∧
  (let s : State := st [] []; let g : Nat := 3; (g < 64) ∧ (bit s.bd.hReq g = false)) ∧
  (let s : State := atFt 12345 (st [] []); (s.bd.haoReset = false)) ∧
  (let s : State := st [(O.OhSeconds, 41)] []; (s.bd.haoReset = false)) ∧
  (let s : State := atFt (2 ^ 60) (up (st [(inst128 O.FenceEntry 5, 15 + 2 ^ 56)] [])); let u : Nat := 5; (u < 256) ∧ (bits (s.h (inst128 O.FenceEntry u)) 0 2 = 3) ∧ (bits (s.h (inst128 O.FenceEntry u)) 2 2 = 3) ∧ (s.awake 2 = true) ∧ (bit (s.h (inst128 O.FenceEntry u)) 56 = true) ∧ (tgetD s.si.hel.metAt u 0 + us (s.h O.ConditionHold) ≤ s.ft .hel) ∧ (bit s.bd.fReq u = false)) := by
  refine ⟨?_, ?_, ?_, ?_, ?_, ?_, ?_⟩ <;> decide +kernel

theorem witness_TapsAndCommands :
  (let s : State := st [] []; let port : Nat := 3; let inc : Nat := 1; let tag : Nat := 2; let evt : Nat := 4; (s.wired port = false)) ∧
  (let s : State := st [(O.TapWired, 8)] []; let port : Nat := 3; let inc : Nat := 1; let tag : Nat := 2; let evt : Nat := 4; (s.wired port = true) ∧ (s.awake 2 = false) ∧ (s.bd.haoReset = false)) ∧
  (let s : State := up ((fun s => { s with ct := { s.ct with fifo := [(3, 32)] } }) (st [(O.TapWired, 8)] [])); let port : Nat := 3; let inc : Nat := 1; let tag : Nat := 2; let evt : Nat := 4; (s.wired port = true) ∧ (s.awake 2 = true) ∧ (32 ≤ tgetD s.ct.fifo port 0) ∧ (s.bd.haoReset = false)) ∧
  (let s : State := up (st [(O.TapWired, 8), (ccfg 9, 3 + 2 ^ 32)] []); let port : Nat := 3; let inc : Nat := 1; let tag : Nat := 2; let evt : Nat := 4; let n : Nat := 9; (s.wired port = true) ∧ (s.awake 2 = true) ∧ (tgetD s.ct.fifo port 0 < 32) ∧ (port < 176) ∧ (s.counters.filter (fun m => tapMatches (s.h (ccfg m)) port tag evt) = [n]) ∧ (s.condUnits = []) ∧ ((∀ k, k < 8 → s.compKind k = 0)) ∧ (n < 4096) ∧ (s.bd.haoReset = false)) ∧
  (let s : State := st [] []; let stream : Nat := 2; let cmdid : Nat := 77; let part : Nat := 0; (s.cbReady = false) ∧ (s.domState 2 = 0) ∧ (s.heladReset = false)) ∧
  (let s : State := up (st [] []); let stream : Nat := 2; let cmdid : Nat := 77; let part : Nat := 0; (stream < 16) ∧ (s.cbReady = true) ∧ ((s.overlap stream cmdid).ct.opens.find? (fun o => o.stream == stream && o.cmdid == cmdid) = none) ∧ (s.h (O.StreamSet + stream) = 0xFF) ∧ (((s.overlap stream cmdid).ct.opens.filter fun o => o.stream == stream).length < 8) ∧ ((s.overlap stream cmdid).slotsUsed ≤ 16384) ∧ (∀ k, k < 8 → s.compKind k = 0) ∧ (s.h (O.ProvTableBase + stream) = 0)) ∧
  (let s : State := up ((fun s => { s with ct := { s.ct with opens := [⟨2, 77, 0, 5, false, 0, 0, [], [], 0⟩] } }) (st [] [])); let stream : Nat := 2; let cmdid : Nat := 77; let part : Nat := 0; let o : OpenCmd := ⟨2, 77, 0, 5, false, 0, 0, [], [], 0⟩; (stream < 16) ∧ (s.cbReady = true) ∧ ((s.overlap stream cmdid).ct.opens.find? (fun o => o.stream == stream && o.cmdid == cmdid) = some o) ∧ (∀ k, k < 8 → s.compKind k = 0) ∧ (s.si.hel.provs = [])) ∧
  (let s : State := up (st [] []); let stream : Nat := 2; let cmdid : Nat := 77; let part : Nat := 0; (stream < 16) ∧ (s.cbReady = true) ∧ ((s.overlap stream cmdid).ct.opens.find? (fun o => o.stream == stream && o.cmdid == cmdid) = none) ∧ (∀ k, k < 8 → s.compKind k = 0) ∧ (s.si.hel.provs = []) ∧ (s.laneBytes stCounter + 64 * s.ct.opens.length + 64 ≤ counterQueueBytes)) := by
  refine ⟨?_, ?_, ?_, ?_, ?_, ?_, ?_, ?_⟩ <;> decide +kernel

theorem witness_CounterControl :
  (let s : State := stp [(O.TapWired, 8), (cval 9, 5)] []; let q : Req := qs; let n : Nat := 9; let v : Nat := 3 + 2 ^ 32 + 2 ^ 33 + 2 ^ 34 + 2 ^ 40; (n < 4096) ∧ (s.AcceptsProxy q (ccfg n) v) ∧ (bits v 35 5 = 0) ∧ (bits v 56 8 = 0) ∧ (bits v 40 16 ≠ 0) ∧ (ccEnable v = true) ∧ (s.wired (ccPort v) = true) ∧ (ccMode v ≤ 1) ∧ (bit v 19 = false) ∧ (bits (s.h (ccfg n)) 0 30 ≠ bits v 0 30) ∧ (ccSample (s.h (ccfg n)) ≠ ccSample v)) ∧
  (let s : State := stp [] []; let q : Req := qs; let n : Nat := 9; let v : Nat := 2 ^ 40; (n < 4096) ∧ (s.AcceptsProxy q (ccfg n) v) ∧ (bits v 35 5 = 0) ∧ (bits v 56 8 = 0) ∧ (bits v 40 16 ≠ 0) ∧ (bits (s.h (ccfg n)) 0 30 = bits v 0 30) ∧ (ccSample (s.h (ccfg n)) = ccSample v) ∧ (ccEnable v = false)) ∧
  (let s : State := stp [(cval 5, 5)] []; let q : Req := qs; let k : Nat := 1; let b : Nat := 5; (1 ≤ k) ∧ (k ≤ 128) ∧ (b < 32) ∧ (s.AcceptsProxy q (O.CounterClear + (k - 1)) (2 ^ b)) ∧ (setBitsOf 32 (2 ^ b) = [b]) ∧ (ccMode (s.h (ccfg (32 * (k - 1) + b))) ≤ 1)) ∧
  (let s : State := stp [] []; let q : Req := qs; let k : Nat := 1; (k < 8) ∧ (s.AcceptsProxy q O.SetCommit (2 ^ k)) ∧ (setBitsOf 8 (2 ^ k) = [k]) ∧ (s.setBusy k = false)) ∧
  (let s : State := (fun s => { s with ct := { s.ct with opens := [⟨2, 77, 0, 5, true, 1, 9, [], [], 0⟩] } }) (stp [] []); let q : Req := qs; let k : Nat := 1; (k < 8) ∧ (s.AcceptsProxy q O.SetCommit (2 ^ k)) ∧ (setBitsOf 8 (2 ^ k) = [k]) ∧ (s.setBusy k = true)) ∧
  (let s : State := atFt (2 ^ 60) (up (st [] [])); (s.ct.lastAt < s.sampleAt) ∧ (s.awake 2 = true) ∧ (((s.acts .hel).any (fun a => decide (a.at_ ≤ s.sampleAt))) = false) ∧ (s.ct.mapOwed = false) ∧ (s.sampled = [])) ∧
  (let s : State := st [] []; let slot : Nat := 3; let k : Nat := 77; let v : Nat := 5; (s.dictsWf) ∧ (k < 2 ^ 24)) := by
  refine ⟨?_, ?_, ?_, ?_, ?_, ?_, ?_⟩ <;> decide +kernel

theorem witness_TraceFunnel :
  (let s : State := up ((fun s => { s with tr := { s.tr with srcs := [(5, ⟨none, some (0, 0), some ⟨[1, 2], 0, 0, 0⟩, [], false, 0, false, false, false, false, [], false⟩)] } }) (st [(O.TraceSource + 5, 8), (O.TraceEnable, 32)] [])); let k : Nat := 5; let data : List Nat := [9, 8, 7]; let bad : Nat := 0; let b : TrBlock := ⟨[1, 2], 0, 0, 0⟩; (k < 64) ∧ (s.tWired k = true) ∧ ((s.tsrc k).dozing = false) ∧ (s.awake 3 = true) ∧ (tgetD s.tr.fifo k 0 ≤ 32) ∧ (s.traceFill * 100 < 524288 * s.h (O.ClassThreshold + bits (s.h (O.TraceSource + k)) 0 2)) ∧ (bit s.traceMask k = true) ∧ (∀ j, j < 8 → s.compKind j = 0) ∧ ((s.tsrc k).full.isSome = true) ∧ ((s.tsrc k).restart = false) ∧ ((s.tsrc k).resetDue = false) ∧ ((s.tsrc k).owed = none) ∧ ((s.tsrc k).losses = []) ∧ ((s.tsrc k).marks = []) ∧ ((s.tsrc k).block = some b) ∧ (b.bytes.length + 2 + data.length ≤ 4064) ∧ (bad = 0)) ∧
  (let s : State := up (st [(O.TraceSource + 5, 12), (O.TraceEnable, 32), (O.ClassThreshold, 0)] []); let k : Nat := 5; let data : List Nat := [9, 8, 7]; let bad : Nat := 0; (k < 64) ∧ (s.tWired k = true) ∧ ((s.tsrc k).dozing = false) ∧ (s.awake 3 = true) ∧ (tgetD s.tr.fifo k 0 ≤ 32) ∧ (bit (s.h (O.TraceSource + k)) 2 = true) ∧ (524288 * s.h (O.ClassThreshold + bits (s.h (O.TraceSource + k)) 0 2) ≤ s.traceFill * 100) ∧ (bit s.traceMask k = true) ∧ ((s.tsrc k).losses = []) ∧ (∀ j, j < 8 → s.compKind j = 0)) ∧
  (let s : State := up (st [(O.TraceSource + 5, 8), (O.TraceEnable, 32), (O.ClassThreshold, 0)] []); let k : Nat := 5; let data : List Nat := [9, 8, 7]; let bad : Nat := 0; (k < 64) ∧ (s.tWired k = true) ∧ ((s.tsrc k).dozing = false) ∧ (s.awake 3 = true) ∧ (bit (s.h (O.TraceSource + k)) 2 = false) ∧ (32 < tgetD s.tr.fifo k 0 ∨ 524288 * s.h (O.ClassThreshold + bits (s.h (O.TraceSource + k)) 0 2) ≤ s.traceFill * 100)) ∧
  (let s : State := st [(O.TraceSource + 5, 8)] []; let k : Nat := 5; let data : List Nat := [9, 8, 7]; let bad : Nat := 0; (k < 64) ∧ (s.tWired k = true) ∧ ((s.tsrc k).dozing = false) ∧ (s.domState 3 = 0) ∧ (bit (s.h (O.TraceSource + k)) 2 = false) ∧ (s.heladReset = false)) ∧
  (let s : State := atFt (2 ^ 60) (st [(O.TraceSource + 5, 8), (O.TraceEnable, 32)] []); (s.tr.cadNext = none) ∧ (s.tr.lastK < s.cadIdx)) ∧
  (let s : State := stp [] []; let q : Req := qs; let v : Nat := 50; (s.AcceptsProxy q O.TraceCadence v)) ∧
  (let s : State := atFt (2 ^ 60) ((fun s => { s with tr := { s.tr with srcs := [(5, ⟨none, some (0, 0), some ⟨[1, 2], 0, 0, 0⟩, [], false, 0, false, false, false, false, [], false⟩)] } }) (st [(O.TraceSource + 5, 8), (O.TraceEnable, 32)] [])); let k : Nat := 5; let b : TrBlock := ⟨[1, 2], 0, 0, 0⟩; (k < 64) ∧ ((s.tsrc k).block = some b) ∧ (b.first + us (s.h O.FlushLatency) ≤ s.ft .hel)) ∧
  (let s : State := st [(O.TraceSource + 5, 8), (O.TraceEnable, 0)] []; let k : Nat := 5; let cut : List Nat := [4]; (k < 64) ∧ (s.heladReset = false) ∧ (s.tWired k = true) ∧ ((s.tsrc k).dozing = false) ∧ (bit s.traceMask k = false) ∧ ((cut = [] ∨ s.matchPacket k cut = 0))) ∧
  (let s : State := st [(O.TraceSource + 5, 8), (O.TraceEnable, 32)] []; let k : Nat := 5; (k < 64) ∧ (s.heladReset = false) ∧ (s.tWired k = true) ∧ ((s.tsrc k).dozing = false) ∧ (bit s.traceMask k = true) ∧ ((s.tsrc k).losses = []) ∧ ((s.tsrc k).block = none)) ∧
  (let s : State := (fun s => { s with tr := { s.tr with srcs := [(5, ⟨none, some (0, 0), none, [], true, 0, false, false, false, false, [], false⟩)] } }) (st [(O.TraceSource + 5, 8), (O.TraceEnable, 32)] []); let k : Nat := 5; (k < 64) ∧ (s.heladReset = false) ∧ (s.tWired k = true) ∧ ((s.tsrc k).dozing = true) ∧ (bit s.traceMask k = true) ∧ ((s.tsrc k).losses = []) ∧ ((s.tsrc k).block = none)) := by
  refine ⟨?_, ?_, ?_, ?_, ?_, ?_, ?_, ?_, ?_, ?_⟩ <;> decide +kernel

theorem witness_TraceSequencer :
  (let s : State := stp [] []; let q : Req := qs; let v : Nat := 5; (s.AcceptsProxy q O.SeqControl v) ∧ (bits v 5 3 = 0) ∧ (bit v 0 = true)) ∧
  (let s : State := stp [(O.SeqControl, 25)] []; let q : Req := qs; let v : Nat := 4; (s.AcceptsProxy q O.SeqControl v) ∧ (bits v 5 3 = 0) ∧ (bit v 0 = false)) ∧
  (let s : State := (fun s => { s with tr := { s.tr with cntPend := 2 } }) (st [(O.SeqControl, 1), (O.StateControl, 2 ^ 9 + 2 * 2 ^ 12), (inst O.StateControl 2, 2 ^ 32)] []); (s.tr.cntPend ≠ 0) ∧ (bit (s.h O.SeqControl) 0 = true) ∧ ((bits (s.h (inst O.StateControl s.seqState)) 8 4 &&& s.tr.cntPend) ≠ 0) ∧ (bit (s.h (inst O.StateControl (bits (s.h (inst O.StateControl s.seqState)) 12 2))) 32 = true)) ∧
  (let s : State := st [(O.SeqControl, 1), (O.StateControl, 8 + 2 * 2 ^ 12), (inst O.CompConfig 3, 5)] []; let k : Nat := 3; (k < 8) ∧ (s.compKind k = 5) ∧ (bit s.tr.fired5 k = false) ∧ (s.h (inst O.CompValue k) ≤ s.ft .hel / 65536) ∧ (bit (s.h O.SeqControl) 0 = true) ∧ (bit (bits (s.h (inst O.StateControl s.seqState)) 0 8) k = true) ∧ (bit (s.h (inst O.StateControl (bits (s.h (inst O.StateControl s.seqState)) 12 2))) 32 = false)) ∧
  (let s : State := st [] []; let k : Nat := 3; (k < 8) ∧ (s.compKind k ≠ 5 ∨ bit s.tr.fired5 k = true ∨ s.ft .hel / 65536 < s.h (inst O.CompValue k))) ∧
  (let s : State := st [(O.SeqControl, 1), (inst O.CompConfig 3, 7), (inst O.CompValue 3, 77), (inst O.SeqCounterInc 1, 8)] []; let code : Nat := 77; (bit (s.h O.SeqControl) 0 = true) ∧ (s.compMask 7 (fun k => bits (s.h (inst O.CompValue k)) 0 16 == code) ≠ 0) ∧ (bits (s.h (inst O.StateControl s.seqState)) 0 8 = 0) ∧ (bits (s.h (inst O.StateControl s.seqState)) 14 8 = 0)) ∧
  (let s : State := st [] []; let code : Nat := 77; (s.compMask 7 (fun k => bits (s.h (inst O.CompValue k)) 0 16 == code) = 0)) := by
  refine ⟨?_, ?_, ?_, ?_, ?_, ?_, ?_⟩ <;> decide +kernel

theorem witness_LaneTransmit :
  (let m : List Nat := List.replicate 514 0; m.length = 514) ∧
  True ∧
  (let place : Nat := 1284; place < 1285) ∧
  (let s : State := up (st [(O.LaneState, 2)] []); let bad : Bool := false; (s.h O.LaneState = 2) ∧ (s.awake 4 = true) ∧ (s.ln.again = []) ∧ ((∀ ty, ty < 16 → s.hasUnits ty = false))) ∧
  (let s : State := (fun s => { s with ln := { s.ln with q := [(1, [(3, [0x130, 5])])] } }) (up (st [(O.LaneState, 2)] [])); let tag : Nat := 3; let r : Rec := [0x130, 5]; (s.h O.LaneState = 2) ∧ (s.awake 4 = true) ∧ (s.ln.again = []) ∧ (s.strictRoom = true) ∧ (s.NoRouse) ∧ (s.laneQ stAlarm = [(tag, r)]) ∧ (tgetD s.ln.sent stAlarm 0 = 0) ∧ (0 < r.length) ∧ (r.length ≤ 15) ∧ (rType r ≠ 0xF3) ∧ (s.ln.alarmLost = 0)) ∧
  (let s : State := (fun s => { s with ln := { s.ln with q := [(4, [(3, [0x130, 5])])] } }) (up (st [(O.LaneState, 2), (O.HeladFining, 0)] [])); let tag : Nat := 3; let r : Rec := [0x130, 5]; (s.h O.LaneState = 2) ∧ (s.awake 4 = true) ∧ (s.ln.again = []) ∧ (s.NoRouse) ∧ (s.h O.HeladFining ≠ 1) ∧ ((∀ ty, ty < 16 → ty ≠ stCounter → s.hasUnits ty = false)) ∧ (s.laneQ stCounter = [(tag, r)]) ∧ (tgetD s.ln.sent stCounter 0 = 0) ∧ (0 < r.length) ∧ (r.length ≤ 15)) ∧
  (let s : State := st [] []; let bad : Bool := false; (s.h O.LaneState ≠ 2) ∧ (s.h O.LaneState ≠ 3 ∨ s.awake 4 = false)) ∧
  (let s : State := atFt (2 ^ 50) (up (st [(O.LaneState, 2)] [])); (s.awake 4 = true) ∧ (s.h O.LaneState = 2) ∧ (s.NoRouse) ∧ (s.laneIdle = true) ∧ (s.strictRoom = true) ∧ (tgetD s.ln.sent stControl 0 = 0)) ∧
  (let s : State := st [] []; ((s.awake 4 = false ∨ s.laneIdle = false))) ∧
  (let s : State := atFt (2 ^ 60) (st [(O.LaneState, 3)] []); (s.h O.LaneState = 3) ∧ (s.ln.lastLit + ms (s.h O.LaneKeepalive) ≤ s.ft .hel) ∧ (s.NoRouse) ∧ (s.ir.ao = []) ∧ ((∀ ty, ty < 16 → s.hasUnits ty = false)) ∧ (s.strictRoom = true) ∧ (tgetD s.ln.sent stControl 0 = 0)) ∧
  (let s : State := st [] []; (s.h O.LaneState ≠ 3 ∨ s.ft .hel < s.ln.lastLit + ms (s.h O.LaneKeepalive))) := by
  refine ⟨?_, ?_, ?_, ?_, ?_, ?_, ?_, ?_, ?_, ?_, ?_⟩ <;> decide +kernel

theorem witness_HeladLane :
  (let s : State := st [] []; let ch : Nat := 1; let r : Rec := State.iRec (st [] []) 0x53 2 0 0 [(128, 8, 5), (160, 32, 77)]; (ch < 2) ∧ (s.actsOn ch r = true) ∧ (s.h O.LaneState = 0) ∧ (s.role ≠ 1) ∧ (s.h O.SelectedChannel = 0xFF) ∧ ((∀ c, c < 2 → tgetD s.ln.chLead c 0 = 0))) ∧
  (let s : State := (fun s => { s with ln := { s.ln with ctlSeen := [(0x53, 0)] } }) (st [] []); let ch : Nat := 1; let r : Rec := State.iRec (st [] []) 0x53 2 0 0 [(128, 8, 5), (160, 32, 77)]; (s.actsOn ch r = false)) ∧
  (let s : State := (fun s => { s with ln := { s.ln with ctlSeen := [(0x54, 0)] } }) (st [] []); let ch : Nat := 1; let r : Rec := State.iRec (st [] []) 0x54 2 0 0 [(128, 8, 5), (160, 32, 77)]; (s.actsOn ch r = false)) ∧
  (let s : State := (fun s => { s with ln := { s.ln with ctlSeen := [(0x52, 0)] } }) (st [] []); let ch : Nat := 1; let r : Rec := State.iRec (st [] []) 0x52 2 0 0 [(128, 8, 5), (160, 32, 77)]; (s.actsOn ch r = false)) ∧
  (let s : State := st [(O.LaneState, 2)] []; let ch : Nat := 1; let r : Rec := State.iRec (st [] []) 0x53 2 0 0 [(128, 8, 5), (160, 32, 77)]; (s.actsOn ch r = true) ∧ (s.h O.LaneState ≠ 0) ∧ (s.role ≠ 1)) ∧
  (let s : State := up ((fun s => { s with ln := { s.ln with trainDone := [9] } }) (st [(O.LaneState, 1)] [])); let ch : Nat := 1; let r : Rec := State.iRec (st [] []) 0x54 2 0 0 [(128, 8, 5), (160, 32, 77)]; (s.h O.LaneState = 1) ∧ (s.actsOn ch r = true) ∧ (s.awake 4 = true) ∧ (s.ln.trainDone ≠ []) ∧ (recFld r 160 32 ∉ s.ln.trainDone)) ∧
  (let s : State := st [(O.LaneState, 1)] []; let ch : Nat := 1; let r : Rec := State.iRec (st [] []) 0x54 2 0 0 [(128, 8, 5), (160, 32, 77)]; (s.actsOn ch r = true) ∧ (s.ln.trainDone = [])) ∧
  (let s : State := atFt (2 ^ 60) (up ((fun s => { s with ln := { s.ln with trainDone := [9] } }) (st [(O.LaneState, 1)] []))); (s.h O.LaneState = 1) ∧ (s.awake 4 = true) ∧ (s.ln.trainDone ≠ []) ∧ (s.ln.litAt + ms 2 ≤ s.ft .hel)) ∧
  (let s : State := (fun s => { s with ln := { s.ln with chUp := [(0, 1), (1, 1)] } }) (st [(O.SelectedChannel, 1)] []); let ch : Nat := 1; (ch < 2) ∧ (s.heladReset = false) ∧ (s.h O.SelectedChannel = ch) ∧ (tgetD s.ln.chUp (1 - ch) 0 = 1) ∧ (tgetD s.ln.chLead (1 - ch) 0 ≠ 1) ∧ (s.ln.other = [])) ∧
  (let s : State := (fun s => { s with ln := { s.ln with chUp := [(0, 1), (1, 1)], chLead := [(0, 1)] } }) (st [(O.SelectedChannel, 1)] []); let ch : Nat := 1; (ch < 2) ∧ (s.heladReset = false) ∧ (s.h O.SelectedChannel = ch) ∧ (tgetD s.ln.chUp (1 - ch) 0 = 1) ∧ (tgetD s.ln.chLead (1 - ch) 0 = 1) ∧ (s.ln.other = [])) ∧
  (let s : State := st [] []; let ch : Nat := 1; (ch < 2) ∧ (s.heladReset = false) ∧ (tgetD s.ln.chUp (1 - ch) 0 = 0)) ∧
  (let s : State := st [] []; let ch : Nat := 1; let r : Rec := State.iRec (st [] []) 0x52 3 0 0 [(128, 8, 0)]; (s.actsOn ch r = true) ∧ ((s.domState 4 = 0 ∨ s.domState 4 = 1))) ∧
  (let s : State := up (st [] []); let ch : Nat := 1; let r : Rec := State.iRec (st [] []) 0x52 3 0 0 [(128, 8, 0)]; (s.actsOn ch r = true) ∧ (s.awake 4 = true)) ∧
  (let s : State := atFt 9 ((fun s => { s with ln := { s.ln with retune := some (0, List.replicate 6 (2 ^ 28 - 1), 7) } }) (st [(O.LaneState, 4)] [])); let target : Nat := 0; let at_ : Nat := 7; let good : List Nat := List.replicate 6 (2 ^ 28 - 1); (s.ln.retune = some (target, good, at_)) ∧ (at_ ≤ s.ft .hel ∧ at_ ≠ 0) ∧ (s.ln.replay = []) ∧ (s.ln.oeFault = false) ∧ ((∀ i, i < 6 → good[i]? = some ((tgetD s.ln.seq ([stAlarm, stControl, stCounter, stTrace, stDigest, stEvent].getD i 0) 0 + 2 ^ 28 - 1) % 2 ^ 28))) ∧ ((∀ i, i < 16 → tgetD s.ln.seq i 0 < 2 ^ 28))) ∧
  (let s : State := st [] []; (s.heladReset = false) ∧ (s.ln.retune = none)) ∧
  (let s : State := (fun s => { s with ln := { s.ln with retune := some (0, List.replicate 6 (2 ^ 28 - 1), 0) } }) (st [(O.LaneState, 4)] []); (s.heladReset = false) ∧ (s.ln.retune.isSome = true)) := by
  refine ⟨?_, ?_, ?_, ?_, ?_, ?_, ?_, ?_, ?_, ?_, ?_, ?_, ?_, ?_, ?_, ?_⟩ <;> decide +kernel

theorem witness_SlotStates :
  (let s : State := st [] []; let k : Nat := 21; (k < 64) ∧ (s.i (O.SlotState + k) = 0)) ∧
  (let s : State := st [] [(O.SlotState + 21, 5)]; let k : Nat := 21; (k < 64) ∧ (s.i (O.SlotState + k) ≠ 0) ∧ (s.i (O.SlotState + k) ≠ 4)) ∧
  (let s : State := st [] [(O.SlotState + 21, 4)]; let k : Nat := 21; (k < 64) ∧ (s.i (O.SlotState + k) = 4)) ∧
  (let s : State := st [] [(O.SlotState + 21, 1)]; let k : Nat := 21; let both : Bool := true; let other : List (Nat × Nat) := [(1, 7)]; (k < 64) ∧ (s.i (O.SlotState + k) = 1)) ∧
  (let s : State := (fun s => { s with ln := { s.ln with dozeSaid := [21] } }) (st [] [(O.SlotState + 21, 2)]); let k : Nat := 21; let both : Bool := true; let other : List (Nat × Nat) := [(1, 7)]; (k < 64) ∧ (s.i (O.SlotState + k) = 2) ∧ (k ∈ s.ln.dozeSaid)) ∧
  (let s : State := st [] [(O.SlotState + 21, 2), (O.AutoRetune, 1)]; let k : Nat := 21; let other : List (Nat × Nat) := [(1, 7)]; (k < 64) ∧ (s.i (O.SlotState + k) = 2) ∧ (k ∉ s.ln.dozeSaid) ∧ (s.i O.AutoRetune = 1) ∧ (s.observeOnly = false) ∧ (s.i (O.SpareOwner + k / 8) = 0xFF)) ∧
  (let s : State := st [] [(O.SlotState + 21, 2)]; let k : Nat := 21; let other : List (Nat × Nat) := [(1, 7)]; (k < 64) ∧ (s.i (O.SlotState + k) = 2) ∧ (k ∉ s.ln.dozeSaid) ∧ (k ∉ s.ln.viaTwin) ∧ (k ∉ s.ln.degraded) ∧ (s.ln.viaTwin.length < 4)) ∧
  (let s : State := st [] [(O.SlotState + 21, 2)]; let k : Nat := 21; let n : Nat := 5; let both : Bool := true; let other : List (Nat × Nat) := [(1, 7)]; (k < 64) ∧ (s.i (O.SlotState + k) = 2) ∧ (tgetD s.ln.fecRun k 0 + n < 32) ∧ (s.slotWave k ≠ 8)) ∧
  (let s : State := st [] [(O.SlotState + 21, 2), (O.AutoRetune, 0)]; let k : Nat := 21; let n : Nat := 32; let other : List (Nat × Nat) := [(1, 7)]; (k < 64) ∧ (s.i (O.SlotState + k) = 2) ∧ (32 ≤ tgetD s.ln.fecRun k 0 + n) ∧ (s.slotWave k ≠ 8) ∧ (s.i O.AutoRetune ≠ 1)) ∧
  (let s : State := atFt (2 ^ 60) ((fun s => { s with ln := { s.ln with dozeFrom := [(21, 7)] } }) (st [] [(O.SlotState + 21, 3), (O.AutoRetune, 0)])); let k : Nat := 21; let x : Nat := 7; let other : List (Nat × Nat) := [(1, 7)]; (k < 64) ∧ (s.i (O.SlotState + k) = 3) ∧ (tget s.ln.dozeFrom k = some x) ∧ (x + ms (((s.copied k O.LaneKeepalive).getD 1000) + 10) ≤ s.ft .icd) ∧ (s.i O.AutoRetune ≠ 1)) ∧
  (let s : State := st [] [(O.SlotState + 21, 5)]; let q : Req := qm; let k : Nat := 21; (s.Accepts q O.SlotReset k) ∧ (k < 64) ∧ (s.i (O.SlotState + k) = 5 ∨ s.i (O.SlotState + k) = 6)) ∧
  (let s : State := st [] [(O.SlotState + 21, 2)]; let q : Req := qm; let k : Nat := 21; (s.Accepts q O.SlotReset k) ∧ (k < 64) ∧ (s.i (O.SlotState + k) ≠ 5) ∧ (s.i (O.SlotState + k) ≠ 6)) ∧
  (let s : State := (fun s => { s with ln := { s.ln with burstAt := [(21, 0)] } }) (st [] [(O.SlotState + 21, 4)]); let k : Nat := 21; (k < 64) ∧ ((s.i (O.SlotState + k) ≠ 4 ∨ s.acquiring k = true))) ∧
  (let s : State := atFt (2 ^ 60) (st [] [(O.SlotState + 21, 4)]); let k : Nat := 21; (k < 64) ∧ (s.i (O.SlotState + k) = 4) ∧ (s.acquiring k = false)) ∧
  (let s : State := st [] [(O.SlotState + 21, 3)]; let q : Req := qm; let k : Nat := 21; (s.Accepts q O.SpareTrainSlot k) ∧ (k < 64) ∧ ((s.i (O.SlotState + k) = 2 ∨ s.i (O.SlotState + k) = 3)) ∧ (s.i (O.SpareOwner + k / 8) = 0xFF)) ∧
  (let s : State := st [] [(O.SlotState + 21, 2), (O.SpareOwner + 2, 21)]; let q : Req := qm; let k : Nat := 21; (s.Accepts q O.RevertSlot k) ∧ (k < 64) ∧ (s.i (O.SlotState + k) < 4) ∧ (s.i (O.SpareOwner + k / 8) = k)) ∧
  (let s : State := st [] [(O.SlotState + 21, 1), (O.TwinState, 2)]; let k : Nat := 21; let gid : Nat := 77; (s.i (O.SlotState + k) = 1) ∧ ((s.isLead = true ∨ gid ≠ s.iGid ∨ k ∈ s.ln.adapted ∨ s.tm.xlinkUp = false))) ∧
  (let s : State := (fun s => { s with tm := { s.tm with xlinkUp := true } }) (st [] [(O.SlotState + 21, 1), (O.TwinState, 3)]); let k : Nat := 21; (s.i (O.SlotState + k) = 1) ∧ (s.isLead = false) ∧ (k ∉ s.ln.adapted) ∧ (s.tm.xlinkUp = true)) ∧
  (let s : State := st [] [(O.SlotState + 21, 2)]; let k : Nat := 21; let gid : Nat := 77; (s.i (O.SlotState + k) ≠ 1) ∧ (s.i (O.SlotState + k) ≠ 4)) := by
  refine ⟨?_, ?_, ?_, ?_, ?_, ?_, ?_, ?_, ?_, ?_, ?_, ?_, ?_, ?_, ?_, ?_, ?_, ?_, ?_⟩ <;> decide +kernel

theorem witness_LinkReceivers :
  (let s : State := st [] []; let l : Link := .port 2; let f : List Nat := mkFlit ⟨1, 0, 0, 0, 0, false, 0, false, false, false, false, false, 0, 2⟩ [0x130, 5]; let n : Nat := 0; let both : Bool := true; (flitBad l true f = true) ∧ ((match l with | .slot _ => false | _ => true) = true)) ∧
  (let s : State := (fun s => { s with ln := { s.ln with rx := [(21 * 16 + 1, ⟨some 6, [], false, [], none, none, []⟩)] } }) (st [] [(O.SlotState + 21, 2)]); let k : Nat := 21; let f : List Nat := mkFlit ⟨1, 21, 0, 6, 0, false, 0, false, false, false, false, false, 0, 2⟩ [0x130, 5]; let both : Bool := true; (k < 64) ∧ (s.i (O.SlotState + k) = 2) ∧ (s.NoRouse) ∧ (s.tm.iActs = []) ∧ (flitBad (.slot k) false f = false) ∧ ((flitHdr f).port = k) ∧ ((flitHdr f).ty ≠ 0) ∧ ((flitHdr f).mark = false) ∧ ((flitHdr f).loss = false) ∧ ((flitHdr f).resumed = false) ∧ ((s.rxOf (.slot k) (flitHdr f).ty).expect = some (flitHdr f).seq) ∧ ((s.rxOf (.slot k) (flitHdr f).ty).asked = none) ∧ ((s.rxOf (.slot k) (flitHdr f).ty).resync = false)) ∧
  (let s : State := st [] [(O.SlotState + 21, 2)]; let k : Nat := 21; let f : List Nat := mkFlit ⟨1, 20, 0, 6, 0, false, 0, false, false, false, false, false, 0, 2⟩ [0x130, 5]; let both : Bool := true; (k < 64) ∧ (s.i (O.SlotState + k) = 2) ∧ (s.NoRouse) ∧ (flitBad (.slot k) false f = false) ∧ ((flitHdr f).port ≠ k) ∧ (tgetD s.ln.miswired k 0 + 1 < 16)) ∧
  (let s : State := st [] []; let k : Nat := 21; let f : List Nat := mkFlit ⟨1, 20, 0, 6, 0, false, 0, false, false, false, false, false, 0, 2⟩ [0x130, 5]; let bad : Bool := false; let both : Bool := true; (k < 64) ∧ (s.i (O.SlotState + k) = 0 ∨ s.i (O.SlotState + k) = 5) ∧ (s.NoRouse)) ∧
  (let s : State := st [(O.SelectedChannel, 1)] []; let c : Nat := 1; let n : Nat := 0; let f : List Nat := mkFlit ⟨2, 20, 0, 6, 0, false, 0, false, false, false, true, false, 0, 2⟩ [0x130, 5]; let both : Bool := true; (c < 2) ∧ (s.heladReset = false) ∧ (flitBad (.chan c) false f = false) ∧ (s.h O.SelectedChannel = c) ∧ (((flitHdr f).ty = 2 ∨ (flitHdr f).ty = 8)) ∧ (tget s.ln.acted (flitHdr f).ty = none) ∧ (s.tm.hActs = [])) ∧
  (let s : State := (fun s => { s with ln := { s.ln with rx := [(21 * 16 + 1, ⟨some 6, [], false, [], none, none, [mkFlit ⟨1, 20, 0, 6, 0, false, 0, false, false, false, true, false, 0, 2⟩ [0x130, 5]]⟩)] } }) (st [] []); let l : Link := .slot 21; let ty : Nat := 1; let n : Nat := 6; let f : List Nat := mkFlit ⟨1, 20, 0, 6, 0, false, 0, false, false, false, true, false, 0, 2⟩ [0x130, 5]; (ty ≠ stRepair) ∧ (((s.rxOf l ty).kept ++ (s.rxOf l ty).held).find? (fun g => (flitHdr g).seq == n) = some f)) ∧
  (let s : State := st [] []; let l : Link := .slot 21; let ty : Nat := 1; let n : Nat := 6; (ty ≠ stRepair) ∧ (((s.rxOf l ty).kept ++ (s.rxOf l ty).held).find? (fun g => (flitHdr g).seq == n) = none)) ∧
  (let s : State := st [] []; let k : Nat := 21; let seqs : List Nat := []; (s.ln.forward.length < 4) ∧ (k ∉ s.ln.forward)) ∧
  (let s : State := (fun s => { s with ln := { s.ln with rx := [(21 * 16 + 1, ⟨some 6, [], false, [], some (6, 6, 0), none, []⟩)] } }) (st [] []); let l : Link := .slot 21; let at_ : Nat := 0; let f : List Nat := mkFlit ⟨1, 20, 0, 6, 0, false, 0, false, false, false, false, false, 0, 2⟩ [0x130, 5]; ((s.rxOf l (flitHdr f).ty).asked = some ((flitHdr f).seq, (flitHdr f).seq, at_)) ∧ ((s.rxOf l (flitHdr f).ty).expect = some (flitHdr f).seq) ∧ ((s.rxOf l (flitHdr f).ty).held = []) ∧ ((flitHdr f).mark = false) ∧ ((flitHdr f).loss = false) ∧ ((flitHdr f).resumed = false)) ∧
  (let s : State := atFt (2 ^ 60) ((fun s => { s with ln := { s.ln with rx := [(21 * 16 + 1, ⟨some 6, [], false, [], some (6, 9, 0), none, []⟩)] } }) (st [] [])); let k : Nat := 21; let ty : Nat := 1; let a : Nat := 6; let b : Nat := 9; let x : Nat := 0; ((s.rxOf (.slot k) ty).asked = some (a, b, x)) ∧ ((s.rxOf (.slot k) ty).expect = some a) ∧ ((s.rxOf (.slot k) ty).held = []) ∧ (a ≤ b) ∧ (b < 2 ^ 26) ∧ (ty ≠ stCounter) ∧ (x + us 20 ≤ s.ft .icd) ∧ (s.gr.index.length < indexRoom) ∧ (s.indexSound = true)) ∧
  (let s : State := st [] []; let l : Link := .slot 21; let ty : Nat := 1; (((s.rxOf l ty).asked.all fun p => decide (s.ft .icd < p.2.2 + us 20)) = true)) ∧
  (let s : State := atFt (2 ^ 60) ((fun s => { s with ln := { s.ln with rx := [(linkNum .xlink * 16 + 1, ⟨some 4, [], false, [mkFlit ⟨1, 20, 0, 6, 0, false, 0, false, false, false, false, false, 0, 2⟩ [0x130, 5]], none, some 0, []⟩)] } }) (st [] [])); let x : Nat := 0; let e : Nat := 4; let f : List Nat := mkFlit ⟨1, 20, 0, 6, 0, false, 0, false, false, false, false, false, 0, 2⟩ [0x130, 5]; (s.tm.xlinkUp = false) ∧ ((s.rxOf .xlink (flitHdr f).ty).skew = some x) ∧ ((s.rxOf .xlink (flitHdr f).ty).held = [f]) ∧ ((s.rxOf .xlink (flitHdr f).ty).expect = some e) ∧ ((s.rxOf .xlink (flitHdr f).ty).asked = none) ∧ (x + us 2 ≤ s.ft .icd)) := by
  refine ⟨?_, ?_, ?_, ?_, ?_, ?_, ?_, ?_, ?_, ?_, ?_, ?_⟩ <;> decide +kernel

theorem witness_ModuleFaults :
  (let s : State := (fun s => { s with pk := { s.pk with use := [(3, 1)] } }) (st [] []); let p : Nat := 3; let w : Nat := 2; (s.portUse p ≠ 0) ∧ (bit (tgetD s.pk.dark p 0) w = false) ∧ (w < 8) ∧ (p ∉ s.pk.spareUsed) ∧ (bit (tgetD s.pk.dark p 0) 8 = false) ∧ ((s.isLead = false ∨ s.tw.handover ≠ none ∨ s.tw.twinState ≠ 3))) ∧
  (let s : State := (fun s => { s with pk := { s.pk with use := [(3, 1)], spareUsed := [3] } }) (st [] []); let p : Nat := 3; let w : Nat := 2; (s.portUse p ≠ 0) ∧ (bit (tgetD s.pk.dark p 0) w = false) ∧ (w = 8 ∨ p ∈ s.pk.spareUsed ∨ bit (tgetD s.pk.dark p 0) 8 = true)) ∧
  (let s : State := (fun s => { s with tw := { s.tw with twinState := 3 }, pk := { s.pk with use := [(1, 3)], dark := [(1, 256)] } }) (st [] [(O.RoleActive, 1), (O.TwinState, 2)]); let p : Nat := 1; let w : Nat := 0; (s.upPort = some p) ∧ (s.pk.standby = false) ∧ (s.portOf 4 = none) ∧ (s.isLead = true) ∧ (s.tw.twinState = 3) ∧ (s.tw.handover = none) ∧ (w < 8) ∧ (bit (tgetD s.pk.dark p 0) w = false) ∧ (bit (tgetD s.pk.dark p 0) 8 = true) ∧ (s.portWaves p ≤ popCount 8 (setBit (tgetD s.pk.dark p 0) w true))) ∧
  (let s : State := (fun s => { s with pk := { s.pk with use := [(3, 3), (4, 4)], width := 1, dark := [(3, 255)] } }) (st [] [(O.TwinState, 2), (O.RoleActive, 1)]); let u : Nat := 3; let b : Nat := 4; (s.portOf 3 = some u) ∧ (s.portOf 4 = some b) ∧ (u < 16) ∧ (b < 16) ∧ (s.pk.standby = false) ∧ (s.portLost u = true) ∧ (s.isLead = true)) ∧
  (let s : State := (fun s => { s with tm := { s.tm with xlinkUp := true } }) (st [] []); let k : Nat := 2; True) ∧
  (let s : State := (fun s => { s with gr := { s.gr with casks := [⟨7, 0, 1, 2, 0, 0, 0, 0, 0, 0, 0, 0, [], [], []⟩], tier2 := [(7, 2, 0, 0)] } }) (st [] [(O.Tier2Present, 15)]); let p : Nat := 2; (p < 4) ∧ ((s.gr.casks.map (·.id)).Nodup)) ∧
  (let s : State := st [] []; let k : Nat := 20; let v : Nat := 1600; (k < 36) ∧ (v < 2 ^ 16)) ∧
  (let s : State := st [] []; let k : Nat := 20; (k < 36)) ∧
  (let s : State := st [] [(O.PowerLimit, 100)]; let v : Nat := 2000; (v < 2 ^ 32) ∧ (s.i O.PowerLimit * 95 ≤ v * 10) ∧ (s.pk.throttleFrom = none) ∧ (s.i O.ThrottleStep < 4)) ∧
  (let s : State := atFt (2 ^ 60) ((fun s => { s with pk := { s.pk with throttleFrom := some 3 } }) (st [] [(O.PowerLimit, 100), (O.ThrottleStep, 1)])); let v : Nat := 2000; let x : Nat := 3; (v < 2 ^ 32) ∧ (s.i O.PowerLimit * 95 ≤ v * 10) ∧ (s.pk.throttleFrom = some x) ∧ (x + ms 10 ≤ s.ft .icd) ∧ (s.i O.ThrottleStep < 3)) ∧
  (let s : State := st [] [(O.PowerLimit, 100), (O.ThrottleStep, 2)]; let v : Nat := 20; (v < 2 ^ 32) ∧ (v * 10 < s.i O.PowerLimit * 95) ∧ (s.pk.hot = [])) := by
  refine ⟨?_, ?_, ?_, ?_, ?_, ?_, ?_, ?_, ?_, ?_, ?_⟩ <;> decide +kernel

theorem witness_HostRings :
  (let s : State := st [] []; let ctls : List RingCtl := []; ((s.serving = false ∨ s.pk.fetchAt = some (s.ft .icd / ns (max 1 (s.i O.RingCadence)))))) ∧
  (let s : State := (fun s => { s with pk := { s.pk with pcieUp := true, ackPos := [(1, 9)] } }) (st [] [(O.TwinState, 3), (O.PfRingCount, 4), (O.HostLinkSpeed, 5)]); let c : RingCtl := ⟨1, 4096, 6, 65, 8192, 6, 0, true, 0⟩; (s.serving = true) ∧ (s.isLead = false) ∧ (s.pk.fetchAt ≠ some (s.ft .icd / ns (max 1 (s.i O.RingCadence)))) ∧ (s.pk.pcieUp = true) ∧ (s.i O.HostLinkSpeed ≠ 0) ∧ (c.ring < 1024) ∧ (c.ring < s.i O.PfRingCount)) ∧
  (let s : State := (fun s => { s with pk := { s.pk with rings := [(1, ring0)] } }) (st [] [(O.TwinState, 2), (O.PfRingCount, 4)]); let r : Ring := ring0; let c : RingCtl := ⟨1, 4096, 6, 65, 8192, 6, 0, true, 0⟩; (s.isLead = true) ∧ (s.serving = true) ∧ (s.pk.fetchAt ≠ some (s.ft .icd / ns (max 1 (s.i O.RingCadence)))) ∧ (s.pk.waiting = []) ∧ (s.tm.xlinkUp = false) ∧ (c.ring < 1024) ∧ (c.ring < s.i O.PfRingCount) ∧ (tget s.pk.rings c.ring = some r) ∧ (tget s.pk.complUsed c.ring = none) ∧ (c.enable = true) ∧ (r.stopped = false) ∧ (2 ^ c.log2e < (c.prod + 2 ^ 32 - r.cons) % 2 ^ 32)) ∧
  (let s : State := (fun s => { s with pk := { s.pk with rings := [(1, ring0)] } }) (st [] [(O.TwinState, 2), (O.PfRingCount, 4)]); let r : Ring := ring0; let c : RingCtl := ⟨1, 4096, 6, 5, 8192, 10, 0, true, 0⟩; (s.isLead = true) ∧ (s.serving = true) ∧ (s.pk.fetchAt ≠ some (s.ft .icd / ns (max 1 (s.i O.RingCadence)))) ∧ (s.pk.waiting = []) ∧ (s.tm.xlinkUp = false) ∧ (c.ring < 1024) ∧ (c.ring < s.i O.PfRingCount) ∧ (tget s.pk.rings c.ring = some r) ∧ (tget s.pk.complUsed c.ring = none) ∧ (c.enable = true) ∧ (r.stopped = false) ∧ (r.cprod = c.ccons) ∧ (r.cprod < 2 ^ 32) ∧ (s.i O.RingFetchMax ≤ 2 ^ c.log2c) ∧ (0 < s.i O.RingFetchMax) ∧ (0 < (c.prod + 2 ^ 32 - r.cons) % 2 ^ 32) ∧ ((c.prod + 2 ^ 32 - r.cons) % 2 ^ 32 ≤ 2 ^ c.log2e)) ∧
  (let s : State := st [] []; let ring : Nat := 2; let pos : Nat := 7; True) ∧
  (let s : State := st [] [(O.TwinState, 2)]; let ring : Nat := 2; let pos : Nat := 7; let n : Nat := stMalformed; let d : Rec := [0]; (s.isLead = true) ∧ ((if descAt (tgetD s.pk.ackPos ring 0) pos d then descBad (if 1024 ≤ ring then s.vfPart (ring - 1024) else 0) d else some stMalformed) = some n)) ∧
  (let s : State := (fun s => { s with pk := { s.pk with pcieUp := true } }) (st [] []); (s.pk.pcieUp = true)) ∧
  (let s : State := (fun s => { s with pk := { s.pk with pcieUp := false } }) (st [] []); (s.pk.pcieUp = false)) := by
  refine ⟨?_, ?_, ?_, ?_, ?_, ?_, ?_, ?_⟩ <;> decide +kernel

theorem witness_IngressAndChunks :
  (let s : State := (fun s => { s with ln := { s.ln with rx := [(21 * 16 + 1, ⟨some 6, [⟨0, 5, 0, 0⟩, ⟨7, 5, 0, 0⟩], false, [], none, none, []⟩)] } }) (st [] [(O.RoleActive, 1)]); let k : Nat := 21; let ty : Nat := 1; let u : RxUnit := ⟨0, 5, 0, 0⟩; let l : List RxUnit := [⟨7, 5, 0, 0⟩]; (k < 64) ∧ (ty < 16) ∧ (s.role = 1) ∧ (s.gr.index.length < indexRoom) ∧ (s.indexSound = true) ∧ ((s.rxOf (.slot k) ty).units = u :: l) ∧ (bits u.unit 16 16 = 0) ∧ (tget s.pw.paused k = none)) ∧
  (let s : State := (fun s => { s with ln := { s.ln with dieGid := [(21, 9)], rx := [(21 * 16 + 3, ⟨some 6, [⟨0x20023 + 9 * 2 ^ 32, 5, 0, 0⟩, ⟨7, 5, 0, 0⟩, ⟨8, 5, 0, 0⟩], false, [], none, none, []⟩)] } }) (st [] [(O.RoleActive, 1)]); let k : Nat := 21; let l : List RxUnit := [⟨0x20023 + 9 * 2 ^ 32, 5, 0, 0⟩, ⟨7, 5, 0, 0⟩]; let rest : List RxUnit := [⟨8, 5, 0, 0⟩]; (k < 64) ∧ (s.role = 1) ∧ (s.NoRouse) ∧ ((s.rxOf (.slot k) stTime).units = l ++ rest) ∧ (0 < l.length) ∧ ((l.head?.map fun u => bits u.unit 16 16) = some l.length) ∧ (tget s.pw.paused k = none) ∧ (s.i O.BenchEnable ≠ 1) ∧ (rType (l.map (·.unit)) = 0x23 ∨ rType (l.map (·.unit)) = 0x24) ∧ (tget s.ln.dieGid k = some (rSrc (l.map (·.unit)))) ∧ ((l.all fun u => u.part == rPart (l.map (·.unit))) = true)) ∧
  (let s : State := (fun s => { s with ln := { s.ln with dieGid := [(21, 9)], rx := [(21 * 16 + 6, ⟨some 6, [⟨0x200C0 + 9 * 2 ^ 32, 5, 0, 0⟩, ⟨512, 5, 0, 0⟩, ⟨8, 5, 0, 0⟩], false, [], none, none, []⟩)] } }) (st [] [(O.RoleActive, 1)]); let k : Nat := 21; let l : List RxUnit := [⟨0x200C0 + 9 * 2 ^ 32, 5, 0, 0⟩, ⟨512, 5, 0, 0⟩]; let rest : List RxUnit := [⟨8, 5, 0, 0⟩]; (k < 64) ∧ (s.role = 1) ∧ (s.NoRouse) ∧ ((s.rxOf (.slot k) stDigest).units = l ++ rest) ∧ (0 < l.length) ∧ ((l.head?.map fun u => bits u.unit 16 16) = some l.length) ∧ (tget s.pw.paused k = none) ∧ (s.i O.BenchEnable ≠ 1) ∧ (rType (l.map (·.unit)) = 0xC0) ∧ (recFld (l.map (·.unit)) 136 8 = 2) ∧ (tget s.ln.dieGid k = some (rSrc (l.map (·.unit)))) ∧ ((l.all fun u => u.part == rPart (l.map (·.unit))) = true) ∧ (s.staleRecord (rPart (l.map (·.unit))) 0 = false) ∧ (s.readers k (l.map (·.unit)) = 0) ∧ (s.exporting (l.map (·.unit)) = false) ∧ (((16 * l.length : Nat) : Int) ≤ s.gr.tokens + s.admitDepth) ∧ ((s.openCasks k).isEmpty = true) ∧ (s.gr.open_ = []) ∧ (tget s.gr.dropRun (k * 4) = none) ∧ (tget s.gr.resvRun (k * 4) = none)) ∧
  (let s : State := atFt (2 ^ 60) ((fun s => { s with gr := { s.gr with dropRun := [(21 * 4 + 2, (5, 0))] } }) (st [] [])); let k : Nat := 21; let p : Nat := 2; let b : Nat := 5; let x : Nat := 0; (k < 128) ∧ (p < 4) ∧ (tget s.gr.dropRun (k * 4 + p) = some (b, x)) ∧ (x / ms 1 < s.ft .icd / ms 1) ∧ (tget s.gr.resvRun (k * 4 + p) = none) ∧ (s.gr.casks = []) ∧ (s.gr.index.length < indexRoom) ∧ (s.indexSound = true)) ∧
  (let s : State := atFt (2 ^ 60) ((fun s => { s with gr := { s.gr with open_ := [(21 * 4 + 2, ⟨3, 21, 2, 0, 0, 0, 0, []⟩)] } }) (st [] [(O.RingFining, 1)])); let k : Nat := 21; let p : Nat := 2; let c : Chunk := ⟨3, 21, 2, 0, 0, 0, 0, []⟩; (k < 128) ∧ (p < 4) ∧ (tget s.gr.open_ (k * 4 + p) = some c) ∧ (c.first + ms (s.i O.ChunkMaxAge) ≤ s.ft .icd) ∧ (s.i O.RingFining = 1) ∧ (lsum (s.gr.await.map fun d => recsBytes d.recs) ≤ 67108864) ∧ (s.i O.ThrottleStep < 3)) ∧
  (let s : State := atFt (2 ^ 60) ((fun s => { s with gr := { s.gr with open_ := [(21 * 4 + 2, ⟨3, 21, 2, 1, 0, 0, 0, [⟨1, 21, 2, 6, 5, 0, [0x200C0 + 9 * 2 ^ 32, 512], 0⟩]⟩)] } }) (st [] [(O.RingFining, 0)])); let k : Nat := 21; let p : Nat := 2; let o : Nat := 0; let c : Chunk := ⟨3, 21, 2, 1, 0, 0, 0, [⟨1, 21, 2, 6, 5, 0, [0x200C0 + 9 * 2 ^ 32, 512], 0⟩]⟩; (k < 128) ∧ (p < 4) ∧ (tget s.gr.open_ (k * 4 + p) = some c) ∧ (c.first + ms (s.i O.ChunkMaxAge) ≤ s.ft .icd) ∧ (s.i O.RingFining = 0) ∧ (c.region = 1) ∧ (Memory.wf s.me.t1 = true) ∧ (s.me.poison = []) ∧ (s.gr.index.length < indexRoom) ∧ (placeRun ((s.gr.chunks.filter fun d => d.region == 1).map Chunk.extent) (s.pw.layout.2.1 * 4194304) ((recsBytes c.recs + 255) / 256) s.gr.postHead = some o)) ∧
  (let s : State := atFt (2 ^ 60) ((fun s => { s with gr := { s.gr with open_ := [(21 * 4 + 2, ⟨3, 21, 2, 0, 0, 0, 0, [⟨1, 21, 2, 6, 5, 0, [0x200C0 + 9 * 2 ^ 32, 512], 0⟩]⟩)] } }) (st [] [(O.RingFining, 0)])); let k : Nat := 21; let p : Nat := 2; let o : Nat := 0; let c : Chunk := ⟨3, 21, 2, 0, 0, 0, 0, [⟨1, 21, 2, 6, 5, 0, [0x200C0 + 9 * 2 ^ 32, 512], 0⟩]⟩; (k < 128) ∧ (p < 4) ∧ (tget s.gr.open_ (k * 4 + p) = some c) ∧ (c.first + ms (s.i O.ChunkMaxAge) ≤ s.ft .icd) ∧ (s.i O.RingFining = 0) ∧ (c.region = 0) ∧ (s.gr.chunks = []) ∧ (Memory.wf s.me.t1 = true) ∧ (s.me.poison = []) ∧ (s.gr.index.length < indexRoom) ∧ (placeRun [] (s.pw.layout.1 * 4194304) ((recsBytes c.recs + 255) / 256) s.gr.ringHead = some o)) ∧
  (let s : State := (fun s => { s with gr := { s.gr with await := [⟨3, 21, 2, 1, 0, 0, 0, [⟨1, 21, 2, 6, 5, 0, [0x200C0 + 9 * 2 ^ 32, 512], 0⟩]⟩] } }) (st [] []); let n : Nat := 3; let n' : Nat := 32; let o : Nat := 0; let c : Chunk := ⟨3, 21, 2, 1, 0, 0, 0, [⟨1, 21, 2, 6, 5, 0, [0x200C0 + 9 * 2 ^ 32, 512], 0⟩]⟩; (s.gr.await.find? (fun d => d.num == n) = some c) ∧ (c.region = 1) ∧ (Memory.wf s.me.t1 = true) ∧ (s.me.poison = []) ∧ (n' = (if s.i O.ThrottleStep < 3 then min (recsBytes c.recs) (16 * lsum ((finSeq 15 [] (c.recs.map (·.rec_))).map List.length)) else recsBytes c.recs)) ∧ (placeRun ((s.gr.chunks.filter fun d => d.region == 1).map Chunk.extent) (s.pw.layout.2.1 * 4194304) ((n' + 255) / 256) s.gr.postHead = some o)) ∧
  (let s : State := atFt (2 ^ 60) (st [] []); (s.gr.index.length < indexRoom) ∧ (s.indexSound = true) ∧ (s.gr.anchor < s.ft .icd / ns 1000000000)) := by
  refine ⟨?_, ?_, ?_, ?_, ?_, ?_, ?_, ?_, ?_⟩ <;> decide +kernel

theorem witness_Casks :
  (let s : State := st [] [(inst O.RuleKind 3, 1), (inst O.RuleScope 3, 6)]; let q : Req := qr; let at_ : Nat := 0; (askedByRing q = true) ∧ (s.AcceptsDesc q) ∧ ((List.range 16).filter (fun r => s.i (inst O.RuleKind r) == 1) = [3]) ∧ (s.i (inst O.RuleScope 3) ≠ 0)) ∧
  (let s : State := st [] [(O.RuleKind, 1), (O.RuleScope, 6)]; let q : Req := qs; (s.Accepts q O.CaskSeal q.tag) ∧ ((List.range 16).filter (fun r => s.i (inst O.RuleKind r) == 1) = [0]) ∧ (s.i (inst O.RuleScope 0) ≠ 0)) ∧
  (let s : State := (fun s => { s with gr := { s.gr with fired := [⟨3, 1, 6, 9, 7, 0, 0⟩] } }) (st [] []); let r : Trig := ⟨3, 1, 6, 9, 7, 0, 0⟩; (s.gr.fired = [r]) ∧ (r.due ≤ s.ft .icd) ∧ (s.isLead = false)) ∧
  (let s : State := (fun s => { s with gr := { s.gr with fired := [⟨3, 1, 6, 9, 7, 0, 0⟩] } }) (st [] [(O.TwinState, 2)]); let r : Trig := ⟨3, 1, 6, 9, 7, 0, 0⟩; (s.gr.fired = [r]) ∧ (r.due ≤ s.ft .icd) ∧ (s.isLead = true) ∧ (s.gr.casks = []) ∧ (s.gr.open_ = []) ∧ (s.gr.chunks = []) ∧ (s.gr.await = []) ∧ (s.pk.inputLow = false)) ∧
  (let s : State := (fun s => { s with gr := { s.gr with casks := (List.range 8).map (fun i => (⟨i, 0, 1, 0, 0, 0, 0, 0, 0, 0, 0, 0, [], [], []⟩ : Cask)), fired := [⟨3, 1, 6, 9, 7, 0, 0⟩] } }) (st [] [(O.TwinState, 2)]); let r : Trig := ⟨3, 1, 6, 9, 7, 0, 0⟩; (s.gr.fired = [r]) ∧ (r.due ≤ s.ft .icd) ∧ (s.isLead = true) ∧ (8 ≤ (s.gr.casks.filter Cask.live).length)) ∧
  (let s : State := st [] []; let c : CaskIn := ⟨7, 3, 1, 5, 9, 6, 10, 20, 0, [(3, 4)], []⟩; (s.isLead = false) ∧ (s.gr.casks = []) ∧ (s.gr.open_ = []) ∧ (s.gr.chunks = []) ∧ (s.gr.await = [])) ∧
  (let s : State := atFt (2 ^ 60) ((fun s => { s with gr := { s.gr with casks := [⟨7, 0, 1, 0, 0, 0, 0, 0, 0, 0, 0, 0, [], [], []⟩] } }) (st [] [(O.TwinState, 2)])); let id : Nat := 7; let c : Cask := ⟨7, 0, 1, 0, 0, 0, 0, 0, 0, 0, 0, 0, [], [], []⟩; (s.isLead = true) ∧ (s.gr.casks = [c]) ∧ (c.id = id) ∧ (c.status = 0) ∧ (bits c.trig 0 80 + ns c.post ≤ s.ft .icd)) ∧
  (let s : State := (fun s => { s with gr := { s.gr with casks := [⟨7, 0, 1, 1, 0, 0, 0, 0, 0, 0, 0, 0, [], [], []⟩] } }) (st [] []); let q : Req := qs; let id : Nat := 7; let c : Cask := ⟨7, 0, 1, 1, 0, 0, 0, 0, 0, 0, 0, 0, [], [], []⟩; (s.Accepts q O.CaskRelease id) ∧ (s.gr.casks = [c]) ∧ (c.id = id) ∧ (c.live = true)) ∧
  (let s : State := (fun s => { s with gr := { s.gr with tier2 := [(7, 2, 0, 3)] } }) (st [] []); let q : Req := qs; let id : Nat := 7; (s.Accepts q O.Tier2Free id) ∧ ((s.gr.tier2.any fun e => e.1 == id) = true)) := by
  refine ⟨?_, ?_, ?_, ?_, ?_, ?_, ?_, ?_, ?_⟩ <;> decide +kernel

theorem witness_RackingAndFining :
  (let s : State := (fun s => { s with gr := { s.gr with casks := [⟨7, 0, 1, 1, 0, 0, 0, 0, 0, 0, 0, 0, [], [], []⟩] } }) (st [] [(O.Tier2Present, 4), (O.Tier2Capacity + 2, 1)]); let c : Cask := ⟨7, 0, 1, 1, 0, 0, 0, 0, 0, 0, 0, 0, [], [], []⟩; let p : Nat := 2; let o : Nat := 0; (s.gr.racking = none) ∧ (s.i O.ThrottleStep < 3) ∧ (s.pk.inputLow = false) ∧ (s.gr.casks.find? (fun c => c.status == 1 || c.status == 6) = some c) ∧ (s.rackPort (s.caskPages c) = some (p, o))) ∧
  (let s : State := (fun s => { s with gr := { s.gr with casks := [⟨7, 0, 1, 1, 0, 0, 0, 0, 0, 0, 0, 0, [], [], []⟩] } }) (st [] [(O.Tier2Present, 0)]); let c : Cask := ⟨7, 0, 1, 1, 0, 0, 0, 0, 0, 0, 0, 0, [], [], []⟩; (s.gr.racking = none) ∧ (s.i O.ThrottleStep < 3) ∧ (s.pk.inputLow = false) ∧ (s.gr.casks = [c]) ∧ (c.status = 1) ∧ (s.rackPort (s.caskPages c) = none)) ∧
  (let s : State := st [] [(O.ThrottleStep, 3)]; (s.gr.racking.isSome = true ∨ 3 ≤ s.i O.ThrottleStep)) ∧
  (let s : State := (fun s => { s with gr := { s.gr with racking := some (7, 2, 0), casks := [⟨7, 0, 1, 1, 0, 0, 0, 0, 0, 0, 0, 0, [], [], []⟩] } }) (st [] [(O.Tier2Present, 4)]); let c : Cask := ⟨7, 0, 1, 1, 0, 0, 0, 0, 0, 0, 0, 0, [], [], []⟩; let p : Nat := 2; let o : Nat := 0; (s.gr.racking = some (c.id, p, o)) ∧ (s.gr.casks = [c]) ∧ (s.i O.ThrottleStep < 3) ∧ (Memory.wf s.gr.t2 = true)) ∧
  (let s : State := st [] []; let q : Req := qr; let v : Nat := 0; let arg : Rec := [0x40071, 0, 0, 0]; (s.AcceptsDesc q) ∧ (rType arg = 0x71) ∧ (rLen arg = 4) ∧ (recFld arg 128 8 ≤ 1) ∧ (recFld arg 138 6 = 0) ∧ (recFld arg 148 12 = 0) ∧ (recFld arg 192 4 = 0) ∧ (recFld arg 256 4 = 0) ∧ (recFld arg 320 4 = 0) ∧ ((tgetD s.gr.jobs s.freestInst []).length < 256)) ∧
  (let s : State := st [] []; let q : Req := qr; let v : Nat := 0; let arg : Rec := [0]; (s.AcceptsDesc q) ∧ (rType arg ≠ 0x71)) ∧
  (let s : State := (fun s => { s with gr := { s.gr with jobs := [(2, [⟨[0x40071, 256 + 512, 2 ^ 60 * 2 ^ 64, 0], none, []⟩])] } }) (st [] []); let k : Nat := 2; let bad : List Nat := [5]; let j : FinJob := ⟨[0x40071, 256 + 512, 2 ^ 60 * 2 ^ 64, 0], none, []⟩; let rest : List FinJob := []; (k < 4) ∧ (tgetD s.gr.jobs k [] = j :: rest) ∧ (s.i O.ThrottleStep < 3) ∧ ((s.finDenied j.desc).isSome = true)) ∧
  (let s : State := (fun s => { s with gr := { s.gr with t2 := [(2 ^ 45, 0xC0#8), (2 ^ 45 + 2, 2#8)], jobs := [(2, [⟨[0x40071, 768 + 2 ^ 109, 32 + (2 ^ 45 + 4096) * 2 ^ 64, 4096], none, []⟩])] } }) ((fun s => { s with pk := { s.pk with domOn := [90] } }) (st [] [(O.Tier2Present, 4), (O.Tier2Capacity + 2, 1)])); let k : Nat := 2; let bad : List Nat := [5]; let j : FinJob := ⟨[0x40071, 768 + 2 ^ 109, 32 + (2 ^ 45 + 4096) * 2 ^ 64, 4096], none, []⟩; let rest : List FinJob := []; let s1 : State := { s with me := { s.me with t2poison := (bad ++ s.me.t2poison).eraseDups } }; (k < 4) ∧ (tgetD s.gr.jobs k [] = j :: rest) ∧ (s.i O.ThrottleStep < 3) ∧ (s1 = { s with me := { s.me with t2poison := (bad ++ s.me.t2poison).eraseDups } }) ∧ (s1.finDenied j.desc = none)) ∧
  (let s : State := st [] []; let k : Nat := 2; let bad : List Nat := [5]; (tgetD s.gr.jobs k [] = [] ∨ 3 ≤ s.i O.ThrottleStep)) ∧
  (let s : State := st [] []; let q : Req := qs; let tag : Nat := 9; let n : Nat := 2; (s.Accepts q O.FiningAbort tag) ∧ (∀ k, k < 4 → ((tgetD s.gr.jobs k []).all fun j => recFld j.desc 160 32 != tag) = true)) ∧
  (let s : State := (fun s => { s with gr := { s.gr with jobs := [(2, [⟨[0x40071, 256 + 512 + 9 * 2 ^ 32, 2 ^ 60 * 2 ^ 64, 0], none, []⟩])] } }) (st [] []); let q : Req := qs; let n : Nat := 2; let j : FinJob := ⟨[0x40071, 256 + 512 + 9 * 2 ^ 32, 2 ^ 60 * 2 ^ 64, 0], none, []⟩; let tag : Nat := 9; (s.Accepts q O.FiningAbort tag) ∧ (s.gr.jobs = [(2, [j])]) ∧ (recFld j.desc 160 32 = tag) ∧ ((s.finDenied j.desc).isSome = true)) := by
  refine ⟨?_, ?_, ?_, ?_, ?_, ?_, ?_, ?_, ?_, ?_, ?_⟩ <;> decide +kernel

theorem witness_SeriesEngine :
  (let s : State := (fun s => { s with se := { s.se with act := [(7, (0, 0, 0))], cur := [⟨5, 7, 100, 2 ^ 30, false⟩] } }) (st [] []); let m : Sample := ⟨5, 7, 100, 2 ^ 30, false⟩; let l : List Sample := []; (s.se.cur = m :: l) ∧ (spTransform (s.paramAt m.ser (bits m.stm 16 64)) = 0)) ∧
  (let s : State := (fun s => { s with se := { s.se with act := [(7, (0, 1 + 9 * 2 ^ 16, 0))], ents := [((s.seriesHash (5 * 4096 + 7)).1 * 8 + (s.seriesHash (5 * 4096 + 7)).2, ⟨5 * 4096 + 7, 5, 0, 0, 0, 0, 0, 0, 0, 0, 0, 0, 0, true, []⟩)], cur := [⟨5, 7, 100, 2 ^ 30, false⟩] } }) (st [] []); let m : Sample := ⟨5, 7, 100, 2 ^ 30, false⟩; let l : List Sample := []; let e : SerEnt := ⟨5 * 4096 + 7, 5, 0, 0, 0, 0, 0, 0, 0, 0, 0, 0, 0, true, []⟩; (s.se.cur = m :: l) ∧ (spTransform (s.paramAt m.ser (bits m.stm 16 64)) = 1) ∧ (bit (s.paramAt m.ser (bits m.stm 16 64)) 2 = false) ∧ (tget s.se.ents ((s.seriesHash (m.die * 4096 + m.ser)).1 * 8 + (s.seriesHash (m.die * 4096 + m.ser)).2) = some e) ∧ (e.key = m.die * 4096 + m.ser) ∧ (bit e.flags 1 = false) ∧ (e.rebase = []) ∧ ((e.fresh = true ∨ e.lastFt < bits m.stm 16 64)) ∧ (bit e.flags 2 = true) ∧ (e.count < bits (s.paramAt m.ser (bits m.stm 16 64)) 16 16)) ∧
  (let s : State := (fun s => { s with se := { s.se with act := [(7, (0, 2 + 9 * 2 ^ 16, 0))], ents := [((s.seriesHash (5 * 4096 + 7)).1 * 8 + (s.seriesHash (5 * 4096 + 7)).2, ⟨5 * 4096 + 7, 5, 0, 0, 0, 0, 0, 0, 0, 0, 0, 0, 0, true, []⟩)], cur := [⟨5, 7, 100, 2 ^ 30, false⟩] } }) (st [] []); let m : Sample := ⟨5, 7, 100, 2 ^ 30, false⟩; let l : List Sample := []; let e : SerEnt := ⟨5 * 4096 + 7, 5, 0, 0, 0, 0, 0, 0, 0, 0, 0, 0, 0, true, []⟩; (s.se.cur = m :: l) ∧ (2 ≤ spTransform (s.paramAt m.ser (bits m.stm 16 64))) ∧ (tget s.se.ents ((s.seriesHash (m.die * 4096 + m.ser)).1 * 8 + (s.seriesHash (m.die * 4096 + m.ser)).2) = some e) ∧ (e.key = m.die * 4096 + m.ser) ∧ (bit e.flags 1 = false) ∧ (e.rebase = []) ∧ (e.fresh = true) ∧ (m.gap = false)) ∧
  (let s : State := (fun s => { s with se := { s.se with act := [(7, (0, 2 + 9 * 2 ^ 16, 0))], ents := [((s.seriesHash (5 * 4096 + 7)).1 * 8 + (s.seriesHash (5 * 4096 + 7)).2, ⟨5 * 4096 + 7, 5, 0, 0, 0, 0, 0, 0, 0, 0, 2 ^ 40, 0, 0, false, []⟩)], cur := [⟨5, 7, 100, 2 ^ 30, false⟩] } }) (st [] []); let m : Sample := ⟨5, 7, 100, 2 ^ 30, false⟩; let l : List Sample := []; let e : SerEnt := ⟨5 * 4096 + 7, 5, 0, 0, 0, 0, 0, 0, 0, 0, 2 ^ 40, 0, 0, false, []⟩; (s.se.cur = m :: l) ∧ (spTransform (s.paramAt m.ser (bits m.stm 16 64)) ≠ 0) ∧ (tget s.se.ents ((s.seriesHash (m.die * 4096 + m.ser)).1 * 8 + (s.seriesHash (m.die * 4096 + m.ser)).2) = some e) ∧ (e.key = m.die * 4096 + m.ser) ∧ (bit e.flags 1 = false) ∧ (e.fresh = false) ∧ (bits m.stm 16 64 ≤ e.lastFt)) ∧
  (let s : State := atFt (2 ^ 60) ((fun s => { s with se := { s.se with act := [(7, (0, 1 + 8 + 9 * 2 ^ 16, 0))], touched := [(5 * 4096 + 7, (3, false, false))] } }) (st [] [(O.RoleActive, 1)])); (s.role = 1 ∨ s.role = 2) ∧ (s.up.decOwed = none) ∧ (s.i (inst O.DecimationFactor (s.upPort.getD 0)) = 1) ∧ (s.se.fwdK < s.ft .icd / ms (max 1 (s.i O.ForwardInterval))) ∧ (((s.se.touched.filter fun p => bit (s.paramAt (p.1 % 4096) (s.ft .icd / ms (max 1 (s.i O.ForwardInterval)) * ms (max 1 (s.i O.ForwardInterval)) / 65536)) 3).length = 1) = true)) ∧
  (let s : State := st [] [(O.RoleActive, 3)]; (s.role = 3 ∨ s.role = 0)) ∧
  (let s : State := st [] []; let q : Req := qs; let v : Nat := 2 ^ 36 - 1; (s.Accepts q O.Rebaseline v)) ∧
  (let s : State := (fun s => { s with se := { s.se with steps := [(9, ⟨[], [7], [], [], []⟩)] } }) (st [] [(inst O.StepConfig 0, 9 + 5 * 2 ^ 16)]); let r : Rec := State.iRec (st [] []) 0x82 3 0 9 [(128, 32, 5), (192, 32, 7)]; let e : Nat × Nat := (0, 9 + 5 * 2 ^ 16); let x : StepPart := ⟨[], [7], [], [], []⟩; (s.stepEntry (rPart r) = some e) ∧ (tget s.se.steps (rPart r) = some x) ∧ (recFld r 192 32 ∈ x.closed)) ∧
  (let s : State := st [] [(inst O.StepConfig 0, 9 + 5 * 2 ^ 16)]; let r : Rec := State.iRec (st [] []) 0x82 3 0 9 [(128, 32, 5), (192, 32, 7)]; let e : Nat × Nat := (0, 9 + 5 * 2 ^ 16); (s.stepEntry (rPart r) = some e) ∧ (e.1 < 1024) ∧ (tget s.se.steps (rPart r) = none) ∧ (tget s.rd.epochs (s.i O.EpochNow) = none) ∧ (s.isLead = false)) ∧
  (let s : State := atFt (2 ^ 60) ((fun s => { s with se := { s.se with steps := [(9, ⟨[⟨7, 0, [], []⟩], [], [], [], []⟩)] } }) (st [] [(O.TwinState, 2), (inst O.StepConfig 0, 9 + 5 * 2 ^ 16)])); let part : Nat := 9; let step : Nat := 7; let e : Nat × Nat := (0, 9 + 5 * 2 ^ 16); let o : StepOpen := ⟨7, 0, [], []⟩; let sh : Tbl Nat := []; (s.isLead = true) ∧ (s.stepEntry part = some e) ∧ (e.1 < 1024) ∧ (tget s.se.steps part = some ⟨[o], [], [], [], sh⟩) ∧ (o.step = step) ∧ (o.recs = []) ∧ (tget s.tw.parts part = none) ∧ (o.at_ + us (bits (s.i (inst O.StepLimits e.1)) 16 32) ≤ s.ft .icd)) ∧
  (let s : State := ((fun s => { s with se := { s.se with steps := [(9, ⟨[⟨7, 0, [], []⟩], [], [], [], []⟩)] } }) (st [] [(inst O.StepConfig 0, 9 + 5 * 2 ^ 16)])); let part : Nat := 9; let step : Nat := 7; let e : Nat × Nat := (0, 9 + 5 * 2 ^ 16); let o : StepOpen := ⟨7, 0, [], []⟩; let sh : Tbl Nat := []; let cause : Nat := 1; let fetched : List Rec := []; let l : List Nat := []; (s.isLead = false) ∧ (s.stepEntry part = some e) ∧ (e.1 < 1024) ∧ (tget s.se.steps part = some ⟨[o], [], [], [], sh⟩) ∧ (o.step = step) ∧ (tget s.tw.parts part = none) ∧ (cause ≠ 2)) := by
  refine ⟨?_, ?_, ?_, ?_, ?_, ?_, ?_, ?_, ?_, ?_, ?_⟩ <;> decide +kernel

theorem witness_EpochsAndAnchors :
  (let s : State := atFt (2 ^ 60) ((fun s => { s with rd := { s.rd with has := true, len := 1000000, epochs := [(0, ⟨0, 0, 1000000, 0, 0, 0, [], [], [], [], [], [], [], false, false, [], false, false, [], 0, 0, 0, false⟩)] } }) (st [] [])); let e0 : Epoch := ⟨0, 0, 1000000, 0, 0, 0, [], [], [], [], [], [], [], false, false, [], false, false, [], 0, 0, 0, false⟩; (s.rd.has = true) ∧ (ns (s.i O.EpochStartNs) + s.epochLen ≤ s.ft .icd) ∧ (s.rd.slip = none) ∧ (s.rd.early = []) ∧ (s.tm.iActs = []) ∧ (s.si.hel.change = none) ∧ (s.NoRouse) ∧ (tget s.rd.epochs (s.i O.EpochNow) = some e0) ∧ (e0.num = s.i O.EpochNow) ∧ ((s.closeLocal.deferred ((s.i O.EpochNow + 1) % 2 ^ 48) (ns (s.i O.EpochStartNs) + s.epochLen)).commit = s.closeLocal.commit)) ∧
  (let s : State := st [] []; (s.rd.has = false ∨ s.ft .icd < ns (s.i O.EpochStartNs) + s.epochLen)) ∧
  (let s : State := ((fun s => { s with rd := { s.rd with has := true, changes := 1 } }) (st [] [(O.TwinState, 2), (O.RoleActive, 3)])); (s.rd.has = true) ∧ (s.isLead = true) ∧ (tgetD s.rd.told (linkNum .xlink) 0 < s.rd.changes) ∧ (s.tm.dreqNew.contains (linkNum .xlink) = false) ∧ ((s.role = 3 ∨ s.tw.twinNoUp = true))) ∧
  (let s : State := ((fun s => { s with rd := { s.rd with has := true }, tm := { s.tm with dreqNew := [linkNum (.down 5)] } }) (st [] [(O.TwinState, 2), (O.RoleActive, 3)])); let d : Nat := 5; (s.rd.has = true) ∧ (s.isLead = true) ∧ (s.tm.dreqNew.contains (linkNum (.down d)) = true) ∧ (tgetD s.rd.served (linkNum (.down d)) 0 < 16)) ∧
  (let s : State := st [] [(O.RoleActive, 1)]; (s.role ≠ 3) ∧ (s.tw.twinNoUp = false)) ∧
  (let s : State := st [] []; let l : Link := .down 3; (s.rd.has = false ∨ s.isLead = false)) ∧
  (let s : State := st [] [(O.FtState, 2)]; let r : Rec := State.iRec (st [] []) 0x25 3 0 0 [(128, 48, 77), (192, 64, 5000000), (256, 32, 1000000)]; (s.i O.FtState ≠ 0) ∧ (recFld r 256 32 ≠ 0) ∧ (s.rd.has = false)) ∧
  (let s : State := ((fun s => { s with rd := { s.rd with has := true, len := 1000000 } }) (st [] [(O.FtState, 2), (O.EpochNow, 78), (O.EpochStartNs, 6000000)])); let r : Rec := State.iRec (st [] []) 0x25 3 0 0 [(128, 48, 77), (192, 64, 5000000), (256, 32, 1000000)]; (s.rd.has = true) ∧ (s.rd.len = recFld r 256 32) ∧ (recFld r 128 48 ≤ s.i O.EpochNow) ∧ (recFld r 192 64 + (s.i O.EpochNow - recFld r 128 48) * recFld r 256 32 = s.i O.EpochStartNs)) ∧
  (let s : State := ((fun s => { s with rd := { s.rd with has := true, len := 1000000 } }) (st [] [(O.FtState, 2), (O.EpochNow, 78), (O.EpochStartNs, 6000000)])); let r : Rec := State.iRec (st [] []) 0x25 3 0 0 [(128, 48, 77), (192, 64, 5000000), (256, 32, 2000000)]; (s.i O.FtState ≠ 0) ∧ (recFld r 256 32 ≠ 0) ∧ (s.rd.has = true) ∧ (s.rd.len ≠ recFld r 256 32)) ∧
  (let s : State := st [] [(O.RoleActive, 3), (O.TwinState, 6)]; let q : Req := qs; let v : Nat := 2000; (s.Accepts q O.EpochLength v) ∧ (epochFits v (s.i O.GracePerLevel) (s.i O.ResultBudget) = true) ∧ (s.tm.iActs.length < 1024)) ∧
  (let s : State := st [] [(O.RoleActive, 3), (O.TwinState, 6), (O.ResultBudget, 2 ^ 31)]; let q : Req := qs; let v : Nat := 2000; (s.Accepts q O.EpochLength v) ∧ (epochFits v (s.i O.GracePerLevel) (s.i O.ResultBudget) = false)) ∧
  (let s : State := st [] [(O.RoleActive, 3), (O.TwinState, 6)]; let q : Req := qs; (s.Accepts q O.ReductionCommit 1) ∧ ((s.cd.all fun p => decide (p.1 < 0x480000 ∨ 0x490000 ≤ p.1)) = true) ∧ (s.tm.iActs.length < 1024)) ∧
  (let s : State := st [] [(O.RoleActive, 3), (O.TwinState, 6), (inst O.ReductionDef 5, 1 + 5 * 2)]; let q : Req := qs; let n : Nat := 5; (s.Accepts q O.ReductionCommit 1) ∧ (n < 256) ∧ (bit (s.i (inst O.ReductionDef n)) 0 = true) ∧ (comboOk (s.i (inst O.ReductionDef n)) = false)) := by
  refine ⟨?_, ?_, ?_, ?_, ?_, ?_, ?_, ?_, ?_, ?_, ?_, ?_, ?_⟩ <;> decide +kernel

theorem witness_ReductionCloses :
  (let s : State := atFt (2 ^ 60) ((fun s => { s with rd := { s.rd with has := true, len := 1000000, epochs := [(7, ⟨7, 0, 1000000, 5, 6, 8, [], [], [(3, (1, (0, 0)))], [], [], [], [], false, false, [], false, false, [], 0, 0, 0, false⟩)] } }) (st [] [(O.RoleActive, 1), (O.TwinState, 2)])); let lost : List (Nat × Nat × Nat) := [(3, 7, 2)]; let n : Nat := 7; let ag : Option (List (Nat × Nat) × List Nat) := none; let e : Epoch := ⟨7, 0, 1000000, 5, 6, 8, [], [], [(3, (1, (0, 0)))], [], [], [], [], false, false, [], false, false, [], 0, 0, 0, false⟩; (tget s.rd.epochs n = some e) ∧ (e.num = n) ∧ (e.closed = false) ∧ (e.childs = []) ∧ (s.role = 1) ∧ (s.isLead = true) ∧ (ns (e.start + e.len) + us e.grace ≤ s.ft .icd)) ∧
  (let s : State := ((fun s => { s with rd := { s.rd with has := true, len := 1000000, epochs := [(7, ⟨7, 0, 1000000, 5, 6, 8, [], [], [(3, (1, (0, 0)))], [], [], [], [], false, false, [], false, false, [], 0, 0, 0, false⟩)] } }) (st [] [(O.RoleActive, 1), (O.TwinState, 2)])); let lost : List (Nat × Nat × Nat) := [(3, 7, 2)]; let n : Nat := 7; let ag : Option (List (Nat × Nat) × List Nat) := none; let l : List (Nat × Nat × Nat × Rec) := []; let e : Epoch := ⟨7, 0, 1000000, 5, 6, 8, [], [], [(3, (1, (0, 0)))], [], [], [], [], false, false, [], false, false, [], 0, 0, 0, false⟩; (tget s.rd.epochs n = some e) ∧ (e.closed = true ∨ s.ft .icd < ns (e.start + e.len) + s.level * us e.grace)) ∧
  (let s : State := st [] []; let p : Nat := 3; let r : Rec := State.iRec (st [] []) 0x90 4 0 0 [(128, 16, 3), (144, 48, 7), (256, 64, 55)]; (rType r = 0x90) ∧ (tget s.rd.epochs (recFld r 144 48) = none)) ∧
  (let s : State := ((fun s => { s with rd := { s.rd with epochs := [(7, ⟨7, 0, 1000000, 5, 6, 8, [], [], [(3, (1, (0, 0)))], [], [], [], [], false, false, [], false, false, [], 0, 0, 0, false⟩)] } }) (st [] [])); let p : Nat := 3; let r : Rec := State.iRec (st [] []) 0x90 4 0 0 [(128, 16, 3), (144, 48, 7), (256, 64, 55)]; let e : Epoch := ⟨7, 0, 1000000, 5, 6, 8, [], [], [(3, (1, (0, 0)))], [], [], [], [], false, false, [], false, false, [], 0, 0, 0, false⟩; (rType r = 0x90) ∧ (tget s.rd.epochs (recFld r 144 48) = some e) ∧ (e.num = recFld r 144 48) ∧ (e.suppDone = false) ∧ (e.childs = []) ∧ (e.closed = false) ∧ (s.ft .icd < s.closeAt e)) ∧
  (let s : State := ((fun s => { s with rd := { s.rd with epochs := [(7, ⟨7, 0, 1000000, 5, 6, 8, [], [], [(3, (1, (0, 0)))], [], [], [], [], true, false, [], false, false, [], 0, 0, 0, false⟩)] } }) (st [] [])); let p : Nat := 3; let r : Rec := State.iRec (st [] []) 0x92 3 0 0 [(128, 48, 7)]; let e : Epoch := ⟨7, 0, 1000000, 5, 6, 8, [], [], [(3, (1, (0, 0)))], [], [], [], [], true, false, [], false, false, [], 0, 0, 0, false⟩; (rType r = 0x92) ∧ (tget s.rd.epochs (recFld r 128 48) = some e) ∧ (e.num = recFld r 128 48) ∧ (e.suppDone = false) ∧ (e.childs = []) ∧ (e.closed = true) ∧ (s.ft .icd < s.suppAt e) ∧ (recFld r 176 1 = 0)) ∧
  (let s : State := ((fun s => { s with rd := { s.rd with epochs := [(7, ⟨7, 0, 1000000, 5, 6, 8, [], [], [(3, (1, (0, 0)))], [], [], [], [], true, false, [(0, ⟨[(3, ⟨0, 0, 2, 9, 0, 0, 0, [], 0⟩)], [], 0⟩)], false, false, [], 0, 0, 0, false⟩)] } }) (st [] [(O.RoleActive, 3), (O.TwinState, 2)])); let n : Nat := 7; let sc : Scope := ⟨[(3, ⟨0, 0, 2, 9, 0, 0, 0, [], 0⟩)], [], 0⟩; let r : Nat := 3; let x : RState := ⟨0, 0, 2, 9, 0, 0, 0, [], 0⟩; let e : Epoch := ⟨7, 0, 1000000, 5, 6, 8, [], [], [(3, (1, (0, 0)))], [], [], [], [], true, false, [(0, ⟨[(3, ⟨0, 0, 2, 9, 0, 0, 0, [], 0⟩)], [], 0⟩)], false, false, [], 0, 0, 0, false⟩; (tget s.rd.epochs n = some e) ∧ (e.num = n) ∧ (e.closed = true) ∧ (e.posted = false) ∧ (e.main = [(0, sc)]) ∧ (sc.states = [(r, x)]) ∧ (s.role = 3) ∧ (s.isLead = true) ∧ (s.pk.pcieUp = true) ∧ (s.mo.sessions = [])) ∧
  (let s : State := atFt (2 ^ 60) ((fun s => { s with rd := { s.rd with epochs := [(7, ⟨7, 0, 1000000, 5, 6, 8, [], [], [], [], [], [], [], true, false, [], false, false, [], 0, 0, 0, false⟩)] } }) (st [] [(O.RoleActive, 3), (O.TwinState, 2)])); let n : Nat := 7; let ag : Option LateSet := none; let e : Epoch := ⟨7, 0, 1000000, 5, 6, 8, [], [], [], [], [], [], [], true, false, [], false, false, [], 0, 0, 0, false⟩; (tget s.rd.epochs n = some e) ∧ (e.num = n) ∧ (e.closed = true) ∧ (e.suppDone = false) ∧ (e.defs = []) ∧ ((s.isLead = true ∨ ag = none)) ∧ (ns (e.start + e.len) + ms e.hold + s.level * us e.grace ≤ s.ft .icd)) ∧
  (let s : State := atFt (2 ^ 60) ((fun s => { s with rd := { s.rd with epochs := [(7, ⟨7, 0, 1000000, 5, 6, 8, [], [], [], [], [], [], [], true, false, [], false, false, [], 0, 0, 0, false⟩)] } }) (st [] [(O.TwinState, 2)])); let n : Nat := 7; let kind : Nat := 1; let e : Epoch := ⟨7, 0, 1000000, 5, 6, 8, [], [], [], [], [], [], [], true, false, [], false, false, [], 0, 0, 0, false⟩; (tget s.rd.epochs n = some e) ∧ (e.num = n) ∧ (kind < 2) ∧ (bit e.digSent kind = false) ∧ (s.serving = true) ∧ (tget s.rd.theirs (n * 2 + kind) = none) ∧ (ns (e.start + e.len) + 3 * us e.grace + us e.budget + (if kind = 1 then ms e.hold else 0) ≤ s.ft .icd)) ∧
  (let s : State := st [] []; let r : Rec := State.iRec (st [] []) 0xE1 3 0 0 [(128, 48, 7), (200, 128, 99)]; (tget s.rd.own (recFld r 128 48 * 2 + recFld r 176 8) = none)) ∧
  (let s : State := ((fun s => { s with rd := { s.rd with own := [(14, (99, 0))] } }) (st [] [])); let r : Rec := State.iRec (st [] []) 0xE1 3 0 0 [(128, 48, 7), (200, 128, 99)]; let loc : Nat := 0; (tget s.rd.own (recFld r 128 48 * 2 + recFld r 176 8) = some (recFld r 200 128, loc)) ∧ (s.isLead = false) ∧ (recFld r 176 8 = 0)) ∧
  (let s : State := atFt (2 ^ 60) ((fun s => { s with rd := { s.rd with epochs := [(7, ⟨7, 0, 1000000, 5, 6, 8, [], [], [], [], [], [], [], true, false, [], false, false, [], 0, 0, 0, false⟩)] } }) (st [] [(O.TwinState, 2)])); let n : Nat := 7; let e : Epoch := ⟨7, 0, 1000000, 5, 6, 8, [], [], [], [], [], [], [], true, false, [], false, false, [], 0, 0, 0, false⟩; (tget s.rd.epochs n = some e) ∧ (ns (e.start + e.len) + 3 * us e.grace + us e.budget + us 100 ≤ s.ft .icd) ∧ (tget s.rd.own (n * 2) = none)) := by
  refine ⟨?_, ?_, ?_, ?_, ?_, ?_, ?_, ?_, ?_, ?_, ?_⟩ <;> decide +kernel

theorem witness_LauterModelsAndBatches :
  (let s : State := st [] [(inst O.LauterBinding 3, 2 ^ 11), (inst O.LauterSlotState 5, 2)]; let q : Req := qr; let b : Nat := 3; let c : Nat := 5; let at_ : Nat := 2 ^ 60; (s.AcceptsDesc q) ∧ (b < 16) ∧ (c < 8) ∧ (s.ft .icd + us 50 ≤ at_) ∧ (bit (s.i (inst O.LauterBinding b)) 11 = true) ∧ (bit (s.i (inst O.LauterBinding b)) 13 = false) ∧ (s.i (inst O.LauterSlotState c) = 2 ∨ s.i (inst O.LauterSlotState c) = 4) ∧ (tget s.la.waits b = none) ∧ (s.tm.iActs.length < 1024)) ∧
  (let s : State := st [] []; let q : Req := qr; let b : Nat := 3; let c : Nat := 5; let at_ : Nat := 2 ^ 60; (s.AcceptsDesc q) ∧ (s.ft .icd + us 50 ≤ at_) ∧ (bit (s.i (inst O.LauterBinding b)) 11 = false)) ∧
  (let s : State := (fun s => { s with tw := { s.tw with landed := [(261, 9)] } }) (st [] []); let k : Nat := 5; let n : Nat := 9; (k < 8) ∧ (tget s.tw.landed (256 + k) = some n)) ∧
  (let s : State := (fun s => { s with la := { s.la with checking := [(5, 9)] } }) (st [] []); let k : Nat := 5; let n : Nat := 9; let c : Nat := 1; let d : Nat := 0; (k < 8) ∧ (tget s.la.checking k = some n) ∧ (s.modelCheck k = some (c, d))) ∧
  (let s : State := (fun s => { s with la := { s.la with checking := [(5, 9)] }, me := { s.me with t1 := memWrite (s.nodeBase 5) (natBytes 16 (2 ^ 96)) (memWrite (s.setBase 5 + 4096) (natBytes 8 (2 ^ 24)) (memWrite (s.setBase 5) (natBytes 33 (packFields [(0, 8, 0xA0), (128, 8, 1), (136, 8, 1), (160, 32, 1), (192, 32, 1), (224, 32, 1)])) [])) } }) (st [] []); let k : Nat := 5; let n : Nat := 9; (k < 8) ∧ (tget s.la.checking k = some n) ∧ (s.modelCheck k = none)) ∧
  (let s : State := (fun s => { s with la := { s.la with valid := [5] } }) (st [] [(inst O.LauterSlotState 5, 2)]); let q : Req := qs; let k : Nat := 5; (k < 8) ∧ (s.Accepts q (inst O.SlotClear k) k) ∧ (s.slotFree k = true)) ∧
  (let s : State := st [] [(inst O.LauterSlotState 5, 4)]; let q : Req := qs; let k : Nat := 5; let v : Nat := 5; (k < 8) ∧ (s.Accepts q (inst O.SlotClear k) k) ∧ (s.slotFree k = false) ∧ (v = k)) ∧
  (let s : State := st [] []; let q : Req := qs; let b : Nat := 3; let v : Nat := 2 ^ 12 + 7; (b < 16) ∧ (s.Accepts q (inst O.LauterBinding b) v) ∧ (bit v 15 = false) ∧ (bits v 20 12 = 0) ∧ (f32.isNan (bits v 32 32) = false) ∧ (bit v 11 = false) ∧ (bit (s.i (inst O.LauterBinding b)) 11 = false)) ∧
  (let s : State := st [] []; let k : Nat := 5; let tree : Nat := 2; let e : Nat := 77; (k < 8) ∧ (tget s.la.stop k = none)) ∧
  (let s : State := atFt (2 ^ 61) ((fun s => { s with tm := { s.tm with iActs := [⟨9, 1, 2 ^ 60, 3, 5, 0, 0, 0, false, false, 0⟩] } }) (st [] [(inst O.LauterBinding 3, 2 ^ 11)])); let a : Act := ⟨9, 1, 2 ^ 60, 3, 5, 0, 0, 0, false, false, 0⟩; (s.tm.iActs = [a]) ∧ (a.kind = 1) ∧ (a.at_ ≤ s.ft .icd) ∧ (s.closeFirst .icd a = false) ∧ (a.a < 16) ∧ (a.b < 8)) ∧
  (let s : State := atFt (2 ^ 60) ((fun s => { s with la := { s.la with retire := [(5, 9)] } }) (st [] [(inst O.LauterSlotState 5, 5)])); let k : Nat := 5; let x : Nat := 9; (k < 8) ∧ (tget s.la.retire k = some x) ∧ (x ≤ s.ft .icd)) ∧
  (let s : State := (fun s => { s with la := { s.la with feats := [⟨0, [1, 2], [(3, 5, 9)]⟩] } }) (st [] []); let b : Nat := 3; let k : Nat := 5; let n : Nat := 9; let f : FeatVec := ⟨0, [1, 2], [(3, 5, 9)]⟩; (s.la.feats.find? (fun g => g.need.any fun n => n.1 == b) = some f) ∧ (f.need = [(b, k, n)]) ∧ (s.la.open_ = [])) ∧
  (let s : State := atFt (2 ^ 60) ((fun s => { s with la := { s.la with open_ := [⟨3, 5, [], 0, []⟩] } }) (st [] [])); let b : Nat := 3; let k : Nat := 5; let x : Batch := ⟨3, 5, [], 0, []⟩; (s.la.open_ = [x]) ∧ (x.bind = b) ∧ (x.slot = k) ∧ (x.first + us (s.i O.BatchLatency) ≤ s.ft .icd)) ∧
  (let s : State := (fun s => { s with la := { s.la with open_ := [⟨3, 5, [], 2 ^ 60, []⟩] } }) (st [] []); let b : Nat := 3; let k : Nat := 5; let x : Batch := ⟨3, 5, [], 2 ^ 60, []⟩; (s.la.open_ = [x]) ∧ (x.bind = b) ∧ (x.slot = k) ∧ (s.ft .icd < x.first + us (s.i O.BatchLatency)) ∧ (x.vecs.length < s.batchMax k)) ∧
  (let s : State := (fun s => { s with la := { s.la with closed := [⟨3, 5, [], 0, []⟩] } }) (st [] []); let c : Nat := 2; let bad : List Nat := [1]; let k : Batch := ⟨3, 5, [], 0, []⟩; let l : List Batch := []; (tget s.la.running c = none) ∧ (s.la.closed = k :: l)) ∧
  (let s : State := (fun s => { s with la := { s.la with running := [(2, ⟨3, 5, [(9, [0x400A0, 0, 0, 0])], 0, []⟩)] } }) (st [] []); let c : Nat := 2; let n : Nat := 9; let k : Batch := ⟨3, 5, [(9, [0x400A0, 0, 0, 0])], 0, []⟩; let r : Rec := [0x400A0, 0, 0, 0]; (tget s.la.running c = some k) ∧ (k.vecs = [(n, r)]) ∧ (k.slot ∉ s.la.valid) ∧ (s.me.poison = []) ∧ (s.me.ce = [])) ∧
  (let s : State := (fun s => { s with la := { s.la with valid := [5], running := [(2, ⟨3, 5, [(9, [0x400A0, 0, 0, 0])], 0, []⟩)] } }) (st [] []); let c : Nat := 2; let n : Nat := 9; let k : Batch := ⟨3, 5, [(9, [0x400A0, 0, 0, 0])], 0, []⟩; let r : Rec := [0x400A0, 0, 0, 0]; (tget s.la.running c = some k) ∧ (k.vecs = [(n, r)]) ∧ (k.slot ∈ s.la.valid) ∧ (tget s.la.stop k.slot = none) ∧ (s.modelPoisoned k.slot = false) ∧ (k.bad = []) ∧ (s.mFeatures k.slot ≤ vecFeatures r) ∧ ((s.walkAll k.slot r).2.2 = none) ∧ (s.me.poison = []) ∧ (s.me.ce = [])) := by
  refine ⟨?_, ?_, ?_, ?_, ?_, ?_, ?_, ?_, ?_, ?_, ?_, ?_, ?_, ?_, ?_, ?_, ?_⟩ <;> decide +kernel

theorem witness_UnitImagesAndSwitches :
  (let s : State := (fun s => { s with rd := { s.rd with has := true } }) (st [] [(imageKey false 9 1, 2), (O.EpochLength, 1000)]); let q : Req := qr; let r : Nat := 15; let i : Nat := 9; let at_ : Nat := 1000000 * 65536; (s.AcceptsDesc q) ∧ (r < 16) ∧ (i < 64) ∧ (s.ft .icd + us 50 ≤ at_) ∧ (s.rd.has = true) ∧ (s.boundaryAfter at_ = at_) ∧ (s.i (imageKey false i 1) = 2 ∨ s.i (imageKey false i 1) = 3) ∧ ((s.feed r).sw = none) ∧ (s.tm.iActs.length < 1024)) ∧
  (let s : State := (fun s => { s with rd := { s.rd with has := true } }) (st [] [(imageKey true 63 1, 2), (O.EpochLength, 1000)]); let q : Req := qr; let g : Nat := 7; let i : Nat := 63; let at_ : Nat := 1000000 * 65536; (s.AcceptsDesc q) ∧ (g < 8) ∧ (i < 64) ∧ (s.ft .icd + us 50 ≤ at_) ∧ (s.rd.has = true) ∧ (s.boundaryAfter at_ = at_) ∧ (s.i (imageKey true i 1) = 2 ∨ s.i (imageKey true i 1) = 3) ∧ ((s.feed (16 + g)).sw = none) ∧ (s.tm.iActs.length < 1024)) ∧
  (let s : State := st [] []; let q : Req := qr; let r : Nat := 3; let i : Nat := 64; let at_ : Nat := 1000000 * 65536; (s.AcceptsDesc q) ∧ (s.i (imageKey false i 1) ≠ 2 ∧ s.i (imageKey false i 1) ≠ 3 ∧ i ≠ 255)) ∧
  (let s : State := st [] []; let q : Req := qr; let g : Nat := 3; let i : Nat := 4; let at_ : Nat := 1000000 * 65536; (s.AcceptsDesc q) ∧ (s.i (imageKey true i 1) ≠ 2 ∧ s.i (imageKey true i 1) ≠ 3 ∧ i ≠ 255)) ∧
  (let s : State := (fun s => atFt (2 ^ 40) { s with tm := { s.tm with iActs := [⟨9, 2, 2 ^ 39, 4, 7, 0, 0, 0, false, false, 0⟩] } }) (st [] []); let a : Act := ⟨9, 2, 2 ^ 39, 4, 7, 0, 0, 0, false, false, 0⟩; (s.dueAct .icd = some a) ∧ (a.kind = 2) ∧ (a.a < 16) ∧ (s.i (kState a.a) ≠ 2) ∧ (a.b < 2 ^ 8)) ∧
  (let s : State := (fun s => atFt (2 ^ 40) { s with tm := { s.tm with iActs := [⟨9, 3, 2 ^ 39, 4, 7, 0, 0, 0, false, false, 0⟩] } }) (st [] []); let a : Act := ⟨9, 3, 2 ^ 39, 4, 7, 0, 0, 0, false, false, 0⟩; (s.dueAct .icd = some a) ∧ (a.kind = 3) ∧ (a.a < 8) ∧ (s.i (kState (16 + a.a)) ≠ 2) ∧ (a.b < 2 ^ 8)) ∧
  (let s : State := (fun s => atFt (2 ^ 40) { s with ma := { s.ma with units := [(4, { Feed.new with phase := 1, flt := true, from_ := 2 ^ 39 })] } }) (st [] []); let r : Nat := 4; (r < 16) ∧ (s.feedDrained r = true)) ∧
  (let s : State := st [] []; let r : Nat := 4; (r < 16) ∧ (s.feedDrained r = false)) ∧
  (let s : State := (fun s => { s with ma := { s.ma with units := [(4, { Feed.new with phase := 2, to_ := 7 })] } }) (st [] [(kState 4, 2)]); let r : Nat := 4; (r < 16) ∧ ((s.feed r).phase = 2) ∧ ((s.feed r).to_ < 64) ∧ (s.imagePoisoned false (s.feed r).to_ = false) ∧ ((s.feed r).sw = none) ∧ (s.gr.staging = []) ∧ (s.me.ce = [])) ∧
  (let s : State := (fun s => { s with ma := { s.ma with units := [(4, { Feed.new with phase := 2, to_ := 255 })] } }) (st [] [(kState 4, 2)]); let r : Nat := 4; (r < 16) ∧ ((s.feed r).phase = 2) ∧ ((s.feed r).to_ = 0xFF) ∧ ((s.feed r).sw = none) ∧ (s.gr.staging = [])) ∧
  (let s : State := (fun s => atFt (2 ^ 40) { s with ma := { s.ma with units := [(18, { Feed.new with phase := 1, to_ := 7, flt := true, from_ := 2 ^ 39 })] } }) (st [] [(kState 18, 2)]); let g : Nat := 2; (g < 8) ∧ (s.feedDrained (16 + g) = true) ∧ (s.groupIdle g = true) ∧ ((s.feed (16 + g)).to_ < 64) ∧ (s.imagePoisoned true (s.feed (16 + g)).to_ = false) ∧ ((s.feed (16 + g)).sw = none) ∧ (s.me.ce = []) ∧ (s.gr.staging = [])) ∧
  (let s : State := (fun s => { s with tw := { s.tw with landed := [(521, 128)] } }) (st [] []); let i : Nat := 9; let n : Nat := 128; (i < 64) ∧ (tget s.tw.landed (512 + i) = some n) ∧ (graphCheck (memRead s.me.t1 (s.imageAddr false i) n) n ≠ 0)) ∧
  (let s : State := (fun s => { s with tw := { s.tw with landed := [(777, 128)] } }) (st [] []); let i : Nat := 9; let n : Nat := 128; (i < 64) ∧ (tget s.tw.landed (768 + i) = some n) ∧ (steepCheck (memRead s.me.t1 (s.imageAddr true i) n) n ≠ 0)) ∧
  (let s : State := (fun s => { s with tw := { s.tw with landed := [(777, 136)] }, me := { s.me with t1 := memWrite (s.imageAddr true 9) (natBytes 136 (packFields [(0, 8, 0xB2), (16, 16, 8), (128, 8, 1), (140, 1, 1), (144, 16, 1), (160, 4, 1), (192, 32, 8), (256, 32, 4096), (288, 32, 136), (520, 1, 1), (584, 1, 0), (592, 7, 1)])) [] } }) (st [] []); let i : Nat := 9; let n : Nat := 136; (i < 64) ∧ (tget s.tw.landed (768 + i) = some n) ∧ (steepCheck (memRead s.me.t1 (s.imageAddr true i) n) n = 0)) ∧
  (let s : State := st [] []; let i : Nat := 9; (i < 64) ∧ (tget s.tw.landed (512 + i) = none)) ∧
  (let s : State := st [] []; let i : Nat := 9; (i < 64) ∧ (tget s.tw.landed (768 + i) = none)) ∧
  (let s : State := st [] [(imageKey true 9 1, 2), (imageKey true 9 5, 77)]; let q : Req := qs; let b : Bool := true; let i : Nat := 9; (i < 64) ∧ (s.Accepts q (imageKey b i 4) i) ∧ (s.i (imageKey b i 1) ≠ 1 ∧ s.i (imageKey b i 1) ≠ 3)) ∧
  (let s : State := st [] [(imageKey false 9 1, 3), (imageKey false 9 5, 77)]; let q : Req := qs; let b : Bool := false; let i : Nat := 9; (i < 64) ∧ (s.Accepts q (imageKey b i 4) i) ∧ (s.i (imageKey b i 1) = 1 ∨ s.i (imageKey b i 1) = 3)) := by
  refine ⟨?_, ?_, ?_, ?_, ?_, ?_, ?_, ?_, ?_, ?_, ?_, ?_, ?_, ?_, ?_, ?_, ?_, ?_⟩ <;> decide +kernel

theorem witness_UnitRecords :
  (let s : State := (fun s => { s with ma := { s.ma with units := [(4, { Feed.new with epoch := 16, img := mkRec 0xB0 8 0 0 0 0 [(136, 1, 1), (144, 16, 1), (160, 4, 1), (512, 8, 0xA2), (520, 1, 1), (528, 16, 0xFFFF), (560, 16, 16), (592, 7, 1)], ctx := (0, 2 ^ 64 - 1, 2 ^ 64 - 1) })], agreed := [(16, [(50, 9)])] }, gr := { s.gr with staging := [⟨1, 3, 2, 7, mkRec 0xA2 2 0 5 7 0 [(128, 80, 2 ^ 20)], 2 ^ 12, 2 ^ 20, 0⟩] } }) (st [] [(kState 4, 1), (O.EpochLength, 1000)]); let u : Nat := 4; let c : Nat := 3; let j : Nat := 0; let x : Nat := hdrSel (mkRec 0xB0 8 0 0 0 0 [(136, 1, 1), (144, 16, 1), (160, 4, 1), (512, 8, 0xA2), (520, 1, 1), (528, 16, 0xFFFF), (560, 16, 16), (592, 7, 1)]) 0; let e : Staged := ⟨1, 3, 2, 7, mkRec 0xA2 2 0 5 7 0 [(128, 80, 2 ^ 20)], 2 ^ 12, 2 ^ 20, 0⟩; (u < 16) ∧ (s.role ≠ 1) ∧ (s.i (kState u) = 1 ∨ s.i (kState u) = 2) ∧ ((s.feed u).shown = none) ∧ (s.feedNext u c = some ((e, j, x), 1)) ∧ (hdrEpoch (s.feed u).img = true)) ∧
  (let s : State := (fun s => { s with ma := { s.ma with units := [(4, { Feed.new with img := mkRec 0xB0 8 0 0 0 0 [(144, 16, 1), (160, 4, 1), (512, 8, 0xA2), (520, 1, 1), (528, 16, 0xFFFF), (560, 16, 16), (592, 7, 1)], ctx := (0, 2 ^ 64 - 1, 2 ^ 64 - 1) })], agreed := [(0, [(50, 9)])] }, gr := { s.gr with staging := [⟨1, 3, 2, 7, mkRec 0xA2 2 0 5 7 0 [(128, 80, 2 ^ 20)], 2 ^ 12, 2 ^ 20, 0⟩] } }) (st [] [(kState 4, 1), (O.EpochLength, 1000)]); let u : Nat := 4; let c : Nat := 3; let j : Nat := 0; let x : Nat := hdrSel (mkRec 0xB0 8 0 0 0 0 [(144, 16, 1), (160, 4, 1), (512, 8, 0xA2), (520, 1, 1), (528, 16, 0xFFFF), (560, 16, 16), (592, 7, 1)]) 0; let e : Staged := ⟨1, 3, 2, 7, mkRec 0xA2 2 0 5 7 0 [(128, 80, 2 ^ 20)], 2 ^ 12, 2 ^ 20, 0⟩; (u < 16) ∧ (s.role ≠ 1) ∧ (s.i (kState u) = 1 ∨ s.i (kState u) = 2) ∧ ((s.feed u).shown = none) ∧ (s.feedNext u c = some ((e, j, x), 1)) ∧ (hdrEpoch (s.feed u).img = false)) ∧
  (let s : State := (fun s => { s with ma := { s.ma with units := [(4, { Feed.new with img := mkRec 0xB0 8 0 0 0 0 [(144, 16, 1), (160, 4, 1), (512, 8, 0xA2), (520, 1, 1), (528, 16, 0xFFFF), (560, 16, 16), (592, 7, 1)], ctx := (0, 2 ^ 64 - 1, 2 ^ 64 - 1) })], agreed := [(0, [(50, 9)])] }, gr := { s.gr with staging := [⟨1, 3, 2, 7, mkRec 0xA2 2 0 5 7 0 [(128, 80, 2 ^ 20)], 2 ^ 12, 2 ^ 20, 0⟩] } }) (st [] [(kState 4, 1), (O.EpochLength, 1000)]); let u : Nat := 4; let c : Nat := 3; let r : Staged × Nat × Nat := (⟨1, 3, 2, 7, mkRec 0xA2 2 0 5 7 0 [(128, 80, 2 ^ 20)], 2 ^ 12, 2 ^ 20, 0⟩, 0, hdrSel (mkRec 0xB0 8 0 0 0 0 [(144, 16, 1), (160, 4, 1), (512, 8, 0xA2), (520, 1, 1), (528, 16, 0xFFFF), (560, 16, 16), (592, 7, 1)]) 0); (s.i (kState u) = 1 ∨ s.i (kState u) = 2) ∧ ((s.feed u).shown = none) ∧ (s.feedNext u c = some (r, 1))) ∧
  (let s : State := (fun s => { s with ma := { s.ma with units := [(4, { Feed.new with img := mkRec 0xB0 8 0 0 0 0 [(144, 16, 1), (160, 4, 1), (512, 8, 0xA2), (520, 1, 1), (528, 16, 0xFFFF), (560, 16, 16), (592, 7, 1)], ctx := (0, 2 ^ 64 - 1, 2 ^ 64 - 1) })], agreed := [(0, [(50, 9)])] }, gr := { s.gr with staging := [⟨1, 3, 2, 7, mkRec 0xA2 2 0 5 7 0 [(128, 80, 2 ^ 20)], 2 ^ 12, 2 ^ 20, 0⟩] } }) (st [] [(kState 4, 1), (O.EpochLength, 1000)]); let u : Nat := 4; let c : Nat := 3; let r : Staged × Nat × Nat := (⟨1, 3, 2, 7, mkRec 0xA2 2 0 5 7 0 [(128, 80, 2 ^ 20)], 2 ^ 12, 2 ^ 20, 0⟩, 0, hdrSel (mkRec 0xB0 8 0 0 0 0 [(144, 16, 1), (160, 4, 1), (512, 8, 0xA2), (520, 1, 1), (528, 16, 0xFFFF), (560, 16, 16), (592, 7, 1)]) 0); (u < 16) ∧ (s.i (kState u) = 1 ∨ s.i (kState u) = 2) ∧ ((s.feed u).shown = none) ∧ (s.feedNext u c = some (r, 1))) ∧
  (let s : State := (fun s => { s with ma := { s.ma with units := [(4, { Feed.new with from_ := 2 ^ 30, img := mkRec 0xB0 8 0 0 0 0 [(144, 16, 1), (160, 4, 1), (512, 8, 0xA2), (520, 1, 1), (528, 16, 0xFFFF), (560, 16, 16), (592, 7, 1)], ctx := (0, 2 ^ 64 - 1, 2 ^ 64 - 1) })], agreed := [(0, [(50, 9)])] }, gr := { s.gr with staging := [⟨1, 3, 2, 7, mkRec 0xA2 2 0 5 7 0 [(128, 80, 2 ^ 20)], 2 ^ 12, 2 ^ 20, 0⟩] } }) (st [] [(kState 4, 1), (O.EpochLength, 1000)]); let u : Nat := 4; let c : Nat := 3; let w : Nat := 0; let j : Nat := 0; let x : Nat := hdrSel (mkRec 0xB0 8 0 0 0 0 [(144, 16, 1), (160, 4, 1), (512, 8, 0xA2), (520, 1, 1), (528, 16, 0xFFFF), (560, 16, 16), (592, 7, 1)]) 0; let e : Staged := ⟨1, 3, 2, 7, mkRec 0xA2 2 0 5 7 0 [(128, 80, 2 ^ 20)], 2 ^ 12, 2 ^ 20, 0⟩; (u < 16) ∧ (s.i (kState u) = 1 ∨ s.i (kState u) = 2) ∧ ((s.feed u).shown = none) ∧ (s.feedNext u c = some ((e, j, x), 2))) ∧
  (let s : State := st [] []; let u : Nat := 4; let c : Nat := 3; let w : Nat := 0; (s.i (kState u) ≠ 1) ∧ (s.i (kState u) ≠ 2)) ∧
  (let s : State := (fun s => { s with ma := { s.ma with units := [(4, { Feed.new with cons := [(3, (7, 5, false)), (8, (2, 6, false))], img := mkRec 0xB0 8 0 0 0 0 [(136, 1, 1), (144, 16, 1), (160, 4, 1), (512, 8, 0xA2), (520, 1, 1), (528, 16, 0xFFFF), (560, 16, 16), (592, 7, 1)], ctx := (0, 2 ^ 64 - 1, 2 ^ 64 - 1) })], agreed := [(0, [(50, 9)])] } }) (st [] [(kState 4, 1), (O.EpochLength, 1000)]); let u : Nat := 4; (u < 16) ∧ (s.i (kState u) = 1) ∧ ((s.feed u).phase = 0) ∧ (hdrEpoch (s.feed u).img = true) ∧ (s.epochConsumed u = true) ∧ (s.i (unitKey u 7) < 2 ^ 64)) ∧
  (let s : State := st [] []; let u : Nat := 4; (s.epochConsumed u = false)) ∧
  (let s : State := (fun s => atFt (2 ^ 50) { s with ma := { s.ma with units := [(15, { Feed.new with shown := some (5, 9) })] } }) (st [] [(kState 15, 1)]); let u : Nat := 15; let c : Nat := 5; let f : Nat := 9; (u < 16) ∧ ((s.feed u).shown = some (c, f)) ∧ (f + us (s.i O.RecordTimeout) ≤ s.ft .icd)) ∧
  (let s : State := (fun s => { s with ma := { s.ma with units := [(15, { Feed.new with shown := some (5, 2 ^ 80) })] } }) (st [] [(kState 15, 1)]); let u : Nat := 15; let c : Nat := 5; let f : Nat := 2 ^ 80; ((s.feed u).shown = some (c, f)) ∧ (s.ft .icd < f + us (s.i O.RecordTimeout))) ∧
  (let s : State := (fun s => atFt (2 ^ 60) s) (scst { sc 0 0 [] [] with held := some (⟨1152, 64, 9⟩, 5, false) }); let k : Nat := 5; let c : SCore := { sc 0 0 [] [] with held := some (⟨1152, 64, 9⟩, 5, false) }; let e : SEntry × Nat × Bool := (⟨1152, 64, 9⟩, 5, false); (k < 32) ∧ (s.core_ k = some c) ∧ (c.held = some e) ∧ (e.2.1 + us (s.i O.EntryTimeout) < s.ft .icd) ∧ (s.groupRuns (16 + k / 4) = true)) ∧
  (let s : State := (fun s => { s with ma := { s.ma with units := [(17, { Feed.new with img := mkRec 0xB2 8 0 0 0 0 [(144, 16, 1), (160, 4, 1), (256, 32, 4096), (512, 8, 0xA2), (520, 1, 1), (528, 16, 0xFFFF), (560, 16, 16), (599, 1, 1)], ctx := (0, 2 ^ 64 - 1, 2 ^ 64 - 1) })] }, sp := { s.sp with cores := [(7, sc 0 0 [] [])] }, gr := { s.gr with staging := [⟨1, 3, 2, 7, mkRec 0xA2 3 0 5 7 0 [(128, 80, 2 ^ 20)], 2 ^ 25, 2 ^ 20, 0⟩] } }) (st [] [(kState 17, 1), (O.EpochLength, 1000)]); let g : Nat := 1; let c : Nat := 3; let j : Nat := 0; let x : Nat := hdrSel (mkRec 0xB2 8 0 0 0 0 [(144, 16, 1), (160, 4, 1), (256, 32, 4096), (512, 8, 0xA2), (520, 1, 1), (528, 16, 0xFFFF), (560, 16, 16), (599, 1, 1)]) 0; let o : Nat := 0; let e : Staged := ⟨1, 3, 2, 7, mkRec 0xA2 3 0 5 7 0 [(128, 80, 2 ^ 20)], 2 ^ 25, 2 ^ 20, 0⟩; let d : SCore := sc 0 0 [] []; (s.role ≠ 1) ∧ (s.groupRuns (16 + g) = true) ∧ (s.feedNext (16 + g) c = some ((e, j, x), 1)) ∧ (bit x 87 = true) ∧ (s.core_ (4 * g + c % 4) = some d) ∧ (d.wait = none) ∧ (d.place (s.feed (16 + g)).img (padTo 16 (32 + 4 * (4 * e.rec_.length - 4))) = some o)) ∧
  (let s : State := (fun s => { s with ma := { s.ma with units := [(17, { Feed.new with img := mkRec 0xB2 8 0 0 0 0 [(144, 16, 1), (160, 4, 1), (256, 32, 4096), (512, 8, 0xA2), (520, 1, 1), (528, 16, 0xFFFF), (560, 16, 16), (592, 7, 5)], ctx := (0, 2 ^ 64 - 1, 2 ^ 64 - 1) })] }, sp := { s.sp with cores := [(7, sc 0 0 [] [])] }, gr := { s.gr with staging := [⟨1, 3, 2, 7, mkRec 0xA2 3 0 5 7 0 [(128, 80, 2 ^ 20)], 2 ^ 25, 2 ^ 20, 0⟩] } }) (st [] [(kState 17, 1), (O.EpochLength, 1000)]); let g : Nat := 1; let c : Nat := 3; let j : Nat := 0; let x : Nat := hdrSel (mkRec 0xB2 8 0 0 0 0 [(144, 16, 1), (160, 4, 1), (256, 32, 4096), (512, 8, 0xA2), (520, 1, 1), (528, 16, 0xFFFF), (560, 16, 16), (592, 7, 5)]) 0; let o : Nat := 0; let e : Staged := ⟨1, 3, 2, 7, mkRec 0xA2 3 0 5 7 0 [(128, 80, 2 ^ 20)], 2 ^ 25, 2 ^ 20, 0⟩; let d : SCore := sc 0 0 [] []; (s.role ≠ 1) ∧ (s.groupRuns (16 + g) = true) ∧ (s.feedNext (16 + g) c = some ((e, j, x), 1)) ∧ (bit x 87 = false) ∧ (s.core_ (4 * g + c % 4) = some d) ∧ (d.wait = none) ∧ (d.place (s.feed (16 + g)).img (padTo 16 (32 + 4 * (bits x 80 7 + (bits x 80 7 + 31) / 32))) = some o)) ∧
  (let s : State := (fun s => { s with ma := { s.ma with units := [(17, { Feed.new with cons := [(3, (7, 5, false))], img := mkRec 0xB2 8 0 0 0 0 [(136, 1, 1), (144, 16, 1), (160, 4, 1), (256, 32, 4096), (512, 8, 0xA2), (520, 1, 1), (528, 16, 0xFFFF), (560, 16, 16), (592, 7, 5)], ctx := (0, 2 ^ 64 - 1, 2 ^ 64 - 1) })], agreed := [(0, [(50, 9)])] }, sp := { s.sp with cores := [(7, sc 0 0 [] [])] } }) (st [] [(kState 17, 1), (O.EpochLength, 1000)]); let g : Nat := 1; let c : Nat := 3; let o : Nat := 0; let d : SCore := sc 0 0 [] []; (s.groupRuns (16 + g) = true) ∧ ((s.feed (16 + g)).phase = 0) ∧ (hdrEpoch (s.feed (16 + g)).img = true) ∧ (s.epochConsumed (16 + g) = true) ∧ (c ∈ s.epochContexts (16 + g)) ∧ (c ∉ (s.feed (16 + g)).ends) ∧ (s.core_ (4 * g + c % 4) = some d) ∧ (d.wait = none) ∧ (d.place (s.feed (16 + g)).img 32 = some o)) := by
  refine ⟨?_, ?_, ?_, ?_, ?_, ?_, ?_, ?_, ?_, ?_, ?_, ?_, ?_, ?_⟩ <;> decide +kernel

theorem witness_SteepAccumulators :
  (let s : State := scst (sc 0x1D081030 0x0 [(1, 985181746200575), (2, 9223090583353299508), (80, 7), (81, 72057594037927931), (101, 0)] (nopIn 1)); let k : Nat := 5; let w : Nat := 0x1D081030; let c : SCore := sc 0x1D081030 0x0 [(1, 985181746200575), (2, 9223090583353299508), (80, 7), (81, 72057594037927931), (101, 0)] (nopIn 1); (s.LastOp k 0 3 0 c) ∧ (c.slotWord 0 = w) ∧ (c.juesh = false)) ∧
  (let s : State := scst (sc 0x1D081030 0x0 [(1, 985181746200575), (2, 9223090583353299508), (80, 7), (81, 72057594037927931), (101, 1)] (nopIn 1)); let k : Nat := 5; let w : Nat := 0x1D081030; let c : SCore := sc 0x1D081030 0x0 [(1, 985181746200575), (2, 9223090583353299508), (80, 7), (81, 72057594037927931), (101, 1)] (nopIn 1); (s.LastOp k 0 3 0 c) ∧ (c.slotWord 0 = w) ∧ (c.juesh = true)) ∧
  (let s : State := scst (sc 0x1D081130 0x0 [(1, 985181746200575), (2, 9223090583353299508), (80, 7), (81, 72057594037927931), (101, 0)] (nopIn 1)); let k : Nat := 5; let w : Nat := 0x1D081130; let c : SCore := sc 0x1D081130 0x0 [(1, 985181746200575), (2, 9223090583353299508), (80, 7), (81, 72057594037927931), (101, 0)] (nopIn 1); (s.LastOp k 0 3 1 c) ∧ (c.slotWord 0 = w) ∧ (c.juesh = false)) ∧
  (let s : State := scst (sc 0x1D081130 0x0 [(1, 985181746200575), (2, 9223090583353299508), (80, 7), (81, 72057594037927931), (101, 1)] (nopIn 1)); let k : Nat := 5; let w : Nat := 0x1D081130; let c : SCore := sc 0x1D081130 0x0 [(1, 985181746200575), (2, 9223090583353299508), (80, 7), (81, 72057594037927931), (101, 1)] (nopIn 1); (s.LastOp k 0 3 1 c) ∧ (c.slotWord 0 = w) ∧ (c.juesh = true)) ∧
  (let s : State := scst (sc 0x1D081230 0x0 [(1, 985181746200575), (2, 9223090583353299508), (80, 7), (81, 72057594037927931), (101, 0)] (nopIn 1)); let k : Nat := 5; let w : Nat := 0x1D081230; let c : SCore := sc 0x1D081230 0x0 [(1, 985181746200575), (2, 9223090583353299508), (80, 7), (81, 72057594037927931), (101, 0)] (nopIn 1); (s.LastOp k 0 3 2 c) ∧ (c.slotWord 0 = w) ∧ (c.juesh = false)) ∧
  (let s : State := scst (sc 0x1D081230 0x0 [(1, 985181746200575), (2, 9223090583353299508), (80, 7), (81, 72057594037927931), (101, 1)] (nopIn 1)); let k : Nat := 5; let w : Nat := 0x1D081230; let c : SCore := sc 0x1D081230 0x0 [(1, 985181746200575), (2, 9223090583353299508), (80, 7), (81, 72057594037927931), (101, 1)] (nopIn 1); (s.LastOp k 0 3 2 c) ∧ (c.slotWord 0 = w) ∧ (c.juesh = true)) ∧
  (let s : State := scst (sc 0x1D081330 0x0 [(1, 985181746200575), (2, 9223090583353299508), (80, 7), (81, 72057594037927931), (101, 0)] (nopIn 1)); let k : Nat := 5; let w : Nat := 0x1D081330; let c : SCore := sc 0x1D081330 0x0 [(1, 985181746200575), (2, 9223090583353299508), (80, 7), (81, 72057594037927931), (101, 0)] (nopIn 1); (s.LastOp k 0 3 3 c) ∧ (c.slotWord 0 = w) ∧ (c.juesh = false)) ∧
  (let s : State := scst (sc 0x1D081330 0x0 [(1, 985181746200575), (2, 9223090583353299508), (80, 7), (81, 72057594037927931), (101, 1)] (nopIn 1)); let k : Nat := 5; let w : Nat := 0x1D081330; let c : SCore := sc 0x1D081330 0x0 [(1, 985181746200575), (2, 9223090583353299508), (80, 7), (81, 72057594037927931), (101, 1)] (nopIn 1); (s.LastOp k 0 3 3 c) ∧ (c.slotWord 0 = w) ∧ (c.juesh = true)) ∧
  (let s : State := scst (sc 0x1D081430 0x0 [(1, 985181746200575), (2, 9223090583353299508), (80, 7), (81, 72057594037927931), (101, 0)] (nopIn 1)); let k : Nat := 5; let w : Nat := 0x1D081430; let c : SCore := sc 0x1D081430 0x0 [(1, 985181746200575), (2, 9223090583353299508), (80, 7), (81, 72057594037927931), (101, 0)] (nopIn 1); (s.LastOp k 0 3 4 c) ∧ (c.slotWord 0 = w) ∧ (c.juesh = false)) ∧
  (let s : State := scst (sc 0x1D081430 0x0 [(1, 985181746200575), (2, 9223090583353299508), (80, 7), (81, 72057594037927931), (101, 1)] (nopIn 1)); let k : Nat := 5; let w : Nat := 0x1D081430; let c : SCore := sc 0x1D081430 0x0 [(1, 985181746200575), (2, 9223090583353299508), (80, 7), (81, 72057594037927931), (101, 1)] (nopIn 1); (s.LastOp k 0 3 4 c) ∧ (c.slotWord 0 = w) ∧ (c.juesh = true)) ∧
  (let s : State := scst (sc 0x1D081530 0x0 [(1, 985181746200575), (2, 9223090583353299508), (80, 7), (81, 72057594037927931), (101, 0)] (nopIn 1)); let k : Nat := 5; let w : Nat := 0x1D081530; let c : SCore := sc 0x1D081530 0x0 [(1, 985181746200575), (2, 9223090583353299508), (80, 7), (81, 72057594037927931), (101, 0)] (nopIn 1); (s.LastOp k 0 3 5 c) ∧ (c.slotWord 0 = w) ∧ (c.juesh = false)) ∧
  (let s : State := scst (sc 0x1D081530 0x0 [(1, 985181746200575), (2, 9223090583353299508), (80, 7), (81, 72057594037927931), (101, 1)] (nopIn 1)); let k : Nat := 5; let w : Nat := 0x1D081530; let c : SCore := sc 0x1D081530 0x0 [(1, 985181746200575), (2, 9223090583353299508), (80, 7), (81, 72057594037927931), (101, 1)] (nopIn 1); (s.LastOp k 0 3 5 c) ∧ (c.slotWord 0 = w) ∧ (c.juesh = true)) ∧
  (let s : State := scst (sc 0x3110D040 0x0 [(81, 1099511640121), (3, 12297848147757817309)] (nopIn 1)); let k : Nat := 5; let w : Nat := 0x3110D040; let c : SCore := sc 0x3110D040 0x0 [(81, 1099511640121), (3, 12297848147757817309)] (nopIn 1); (s.LastOp k 0 4 0 c) ∧ (c.slotWord 0 = w) ∧ (bit w 28 = true)) ∧
  (let s : State := scst (sc 0x2110D040 0x0 [(81, 1099511640121), (3, 12297848147757817309)] (nopIn 1)); let k : Nat := 5; let w : Nat := 0x2110D040; let c : SCore := sc 0x2110D040 0x0 [(81, 1099511640121), (3, 12297848147757817309)] (nopIn 1); (s.LastOp k 0 4 0 c) ∧ (c.slotWord 0 = w) ∧ (bit w 28 = false)) ∧
  (let s : State := scst (sc 0x3110D140 0x0 [(81, 1099511640121), (3, 12297848147757817309)] (nopIn 1)); let k : Nat := 5; let w : Nat := 0x3110D140; let c : SCore := sc 0x3110D140 0x0 [(81, 1099511640121), (3, 12297848147757817309)] (nopIn 1); (s.LastOp k 0 4 1 c) ∧ (c.slotWord 0 = w) ∧ (bit w 28 = true)) ∧
  (let s : State := scst (sc 0x2110D140 0x0 [(81, 1099511640121), (3, 12297848147757817309)] (nopIn 1)); let k : Nat := 5; let w : Nat := 0x2110D140; let c : SCore := sc 0x2110D140 0x0 [(81, 1099511640121), (3, 12297848147757817309)] (nopIn 1); (s.LastOp k 0 4 1 c) ∧ (c.slotWord 0 = w) ∧ (bit w 28 = false)) ∧
  (let s : State := scst (sc 0x3110D240 0x0 [(81, 1099511640121), (3, 12297848147757817309)] (nopIn 1)); let k : Nat := 5; let w : Nat := 0x3110D240; let c : SCore := sc 0x3110D240 0x0 [(81, 1099511640121), (3, 12297848147757817309)] (nopIn 1); (s.LastOp k 0 4 2 c) ∧ (c.slotWord 0 = w) ∧ (bit w 28 = true)) ∧
  (let s : State := scst (sc 0x2110D240 0x0 [(81, 1099511640121), (3, 12297848147757817309)] (nopIn 1)); let k : Nat := 5; let w : Nat := 0x2110D240; let c : SCore := sc 0x2110D240 0x0 [(81, 1099511640121), (3, 12297848147757817309)] (nopIn 1); (s.LastOp k 0 4 2 c) ∧ (c.slotWord 0 = w) ∧ (bit w 28 = false)) ∧
  (let s : State := scst (sc 0x2000E340 0x0 [(82, 72057594037927927), (3, 7)] (nopIn 1)); let k : Nat := 5; let w : Nat := 0x2000E340; let c : SCore := sc 0x2000E340 0x0 [(82, 72057594037927927), (3, 7)] (nopIn 1); (s.LastOp k 0 4 3 c) ∧ (c.slotWord 0 = w)) ∧
  (let s : State := scst (sc 0xE440 0x0 [(3, 140737488355333)] (nopIn 1)); let k : Nat := 5; let w : Nat := 0xE440; let c : SCore := sc 0xE440 0x0 [(3, 140737488355333)] (nopIn 1); (s.LastOp k 0 4 4 c) ∧ (c.slotWord 0 = w) ∧ (c.juesh = false)) ∧
  (let s : State := scst (sc 0xE440 0x0 [(3, 1152921504606846981), (101, 1)] (nopIn 1)); let k : Nat := 5; let w : Nat := 0xE440; let c : SCore := sc 0xE440 0x0 [(3, 1152921504606846981), (101, 1)] (nopIn 1); (s.LastOp k 0 4 4 c) ∧ (c.slotWord 0 = w) ∧ (c.juesh = true)) ∧
  (let s : State := scst (sc 0xA540 0x0 [(81, 5), (83, 6)] (nopIn 1)); let k : Nat := 5; let w : Nat := 0xA540; let c : SCore := sc 0xA540 0x0 [(81, 5), (83, 6)] (nopIn 1); (s.LastOp k 0 4 5 c) ∧ (c.slotWord 0 = w)) := by
  refine ⟨?_, ?_, ?_, ?_, ?_, ?_, ?_, ?_, ?_, ?_, ?_, ?_, ?_, ?_, ?_, ?_, ?_, ?_, ?_, ?_, ?_, ?_⟩ <;> decide +kernel

theorem witness_SteepMemory :
  (let s : State := scst (sc 0x0 0x3283050 [(3, 5), (66, 64), (73, 4294967288)] (nopIn 0)); let k : Nat := 5; let w : Nat := 0x3283050; let c : SCore := sc 0x0 0x3283050 [(3, 5), (66, 64), (73, 4294967288)] (nopIn 0); (s.LastOp k 1 5 0 c) ∧ (c.slotWord 1 = w) ∧ (c.reg (rP (bits w 18 3)) % 2 = 0) ∧ (c.canRead (s.feed (16 + k / 4)).img (c.reg (rP (bits w 18 3))) 2 = true)) ∧
  (let s : State := scst (sc 0x0 0x3283150 [(3, 5), (66, 64), (73, 4294967288)] (nopIn 0)); let k : Nat := 5; let w : Nat := 0x3283150; let c : SCore := sc 0x0 0x3283150 [(3, 5), (66, 64), (73, 4294967288)] (nopIn 0); (s.LastOp k 1 5 1 c) ∧ (c.slotWord 1 = w) ∧ (c.reg (rP (bits w 18 3)) % 2 = 0) ∧ (c.canRead (s.feed (16 + k / 4)).img (c.reg (rP (bits w 18 3))) 2 = true)) ∧
  (let s : State := scst (sc 0x0 0x3283250 [(3, 5), (66, 64), (73, 4294967288)] (nopIn 0)); let k : Nat := 5; let w : Nat := 0x3283250; let c : SCore := sc 0x0 0x3283250 [(3, 5), (66, 64), (73, 4294967288)] (nopIn 0); (s.LastOp k 1 5 2 c) ∧ (c.slotWord 1 = w) ∧ (c.reg (rP (bits w 18 3)) % 4 = 0) ∧ (c.canRead (s.feed (16 + k / 4)).img (c.reg (rP (bits w 18 3))) 4 = true)) ∧
  (let s : State := scst (sc 0x0 0x3283350 [(3, 5), (66, 64), (73, 4294967288)] (nopIn 0)); let k : Nat := 5; let w : Nat := 0x3283350; let c : SCore := sc 0x0 0x3283350 [(3, 5), (66, 64), (73, 4294967288)] (nopIn 0); (s.LastOp k 1 5 3 c) ∧ (c.slotWord 1 = w) ∧ (c.reg (rP (bits w 18 3)) % 8 = 0) ∧ (c.canRead (s.feed (16 + k / 4)).img (c.reg (rP (bits w 18 3))) 8 = true)) ∧
  (let s : State := scst (sc 0x0 0x3283450 [(3, 5), (66, 64), (73, 4294967288)] (nopIn 0)); let k : Nat := 5; let w : Nat := 0x3283450; let c : SCore := sc 0x0 0x3283450 [(3, 5), (66, 64), (73, 4294967288)] (nopIn 0); (s.LastOp k 1 5 4 c) ∧ (c.slotWord 1 = w) ∧ (c.reg (rP (bits w 18 3)) % 4 = 0) ∧ (c.canRead (s.feed (16 + k / 4)).img (c.reg (rP (bits w 18 3))) 4 = true)) ∧
  (let s : State := scst (sc 0x0 0x1283550 [(3, 5), (65, 64), (66, 64), (73, 16)] (nopIn 0)); let k : Nat := 5; let w : Nat := 0x1283550; let c : SCore := sc 0x0 0x1283550 [(3, 5), (65, 64), (66, 64), (73, 16)] (nopIn 0); (s.LastOp k 1 5 5 c) ∧ (c.slotWord 1 = w) ∧ (bits w 25 2 = 0) ∧ (bits w 18 3 ≠ bits w 21 3) ∧ (c.reg (rP (bits w 18 3)) % 8 = 0) ∧ (c.reg (rP (bits w 21 3)) % 2 = 0) ∧ (c.canRead (s.feed (16 + k / 4)).img (c.reg (rP (bits w 18 3))) 8 = true) ∧ (c.canRead (s.feed (16 + k / 4)).img (c.reg (rP (bits w 21 3))) 2 = true)) ∧
  (let s : State := scst (sc 0x0 0x3283550 [(3, 5), (65, 64), (66, 64), (73, 16)] (nopIn 0)); let k : Nat := 5; let w : Nat := 0x3283550; let c : SCore := sc 0x0 0x3283550 [(3, 5), (65, 64), (66, 64), (73, 16)] (nopIn 0); (s.LastOp k 1 5 5 c) ∧ (c.slotWord 1 = w) ∧ (bits w 25 2 = 1) ∧ (bits w 18 3 ≠ bits w 21 3) ∧ (c.reg (rP (bits w 18 3)) % 8 = 0) ∧ (c.reg (rP (bits w 21 3)) % 4 = 0) ∧ (c.canRead (s.feed (16 + k / 4)).img (c.reg (rP (bits w 18 3))) 8 = true) ∧ (c.canRead (s.feed (16 + k / 4)).img (c.reg (rP (bits w 21 3))) 4 = true)) ∧
  (let s : State := scst (sc 0x0 0x5283550 [(3, 5), (65, 64), (66, 64), (73, 16)] (nopIn 0)); let k : Nat := 5; let w : Nat := 0x5283550; let c : SCore := sc 0x0 0x5283550 [(3, 5), (65, 64), (66, 64), (73, 16)] (nopIn 0); (s.LastOp k 1 5 5 c) ∧ (c.slotWord 1 = w) ∧ (bits w 25 2 = 2) ∧ (bits w 18 3 ≠ bits w 21 3) ∧ (c.reg (rP (bits w 18 3)) % 8 = 0) ∧ (c.reg (rP (bits w 21 3)) % 8 = 0) ∧ (c.canRead (s.feed (16 + k / 4)).img (c.reg (rP (bits w 18 3))) 8 = true) ∧ (c.canRead (s.feed (16 + k / 4)).img (c.reg (rP (bits w 21 3))) 8 = true)) ∧
  (let s : State := scst (sc 0x0 0x3283060 [(3, 1311768467294899695), (66, 5248), (73, 8)] (nopIn 0)); let k : Nat := 5; let w : Nat := 0x3283060; let c : SCore := sc 0x0 0x3283060 [(3, 1311768467294899695), (66, 5248), (73, 8)] (nopIn 0); (s.LastOp k 1 6 0 c) ∧ (c.slotWord 1 = w) ∧ (c.reg (rP (bits w 18 3)) % 2 = 0) ∧ (c.canWrite (s.feed (16 + k / 4)).img (c.reg (rP (bits w 18 3))) 2 = true)) ∧
  (let s : State := scst (sc 0x0 0x3283160 [(3, 1311768467294899695), (66, 5248), (73, 8)] (nopIn 0)); let k : Nat := 5; let w : Nat := 0x3283160; let c : SCore := sc 0x0 0x3283160 [(3, 1311768467294899695), (66, 5248), (73, 8)] (nopIn 0); (s.LastOp k 1 6 1 c) ∧ (c.slotWord 1 = w) ∧ (c.reg (rP (bits w 18 3)) % 4 = 0) ∧ (c.canWrite (s.feed (16 + k / 4)).img (c.reg (rP (bits w 18 3))) 4 = true)) ∧
  (let s : State := scst (sc 0x0 0x3283260 [(3, 1311768467294899695), (66, 5248), (73, 8)] (nopIn 0)); let k : Nat := 5; let w : Nat := 0x3283260; let c : SCore := sc 0x0 0x3283260 [(3, 1311768467294899695), (66, 5248), (73, 8)] (nopIn 0); (s.LastOp k 1 6 2 c) ∧ (c.slotWord 1 = w) ∧ (c.reg (rP (bits w 18 3)) % 8 = 0) ∧ (c.canWrite (s.feed (16 + k / 4)).img (c.reg (rP (bits w 18 3))) 8 = true)) ∧
  (let s : State := scst (sc 0x0 0x3283360 [(3, 1311768467294899695), (66, 5248), (73, 8)] (nopIn 0)); let k : Nat := 5; let w : Nat := 0x3283360; let c : SCore := sc 0x0 0x3283360 [(3, 1311768467294899695), (66, 5248), (73, 8)] (nopIn 0); (s.LastOp k 1 6 3 c) ∧ (c.slotWord 1 = w) ∧ (c.reg (rP (bits w 18 3)) % 4 = 0) ∧ (c.canWrite (s.feed (16 + k / 4)).img (c.reg (rP (bits w 18 3))) 4 = true)) ∧
  (let s : State := scst (sc 0 0x83350 [(66, 68)] (nopIn 0)); let k : Nat := 5; let w : Nat := 0x83350; let c : SCore := sc 0 0x83350 [(66, 68)] (nopIn 0); let b : Bool := true; (k < 32) ∧ (s.AtOp k 1 5 3 c) ∧ (c.slotWord 1 = w) ∧ ((c.effs.any fun e => e.slot == 1) = false) ∧ (c.reg (rP (bits w 18 3)) % 8 ≠ 0)) ∧
  (let s : State := scst (sc 0 0x83350 [(66, 0)] (nopIn 0)); let k : Nat := 5; let w : Nat := 0x83350; let c : SCore := sc 0 0x83350 [(66, 0)] (nopIn 0); let b : Bool := true; (k < 32) ∧ (s.AtOp k 1 5 3 c) ∧ (c.slotWord 1 = w) ∧ ((c.effs.any fun e => e.slot == 1) = false) ∧ (c.reg (rP (bits w 18 3)) % 8 = 0) ∧ (c.canRead (s.feed (16 + k / 4)).img (c.reg (rP (bits w 18 3))) 8 = false)) ∧
  (let s : State := scst (sc 0 0x83350 [(66, 64)] (nopIn 0)); let k : Nat := 5; let w : Nat := 0x83350; let c : SCore := sc 0 0x83350 [(66, 64)] (nopIn 0); (k < 32) ∧ (s.AtOp k 1 5 3 c) ∧ (c.slotWord 1 = w) ∧ ((c.effs.any fun e => e.slot == 1) = false) ∧ (c.reg (rP (bits w 18 3)) % 8 = 0) ∧ (c.canRead (s.feed (16 + k / 4)).img (c.reg (rP (bits w 18 3))) 8 = true)) ∧
  (let s : State := scst (sc 0 0x83160 [(66, 5250)] (nopIn 0)); let k : Nat := 5; let w : Nat := 0x83160; let c : SCore := sc 0 0x83160 [(66, 5250)] (nopIn 0); (k < 32) ∧ (s.AtOp k 1 6 1 c) ∧ (c.slotWord 1 = w) ∧ ((c.effs.any fun e => e.slot == 1) = false) ∧ (c.reg (rP (bits w 18 3)) % 4 ≠ 0)) ∧
  (let s : State := scst (sc 0 0x83160 [(66, 64)] (nopIn 0)); let k : Nat := 5; let w : Nat := 0x83160; let c : SCore := sc 0 0x83160 [(66, 64)] (nopIn 0); (k < 32) ∧ (s.AtOp k 1 6 1 c) ∧ (c.slotWord 1 = w) ∧ ((c.effs.any fun e => e.slot == 1) = false) ∧ (c.reg (rP (bits w 18 3)) % 4 = 0) ∧ (c.canWrite (s.feed (16 + k / 4)).img (c.reg (rP (bits w 18 3))) 4 = false)) := by
  refine ⟨?_, ?_, ?_, ?_, ?_, ?_, ?_, ?_, ?_, ?_, ?_, ?_, ?_, ?_, ?_, ?_, ?_⟩ <;> decide +kernel

theorem witness_SteepLanes :
  (let s : State := scst (sc 0x5103010 0x0 [(4, 9223372043297259521), (5, 9223372034707292159), (3, 1)] (nopIn 1)); let k : Nat := 5; let slot : Nat := 0; let w : Nat := 0x5103010; let c : SCore := sc 0x5103010 0x0 [(4, 9223372043297259521), (5, 9223372034707292159), (3, 1)] (nopIn 1); (s.LastOp k slot 1 0 c) ∧ (c.slotWord slot = w)) ∧
  (let s : State := scst (sc 0x0 0x45103110 [(4, 9223372043297259521), (5, 9223372034707292159), (3, 1)] (nopIn 0)); let k : Nat := 5; let slot : Nat := 1; let w : Nat := 0x45103110; let c : SCore := sc 0x0 0x45103110 [(4, 9223372043297259521), (5, 9223372034707292159), (3, 1)] (nopIn 0); (s.LastOp k slot 1 1 c) ∧ (c.slotWord slot = w)) ∧
  (let s : State := scst (sc 0x85103210 0x0 [(4, 9223372043297259521), (5, 9223372034707292159), (3, 1)] (nopIn 1)); let k : Nat := 5; let slot : Nat := 0; let w : Nat := 0x85103210; let c : SCore := sc 0x85103210 0x0 [(4, 9223372043297259521), (5, 9223372034707292159), (3, 1)] (nopIn 1); (s.LastOp k slot 1 2 c) ∧ (c.slotWord slot = w)) ∧
  (let s : State := scst (sc 0x0 0xC5103310 [(4, 9223372043297259521), (5, 9223372034707292159), (3, 1)] (nopIn 0)); let k : Nat := 5; let slot : Nat := 1; let w : Nat := 0xC5103310; let c : SCore := sc 0x0 0xC5103310 [(4, 9223372043297259521), (5, 9223372034707292159), (3, 1)] (nopIn 0); (s.LastOp k slot 1 3 c) ∧ (c.slotWord slot = w)) ∧
  (let s : State := scst (sc 0x5103410 0x0 [(4, 9223372043297259521), (5, 9223372034707292159), (3, 1)] (nopIn 1)); let k : Nat := 5; let slot : Nat := 0; let w : Nat := 0x5103410; let c : SCore := sc 0x5103410 0x0 [(4, 9223372043297259521), (5, 9223372034707292159), (3, 1)] (nopIn 1); (s.LastOp k slot 1 4 c) ∧ (c.slotWord slot = w)) ∧
  (let s : State := scst (sc 0x0 0x45103510 [(4, 9223372043297259521), (5, 9223372034707292159), (3, 1)] (nopIn 0)); let k : Nat := 5; let slot : Nat := 1; let w : Nat := 0x45103510; let c : SCore := sc 0x0 0x45103510 [(4, 9223372043297259521), (5, 9223372034707292159), (3, 1)] (nopIn 0); (s.LastOp k slot 1 5 c) ∧ (c.slotWord slot = w)) ∧
  (let s : State := scst (sc 0x85103610 0x0 [(4, 9223372043297259521), (5, 9223372034707292159), (3, 1)] (nopIn 1)); let k : Nat := 5; let slot : Nat := 0; let w : Nat := 0x85103610; let c : SCore := sc 0x85103610 0x0 [(4, 9223372043297259521), (5, 9223372034707292159), (3, 1)] (nopIn 1); (s.LastOp k slot 1 6 c) ∧ (c.slotWord slot = w)) ∧
  (let s : State := scst (sc 0x85103A10 0x0 [(4, 9223372043297259521), (5, 9223372034707292159), (3, 1)] (nopIn 1)); let k : Nat := 5; let slot : Nat := 0; let w : Nat := 0x85103A10; let c : SCore := sc 0x85103A10 0x0 [(4, 9223372043297259521), (5, 9223372034707292159), (3, 1)] (nopIn 1); (s.LastOp k slot 1 10 c) ∧ (c.slotWord slot = w)) ∧
  (let s : State := scst (sc 0x0 0xC5103B10 [(4, 9223372043297259521), (5, 9223372034707292159), (3, 1)] (nopIn 0)); let k : Nat := 5; let slot : Nat := 1; let w : Nat := 0xC5103B10; let c : SCore := sc 0x0 0xC5103B10 [(4, 9223372043297259521), (5, 9223372034707292159), (3, 1)] (nopIn 0); (s.LastOp k slot 1 11 c) ∧ (c.slotWord slot = w)) ∧
  (let s : State := scst (sc 0x5103C10 0x0 [(4, 9223372043297259521), (5, 9223372034707292159), (3, 1)] (nopIn 1)); let k : Nat := 5; let slot : Nat := 0; let w : Nat := 0x5103C10; let c : SCore := sc 0x5103C10 0x0 [(4, 9223372043297259521), (5, 9223372034707292159), (3, 1)] (nopIn 1); (s.LastOp k slot 1 12 c) ∧ (c.slotWord slot = w)) ∧
  (let s : State := scst (sc 0x0 0x45103D10 [(4, 9223372043297259521), (5, 9223372034707292159), (3, 1)] (nopIn 0)); let k : Nat := 5; let slot : Nat := 1; let w : Nat := 0x45103D10; let c : SCore := sc 0x0 0x45103D10 [(4, 9223372043297259521), (5, 9223372034707292159), (3, 1)] (nopIn 0); (s.LastOp k slot 1 13 c) ∧ (c.slotWord slot = w)) ∧
  (let s : State := scst (sc 0x0 0xC5103710 [(4, 9223372043297259521), (5, 9223372034707292159), (3, 1)] (nopIn 0)); let k : Nat := 5; let slot : Nat := 1; let w : Nat := 0xC5103710; let c : SCore := sc 0x0 0xC5103710 [(4, 9223372043297259521), (5, 9223372034707292159), (3, 1)] (nopIn 0); (s.LastOp k slot 1 7 c) ∧ (c.slotWord slot = w)) ∧
  (let s : State := scst (sc 0x5103810 0x0 [(4, 9223372043297259521), (5, 9223372034707292159), (3, 1)] (nopIn 1)); let k : Nat := 5; let slot : Nat := 0; let w : Nat := 0x5103810; let c : SCore := sc 0x5103810 0x0 [(4, 9223372043297259521), (5, 9223372034707292159), (3, 1)] (nopIn 1); (s.LastOp k slot 1 8 c) ∧ (c.slotWord slot = w)) ∧
  (let s : State := scst (sc 0x0 0x45103910 [(4, 9223372043297259521), (5, 9223372034707292159), (3, 1)] (nopIn 0)); let k : Nat := 5; let slot : Nat := 1; let w : Nat := 0x45103910; let c : SCore := sc 0x0 0x45103910 [(4, 9223372043297259521), (5, 9223372034707292159), (3, 1)] (nopIn 0); (s.LastOp k slot 1 9 c) ∧ (c.slotWord slot = w)) ∧
  (let s : State := scst (sc 0x103E10 0x0 [(4, 9223372043297259521), (5, 9223372034707292159), (3, 1)] (nopIn 1)); let k : Nat := 5; let slot : Nat := 0; let w : Nat := 0x103E10; let c : SCore := sc 0x103E10 0x0 [(4, 9223372043297259521), (5, 9223372034707292159), (3, 1)] (nopIn 1); (s.LastOp k slot 1 14 c) ∧ (c.slotWord slot = w)) ∧
  (let s : State := scst (sc 0x0 0x40103F10 [(4, 9223372043297259521), (5, 9223372034707292159), (3, 1)] (nopIn 0)); let k : Nat := 5; let slot : Nat := 1; let w : Nat := 0x40103F10; let c : SCore := sc 0x0 0x40103F10 [(4, 9223372043297259521), (5, 9223372034707292159), (3, 1)] (nopIn 0); (s.LastOp k slot 1 15 c) ∧ (c.slotWord slot = w) ∧ (bits w 30 2 = 1)) ∧
  (let s : State := scst (sc 0x0 0x103f10 [(4, 9223372043297259521), (5, 9223372034707292159), (3, 1)] (nopIn 0)); let k : Nat := 5; let slot : Nat := 1; let w : Nat := 0x103f10; let c : SCore := sc 0x0 0x103f10 [(4, 9223372043297259521), (5, 9223372034707292159), (3, 1)] (nopIn 0); (s.LastOp k slot 1 15 c) ∧ (c.slotWord slot = w) ∧ (bits w 30 2 ≠ 1)) ∧
  (let s : State := scst (sc 0x85103020 0x0 [(4, 9223372043297259521), (5, 9223372034707292159), (3, 1)] (nopIn 1)); let k : Nat := 5; let slot : Nat := 0; let w : Nat := 0x85103020; let c : SCore := sc 0x85103020 0x0 [(4, 9223372043297259521), (5, 9223372034707292159), (3, 1)] (nopIn 1); (s.LastOp k slot 2 0 c) ∧ (c.slotWord slot = w)) ∧
  (let s : State := scst (sc 0x0 0x85103120 [(4, 9223372043297259521), (5, 9223372034707292159), (3, 1)] (nopIn 0)); let k : Nat := 5; let slot : Nat := 1; let w : Nat := 0x85103120; let c : SCore := sc 0x0 0x85103120 [(4, 9223372043297259521), (5, 9223372034707292159), (3, 1)] (nopIn 0); (s.LastOp k slot 2 1 c) ∧ (c.slotWord slot = w)) ∧
  (let s : State := scst (sc 0x85103220 0x0 [(4, 9223372043297259521), (5, 9223372034707292159), (3, 1)] (nopIn 1)); let k : Nat := 5; let slot : Nat := 0; let w : Nat := 0x85103220; let c : SCore := sc 0x85103220 0x0 [(4, 9223372043297259521), (5, 9223372034707292159), (3, 1)] (nopIn 1); (s.LastOp k slot 2 2 c) ∧ (c.slotWord slot = w)) ∧
  (let s : State := scst (sc 0x0 0x85103320 [(4, 9223372043297259521), (5, 9223372034707292159), (3, 1)] (nopIn 0)); let k : Nat := 5; let slot : Nat := 1; let w : Nat := 0x85103320; let c : SCore := sc 0x0 0x85103320 [(4, 9223372043297259521), (5, 9223372034707292159), (3, 1)] (nopIn 0); (s.LastOp k slot 2 3 c) ∧ (c.slotWord slot = w)) ∧
  (let s : State := scst (sc 0x85103420 0x0 [(4, 9223372043297259521), (5, 9223372034707292159), (3, 1)] (nopIn 1)); let k : Nat := 5; let slot : Nat := 0; let w : Nat := 0x85103420; let c : SCore := sc 0x85103420 0x0 [(4, 9223372043297259521), (5, 9223372034707292159), (3, 1)] (nopIn 1); (s.LastOp k slot 2 4 c) ∧ (c.slotWord slot = w)) ∧
  (let s : State := scst (sc 0x0 0x85103520 [(4, 9223372043297259521), (5, 9223372034707292159), (3, 1)] (nopIn 0)); let k : Nat := 5; let slot : Nat := 1; let w : Nat := 0x85103520; let c : SCore := sc 0x0 0x85103520 [(4, 9223372043297259521), (5, 9223372034707292159), (3, 1)] (nopIn 0); (s.LastOp k slot 2 5 c) ∧ (c.slotWord slot = w)) ∧
  (let s : State := scst (sc 0x85103620 0x0 [(4, 9223372043297259521), (5, 9223372034707292159), (3, 1)] (nopIn 1)); let k : Nat := 5; let slot : Nat := 0; let w : Nat := 0x85103620; let c : SCore := sc 0x85103620 0x0 [(4, 9223372043297259521), (5, 9223372034707292159), (3, 1)] (nopIn 1); (s.LastOp k slot 2 6 c) ∧ (c.slotWord slot = w)) ∧
  (let s : State := scst (sc 0x0 0x85103720 [(4, 9223372043297259521), (5, 9223372034707292159), (3, 1)] (nopIn 0)); let k : Nat := 5; let slot : Nat := 1; let w : Nat := 0x85103720; let c : SCore := sc 0x0 0x85103720 [(4, 9223372043297259521), (5, 9223372034707292159), (3, 1)] (nopIn 0); (s.LastOp k slot 2 7 c) ∧ (c.slotWord slot = w)) ∧
  (let s : State := scst (sc 0x85103820 0x0 [(4, 9223372043297259521), (5, 9223372034707292159), (3, 1)] (nopIn 1)); let k : Nat := 5; let slot : Nat := 0; let w : Nat := 0x85103820; let c : SCore := sc 0x85103820 0x0 [(4, 9223372043297259521), (5, 9223372034707292159), (3, 1)] (nopIn 1); (s.LastOp k slot 2 8 c) ∧ (c.slotWord slot = w)) ∧
  (let s : State := scst (sc 0x0 0x85103920 [(4, 9223372043297259521), (5, 9223372034707292159), (3, 1)] (nopIn 0)); let k : Nat := 5; let slot : Nat := 1; let w : Nat := 0x85103920; let c : SCore := sc 0x0 0x85103920 [(4, 9223372043297259521), (5, 9223372034707292159), (3, 1)] (nopIn 0); (s.LastOp k slot 2 9 c) ∧ (c.slotWord slot = w)) ∧
  (let s : State := scst (sc 0x85103A20 0x0 [(4, 9223372043297259521), (5, 9223372034707292159), (3, 1)] (nopIn 1)); let k : Nat := 5; let slot : Nat := 0; let w : Nat := 0x85103A20; let c : SCore := sc 0x85103A20 0x0 [(4, 9223372043297259521), (5, 9223372034707292159), (3, 1)] (nopIn 1); (s.LastOp k slot 2 10 c) ∧ (c.slotWord slot = w)) ∧
  (let s : State := scst (sc 0x0 0x85103B20 [(4, 9223372043297259521), (5, 9223372034707292159), (3, 1)] (nopIn 0)); let k : Nat := 5; let slot : Nat := 1; let w : Nat := 0x85103B20; let c : SCore := sc 0x0 0x85103B20 [(4, 9223372043297259521), (5, 9223372034707292159), (3, 1)] (nopIn 0); (s.LastOp k slot 2 11 c) ∧ (c.slotWord slot = w)) ∧
  (let s : State := scst (sc 0x14430A0 0x0 [(4, 9223372043297259521), (5, 9223372034707292159), (3, 1)] (nopIn 1)); let k : Nat := 5; let slot : Nat := 0; let w : Nat := 0x14430A0; let c : SCore := sc 0x14430A0 0x0 [(4, 9223372043297259521), (5, 9223372034707292159), (3, 1)] (nopIn 1); (s.LastOp k slot 10 0 c) ∧ (c.slotWord slot = w) ∧ (1 ≤ bits w 12 4 ∧ bits w 12 4 < 8)) ∧
  (let s : State := scst (sc 0x0 0x14431A0 [(4, 9223372043297259521), (5, 9223372034707292159), (3, 1)] (nopIn 0)); let k : Nat := 5; let slot : Nat := 1; let w : Nat := 0x14431A0; let c : SCore := sc 0x0 0x14431A0 [(4, 9223372043297259521), (5, 9223372034707292159), (3, 1)] (nopIn 0); (s.LastOp k slot 10 1 c) ∧ (c.slotWord slot = w) ∧ (1 ≤ bits w 12 4 ∧ bits w 12 4 < 8)) ∧
  (let s : State := scst (sc 0x14432A0 0x0 [(4, 9223372043297259521), (5, 9223372034707292159), (3, 1)] (nopIn 1)); let k : Nat := 5; let slot : Nat := 0; let w : Nat := 0x14432A0; let c : SCore := sc 0x14432A0 0x0 [(4, 9223372043297259521), (5, 9223372034707292159), (3, 1)] (nopIn 1); (s.LastOp k slot 10 2 c) ∧ (c.slotWord slot = w) ∧ (1 ≤ bits w 12 4 ∧ bits w 12 4 < 8)) ∧
  (let s : State := scst (sc 0x0 0x14433A0 [(4, 9223372043297259521), (5, 9223372034707292159), (3, 1)] (nopIn 0)); let k : Nat := 5; let slot : Nat := 1; let w : Nat := 0x14433A0; let c : SCore := sc 0x0 0x14433A0 [(4, 9223372043297259521), (5, 9223372034707292159), (3, 1)] (nopIn 0); (s.LastOp k slot 10 3 c) ∧ (c.slotWord slot = w) ∧ (1 ≤ bits w 12 4 ∧ bits w 12 4 < 8)) ∧
  (let s : State := scst (sc 0x14434A0 0x0 [(4, 9223372043297259521), (5, 9223372034707292159), (3, 1)] (nopIn 1)); let k : Nat := 5; let slot : Nat := 0; let w : Nat := 0x14434A0; let c : SCore := sc 0x14434A0 0x0 [(4, 9223372043297259521), (5, 9223372034707292159), (3, 1)] (nopIn 1); (s.LastOp k slot 10 4 c) ∧ (c.slotWord slot = w) ∧ (1 ≤ bits w 12 4 ∧ bits w 12 4 < 8)) ∧
  (let s : State := scst (sc 0x0 0x14435A0 [(4, 9223372043297259521), (5, 9223372034707292159), (3, 1)] (nopIn 0)); let k : Nat := 5; let slot : Nat := 1; let w : Nat := 0x14435A0; let c : SCore := sc 0x0 0x14435A0 [(4, 9223372043297259521), (5, 9223372034707292159), (3, 1)] (nopIn 0); (s.LastOp k slot 10 5 c) ∧ (c.slotWord slot = w) ∧ (1 ≤ bits w 12 4 ∧ bits w 12 4 < 8)) ∧
  (let s : State := scst (sc 0x14400A0 0x0 [(4, 9223372043297259521), (5, 9223372034707292159), (3, 1)] (nopIn 1)); let k : Nat := 5; let slot : Nat := 0; let w : Nat := 0x14400A0; let c : SCore := sc 0x14400A0 0x0 [(4, 9223372043297259521), (5, 9223372034707292159), (3, 1)] (nopIn 1); (s.LastOp k slot 10 0 c) ∧ (c.slotWord slot = w) ∧ (bits w 12 4 = 0)) ∧
  (let s : State := scst (sc 0x81233070 0x0 [(4, 9223372043297259521), (5, 9223372034707292159), (3, 1)] (nopIn 1)); let k : Nat := 5; let slot : Nat := 0; let w : Nat := 0x81233070; let c : SCore := sc 0x81233070 0x0 [(4, 9223372043297259521), (5, 9223372034707292159), (3, 1)] (nopIn 1); (s.LastOp k slot 7 0 c) ∧ (c.slotWord slot = w)) ∧
  (let s : State := scst (sc 0x0 0x81233170 [(4, 9223372043297259521), (5, 9223372034707292159), (3, 1)] (nopIn 0)); let k : Nat := 5; let slot : Nat := 1; let w : Nat := 0x81233170; let c : SCore := sc 0x0 0x81233170 [(4, 9223372043297259521), (5, 9223372034707292159), (3, 1)] (nopIn 0); (s.LastOp k slot 7 1 c) ∧ (c.slotWord slot = w)) ∧
  (let s : State := scst (sc 0x3270 0x0 [(67, 262143), (75, 5)] (nopIn 1)); let k : Nat := 5; let slot : Nat := 0; let w : Nat := 0x3270; let c : SCore := sc 0x3270 0x0 [(67, 262143), (75, 5)] (nopIn 1); (s.LastOp k slot 7 2 c) ∧ (c.slotWord slot = w)) ∧
  (let s : State := scst (sc 0x0 0x4B370 [(67, 77)] (nopIn 0)); let k : Nat := 5; let slot : Nat := 1; let w : Nat := 0x4B370; let c : SCore := sc 0x0 0x4B370 [(67, 77)] (nopIn 0); (s.LastOp k slot 7 3 c) ∧ (c.slotWord slot = w)) ∧
  (let s : State := scst (sc 0x23470 0x0 [(4, 9223372043297259521), (5, 9223372034707292159), (3, 1)] (nopIn 1)); let k : Nat := 5; let slot : Nat := 0; let w : Nat := 0x23470; let c : SCore := sc 0x23470 0x0 [(4, 9223372043297259521), (5, 9223372034707292159), (3, 1)] (nopIn 1); (s.LastOp k slot 7 4 c) ∧ (c.slotWord slot = w)) ∧
  (let s : State := scst (sc 0x0 0x23570 [(4, 9223372043297259521), (5, 9223372034707292159), (3, 1)] (nopIn 0)); let k : Nat := 5; let slot : Nat := 1; let w : Nat := 0x23570; let c : SCore := sc 0x0 0x23570 [(4, 9223372043297259521), (5, 9223372034707292159), (3, 1)] (nopIn 0); (s.LastOp k slot 7 5 c) ∧ (c.slotWord slot = w)) := by
  refine ⟨?_, ?_, ?_, ?_, ?_, ?_, ?_, ?_, ?_, ?_, ?_, ?_, ?_, ?_, ?_, ?_, ?_, ?_, ?_, ?_, ?_, ?_, ?_, ?_, ?_, ?_, ?_, ?_, ?_, ?_, ?_, ?_, ?_, ?_, ?_, ?_, ?_, ?_, ?_, ?_, ?_, ?_⟩ <;> decide +kernel

theorem witness_SteepControl :
  (let s : State := scst (sc 0x0 0x0 [(4, 9223372043297259521), (5, 9223372034707292159), (3, 1)] (nopIn 1)); let k : Nat := 5; let slot : Nat := 0; let w : Nat := 0x0; let c : SCore := sc 0x0 0x0 [(4, 9223372043297259521), (5, 9223372034707292159), (3, 1)] (nopIn 1); (s.LastOp k slot 0 0 c) ∧ (c.slotWord slot = w)) ∧
  (let s : State := scst (sc 0x0 0x203100 [(108, 77)] (nopIn 0)); let k : Nat := 5; let slot : Nat := 1; let w : Nat := 0x203100; let c : SCore := sc 0x0 0x203100 [(108, 77)] (nopIn 0); (s.LastOp k slot 0 1 c) ∧ (c.slotWord slot = w) ∧ (bits w 18 4 ≤ 11)) ∧
  (let s : State := scst (sc 0x0 0x303100 [(108, 77)] (nopIn 0)); let k : Nat := 5; let slot : Nat := 1; let w : Nat := 0x303100; let c : SCore := sc 0x0 0x303100 [(108, 77)] (nopIn 0); (s.LastOp k slot 0 1 c) ∧ (c.slotWord slot = w) ∧ (11 < bits w 18 4)) ∧
  (let s : State := scst (sc 0x43200 0x0 [(3, 7), (102, 3), (80, 9)] (nopIn 1)); let k : Nat := 5; let slot : Nat := 0; let w : Nat := 0x43200; let c : SCore := sc 0x43200 0x0 [(3, 7), (102, 3), (80, 9)] (nopIn 1); (s.LastOp k slot 0 2 c) ∧ (c.slotWord slot = w) ∧ (bits w 18 4 = 1)) ∧
  (let s : State := scst (sc 0x83200 0x0 [(3, 1), (102, 3), (80, 9)] (nopIn 1)); let k : Nat := 5; let slot : Nat := 0; let w : Nat := 0x83200; let c : SCore := sc 0x83200 0x0 [(3, 1), (102, 3), (80, 9)] (nopIn 1); (s.LastOp k slot 0 2 c) ∧ (c.slotWord slot = w) ∧ (bits w 18 4 = 2)) ∧
  (let s : State := scst (sc 0xC3200 0x0 [(3, 8589934597), (102, 3), (80, 9)] (nopIn 1)); let k : Nat := 5; let slot : Nat := 0; let w : Nat := 0xC3200; let c : SCore := sc 0xC3200 0x0 [(3, 8589934597), (102, 3), (80, 9)] (nopIn 1); (s.LastOp k slot 0 2 c) ∧ (c.slotWord slot = w) ∧ (bits w 18 4 = 3)) ∧
  (let s : State := scst (sc 0x103200 0x0 [(3, 8589934597), (102, 3), (80, 9)] (nopIn 1)); let k : Nat := 5; let slot : Nat := 0; let w : Nat := 0x103200; let c : SCore := sc 0x103200 0x0 [(3, 8589934597), (102, 3), (80, 9)] (nopIn 1); (s.LastOp k slot 0 2 c) ∧ (c.slotWord slot = w) ∧ (bits w 18 4 = 4)) ∧
  (let s : State := scst (sc 0x143200 0x0 [(3, 8589934597), (102, 3), (80, 9)] (nopIn 1)); let k : Nat := 5; let slot : Nat := 0; let w : Nat := 0x143200; let c : SCore := sc 0x143200 0x0 [(3, 8589934597), (102, 3), (80, 9)] (nopIn 1); (s.LastOp k slot 0 2 c) ∧ (c.slotWord slot = w) ∧ (bits w 18 4 = 5)) ∧
  (let s : State := scst (sc 0x183200 0x0 [(3, 111), (102, 3), (80, 9)] (nopIn 1)); let k : Nat := 5; let slot : Nat := 0; let w : Nat := 0x183200; let c : SCore := sc 0x183200 0x0 [(3, 111), (102, 3), (80, 9)] (nopIn 1); (s.LastOp k slot 0 2 c) ∧ (c.slotWord slot = w) ∧ (bits w 18 4 = 6) ∧ (c.x (bits w 12 6) % 64 < 48)) ∧
  (let s : State := scst (sc 0x183200 0x0 [(3, 48), (102, 3), (80, 9)] (nopIn 1)); let k : Nat := 5; let slot : Nat := 0; let w : Nat := 0x183200; let c : SCore := sc 0x183200 0x0 [(3, 48), (102, 3), (80, 9)] (nopIn 1); (s.LastOp k slot 0 2 c) ∧ (c.slotWord slot = w) ∧ (bits w 18 4 = 6) ∧ (48 ≤ c.x (bits w 12 6) % 64)) ∧
  (let s : State := scst (sc 0x1C3200 0x0 [(3, 421), (102, 3), (80, 9)] (nopIn 1)); let k : Nat := 5; let slot : Nat := 0; let w : Nat := 0x1C3200; let c : SCore := sc 0x1C3200 0x0 [(3, 421), (102, 3), (80, 9)] (nopIn 1); (s.LastOp k slot 0 2 c) ∧ (c.slotWord slot = w) ∧ (bits w 18 4 = 7)) ∧
  (let s : State := scst (sc 0x203200 0x0 [(3, 5), (102, 3), (80, 9)] (nopIn 1)); let k : Nat := 5; let slot : Nat := 0; let w : Nat := 0x203200; let c : SCore := sc 0x203200 0x0 [(3, 5), (102, 3), (80, 9)] (nopIn 1); (s.LastOp k slot 0 2 c) ∧ (c.slotWord slot = w) ∧ (bits w 18 4 = 8)) ∧
  (let s : State := scst (sc 0x30F0 0x87654321 [(3, 5)] []); let k : Nat := 5; let w : Nat := 0x30F0; let c : SCore := sc 0x30F0 0x87654321 [(3, 5)] []; (s.AtOp k 0 15 0 c) ∧ (c.slotWord 0 = w) ∧ (c.effs = []) ∧ (c.loops = [])) ∧
  (let s : State := scst (sc 0x31F0 0x87654321 [(3, 5)] []); let k : Nat := 5; let w : Nat := 0x31F0; let c : SCore := sc 0x31F0 0x87654321 [(3, 5)] []; (s.AtOp k 0 15 1 c) ∧ (c.slotWord 0 = w) ∧ (c.effs = []) ∧ (c.loops = [])) ∧
  (let s : State := scst (sc 0x31 0 [] (nopIn 1)); let k : Nat := 5; let c : SCore := sc 0x31 0 [] (nopIn 1); (s.core_ k = some c) ∧ (s.groupRuns (16 + k / 4) = true) ∧ (c.wait = none) ∧ (8 * c.pc + 8 ≤ shCode (s.feed (16 + k / 4)).img) ∧ (bits (c.slotWord 0) 4 4 = 3) ∧ (bits (c.slotWord 0) 8 4 = 0) ∧ (c.guard (bits (c.slotWord 0) 0 4) = false) ∧ (c.effs = [{ effRegs [] with slot := 1 }]) ∧ (c.loops = [])) ∧
  (let s : State := scst (sc 0xFFFFE080 0x0 [(4, 9223372043297259521), (5, 9223372034707292159), (3, 1)] (nopIn 1)); let k : Nat := 5; let w : Nat := 0xFFFFE080; let c : SCore := sc 0xFFFFE080 0x0 [(4, 9223372043297259521), (5, 9223372034707292159), (3, 1)] (nopIn 1); (s.LastOp k 0 8 0 c) ∧ (c.slotWord 0 = w)) ∧
  (let s : State := scst (sc 0x1C3180 0x0 [(3, 0)] (nopIn 1)); let k : Nat := 5; let w : Nat := 0x1C3180; let c : SCore := sc 0x1C3180 0x0 [(3, 0)] (nopIn 1); (s.LastOp k 0 8 1 c) ∧ (c.slotWord 0 = w) ∧ (c.x (bits w 12 6) % 2 ^ 32 = 0)) ∧
  (let s : State := scst (sc 0x1C3180 0x0 [(3, 5)] (nopIn 1)); let k : Nat := 5; let w : Nat := 0x1C3180; let c : SCore := sc 0x1C3180 0x0 [(3, 5)] (nopIn 1); (s.LastOp k 0 8 1 c) ∧ (c.slotWord 0 = w) ∧ (c.x (bits w 12 6) % 2 ^ 32 ≠ 0)) ∧
  (let s : State := scst (sc 0x301C3280 0x0 [(3, 5)] (nopIn 1)); let k : Nat := 5; let w : Nat := 0x301C3280; let c : SCore := sc 0x301C3280 0x0 [(3, 5)] (nopIn 1); (s.LastOp k 0 8 2 c) ∧ (c.slotWord 0 = w) ∧ (c.x (bits w 12 6) % 2 ^ 32 ≠ 0)) ∧
  (let s : State := scst (sc 0x103E10 0xC4E10 [(3, 33), (4, 44)] []); let k : Nat := 5; let w : Nat := 0x103E10; let c : SCore := sc 0x103E10 0xC4E10 [(3, 33), (4, 44)] []; (s.AtOp k 0 1 14 c) ∧ (c.slotWord 0 = w) ∧ (c.effs = [])) ∧
  (let s : State := scst (sc 0x103E10 0xC4E10 [(3, 33), (4, 44)] [{ effRegs [(3, 44)] with slot := 0 }]); let k : Nat := 5; let w : Nat := 0xC4E10; let a : Nat := 3; let v : Nat := 44; let c : SCore := sc 0x103E10 0xC4E10 [(3, 33), (4, 44)] [{ effRegs [(3, 44)] with slot := 0 }]; (s.AtOp k 1 1 14 c) ∧ (c.slotWord 1 = w) ∧ (c.effs = [{ effRegs [(a, v)] with slot := 0 }]) ∧ (a ≠ c.px (bits w 12 6)) ∧ (c.loops = [])) ∧
  (let s : State := scst (sc 0x103E10 0xC4E10 [(3, 33), (4, 44)] [{ effRegs [(4, 44)] with slot := 0 }]); let k : Nat := 5; let w : Nat := 0xC4E10; let a : Nat := 4; let v : Nat := 44; let c : SCore := sc 0x103E10 0xC4E10 [(3, 33), (4, 44)] [{ effRegs [(4, 44)] with slot := 0 }]; (k < 32) ∧ (s.AtOp k 1 1 14 c) ∧ (c.slotWord 1 = w) ∧ (c.effs = [{ effRegs [(a, v)] with slot := 0 }]) ∧ (a = c.px (bits w 12 6))) ∧
  (let s : State := scst ({ sc 0 0x83090 [] (nopIn 0) with ring := [], held := none }); let k : Nat := 5; let w : Nat := 0x83090; let c : SCore := { sc 0 0x83090 [] (nopIn 0) with ring := [], held := none }; (s.LastOp k 1 9 0 c) ∧ (c.slotWord 1 = w) ∧ (c.held = none) ∧ (c.ring = [])) ∧
  (let s : State := scst ({ sc 0 0x83090 [] (nopIn 0) with ring := [⟨1152, 64, 9⟩], held := none }); let k : Nat := 5; let w : Nat := 0x83090; let c : SCore := { sc 0 0x83090 [] (nopIn 0) with ring := [⟨1152, 64, 9⟩], held := none }; let e : SEntry := ⟨1152, 64, 9⟩; let l : List SEntry := []; (s.LastOp k 1 9 0 c) ∧ (c.slotWord 1 = w) ∧ (c.held = none) ∧ (c.ring = e :: l)) ∧
  (let s : State := scst ({ sc 0 0x190 [] (nopIn 0) with ring := [⟨1152, 64, 9⟩], held := some (⟨1152, 64, 9⟩, 5, false) }); let k : Nat := 5; let w : Nat := 0x190; let c : SCore := { sc 0 0x190 [] (nopIn 0) with ring := [⟨1152, 64, 9⟩], held := some (⟨1152, 64, 9⟩, 5, false) }; let e : SEntry × Nat × Bool := (⟨1152, 64, 9⟩, 5, false); (s.LastOp k 1 9 1 c) ∧ (c.slotWord 1 = w) ∧ (c.held = some e) ∧ (bit e.1.head 8 = false)) ∧
  (let s : State := scse ({ sc 0 0x80290 [(66, 5248)] (nopIn 0) with ring := [⟨1152, 64, 9⟩], held := some (⟨1152, 64, 0x109⟩, 5, false) }); let k : Nat := 5; let w : Nat := 0x80290; let c : SCore := { sc 0 0x80290 [(66, 5248)] (nopIn 0) with ring := [⟨1152, 64, 9⟩], held := some (⟨1152, 64, 0x109⟩, 5, false) }; let e : SEntry := ⟨1152, 64, 0x109⟩; let x : Nat := 5; (s.LastOp k 1 9 2 c) ∧ (c.slotWord 1 = w) ∧ (k < 32) ∧ (c.held = some (e, x, false)) ∧ (hdrEpoch (s.feed (16 + k / 4)).img = true) ∧ (bit e.head 8 = true) ∧ (c.reg (rP (bits w 18 3)) % 4 = 0) ∧ (inside (c.reg (rP (bits w 18 3))) (4 * (hdrFeatures (s.feed (16 + k / 4)).img + (hdrFeatures (s.feed (16 + k / 4)).img + 31) / 32)) (scratchBase (s.feed (16 + k / 4)).img) (localBytes - scratchBase (s.feed (16 + k / 4)).img) = true)) ∧
  (let s : State := scst ({ sc 0 0x80290 [(66, 5248)] (nopIn 0) with ring := [⟨1152, 64, 9⟩], held := some (⟨1152, 64, 0x109⟩, 5, false) }); let k : Nat := 5; let w : Nat := 0x80290; let c : SCore := { sc 0 0x80290 [(66, 5248)] (nopIn 0) with ring := [⟨1152, 64, 9⟩], held := some (⟨1152, 64, 0x109⟩, 5, false) }; let e : SEntry := ⟨1152, 64, 0x109⟩; let x : Nat := 5; (s.LastOp k 1 9 2 c) ∧ (c.slotWord 1 = w) ∧ (k < 32) ∧ (c.held = some (e, x, false)) ∧ (hdrEpoch (s.feed (16 + k / 4)).img = false) ∧ (c.reg (rP (bits w 18 3)) % 4 = 0) ∧ (inside (c.reg (rP (bits w 18 3))) (4 * (hdrFeatures (s.feed (16 + k / 4)).img + (hdrFeatures (s.feed (16 + k / 4)).img + 31) / 32)) (scratchBase (s.feed (16 + k / 4)).img) (localBytes - scratchBase (s.feed (16 + k / 4)).img) = true)) := by
  refine ⟨?_, ?_, ?_, ?_, ?_, ?_, ?_, ?_, ?_, ?_, ?_, ?_, ?_, ?_, ?_, ?_, ?_, ?_, ?_, ?_, ?_, ?_, ?_, ?_, ?_, ?_, ?_⟩ <;> decide +kernel

theorem witness_PatternLibrary :
  (let s : State := st [] [(O.RoleActive, 3), (O.TwinState, 6)]; let q : Req := qr; let im : List Nat := natBytes 128 (packFields [(0, 8, 4), (8, 4, 6), (64, 64, 128)]) ++ ([1, 0] ++ List.replicate 14 0 ++ natBytes 16 (Config.sha384 (natBytes 96 0)) ++ List.replicate 224 0) ++ recBytes (mkRec 0xC6 8 0 0 0 0 [(192, 32, 7)]); let descs : List Rec := [mkRec 0xC6 8 0 0 0 0 [(192, 32, 7)]]; (s.AcceptsDesc q) ∧ (s.apexLead = true) ∧ (s.signed 4 true (sigBlock im) = true) ∧ (imageBad im = false) ∧ (mfKind (bytesNat (im.take 128)) = 4) ∧ (mfLevel (bytesNat (im.take 128)) 3 = false) ∧ (descs = libraryDescs (im.drop 384)) ∧ (descs ≠ []) ∧ (s.i O.LibraryActive < recFld (descs.headD []) 192 32) ∧ (s.tw.transfers = [])) ∧
  (let s : State := st [] [(O.RoleActive, 3), (O.TwinState, 6)]; let q : Req := qr; let im : List Nat := natBytes 128 (packFields [(0, 8, 4), (8, 4, 6), (64, 64, 128)]) ++ ([1, 0] ++ List.replicate 14 0 ++ natBytes 16 (Config.sha384 (natBytes 96 0)) ++ List.replicate 224 0) ++ recBytes (mkRec 0xC6 8 0 0 0 0 [(192, 32, 7)]); let b : Bool := false; (s.AcceptsDesc q) ∧ (s.apexLead = true) ∧ ((b = false ∨ s.signerOk 4 (sigBlock im) = false ∨ recFld ((libraryDescs (im.drop 384)).headD []) 192 32 ≤ s.i O.LibraryActive))) ∧
  (let s : State := st [(O.LibStageStatus, 1)] []; let slot : Nat := 5; let r : Rec := mkRec 0xC6 8 0 0 0 0 []; (s.heladReset = false) ∧ (s.si.hel.stVer = recFld r 192 32) ∧ (s.h O.LibStageStatus = 1)) ∧
  (let s : State := st [(O.LibStageStatus, 3)] []; let slot : Nat := 5; let r : Rec := mkRec 0xC6 8 0 0 0 0 [(192, 32, 9)]; (s.heladReset = false) ∧ ((s.si.hel.stVer ≠ recFld r 192 32 ∨ s.h O.LibStageStatus ≠ 1))) ∧
  (let s : State := (fun s => { s with si := { s.si with hel := { s.si.hel with jobs := [⟨4, 6, 5, 0, [], 0, 0, 0, [], 0, 0, 0⟩], staged := [(5, mkRec 0xC6 8 0 0 0 0 [])] } } }) (st [(O.LibStageStatus, 2)] []); let slot : Nat := 5; let j : Job := ⟨4, 6, 5, 0, [], 0, 0, 0, [], 0, 0, 0⟩; let d : Rec := mkRec 0xC6 8 0 0 0 0 []; (s.jobOf 6 slot = some j) ∧ (s.si.hel.staged = [(slot, d)]) ∧ (j.over_ = true) ∧ (s.h O.LibStageStatus = 2) ∧ (s.si.hel.waitVer = none) ∧ (s.role ≠ 1)) ∧
  (let s : State := st [] [(O.ActivateInstant, 2 ^ 70), (O.RoleActive, 3), (O.TwinState, 6)]; let q : Req := qm; let v : Nat := 7; (s.Accepts q O.LibraryActivate v) ∧ (s.ft .icd + us 50 ≤ s.i O.ActivateInstant) ∧ (s.tm.iActs.length < 1024)) ∧
  (let s : State := (fun s => atFt (2 ^ 40) { s with tm := { s.tm with hActs := [⟨9, 6, 2 ^ 39, 0, 0, 0, O.LibraryActivate, 0, false, false, 0⟩] } }) (st [(O.LibStageStatus, 3)] []); let a : Act := ⟨9, 6, 2 ^ 39, 0, 0, 0, O.LibraryActivate, 0, false, false, 0⟩; (s.dueAct .hel = some a) ∧ (a.kind = 6) ∧ (a.key = O.LibraryActivate) ∧ (s.si.hel.stVer = a.val) ∧ (s.h O.LibStageStatus = 3)) ∧
  (let s : State := (fun s => atFt (2 ^ 40) { s with tm := { s.tm with hActs := [⟨9, 6, 2 ^ 39, 0, 0, 0, O.LibraryActivate, 8, false, false, 0⟩] } }) (st [(O.LibStageStatus, 2)] []); let a : Act := ⟨9, 6, 2 ^ 39, 0, 0, 0, O.LibraryActivate, 8, false, false, 0⟩; (s.dueAct .hel = some a) ∧ (a.kind = 6) ∧ (a.key = O.LibraryActivate) ∧ (s.h O.LibStageStatus ≠ 3)) := by
  refine ⟨?sg, ?_, ?_, ?_, ?_, ?_, ?_, ?_⟩
  case sg =>
      intro s q im descs
      refine ⟨by decide +kernel +revert, by decide +kernel +revert, signed_of (by decide +kernel +revert) ?_, by decide +kernel +revert, by decide +kernel +revert, by decide +kernel +revert, by decide +kernel +revert, by decide +kernel +revert, by decide +kernel +revert, by decide +kernel +revert⟩
      have h : s.i (O.SignerKey + 0) = 0 := by decide +kernel +revert
      show natBytes 16 (Config.sha384 (natBytes 96 0)) = natBytes 16 (Config.sha384 (natBytes 96 (s.i (O.SignerKey + 0))))
      rw [h]
  all_goals decide +kernel

theorem witness_PitchRuns :
  (let s : State := (fun s => atFt (2 ^ 50) (up { s with si := { s.si with hel := { s.si.hel with duty := 1, active := [(5, mkRec 0xC6 8 0 0 0 0 [(144, 16, 0xFFFF), (160, 16, 10)])] } } })) (st [] []); let u : Nat := 3; let slot : Nat := 5; (s.si.hel.change = none) ∧ (s.bd.hmainReset = false) ∧ (s.si.hel.duty ≠ 0) ∧ (s.rotation u ≠ []) ∧ (s.pitchAt u (tgetD s.si.hel.next u 0) ≤ s.ft .hel) ∧ (s.beforePitch (s.pitchAt u (tgetD s.si.hel.next u 0)) = false) ∧ (s.awake 2 = true) ∧ (s.NoRouse) ∧ (tget s.pw.jitter (u * 16 + 4) = none) ∧ (s.si.hel.deferred = []) ∧ (bits (s.h (fenceKey u)) 0 2 = 0) ∧ ((s.rotation u).getD (tgetD s.si.hel.next u 0 % (s.rotation u).length) 0 = slot) ∧ (slot ∉ s.si.hel.badSlots) ∧ (tgetD s.si.hel.active slot [] ≠ []) ∧ ((s.si.hel.requests.any fun p => p.unit == u) = false) ∧ ((s.si.hel.requests.filter fun p => p.phase == 0).length < 16) ∧ (s.haltedUnit u = false) ∧ (s.guardFits (us (recFld (tgetD s.si.hel.active slot []) 160 16)) = true)) ∧
  (let s : State := (fun s => atFt (2 ^ 50) (up { s with si := { s.si with hel := { s.si.hel with duty := 1, active := [(5, mkRec 0xC6 8 0 0 0 0 [(144, 16, 0xFFFF), (160, 16, 10)])] } } })) (st [(fenceKey 3, 1 + 32 * 2 ^ 48)] []); let u : Nat := 3; (s.si.hel.change = none) ∧ (s.bd.hmainReset = false) ∧ (s.si.hel.duty ≠ 0) ∧ (s.rotation u ≠ []) ∧ (s.pitchAt u (tgetD s.si.hel.next u 0) ≤ s.ft .hel) ∧ (s.beforePitch (s.pitchAt u (tgetD s.si.hel.next u 0)) = false) ∧ (s.awake 2 = true) ∧ (s.NoRouse) ∧ (tget s.pw.jitter (u * 16 + 4) = none) ∧ (s.si.hel.deferred = []) ∧ (bits (s.h (fenceKey u)) 0 2 = 1)) ∧
  (let s : State := (fun s => { s with si := { s.si with hel := { s.si.hel with duty := 0 } } }) (st [] []); let u : Nat := 3; (s.si.hel.change = none) ∧ (s.si.hel.duty = 0 ∨ s.ft .hel < s.pitchAt u (tgetD s.si.hel.next u 0))) ∧
  (let s : State := (fun s => { s with si := { s.si with hel := { s.si.hel with requests := [⟨3, 5, 9, 7, false, false, false, 0, 0, mkRec 0xC6 8 0 0 0 0 [], 0, 0, 0, 0, 0⟩] } } }) (st [] []); let tag : Nat := 9; let cmdid : Nat := 77; let p : Pitch := ⟨3, 5, 9, 7, false, false, false, 0, 0, mkRec 0xC6 8 0 0 0 0 [], 0, 0, 0, 0, 0⟩; ((s.si.hel.requests.find? fun p => p.tag == tag && p.phase == 0) = some p)) ∧
  (let s : State := (fun s => { s with si := { s.si with hel := { s.si.hel with requests := [⟨3, 5, 9, 7, true, false, false, 0, 0, mkRec 0xC6 8 0 0 0 0 [], 0, 0, 0, 0, 0⟩] } } }) (st [] []); let tag : Nat := 9; let status : Nat := 2; let cmdid : Nat := 77; let p : Pitch := ⟨3, 5, 9, 7, true, false, false, 0, 0, mkRec 0xC6 8 0 0 0 0 [], 0, 0, 0, 0, 0⟩; ((s.si.hel.requests.find? fun p => p.tag == tag && p.phase == 0) = some p) ∧ (1 ≤ status ∧ status ≤ 4) ∧ (s.si.hel.deferred = []) ∧ (p.fenced = true)) ∧
  (let s : State := st [] []; let tag : Nat := 9; let status : Nat := 2; let cmdid : Nat := 77; ((s.si.hel.requests.find? fun p => p.tag == tag && p.phase == 0) = none)) ∧
  (let s : State := (fun s => atFt (2 ^ 60) { s with si := { s.si with hel := { s.si.hel with requests := [⟨3, 5, 9, 7, false, false, false, 0, 0, mkRec 0xC6 8 0 0 0 0 [], 0, 0, 0, 0, 0⟩] } } }) (st [] []); let u : Nat := 3; let p : Pitch := ⟨3, 5, 9, 7, false, false, false, 0, 0, mkRec 0xC6 8 0 0 0 0 [], 0, 0, 0, 0, 0⟩; ((s.si.hel.requests.find? fun p => p.unit == u && p.phase == 0) = some p) ∧ (p.at_ + us (recFld p.desc 160 16) + ms 1 ≤ s.ft .hel) ∧ (s.si.hel.deferred = [])) ∧
  (let s : State := (fun s => { s with si := { s.si with hel := { s.si.hel with jobs := [⟨4, 5, 3, 0, [], 0, 0, 0, [], 0, 0, 0⟩], requests := [⟨3, 5, 9, 7, true, false, false, 0, 0, mkRec 0xC6 8 0 0 0 0 [], 1, 0, 0, 0, 0⟩] } } }) (st [] []); let u : Nat := 3; let p : Pitch := ⟨3, 5, 9, 7, true, false, false, 0, 0, mkRec 0xC6 8 0 0 0 0 [], 1, 0, 0, 0, 0⟩; let j : Job := ⟨4, 5, 3, 0, [], 0, 0, 0, [], 0, 0, 0⟩; ((s.si.hel.requests.find? fun p => p.unit == u && p.phase == 1) = some p) ∧ (s.jobOf 5 u = some j) ∧ (j.over_ = true) ∧ (j.fail = 0) ∧ (s.si.hel.deferred = []) ∧ (p.fenced = true)) ∧
  (let s : State := (fun s => { s with si := { s.si with hel := { s.si.hel with jobs := [⟨4, 5, 3, 0, [], 0, 0, 0, [], 1, 0, 0⟩], requests := [⟨3, 5, 9, 7, true, false, false, 0, 0, mkRec 0xC6 8 0 0 0 0 [], 1, 0, 0, 0, 0⟩] } } }) (st [] []); let u : Nat := 3; let p : Pitch := ⟨3, 5, 9, 7, true, false, false, 0, 0, mkRec 0xC6 8 0 0 0 0 [], 1, 0, 0, 0, 0⟩; let j : Job := ⟨4, 5, 3, 0, [], 0, 0, 0, [], 1, 0, 0⟩; ((s.si.hel.requests.find? fun p => p.unit == u && p.phase == 1) = some p) ∧ (s.jobOf 5 u = some j) ∧ (j.over_ = true) ∧ (j.fail = 1) ∧ (s.si.hel.deferred = [])) := by
  refine ⟨?_, ?_, ?_, ?_, ?_, ?_, ?_, ?_, ?_⟩ <;> decide +kernel

theorem witness_ReplicaCompare :
  (let s : State := st [] []; let q : Req := qr; let g : Nat := 3; let members : List (Nat × Nat × Nat × Nat) := [(5, 1, 64, 8), (6, 1, 128, 16)]; (s.AcceptsDesc q) ∧ (2 ≤ members.length ∧ members.length ≤ 64) ∧ ((members.any fun m => m.2.2.1 % 64 != 0 || m.2.2.2 % 8 != 0 || decide (m.2.1 ≥ 65536)) = false)) ∧
  (let s : State := (fun s => { s with ln := { s.ln with dieGid := [(5, 99)] } }) (st [] [(O.RoleActive, 1), (O.TwinState, 2)]); let q : Req := qr; let g : Nat := 3; let k : Nat := 5; let m : Nat × Nat × Nat × Nat := (99, 1, 64, 8); let n : Nat × Nat × Nat × Nat := (6, 1, 128, 16); (s.AcceptsDesc q) ∧ (s.role = 1) ∧ (s.isLead = true) ∧ (([m, n].any fun m => m.2.2.1 % 64 != 0 || m.2.2.2 % 8 != 0 || decide (m.2.1 ≥ 65536)) = false) ∧ (s.slotOfDie m.1 = some k) ∧ (s.slotOfDie n.1 ≠ some k) ∧ (m.1 ≠ s.hGid)) ∧
  (let s : State := (fun s => { s with bd := { s.bd with gid := 99 } }) (st [] [(O.RoleActive, 1), (O.TwinState, 2)]); let q : Req := qr; let g : Nat := 3; let m : Nat × Nat × Nat × Nat := (99, 1, 64, 8); let n : Nat × Nat × Nat × Nat := (6, 1, 128, 16); (s.AcceptsDesc q) ∧ (s.role = 1) ∧ (s.isLead = true) ∧ (([m, n].any fun m => m.2.2.1 % 64 != 0 || m.2.2.2 % 8 != 0 || decide (m.2.1 ≥ 65536)) = false) ∧ (m.1 = s.hGid) ∧ (n.1 ≠ s.hGid)) ∧
  (let s : State := st [] []; let q : Req := qr; let g : Nat := 3; let members : List (Nat × Nat × Nat × Nat) := [(5, 1, 64, 8)]; (s.AcceptsDesc q) ∧ (members.length < 2 ∨ 64 < members.length)) ∧
  (let s : State := (fun s => atFt (2 ^ 60) { s with si := { s.si with hel := { s.si.hel with groups := [(3, ⟨9, 1, 64, 8, 128, 5, true, 77, 0, none⟩)] } } }) (st [] [(inst O.ReplicaConfig 3, 2 ^ 48)]); let g : Nat := 3; let r : RepHel := ⟨9, 1, 64, 8, 128, 5, true, 77, 0, none⟩; (tget s.si.hel.groups g = some r) ∧ (r.every ≠ 0) ∧ (r.last < s.ft .hel / ms r.every) ∧ (r.on = true) ∧ (r.busy = none)) ∧
  (let s : State := (fun s => atFt (2 ^ 60) { s with si := { s.si with hel := { s.si.hel with groups := [(3, ⟨9, 1, 64, 8, 128, 5, true, 77, 0, some 4⟩)] } } }) (st [] [(inst O.ReplicaConfig 3, 2 ^ 48)]); let g : Nat := 3; let b : Nat := 4; let r : RepHel := ⟨9, 1, 64, 8, 128, 5, true, 77, 0, some 4⟩; (tget s.si.hel.groups g = some r) ∧ (r.every ≠ 0) ∧ (r.last < s.ft .hel / ms r.every) ∧ (r.on = true) ∧ (r.busy = some b)) ∧
  (let s : State := (fun s => { s with si := { s.si with hel := { s.si.hel with jobs := [⟨4, 7, 3, 0, [(8, 8), (64, 64), (8, 8)], 3, 0, 0, [(0, 0, natBytes 64 5), (1, 0, natBytes 64 7), (2, 0, natBytes 64 5)], 0, 0, 0⟩], groups := [(3, ⟨9, 1, 64, 8, 64, 5, true, 77, 0, some 4⟩)] } } }) (st [] []); let g : Nat := 3; let n : Nat := 4; let r : RepHel := ⟨9, 1, 64, 8, 64, 5, true, 77, 0, some 4⟩; let j : Job := ⟨4, 7, 3, 0, [(8, 8), (64, 64), (8, 8)], 3, 0, 0, [(0, 0, natBytes 64 5), (1, 0, natBytes 64 7), (2, 0, natBytes 64 5)], 0, 0, 0⟩; (s.jobOf 7 g = some j) ∧ (tget s.si.hel.groups g = some r) ∧ (j.over_ = true) ∧ (r.busy = some n)) ∧
  (let s : State := (fun s => { s with si := { s.si with members := [(3, [⟨5, 1, 64, 8⟩, ⟨6, 1, 64, 8⟩])], sets := [(3 * 2 ^ 32 + 7, [mkRec 0xC2 5 0 5 0 0 [], mkRec 0xC2 5 0 6 0 0 []])] } }) (st [] []); let g : Nat := 3; let n : Nat := 7; let a : Rec := mkRec 0xC2 5 0 5 0 0 []; let b : Rec := mkRec 0xC2 5 0 6 0 0 []; let m1 : RepMember := ⟨5, 1, 64, 8⟩; let m2 : RepMember := ⟨6, 1, 64, 8⟩; (tgetD s.si.members g [] = [m1, m2]) ∧ (tgetD s.si.sets (g * 2 ^ 32 + n) [] = [a, b]) ∧ (rSrc a = m1.gid ∧ rSrc b = m2.gid) ∧ (s.si.done.contains (g * 2 ^ 32 + n) = false) ∧ (recFld a 176 8 = 0 ∧ recFld b 176 8 = 0) ∧ (recFld a 192 64 = recFld b 192 64) ∧ (recFld a 256 128 = recFld b 256 128) ∧ (g < 256)) ∧
  (let s : State := (fun s => { s with si := { s.si with members := [(3, [⟨5, 1, 64, 8⟩, ⟨6, 1, 64, 8⟩, ⟨7, 1, 64, 8⟩])], sets := [(3 * 2 ^ 32 + 7, [mkRec 0xC2 5 0 5 0 0 [], mkRec 0xC2 5 0 6 0 0 [], mkRec 0xC2 5 0 7 0 0 [(256, 64, 9)]])] } }) (st [] []); let g : Nat := 3; let n : Nat := 7; let a : Rec := mkRec 0xC2 5 0 5 0 0 []; let b : Rec := mkRec 0xC2 5 0 6 0 0 []; let c : Rec := mkRec 0xC2 5 0 7 0 0 [(256, 64, 9)]; let m1 : RepMember := ⟨5, 1, 64, 8⟩; let m2 : RepMember := ⟨6, 1, 64, 8⟩; let m3 : RepMember := ⟨7, 1, 64, 8⟩; (tgetD s.si.members g [] = [m1, m2, m3]) ∧ (tgetD s.si.sets (g * 2 ^ 32 + n) [] = [a, b, c]) ∧ (rSrc a = m1.gid ∧ rSrc b = m2.gid ∧ rSrc c = m3.gid) ∧ (s.si.done.contains (g * 2 ^ 32 + n) = false) ∧ (recFld a 176 8 = 0 ∧ recFld b 176 8 = 0 ∧ recFld c 176 8 = 0) ∧ (recFld a 192 64 = recFld b 192 64 ∧ recFld b 192 64 = recFld c 192 64) ∧ (recFld a 256 128 = recFld b 256 128) ∧ (recFld a 256 128 ≠ recFld c 256 128) ∧ (g < 256)) ∧
  (let s : State := (fun s => { s with si := { s.si with members := [(3, [⟨5, 1, 64, 8⟩, ⟨6, 1, 64, 8⟩])], sets := [(3 * 2 ^ 32 + 7, [mkRec 0xC2 5 0 5 0 0 [], mkRec 0xC2 5 0 6 0 0 [(256, 64, 9)]])] } }) (st [] []); let g : Nat := 3; let n : Nat := 7; let a : Rec := mkRec 0xC2 5 0 5 0 0 []; let b : Rec := mkRec 0xC2 5 0 6 0 0 [(256, 64, 9)]; let m1 : RepMember := ⟨5, 1, 64, 8⟩; let m2 : RepMember := ⟨6, 1, 64, 8⟩; (tgetD s.si.members g [] = [m1, m2]) ∧ (tgetD s.si.sets (g * 2 ^ 32 + n) [] = [a, b]) ∧ (rSrc a = m1.gid ∧ rSrc b = m2.gid) ∧ (s.si.done.contains (g * 2 ^ 32 + n) = false) ∧ (recFld a 176 8 = 0 ∧ recFld b 176 8 = 0) ∧ (recFld a 192 64 = recFld b 192 64) ∧ (recFld a 256 128 ≠ recFld b 256 128) ∧ (g < 256)) ∧
  (let s : State := (fun s => atFt (2 ^ 70) { s with si := { s.si with members := [(3, [⟨5, 1, 64, 8⟩, ⟨6, 1, 64, 8⟩])], sets := [(3 * 2 ^ 32 + 7, [mkRec 0xC2 5 0 5 0 0 []])] } }) (st [] [(inst O.ReplicaConfig 3, 5 * 2 ^ 32)]); let g : Nat := 3; let ag : Option (List Nat) := none; let n : Nat := 7; let a : Rec := mkRec 0xC2 5 0 5 0 0 []; ((ag = none ∨ ag = some [rSrc a])) ∧ (tgetD s.si.members g [] ≠ []) ∧ (tgetD s.si.sets (g * 2 ^ 32 + n) [] = [a]) ∧ (s.si.done.contains (g * 2 ^ 32 + n) = false) ∧ (bits (s.i (inst O.ReplicaConfig g)) 32 16 ≠ 0) ∧ ((n + 2) * ms (bits (s.i (inst O.ReplicaConfig g)) 32 16) ≤ s.ft .icd) ∧ (g < 256)) := by
  refine ⟨?_, ?_, ?_, ?_, ?_, ?_, ?_, ?_, ?_, ?_, ?_⟩ <;> decide +kernel

theorem witness_ProvenanceAndTaint :
  (let s : State := (fun s => { s with si := { s.si with hel := { s.si.hel with provs := [⟨4, 2, 77, 1, 2 ^ 80, some 9, 0, none, some 1, some 2, some 3, some 0⟩] } } }) (st [] []); let stream : Nat := 2; let cmdid : Nat := 77; let a : Nat := 1; let b : Nat := 2; let c : Nat := 3; let d : Nat := 0; let e : Nat := 9; let p : Prov := ⟨4, 2, 77, 1, 2 ^ 80, some 9, 0, none, some 1, some 2, some 3, some 0⟩; (s.provOf stream cmdid = some p) ∧ (p.prog = some a ∧ p.wts = some b ∧ p.inp = some c ∧ p.outp = some d ∧ p.end_ = some e)) ∧
  (let s : State := (fun s => { s with si := { s.si with hel := { s.si.hel with provs := [⟨4, 2, 77, 1, 2 ^ 80, some 9, 0, none, some 1, none, some 3, some 0⟩] } } }) (st [] []); let stream : Nat := 2; let cmdid : Nat := 77; let p : Prov := ⟨4, 2, 77, 1, 2 ^ 80, some 9, 0, none, some 1, none, some 3, some 0⟩; (s.provOf stream cmdid = some p) ∧ (p.prog = none ∨ p.wts = none ∨ p.inp = none ∨ p.outp = none)) ∧
  (let s : State := (fun s => atFt (2 ^ 60) { s with si := { s.si with hel := { s.si.hel with provs := [⟨4, 2, 77, 1, 2 ^ 80, some 9, 0, none, some 1, none, some 3, some 0⟩] } } }) (st [] []); let stream : Nat := 2; let cmdid : Nat := 77; let e : Nat := 9; let p : Prov := ⟨4, 2, 77, 1, 2 ^ 80, some 9, 0, none, some 1, none, some 3, some 0⟩; (s.provOf stream cmdid = some p) ∧ (p.prog = none ∨ p.wts = none ∨ p.inp = none ∨ p.outp = none) ∧ (p.end_ = some e) ∧ (bits e 0 80 + us (s.h O.ProvHold) ≤ s.ft .hel)) ∧
  (let s : State := (fun s => { s with ln := { s.ln with dieGid := [(5, 99)] } }) (st [] [(O.FencePolicy + 1, 0)]); let gid : Nat := 99; let group : Nat := 3; let sweep : Nat := 7; let cause : Nat := 1; let streams : Nat := 5; let clean : Nat := 12; let detect : Nat := 77; let slot : Nat := 5; (s.slotOfDie gid = some slot) ∧ ((s.i (O.FencePolicy + cause) ≠ 1 ∨ s.i O.ObserveOnly = 1))) ∧
  (let s : State := (fun s => { s with ln := { s.ln with dieGid := [(5, 99)], copies := [(5 * 2 ^ 24 + inst128 O.UnitConfig 9, 4)] } }) (st [] [(O.FencePolicy + 1, 1)]); let gid : Nat := 99; let group : Nat := 3; let sweep : Nat := 7; let cause : Nat := 1; let streams : Nat := 5; let clean : Nat := 12; let detect : Nat := 77; let slot : Nat := 5; (s.slotOfDie gid = some slot) ∧ (s.i (O.FencePolicy + cause) = 1) ∧ (s.i O.ObserveOnly ≠ 1) ∧ (gid ≠ s.hGid)) ∧
  (let s : State := st [] []; let gid : Nat := 99; let group : Nat := 3; let sweep : Nat := 7; let cause : Nat := 1; let streams : Nat := 5; let clean : Nat := 12; let detect : Nat := 77; (s.slotOfDie gid = none)) ∧
  (let s : State := (fun s => atFt (2 ^ 60) { s with si := { s.si with notices := [(3, ⟨5, 99, 0xFF, 1, 5, 3, 7, 12, 14, 0, none, 0, 0⟩)] } }) (st [] []); let k : Nat := 3; let n : Notice := ⟨5, 99, 0xFF, 1, 5, 3, 7, 12, 14, 0, none, 0, 0⟩; (tget s.si.notices k = some n) ∧ (n.formed = none) ∧ (ns n.detect + ms (s.i O.TaintSettle) ≤ s.ft .icd) ∧ ((s.slotHeld n.slot).filter n.holds = []) ∧ (n.streams ≠ 0)) ∧
  (let s : State := (fun s => atFt (2 ^ 60) { s with si := { s.si with notices := [(3, ⟨5, 99, 0xFF, 1, 0, 3, 7, 12, 14, 0, none, 0, 0⟩)] } }) (st [] [(O.TwinState, 6)]); let k : Nat := 3; let n : Notice := ⟨5, 99, 0xFF, 1, 0, 3, 7, 12, 14, 0, none, 0, 0⟩; (tget s.si.notices k = some n) ∧ (n.formed = none) ∧ (ns n.detect + ms (s.i O.TaintSettle) ≤ s.ft .icd) ∧ (n.streams = 0) ∧ (s.isLead = true)) ∧
  (let s : State := (fun s => { s with si := { s.si with notices := [(3, ⟨5, 99, 0xFF, 1, 0, 3, 7, 12, 14, 0, none, 0, 0⟩)] } }) (st [] []); let k : Nat := 3; let n : Notice := ⟨5, 99, 0xFF, 1, 0, 3, 7, 12, 14, 0, none, 0, 0⟩; (tget s.si.notices k = some n) ∧ (n.formed ≠ none ∨ s.ft .icd < ns n.detect + ms (s.i O.TaintSettle))) ∧
  (let s : State := (fun s => atFt (2 ^ 30) { s with si := { s.si with notices := [(3, ⟨5, 99, 0xFF, 1, 0, 3, 7, 12, 14, 0, some 4, 0, 5⟩)] } }) (st [] []); let k : Nat := 3; let f : Nat := 4; let n : Notice := ⟨5, 99, 0xFF, 1, 0, 3, 7, 12, 14, 0, some 4, 0, 5⟩; (tget s.si.notices k = some n) ∧ (n.formed = some f) ∧ (n.next ≤ s.ft .icd) ∧ ((s.slotRecs n.slot).filter (fun e => decide (n.seen ≤ e.pos ∧ e.at_ ≤ f + ms 1000) && n.holds e.rec_) = [])) := by
  refine ⟨?_, ?_, ?_, ?_, ?_, ?_, ?_, ?_, ?_, ?_⟩ <;> decide +kernel

theorem witness_Cuts :
  (let s : State := st [] [(O.RoleActive, 3), (O.TwinState, 6)]; let q : Req := qr; let at_ : Nat := 2 ^ 60; let arg : Nat := 1; let scope : Nat := 0; (s.AcceptsDesc q) ∧ (s.apexLead = true) ∧ (s.cutRefusal at_ arg scope = none) ∧ (s.tm.iActs.length < 1024) ∧ (s.ki.nextCut < 2 ^ 32)) ∧
  (let s : State := st [] [(O.RoleActive, 3), (O.TwinState, 6)]; let q : Req := qr; let at_ : Nat := 2 ^ 60; let arg : Nat := 3; let scope : Nat := 0; let c : Nat := stMalformed; (s.AcceptsDesc q) ∧ (s.apexLead = true) ∧ (s.cutRefusal at_ arg scope = some c) ∧ (c < 256)) ∧
  (let s : State := st [] []; let q : Req := qr; let at_ : Nat := 2 ^ 60; let arg : Nat := 1; let scope : Nat := 0; (s.AcceptsDesc q) ∧ (s.apexLead = false)) ∧
  (let s : State := (fun s => { s with ki := { s.ki with hel := { s.ki.hel with halts := [⟨7, 5, 0, 2 ^ 50, false, false⟩] } } }) (st [] [(O.RoleActive, 3), (O.TwinState, 6)]); let q : Req := qr; let timed : Bool := true; let at_ : Nat := 2 ^ 40; let n : Nat := 7; (s.AcceptsDesc q) ∧ (s.apexLead = true) ∧ (timed = false ∨ s.ft .icd + us 50 ≤ at_)) ∧
  (let s : State := (fun s => { s with ki := { s.ki with hel := { s.ki.hel with halts := [⟨7, 5, 0, 2 ^ 50, false, false⟩] } } }) (st [] [(O.RoleActive, 1)]); let q : Req := ⟨.op, 0, .device 9, 0⟩; let timed : Bool := true; let at_ : Nat := 2 ^ 40; let n : Nat := 7; let g : Nat := 9; (q.who = .device g) ∧ (s.apexLead = false)) ∧
  (let s : State := (fun s => atFt (2 ^ 40) (up { s with tm := { s.tm with hActs := [⟨9, 0, 2 ^ 39, 0, 0, 0, 0, 5, false, false, 0⟩] } })) (st [(O.LaneState, 2)] []); let a : Act := ⟨9, 0, 2 ^ 39, 0, 0, 0, 0, 5, false, false, 0⟩; (s.dueAct .hel = some a) ∧ (a.kind = 0) ∧ (s.NoRouse) ∧ (tget s.pw.jitter (a.handle * 16) = none) ∧ (cutKindOf a = 0) ∧ (cutHaltOf a = false) ∧ (s.ki.hel.halts = []) ∧ (a.handle < 2 ^ 32) ∧ (s.dozing = false)) ∧
  (let s : State := (fun s => atFt (2 ^ 40) (up { s with tm := { s.tm with hActs := [⟨9, 0, 2 ^ 39, 4, 5, 6, 0, 5, false, false, 0⟩] } })) (st [(O.LaneState, 2)] []); let a : Act := ⟨9, 0, 2 ^ 39, 4, 5, 6, 0, 5, false, false, 0⟩; let j : Nat := 2; (s.dueAct .hel = some a) ∧ (a.kind = 0) ∧ (s.NoRouse) ∧ (tget s.pw.jitter (a.handle * 16) = none) ∧ (cutHaltOf a = true) ∧ (s.awake 3 = true) ∧ (s.bd.radio = 0) ∧ (s.ki.hel.halts = []) ∧ (j < 64) ∧ (bit a.c j = true) ∧ (bit s.bd.hAck j = false)) ∧
  (let s : State := (fun s => atFt (2 ^ 40) { s with tm := { s.tm with iActs := [⟨9, 0, 2 ^ 39, 0, 0, 0, 0, 5, false, false, 0⟩] } }) (st [] []); let a : Act := ⟨9, 0, 2 ^ 39, 0, 0, 0, 0, 5, false, false, 0⟩; (s.dueAct .icd = some a) ∧ (a.kind = 0)) ∧
  (let s : State := (fun s => atFt (2 ^ 60) { s with ki := { s.ki with opened := [(7, 5), (8, 6)], cuts := [⟨7, 5, 0, 0, 3, false, some 9, false, false, [], [], [], [], [], [], [], []⟩] } }) (st [] [(O.TwinState, 6)]); let n : Nat := 7; let l : Option (List (Nat × Nat)) := some [(3, 5)]; let c : CutRec := ⟨7, 5, 0, 0, 3, false, some 9, false, false, [], [], [], [], [], [], [], []⟩; (s.ki.cuts.find? (fun c => c.number == n) = some c) ∧ (s.ki.formed.contains n = false) ∧ (c.latch ≠ none ∨ c.cancelled = true) ∧ (c.at_ + s.level * us c.settle ≤ s.ft .icd)) ∧
  (let s : State := (fun s => atFt (2 ^ 60) { s with pk := { s.pk with use := [(1, 3)] }, ln := { s.ln with dieGid := [(4, 2 ^ 25)] }, ki := { s.ki with opened := [(7, 5)], cuts := [⟨7, 5, 1, 0, 3, false, some 9, false, false, [], [], [], [], [(4, [])], [], [], []⟩] } }) (st [] [(O.RoleActive, 1), (O.TwinState, 2)]); let k : Nat := 4; let m : Nat := 2 ^ 25; let e : Nat := 6; let n : Nat := 7; let u : Nat := 1; let c : CutRec := ⟨7, 5, 1, 0, 3, false, some 9, false, false, [], [], [], [], [(4, [])], [], [], []⟩; let r : Rec := (s.summaryRec c).1; (s.ki.cuts = [c]) ∧ (c.number = n) ∧ (c.cancelled = false) ∧ (c.latch ≠ none) ∧ (s.ki.formed.contains n = false) ∧ (s.role = 1) ∧ (s.isLead = true) ∧ (s.upPort = some u) ∧ (bits c.arg 0 2 ≠ 2) ∧ (c.at_ + us c.settle ≤ s.ft .icd) ∧ ((s.summaryRec c).1 = r) ∧ (s.cutDies c = [(k, m, e)]) ∧ (c.childs = [])) ∧
  (let s : State := st [] []; let n : Nat := 7; let l : Option (List (Nat × Nat)) := some [(3, 5)]; (s.ki.cuts.find? (fun c => c.number == n) = none)) := by
  refine ⟨?_, ?_, ?_, ?_, ?_, ?_, ?_, ?_, ?_, ?_, ?_⟩ <;> decide +kernel

theorem witness_HaltsAndSnapshots :
  (let s : State := (fun s => atFt (2 ^ 60) { s with bd := { s.bd with hReq := 7, hAck := 5 }, ki := { s.ki with hel := { s.ki.hel with halts := [⟨7, 5, 0, 2 ^ 50, true, false⟩] } } }) (st [] []); let n : Nat := 7; let c : CutHalt := ⟨7, 5, 0, 2 ^ 50, true, false⟩; (s.ki.hel.halts = [c]) ∧ (c.cut = n) ∧ (c.freeing = false) ∧ (c.end_ ≤ s.ft .hel)) ∧
  (let s : State := (fun s => { s with bd := { s.bd with hReq := 7, hAck := 5 }, ki := { s.ki with hel := { s.ki.hel with halts := [⟨7, 5, 0, 2 ^ 90, true, false⟩] } } }) (st [] []); let n : Nat := 7; let c : CutHalt := ⟨7, 5, 0, 2 ^ 90, true, false⟩; (s.ki.hel.halts.find? (fun c => c.cut == n && !c.freeing) = some c) ∧ (s.ft .hel < c.end_)) ∧
  (let s : State := (fun s => { s with bd := { s.bd with hReq := 7, hAck := 5 } }) (st [] []); let g : Nat := 2; (s.ki.hel.halts = []) ∧ (s.si.hel.deferred = [])) ∧
  (let s : State := (fun s => { s with bd := { s.bd with hReq := 3, hAck := 6 }, ki := { s.ki with hel := { s.ki.hel with halts := [⟨7, 4, 0, 2 ^ 50, true, true⟩] } } }) (st [] []); let g : Nat := 2; let c : CutHalt := ⟨7, 4, 0, 2 ^ 50, true, true⟩; (s.ki.hel.halts = [c]) ∧ (c.freeing = true) ∧ (c.halted = true) ∧ (c.groups = 2 ^ g) ∧ (g < 64) ∧ (bit s.bd.hReq g = false) ∧ (s.si.hel.deferred = [])) ∧
  (let s : State := (fun s => { s with ki := { s.ki with hel := { s.ki.hel with shifts := [(5, ⟨7, 100, 3⟩)] } } }) (st [] []); let c : Nat := 5; let bs : List Nat := [1, 2, 3]; let h : Shift := ⟨7, 100, 3⟩; (tget s.ki.hel.shifts c = some h) ∧ (h.off + bs.length ≤ h.len) ∧ (bs ≠ []) ∧ (bs.length ≤ 4064) ∧ (s.snapFill + bs.length ≤ 65536)) ∧
  (let s : State := (fun s => { s with ki := { s.ki with hel := { s.ki.hel with shifts := [(5, ⟨7, 6, 3⟩)] } } }) (st [] []); let c : Nat := 5; let r : Nat := 32; let bs : List Nat := [1, 2, 3]; let h : Shift := ⟨7, 6, 3⟩; (s.ki.hel.shifts = [(c, h)]) ∧ (h.off + bs.length = h.len) ∧ (bs.length ≤ 4064) ∧ (s.snapFill + bs.length ≤ 65536)) ∧
  (let s : State := st [] []; let r : Nat := 32; (s.ki.hel.shifts = [])) := by
  refine ⟨?_, ?_, ?_, ?_, ?_, ?_, ?_⟩ <;> decide +kernel

theorem witness_TwinRoles :
  (let s : State := (fun s => { s with pk := { s.pk with use := [(0, 2), (1, 3)] } }) (atFt (2 ^ 60) (st [] [(O.RoleActive, 1)])); let p : Nat := 0; (s.tw.hbSent < s.ft .icd / us (max 1 (s.i O.HeartbeatInterval))) ∧ (s.role ≠ 0) ∧ (s.isLead = false) ∧ (s.portOf 2 = some p)) ∧
  (let s : State := (fun s => { s with pk := { s.pk with use := [(0, 2), (1, 3)] } }) (atFt (2 ^ 60) (st [] [(O.RoleActive, 1), (O.TwinState, 2)])); let p : Nat := 0; let u : Nat := 1; (s.tw.hbSent < s.ft .icd / us (max 1 (s.i O.HeartbeatInterval))) ∧ (s.role ≠ 0) ∧ (s.isLead = true) ∧ (s.upPort = some u) ∧ (s.portOf 2 = some p) ∧ (s.downPorts = [])) ∧
  (let s : State := st [] []; ((s.ft .icd / us (max 1 (s.i O.HeartbeatInterval)) ≤ s.tw.hbSent ∨ s.role = 0))) ∧
  (let s : State := st [] []; let l : Nat := 5; let r : Rec := mkRec 0xE0 3 0 77 0 0 []; (l < 64) ∧ (tget s.tw.removed l = none) ∧ (recFld r 137 1 = 0)) ∧
  (let s : State := st [] [(O.TwinState, 3)]; let r : Rec := mkRec 0xE0 3 0 77 0 0 [(128, 8, 2)]; (recFld r 137 1 = 0) ∧ (tget s.tw.removed 64 = none) ∧ (s.isLead = false) ∧ (s.i O.TwinState ≠ 6) ∧ (s.tw.quorum = none)) ∧
  (let s : State := st [] [(O.RoleActive, 1), (O.TwinState, 2), (O.LeadTerm, 3)]; let r : Rec := mkRec 0xE0 3 0 77 0 0 [(128, 8, 4), (288, 16, 3)]; (recFld r 137 1 = 0) ∧ (tget s.tw.removed 64 = none) ∧ (s.i O.TwinState = 2) ∧ ((recFld r 128 8 = 4 ∨ recFld r 128 8 = 5)) ∧ (s.tw.stopped = false)) ∧
  (let s : State := (fun s => { s with pk := { s.pk with use := [(1, 3)] } }) (st [] [(O.RoleActive, 1), (O.TwinState, 2), (O.LeadTerm, 3)]); let r : Rec := mkRec 0xE0 3 0 77 0 0 [(128, 8, 2), (288, 16, 5)]; (recFld r 137 1 = 0) ∧ (tget s.tw.removed 64 = none) ∧ (s.isLead = true) ∧ ((recFld r 128 8 = 2 ∨ recFld r 128 8 = 6)) ∧ (s.i O.LeadTerm < recFld r 288 16)) ∧
  (let s : State := (fun s => atFt (2 ^ 60) { s with tw := { s.tw with hbAt := [(64, 5)] } }) (st [] [(O.TwinState, 2)]); let t0 : Nat := 5; (tget s.tw.hbAt 64 = some t0) ∧ (t0 + s.i O.HeartbeatMiss * us (s.i O.HeartbeatInterval) + us 50 ≤ s.ft .icd) ∧ (s.tw.silent.contains 64 = false) ∧ (s.i O.TwinState = 2)) ∧
  (let s : State := (fun s => atFt (2 ^ 60) { s with tw := { s.tw with hbAt := [(64, 5)] } }) (st [] [(O.TwinState, 3)]); let t0 : Nat := 5; (tget s.tw.hbAt 64 = some t0) ∧ (t0 + s.i O.HeartbeatMiss * us (s.i O.HeartbeatInterval) + us 50 ≤ s.ft .icd) ∧ (s.tw.silent.contains 64 = false) ∧ (s.i O.TwinState = 3)) ∧
  (let s : State := (fun s => atFt (2 ^ 60) { s with tw := { s.tw with hbAt := [(5, 5)] } }) (st [] []); let l : Nat := 5; let t0 : Nat := 5; (l < 64) ∧ (tget s.tw.hbAt l = some t0) ∧ (t0 + s.i O.HeartbeatMiss * us (s.i O.HeartbeatInterval) + us 50 ≤ s.ft .icd) ∧ (s.tw.silent.contains l = false)) ∧
  (let s : State := (fun s => { s with tw := { s.tw with hbAt := [(64, 2 ^ 90)] } }) (st [] [(O.TwinState, 3)]); let l : Nat := 64; let t0 : Nat := 2 ^ 90; (tget s.tw.hbAt l = some t0) ∧ (s.ft .icd < t0 + s.i O.HeartbeatMiss * us (s.i O.HeartbeatInterval) + us 50)) ∧
  (let s : State := (fun s => { s with tw := { s.tw with peer := [(65, 9)], hbAt := [(65, 0)] } }) (st [] []); let a : Nat := 8; let l : Nat := 9; let n : Nat := 3; let p : Nat := 65; ((p, l) ∈ s.tw.peer) ∧ ((tget s.tw.hbAt p).isSome = true) ∧ (s.ft .icd < tgetD s.tw.hbAt p 0 + us 1050)) ∧
  (let s : State := (fun s => { s with tw := { s.tw with peer := [(65, 10)], hbAt := [(65, 0)] } }) (st [] []); let a : Nat := 8; let l : Nat := 9; let n : Nat := 3; (∀ p, p ∈ s.tw.peer → p.2 ≠ l) ∧ (∀ v, v ∈ s.tw.voted → v.1 ≠ l) ∧ (s.tw.quorum = none)) ∧
  (let s : State := (fun s => { s with tw := { s.tw with quorum := some (0, 0, [7]) } }) (st [] [(O.TwinState, 3), (O.RoleActive, 1), (O.LeadTerm, 65535)]); let w : Nat := 8; let t0 : Nat := 0; let q : Nat := 0; let l : List Nat := [7]; (s.tw.quorum = some (t0, q, l)) ∧ (w ∉ l) ∧ (s.quorumNeed ≤ l.length + 1) ∧ (s.ft .icd ≤ t0 + ms 5) ∧ (s.i O.TwinState = 3) ∧ ((s.role = 3 → w ∈ s.witnesses))) ∧
  (let s : State := (fun s => { s with tw := { s.tw with quorum := some (0, 0, [7]) } }) (st [] [(O.TwinState, 3)]); let w : Nat := 8; let t0 : Nat := 0; let q : Nat := 0; let l : List Nat := [7]; (s.tw.quorum = some (t0, q, l))) ∧
  (let s : State := (fun s => atFt (2 ^ 50) { s with tw := { s.tw with quorum := some (2 ^ 50 - 65536 * 2000000, 0, [7]) } }) (st [] [(O.TwinState, 3)]); let t0 : Nat := 2 ^ 50 - 65536 * 2000000; let q : Nat := 0; let l : List Nat := [7]; (s.tw.quorum = some (t0, q, l)) ∧ (q + ms 1 ≤ s.ft .icd ∧ s.ft .icd < t0 + ms 5)) ∧
  (let s : State := (fun s => atFt (2 ^ 60) { s with tw := { s.tw with quorum := some (4, 0, [7]) } }) (st [] [(O.TwinState, 3)]); let t0 : Nat := 4; let q : Nat := 0; let l : List Nat := [7]; (s.tw.quorum = some (t0, q, l)) ∧ (t0 + ms 5 ≤ s.ft .icd)) ∧
  (let s : State := (fun s => { s with tw := { s.tw with twinState := 3 } }) (st [] [(O.TwinState, 2)]); let q : Req := qs; (s.Accepts q O.LeadHandover 1) ∧ (s.tw.twinState = 3) ∧ (s.isLead = true)) ∧
  (let s : State := st [] [(O.TwinState, 6)]; let q : Req := qs; (s.Accepts q O.LeadHandover 1) ∧ (s.tw.twinState ≠ 3)) ∧
  (let s : State := (fun s => atFt (2 ^ 60) { s with tw := { s.tw with handover := some 5, twinState := 3 } }) (st [] [(O.TwinState, 2)]); let m : Option (Nat × Nat) := none; let b : Nat := 5; (s.i O.TwinState = 2) ∧ (s.tw.handover = some b) ∧ (b ≤ s.ft .icd) ∧ (s.tw.diverged = false) ∧ (s.tw.twinState = 3)) ∧
  (let s : State := (fun s => { s with tw := { s.tw with handover := some 5, twinState := 5 } }) (atFt 9 (st [] [(O.TwinState, 2)])); let m : Option (Nat × Nat) := none; let b : Nat := 5; (s.isLead = true) ∧ (s.tw.handover = some b) ∧ (b ≤ s.ft .icd) ∧ (s.tw.twinState ≠ 3)) ∧
  (let s : State := st [] [(O.TwinState, 3), (O.RoleActive, 1)]; let n : Nat := 6; let e : Nat := 5; (s.i O.TwinState = 3) ∧ (s.role ≠ 3) ∧ (n < 65536)) ∧
  (let s : State := (fun s => { s with pk := { s.pk with use := [(4, 2)] } }) (st [] []); let p : Nat := 4; let g : Nat := 9; let r : Nat := 3; let x : Nat := 1; let y : Nat := 1; let n : Nat := 0; (s.portUse p = 2) ∧ ((r ≠ s.coldVal O.IcdonRole ∨ x ≠ s.coldVal O.SeriesHashSeed))) ∧
  (let s : State := (fun s => { s with pk := { s.pk with use := [(4, 2)] } }) (st [] []); let p : Nat := 4; let g : Nat := 2 ^ 24 - 1; let n : Nat := 0; (s.portUse p = 2) ∧ (s.isLead = false) ∧ (s.i O.TwinState ≠ 7) ∧ (s.iGid % 2 ^ 24 < g % 2 ^ 24)) := by
  refine ⟨?_, ?_, ?_, ?_, ?_, ?_, ?_, ?_, ?_, ?_, ?_, ?_, ?_, ?_, ?_, ?_, ?_, ?_, ?_, ?_, ?_, ?_, ?_, ?_⟩ <;> decide +kernel

theorem witness_TwinResync :
  (let s : State := (fun s => atFt (2 ^ 60) { s with tw := { s.tw with resyncAt := some 5 } }) (st [] [(O.TwinState, 2)]); let b : Nat := 5; (s.tw.resyncAt = some b) ∧ (b ≤ s.ft .icd) ∧ (s.isLead = true)) ∧
  (let s : State := (fun s => atFt (2 ^ 60) { s with tw := { s.tw with resyncAt := some 5 } }) (st [] [(O.TwinState, 5)]); let b : Nat := 5; (s.tw.resyncAt = some b) ∧ (b ≤ s.ft .icd) ∧ (s.isLead = false)) ∧
  (let s : State := (fun s => { s with tw := { s.tw with stopped := true } }) (st [] [(O.TwinState, 2)]); (s.isLead = true) ∧ (s.tw.stopped = true)) ∧
  (let s : State := st [] [(O.TwinState, 2)]; (s.isLead = false ∨ s.tw.stopped = false)) ∧
  (let s : State := (fun s => { s with tw := { s.tw with stopped := true } }) (st [] [(O.TwinState, 5)]); let d : Retained := ⟨[(3, 2 ^ 40)], [], [(70, 16, 5)], [], [(9, 2, 3, 1, [])], [(5, 9)], [], [], [], [], [], [], [(9, 0, 1, 0, 0)], [], []⟩; (s.isLead = false) ∧ (s.tw.stopped = true) ∧ (d.rebase = []) ∧ (d.supp = []) ∧ (d.steps = [])) ∧
  (let s : State := (fun s => { s with tw := { s.tw with stopped := true } }) (st [] [(O.TwinState, 2)]); (s.isLead = true) ∧ (s.tw.stopped = true)) ∧
  (let s : State := st [] [(O.TwinState, 3)]; let p : Nat := 3; let k : Nat := O.SnapPulseWidth; let v : Nat := 2; let down : Option (Nat × Rec) := some (1, [7]); let e : WriteEnv := env0; (s.isLead = false) ∧ (s.mo.pos ≤ p) ∧ (holds .icd k = false) ∧ ((down = none ∨ s.role ≠ 1))) ∧
  (let s : State := st [] [(O.TwinState, 2)]; let p : Nat := 3; let k : Nat := O.HeartbeatMiss; let v : Nat := 2; let down : Option (Nat × Rec) := some (1, [7]); let e : WriteEnv := env0; (s.isLead = true ∨ p < s.mo.pos)) ∧
  (let s : State := st [] [(O.TwinState, 3)]; let p : Nat := 3; let v : Nat := 4; let e : WriteEnv := env0; (s.isLead = false) ∧ (s.mo.pos ≤ p) ∧ (inRange O.HeartbeatMiss v = true)) ∧
  (let s : State := (fun s => { s with mo := { s.mo with pos := 3 } }) (st [] [(O.TwinState, 2)]); let p : Nat := 3; (s.isLead = true) ∧ (0 < p ∧ p ≤ s.mo.pos)) := by
  refine ⟨?_, ?_, ?_, ?_, ?_, ?_, ?_, ?_, ?_, ?_⟩ <;> decide +kernel

theorem witness_MembersAndBroadcasts :
  (let s : State := (fun s => atFt (2 ^ 60) { s with tw := { s.tw with badFrom := [(3, 5)], members := wordsOf [2 ^ 24 + 9] }, ln := { s.ln with dieGid := [(3, 2 ^ 24 + 9)] } }) (st [] [(O.SlotState + 3, 5)]); let k : Nat := 3; let g : Nat := 2 ^ 24 + 9; let t0 : Nat := 5; (tget s.tw.badFrom k = some t0) ∧ (tget s.ln.dieGid k = some g) ∧ (s.observeOnly = false) ∧ (s.i (O.SlotState + k) = 5 ∨ s.i (O.SlotState + k) = 6) ∧ (t0 + ms (s.i O.FailedRemoveHold) ≤ s.ft .icd) ∧ (s.isMember g = true) ∧ (∀ c, c ∈ s.tw.changes → c.gid ≠ g)) ∧
  (let s : State := (fun s => atFt (2 ^ 60) { s with tw := { s.tw with badFrom := [(3, 5)], members := wordsOf [9] }, ln := { s.ln with dieGid := [(3, 9)] } }) (st [] []); let k : Nat := 3; (s.i (O.SlotState + k) ≠ 5 ∧ s.i (O.SlotState + k) ≠ 6)) ∧
  (let s : State := (fun s => atFt (2 ^ 70) { s with tw := { s.tw with hbAt := [(3, 5)], silent := [3], below := [(3, wordsOf [9, 70])] } }) (st [] []); let p : Nat := 3; let t0 : Nat := 5; (tget s.tw.hbAt p = some t0) ∧ (s.tw.silent.contains p = true) ∧ (t0 + s.i O.HeartbeatMiss * us (s.i O.HeartbeatInterval) + us 50 + ms (s.i O.ChildRemoveHold) ≤ s.ft .icd) ∧ (tget s.tw.removed p = none)) ∧
  (let s : State := st [] []; let p : Nat := 3; (s.tw.silent.contains p = false)) ∧
  (let s : State := (fun s => { s with tw := { s.tw with members := wordsOf [16777225], route := [(16777225, (5, false))] }, ln := { s.ln with dieGid := [(5, 16777225)] } }) (st [] [(O.RoleActive, 1)]); let q : Req := qr; let g : Nat := 16777225; (s.AcceptsDesc q) ∧ (s.isMember g = true) ∧ (g / 2 ^ 24 = 1) ∧ ((s.dieLink g).isSome = true) ∧ ((s.tw.changes.any fun c => c.gid == g && c.leave) = false) ∧ (s.role = 1)) ∧
  (let s : State := st [] [(O.RoleActive, 1)]; let q : Req := qr; let g : Nat := 9; (s.AcceptsDesc q) ∧ (s.isMember g = false) ∧ ((s.tw.changes.any fun c => c.gid == g && !c.leave) = false)) ∧
  (let s : State := st [] [(O.RoleActive, 3), (O.TwinState, 6)]; let q : Req := qr; let im : List Nat := natBytes 128 (packFields [(0, 8, 1), (8, 4, 2), (64, 64, 1)]) ++ ([1, 0] ++ List.replicate 14 0 ++ natBytes 16 (Config.sha384 (natBytes 96 0)) ++ List.replicate 224 0) ++ [9]; (s.AcceptsDesc q) ∧ (s.apexLead = true) ∧ (s.signed (mfKind (bytesNat (im.take 128))) true (sigBlock im) = true) ∧ (1 ≤ mfKind (bytesNat (im.take 128)) ∧ mfKind (bytesNat (im.take 128)) ≤ 5) ∧ (0 < bits (bytesNat (im.take 128)) 64 64 ∧ bits (bytesNat (im.take 128)) 64 64 ≤ 335544320) ∧ (im.length = bits (bytesNat (im.take 128)) 64 64 + 384) ∧ (s.tw.transfers = []) ∧ (mfLevel (bytesNat (im.take 128)) 3 = false)) ∧
  (let s : State := st [] [(O.RoleActive, 3), (O.TwinState, 6)]; let q : Req := qr; let im : List Nat := natBytes 386 (packFields [(0, 8, 1), (8, 4, 2), (64, 64, 1)]); let b : Bool := true; (s.AcceptsDesc q) ∧ (s.apexLead = true) ∧ ((b = false ∨ (sigBlock im).getD 0 0 ≠ 1 ∨ 8 ≤ (sigBlock im).getD 1 0 ∨ bit (s.i (O.SignerKinds + (sigBlock im).getD 1 0)) 7 = false ∨ bit (s.i (O.SignerKinds + (sigBlock im).getD 1 0)) (mfKind (bytesNat (im.take 128))) = false ∨ im.length ≠ bits (bytesNat (im.take 128)) 64 64 + 384))) ∧
  (let s : State := st [] [(O.RoleActive, 2)]; let r : Rec := mkRec 0xE4 11 0 7 0 0 [(128, 32, 6), (160, 16, 128), (176, 8, 1), (384, 8, 1), (392, 4, 2), (448, 64, 9000)]; let b : Bool := true; (s.tw.transfers = []) ∧ (recFld r 176 8 = 1) ∧ (mfLevel (bytesNat ((((recBytes r).drop 48).take (recFld r 160 16)).take 128)) s.role = false)) ∧
  (let s : State := st [] [(O.RoleActive, 2)]; let r : Rec := mkRec 0xE4 19 0 7 0 0 [(128, 32, 6), (160, 16, 256), (176, 8, 1), (384, 8, 1), (392, 4, 4), (448, 64, 9000)]; let m : Nat := packFields [(0, 8, 1), (8, 4, 4), (64, 64, 9000)]; let im : List Nat := natBytes 256 (packFields [(0, 8, 1), (8, 4, 4), (64, 64, 9000)]); let b : Bool := true; (s.tw.transfers = []) ∧ (recFld r 176 8 = 1) ∧ (im = ((recBytes r).drop 48).take (recFld r 160 16)) ∧ (m = bytesNat (im.take 128)) ∧ (s.castOwn m = true) ∧ (s.signerOk (mfKind m) (sigBlock im) = false) ∧ (mfKind m ≠ 5)) ∧
  (let s : State := (fun s => { s with tw := { s.tw with transfers := [(6, ⟨0, [(0, [1, 2])], 9000, 0, 0, false, 0, 0, 0, 0, [], false⟩)] } }) (st [] [(O.RoleActive, 2)]); let r : Rec := mkRec 0xE4 11 0 7 0 0 [(128, 32, 6), (160, 16, 128), (192, 64, 4096)]; let b : Bool := true; let x : Transfer := ⟨0, [(0, [1, 2])], 9000, 0, 0, false, 0, 0, 0, 0, [], false⟩; (tget s.tw.transfers (recFld r 128 32) = some x) ∧ (x.done = false) ∧ (bit (recFld r 176 8) 1 = false) ∧ (lsum ((tset x.chunks (recFld r 192 64) (((recBytes r).drop 48).take (recFld r 160 16))).map fun p => p.2.length) < x.size)) ∧
  (let s : State := (fun s => { s with tw := { s.tw with transfers := [(6, ⟨0, [(0, [1, 2])], 9000, 0, 0, false, 0, 0, 0, 0, [], false⟩)] } }) (st [] [(O.TwinState, 2)]); let p : Nat := 3; let i : Nat := 6; let o : Nat := 0; let x : Transfer := ⟨0, [(0, [1, 2])], 9000, 0, 0, false, 0, 0, 0, 0, [], false⟩; let d : List Nat := [1, 2]; (tget s.tw.transfers i = some x) ∧ (tget x.chunks o = some d) ∧ (s.isLead = true)) ∧
  (let s : State := (fun s => { s with tw := { s.tw with transfers := [(6, ⟨0, [(0, [1, 2])], 9000, 0, 0, false, 0, 0, 0, 0, [], false⟩)] } }) (st [] [(O.RoleActive, 2)]); let p : Nat := 3; let r : Rec := mkRec 0xE5 3 0 7 0 0 [(128, 32, 6), (160, 32, 4), (192, 32, 2), (224, 32, 9), (256, 8, 2)]; let x : Transfer := ⟨0, [(0, [1, 2])], 9000, 0, 0, false, 0, 0, 0, 0, [], false⟩; (tget s.tw.transfers (recFld r 128 32) = some x) ∧ (x.heard.contains p = false) ∧ (x.done = false)) ∧
  (let s : State := (fun s => atFt (2 ^ 70) { s with tw := { s.tw with transfers := [(6, ⟨0, [(0, [1, 2])], 9000, 0, 0, false, 0, 0, 0, 0, [], false⟩)] } }) (st [] [(O.RoleActive, 2)]); let i : Nat := 6; let x : Transfer := ⟨0, [(0, [1, 2])], 9000, 0, 0, false, 0, 0, 0, 0, [], false⟩; (tget s.tw.transfers i = some x) ∧ (x.done = false) ∧ (x.since + ms (s.i O.BroadcastTimeout) ≤ s.ft .icd) ∧ (mfLevel x.manifest s.role = false)) ∧
  (let s : State := st [] []; let i : Nat := 6; (tget s.tw.transfers i = none)) := by
  refine ⟨?_, ?_, ?_, ?_, ?_, ?_, ?sg, ?_, ?_, ?_, ?_, ?_, ?_, ?_, ?_⟩
  case sg =>
      intro s q im
      refine ⟨by decide +kernel +revert, by decide +kernel +revert, signed_of (by decide +kernel +revert) ?_, by decide +kernel +revert, by decide +kernel +revert, by decide +kernel +revert, by decide +kernel +revert, by decide +kernel +revert⟩
      have h : s.i (O.SignerKey + 0) = 0 := by decide +kernel +revert
      show natBytes 16 (Config.sha384 (natBytes 96 0)) = natBytes 16 (Config.sha384 (natBytes 96 (s.i (O.SignerKey + 0))))
      rw [h]
  all_goals decide +kernel

theorem witness_Partitions :
  (let s : State := st [] [(O.RoleActive, 3), (O.TwinState, 6)]; let q : Req := qr; let p : Nat := 5; let b : Bool := true; let x : Rec := [5]; (s.AcceptsDesc q) ∧ (s.apexLead = true) ∧ (p ≠ 0 ∧ p ≠ 0xFFFF) ∧ (s.tw.ops.length < 256)) ∧
  (let s : State := st [] [(O.RoleActive, 3), (O.TwinState, 6)]; let q : Req := qr; let p : Nat := 5; let x : Rec := [5]; (s.AcceptsDesc q) ∧ (s.apexLead = true) ∧ (p ≠ 0 ∧ p ≠ 0xFFFF) ∧ (s.tw.ops.length < 256)) ∧
  (let s : State := st [] [(O.RoleActive, 3), (O.TwinState, 6)]; let q : Req := qr; let p : Nat := 5; let x : Rec := [5]; (s.AcceptsDesc q) ∧ (s.apexLead = true) ∧ (p ≠ 0 ∧ p ≠ 0xFFFF) ∧ (s.tw.ops.length < 256)) ∧
  (let s : State := st [] [(O.RoleActive, 3), (O.TwinState, 6)]; let q : Req := qr; let p : Nat := 5; (s.AcceptsDesc q) ∧ (s.apexLead = true) ∧ (p ≠ 0 ∧ p ≠ 0xFFFF) ∧ (s.tw.ops.length < 256)) ∧
  (let s : State := st [] [(O.RoleActive, 3), (O.TwinState, 6)]; let q : Req := qr; let p : Nat := 0xFFFF; let x : Rec := [5]; (s.AcceptsDesc q) ∧ (s.apexLead = true) ∧ (p = 0 ∨ p = 0xFFFF)) ∧
  (let s : State := (fun s => { s with tw := { s.tw with members := wordsOf [9, 10], ops := [⟨0, 5, true, wordsOf [9], qr⟩, ⟨1, 5, true, [], qr⟩] } }) (st [] [(O.RoleActive, 3), (O.TwinState, 6)]); let o : PartOp := ⟨0, 5, true, wordsOf [9], qr⟩; let l : List PartOp := [⟨1, 5, true, [], qr⟩]; (s.tw.ops = o :: l) ∧ (s.apexLead = true) ∧ (o.op = 0) ∧ (s.partState o.part = 0) ∧ ((s.tw.parts.filter fun p => 1 ≤ p.2.state && p.2.state ≤ 5).length < 1024) ∧ ((wordsSub o.words s.tw.members).isEmpty = true)) ∧
  (let s : State := (fun s => { s with tw := { s.tw with parts := [(5, ⟨2, 1, false, [], 1, [], 0, [], 0⟩)], ops := [⟨0, 5, true, wordsOf [9], qr⟩] } }) (st [] [(O.RoleActive, 3), (O.TwinState, 6)]); let o : PartOp := ⟨0, 5, true, wordsOf [9], qr⟩; let l : List PartOp := []; (s.tw.ops = o :: l) ∧ (s.apexLead = true) ∧ (o.op = 0) ∧ (s.partState o.part ≠ 0)) ∧
  (let x : Part := ⟨2, 3, false, [(0, 6)], 1, [], 0, [], 0⟩; let o : PartOp := ⟨1, 9, false, [(0, 8)], qr⟩; let l : List PartOp := []; let s : State := (fun s => { s with tw := { s.tw with ops := [o], members := [(0, 14)], parts := [(9, x)] } }) (st [] [(O.RoleActive, 3), (O.TwinState, 6)]); (s.tw.ops = o :: l) ∧ (s.apexLead = true) ∧ ((o.op = 1 ∨ o.op = 2)) ∧ (tget s.tw.parts o.part = some x) ∧ ((x.state = 2 ∨ x.state = 3)) ∧ ((wordsSub o.words s.tw.members).isEmpty = true)) ∧
  (let s : State := st [] []; (s.tw.ops = [] ∨ s.apexLead = false)) ∧
  (let s : State := st [] [(O.RoleActive, 1)]; let r : Rec := mkRec 0xE3 2 0 7 0 5 [(152, 8, 1), (160, 48, 12)]; let b : Bool := true; (s.role = 1) ∧ (recFld r 128 8 = 0)) ∧
  (let s : State := (fun s => { s with tw := { s.tw with parts := [(5, ⟨2, 1, false, [], 1, [], 0, [], 0⟩)] } }) (st [] [(O.RoleActive, 1)]); let r : Rec := mkRec 0xE3 2 0 7 0 5 [(128, 8, 3), (152, 8, 1), (160, 48, 12)]; let b : Bool := true; let x : Part := ⟨2, 1, false, [], 1, [], 0, [], 0⟩; (s.role = 1) ∧ (1 ≤ recFld r 128 8 ∧ recFld r 128 8 ≤ 3) ∧ (tget s.tw.parts (rPart r) = some x)) ∧
  (let s : State := (fun s => atFt (2 ^ 70) { s with tw := { s.tw with parts := [(5, ⟨4, 1, false, [], 1, [], 0, [], 0⟩)] } }) (st [] []); let p : Nat := 5; let x : Part := ⟨4, 1, false, [], 1, [], 0, [], 0⟩; (tget s.tw.parts p = some x) ∧ (x.state = 4) ∧ (ns (s.i O.EpochStartNs + (x.endEpoch - s.i O.EpochNow) * s.rd.len - (s.i O.EpochNow - x.endEpoch) * s.rd.len) + ms (s.i O.SupplementHold) + 3 * us (s.i O.GracePerLevel) ≤ s.ft .icd)) ∧
  (let s : State := (fun s => atFt (2 ^ 70) { s with tw := { s.tw with parts := [(5, ⟨2, 1, false, [], 1, [], 0, [], 0⟩)] } }) (st [] []); let p : Nat := 5; let x : Part := ⟨2, 1, false, [], 1, [], 0, [], 0⟩; (tget s.tw.parts p = some x) ∧ (x.state ≠ 4)) ∧
  (let s : State := (fun s => { s with tw := { s.tw with parts := [(5, ⟨5, 1, false, [], 1, [], 0, [], 0⟩)] } }) (st [] []); let p : Nat := 5; let g : Nat := State.iGid (st [] []); let x : Part := ⟨5, 1, false, [], 1, [], 0, [], 0⟩; (tget s.tw.parts p = some x) ∧ (x.state = 5) ∧ (x.sealed.contains s.iGid = true ∨ g = s.iGid) ∧ ((s.holders x).all (fun h => h == g || x.sealed.contains h) = true)) ∧
  (let s : State := (fun s => { s with tw := { s.tw with parts := [(5, ⟨5, 1, false, [], 1, [], 0, [], 0⟩)] } }) (st [] []); let p : Nat := 5; let g : Nat := State.iGid (st [] []) + 1; let x : Part := ⟨5, 1, false, [], 1, [], 0, [], 0⟩; (tget s.tw.parts p = some x) ∧ (x.state = 5) ∧ (x.sealed.contains s.iGid = false) ∧ (g ≠ s.iGid)) ∧
  (let s : State := (fun s => atFt (2 ^ 70) { s with tw := { s.tw with parts := [(5, ⟨6, 1, false, [], 1, [], 0, [], 0⟩)] } }) (st [] []); let p : Nat := 5; let x : Part := ⟨6, 1, false, [], 1, [], 0, [], 0⟩; (tget s.tw.parts p = some x) ∧ (x.state = 6) ∧ (x.since + s.i O.PartitionQuarantine * ns 1000000000 ≤ s.ft .icd)) := by
  refine ⟨?_, ?_, ?_, ?_, ?_, ?_, ?_, ?_, ?_, ?_, ?_, ?_, ?_, ?_, ?_, ?_⟩ <;> decide +kernel

theorem witness_UplinkScheduler :
  (let s : State := (fun s => { s with pk := { s.pk with use := [(4, 2)] } }) (st [] []); let p : Nat := 4; let w : Nat := 1; (p < 16) ∧ (s.portLit p = true) ∧ (s.waveLit p w = true) ∧ (s.portQ p timeClass = []) ∧ (tget s.up.prog p = none) ∧ (s.portPick p = none)) ∧
  (let s : State := st [] []; let p : Nat := 4; let w : Nat := 1; (p < 16) ∧ ((s.portLit p = false ∨ s.waveLit p w = false))) ∧
  (let s : State := (fun s => { s with pk := { s.pk with use := [(4, 2)] }, up := { s.up with prog := [(4, (⟨0, mkRec 0x40 40 0 5 6 7 [], 5, 0, none, 0⟩, 3))] } }) (st [] []); let p : Nat := 4; let w : Nat := 1; let n : Nat := 3; let e : UpEnt := ⟨0, mkRec 0x40 40 0 5 6 7 [], 5, 0, none, 0⟩; (p < 16) ∧ (s.portLit p = true) ∧ (s.waveLit p w = true) ∧ (s.portQ p timeClass = []) ∧ (tget s.up.prog p = some (e, n)) ∧ (n + 15 < e.rec_.length) ∧ (n ≠ 0) ∧ (s.ki.mark = []) ∧ (s.up.bulkLoss = []) ∧ (e.link = none)) ∧
  (let s : State := st [] []; let q : Req := qs; let k : Nat := inst O.PortShaper 3; let v : Nat := 100 * 2 ^ 16 + 4 * 2 ^ 36 + 2 ^ 57 + 2 ^ 56; (isShaper k = true) ∧ (s.Accepts q k v) ∧ (s.shaperBad k v = false)) ∧
  (let s : State := st [] []; let q : Req := qs; let k : Nat := inst O.PortShaper 3; let v : Nat := 2 ^ 63; (isShaper k = true) ∧ (s.Accepts q k v) ∧ (s.shaperBad k v = true)) ∧
  (let s : State := atFt (2 ^ 40) (st [] []); (s.up.sampleK < s.ft .icd / us 1) ∧ (s.upPort = none)) ∧
  (let s : State := st [] []; (s.ft .icd / us 1 ≤ s.up.sampleK)) ∧
  (let s : State := atFt (2 ^ 60) (st [] []); (s.up.histK < s.ft .icd / ms (max 1 (s.i O.HistogramPeriod)))) ∧
  (let s : State := st [] [(O.RoleActive, 1)]; let r : Rec := mkRec 0x57 3 0 7 0 0 [(128, 8, 1), (192, 32, 9), (256, 80, 77)]; (s.role = 1) ∧ (recFld r 128 8 ≤ 1) ∧ (recFld r 192 32 ≠ s.tw.twinGid)) ∧
  (let s : State := st [] [(O.RoleActive, 1)]; let r : Rec := mkRec 0x57 3 0 7 0 0 [(128, 8, 2), (192, 32, 9), (256, 80, 77)]; (1 < recFld r 128 8)) ∧
  (let s : State := (fun s => atFt (2 ^ 40) { s with up := { s.up with sched := [(9, 1, 5)] } }) (st [] []); let o : Nat := 9; let e : Nat := 5; (s.up.sched = [(o, 1, e)]) ∧ (e ≤ s.ft .icd) ∧ (s.up.origins = [])) ∧
  (let s : State := (fun s => atFt (2 ^ 40) { s with up := { s.up with sched := [(9, 0, 5)], origins := [(9, 2)], range := [[1, 2]] } }) (st [] []); let o : Nat := 9; let e : Nat := 5; let f : Nat := 2; (s.up.sched = [(o, 0, e)]) ∧ (e ≤ s.ft .icd) ∧ (s.up.origins = [(o, f)])) ∧
  (let s : State := (fun s => { s with pk := { s.pk with use := [(4, 3)] }, up := { s.up with resend := [[1, 2]] } }) (st [] []); let r : Rec := [1, 2]; let l : List Rec := []; let p : Nat := 4; (s.up.resend = r :: l) ∧ (s.upPort = some p) ∧ (s.up.origins = []) ∧ (s.up.resendAt ≤ s.ft .icd) ∧ (s.portQ p 4 = []) ∧ (s.staleRecord (rPart r) (recStamp r) = false)) ∧
  (let s : State := (fun s => { s with pk := { s.pk with use := [(4, 3)] }, up := { s.up with resend := [mkRec 0x30 4 0 0 0 5 []] } }) (st [] []); let r : Rec := mkRec 0x30 4 0 0 0 5 []; let l : List Rec := []; let p : Nat := 4; (s.up.resend = r :: l) ∧ (s.upPort = some p) ∧ (s.up.origins = []) ∧ (s.up.resendAt ≤ s.ft .icd) ∧ (s.portQ p 4 = []) ∧ (s.staleRecord (rPart r) (recStamp r) = true)) ∧
  (let s : State := st [] []; (s.up.resend = [])) ∧
  (let s : State := (fun s => atFt (2 ^ 50) { s with pk := { s.pk with use := [(4, 3)] } }) (st [] []); let p : Nat := 4; (s.upPort = some p) ∧ (s.up.windowK < s.ft .icd / ms 1) ∧ (s.isLead = false)) ∧
  (let s : State := (fun s => atFt (2 ^ 50) { s with pk := { s.pk with use := [(4, 3)] }, up := { s.up with spare := List.replicate 200 7 } }) (st [] [(O.TwinState, 6), (inst O.DecimationFactor 4, 8)]); let p : Nat := 4; (s.upPort = some p) ∧ (s.up.windowK < s.ft .icd / ms 1) ∧ (s.isLead = true) ∧ (1 < s.i (inst O.DecimationFactor p)) ∧ (max 1 (s.i O.ResumeWindows) ≤ s.up.spare.length + 1) ∧ (s.up.lastSet * max 1 (s.i O.ResumeWindows) ≤ lsum (((s.effRate p - s.up.sentMs) :: s.up.spare).take (max 1 (s.i O.ResumeWindows))) * (s.i (inst O.DecimationFactor p) * s.i O.ForwardInterval))) ∧
  (let s : State := (fun s => { s with pk := { s.pk with use := [(4, 3)] } }) (st [] []); let p : Nat := 4; let r : Rec := mkRec 0x55 3 0 0 0 0 [(136, 8, 4)]; (s.upPort = some p) ∧ (s.isLead = false)) ∧
  (let s : State := st [] []; let l : Nat := 5; let r : Rec := [0, 0, 0]; (l ≠ 64) ∧ (s.se.ents = [])) ∧
  (let s : State := (fun s => { s with se := { s.se with ents := [(3, ⟨5 * 4096 + 7, 5, 0, 0, 0, 0, 0, 0, 0, 0, 0, 0, 0, true, []⟩)] }, ln := { s.ln with dieGid := [(6, 2 ^ 24 + 5)] }, tw := { s.tw with route := [(2 ^ 24 + 5, (6, false))] } }) (st [] [(serParam 7, 2), (O.RoleActive, 1)]); let l : Nat := 6; let r : Rec := [0, 0, 0]; let k : Nat := 3; let e : SerEnt := ⟨5 * 4096 + 7, 5, 0, 0, 0, 0, 0, 0, 0, 0, 0, 0, 0, true, []⟩; (l ≠ 64) ∧ (s.se.ents = [(k, e)]) ∧ (spTransform (s.i (serParam (e.key % 4096))) = 2) ∧ (s.dieLink (2 ^ 24 + e.key / 4096) = some l)) := by
  refine ⟨?_, ?_, ?_, ?_, ?_, ?_, ?_, ?_, ?_, ?_, ?_, ?_, ?_, ?_, ?_, ?_, ?_, ?_, ?_, ?_⟩ <;> decide +kernel

theorem witness_Tier1Maintenance :
  (let s : State := (fun s => { s with pw := { s.pw with initDone := true }, me := { s.me with patrol := t1Size / 64 - 1 } }) (st [] []); let y : Nat := 0; (s.pw.initDone = true) ∧ (s.i O.ThrottleStep < 3) ∧ (s.me.poison = []) ∧ (s.me.ce = []) ∧ (s.me.patrol < t1Size / 64)) ∧
  (let s : State := (fun s => atFt (2 ^ 100) { s with pw := { s.pw with initDone := true }, me := { s.me with patrol := t1Size / 64 } }) (st [] []); let y : Nat := 0; (s.pw.initDone = true) ∧ (s.i O.ThrottleStep < 3) ∧ (s.me.poison = []) ∧ (s.me.ce = []) ∧ (t1Size / 64 ≤ s.me.patrol) ∧ (s.me.patrolAt + s.i O.PatrolPeriod * ns 3600000000000 ≤ s.ft .icd)) ∧
  (let s : State := (fun s => { s with pw := { s.pw with initDone := true } }) (st [] []); let y : Nat := 0; (s.pw.initDone = true) ∧ (s.i O.ThrottleStep < 3) ∧ (s.me.poison = []) ∧ (s.me.patrol < t1Size / 64)) ∧
  (let s : State := st [] []; let v : Nat := 2; let y : Nat := 0; ((s.pw.initDone = false ∨ 3 ≤ s.i O.ThrottleStep ∨ (t1Size / 64 ≤ s.me.patrol ∧ s.ft .icd < s.me.patrolAt + s.i O.PatrolPeriod * ns 3600000000000)))) ∧
  (let s : State := st [] []; let q : Req := qm; let v : Nat := 19 + 6143 * 2 ^ 15; (s.Accepts q O.RowRetire v) ∧ (v % 32 < 20) ∧ (bits v 15 13 < 6144) ∧ (bits v 28 4 = 0) ∧ (s.me.map.contains v = false) ∧ (s.me.map.length < 8192)) ∧
  (let s : State := st [] []; let q : Req := qm; let v : Nat := 20; (s.Accepts q O.RowRetire v) ∧ (20 ≤ v % 32 ∨ 6144 ≤ bits v 15 13 ∨ bits v 28 4 ≠ 0 ∨ s.me.map.contains v = true)) ∧
  (let s : State := st [] []; let q : Req := qm; let v : Nat := 19 + 5 * 32; (s.Accepts q O.BankRetire v) ∧ (v % 32 < 20) ∧ (bit v 15 = false) ∧ (tget s.me.copying (v % 32) = none) ∧ (s.i (O.SparesFree + v % 32) ≠ 0)) ∧
  (let s : State := (fun s => { s with me := { s.me with copying := [(19, 7)] } }) (st [] []); let q : Req := qm; let v : Nat := 19 + 5 * 32; (s.Accepts q O.BankRetire v) ∧ (v % 32 < 20) ∧ (bit v 15 = false) ∧ (tget s.me.copying (v % 32) ≠ none ∨ s.i (O.SparesFree + v % 32) = 0)) ∧
  (let s : State := (fun s => { s with me := { s.me with copying := [(19, 7)] } }) (st [] []); let j : Nat := 19; let v : Nat := 7; (tget s.me.copying j = some v) ∧ (s.i O.ThrottleStep < 3) ∧ (s.me.poison = []) ∧ (1 ≤ s.i (O.SparesFree + j) ∧ s.i (O.SparesFree + j) ≤ 16) ∧ (j < 20)) ∧
  (let s : State := st [] []; let k : Nat := 19; ((tget s.me.copying k = none ∨ 3 ≤ s.i O.ThrottleStep))) ∧
  (let s : State := st [] []; let q : Req := qm; let v : Nat := 77; (s.Accepts q O.FillSubmit v) ∧ (v + s.i O.FillLength ≤ t1Size / 4096) ∧ (s.me.fill = none)) ∧
  (let s : State := (fun s => { s with me := { s.me with fill := some (0, 1, 0) } }) (st [] []); let q : Req := qm; let v : Nat := 77; (s.Accepts q O.FillSubmit v) ∧ (t1Size / 4096 < v + s.i O.FillLength ∨ s.me.fill ≠ none)) ∧
  (let s : State := (fun s => { s with me := { s.me with fill := some (0, 1, 7) } }) (st [] [(O.ThrottleStep, 3)]); ((s.me.fill = none ∨ 3 ≤ s.i O.ThrottleStep))) ∧
  (let s : State := (fun s => { s with me := { s.me with fill := some (0, 1, 0x0807060504030201), poison := [2, 70], t1 := memWrite 5000 [1, 2] (memWrite 0 [5, 6] []) } }) (st [] []); let a : Nat := 0; let n : Nat := 1; let pat : Nat := 0x0807060504030201; (s.me.fill = some (a, n, pat)) ∧ (s.i O.ThrottleStep < 3) ∧ (Memory.wf s.me.t1 = true)) := by
  refine ⟨?_, ?_, ?_, ?_, ?_, ?_, ?_, ?_, ?_, ?_, ?_, ?_, ?_, ?_⟩ <;> decide +kernel

theorem witness_InterruptQueues :
  (let s : State := st [] [(inst128 O.IrqSource 0x60, 1 + 5 * 2 ^ 8 + 2 * 2 ^ 32), (inst128 O.IrqStatus 0x60, 0x70103), (inst O.QueueControl 5, 1 + 5 * 2 + 8 * 2 ^ 16 + 12 * 2 ^ 21), (O.RecorderMinSeverity, 3)]; let n : Nat := 0x60; let q : Nat := 5; let r : Rec := mkRec 0xF0 4 0 7 0 0 []; (n < 0x200) ∧ (bit (s.i (inst128 O.IrqSource n)) 0 = true) ∧ (bit (s.i (inst128 O.IrqSource n)) 2 = false) ∧ (bits (s.i (inst128 O.IrqSource n)) 8 6 = q) ∧ (bits (s.i (inst128 O.IrqSource n)) 32 3 < s.i O.RecorderMinSeverity) ∧ (bits (s.i (inst128 O.IrqStatus n)) 0 8 < 255) ∧ (s.queueOn q = true) ∧ (s.queueFull q = false) ∧ (s.queueFull 0 = false) ∧ (q ≠ 0) ∧ (n ≠ 8) ∧ (rType r ≠ 0xF3 ∧ rType r ≠ 0xF4)) ∧
  (let s : State := st [] [(inst128 O.IrqSource 0x60, 1 + 5 * 2 ^ 8), (inst O.QueueControl 5, 10), (O.RecorderMinSeverity, 3)]; let n : Nat := 0x60; let q : Nat := 5; let r : Rec := mkRec 0xF0 4 0 7 0 0 []; (n < 0x200) ∧ (bit (s.i (inst128 O.IrqSource n)) 0 = true) ∧ (bit (s.i (inst128 O.IrqSource n)) 2 = false) ∧ (bits (s.i (inst128 O.IrqSource n)) 8 6 = q) ∧ (s.queueOn q = false) ∧ (s.queueFull 0 = false) ∧ (n ≠ 8) ∧ (rType r ≠ 0xF4)) ∧
  (let s : State := st [] [(inst128 O.IrqSource 0x60, 2)]; let n : Nat := 0x60; let r : Rec := mkRec 0xF0 4 0 7 0 0 []; (n < 0x200) ∧ (bit (s.i (inst128 O.IrqSource n)) 2 = false) ∧ (s.queueFull 0 = false) ∧ (rType r ≠ 0xF4) ∧ (bit (s.i (inst128 O.IrqSource n)) 0 = false)) ∧
  (let s : State := st [] [(inst128 O.IrqSource 0x100, 1 + 5 * 2 ^ 8), (inst O.QueueControl 5, 1 + 5 * 2 + 8 * 2 ^ 16 + 12 * 2 ^ 21), (O.RecorderMinSeverity, 3)]; let n : Nat := 0x100; let q : Nat := 5; (n < 0x200) ∧ (s.ir.conds.contains n = false) ∧ (bit (s.i (inst128 O.IrqSource n)) 0 = true) ∧ (bit (s.i (inst128 O.IrqSource n)) 2 = false) ∧ (bits (s.i (inst128 O.IrqSource n)) 8 6 = q) ∧ (bits (s.i (inst128 O.IrqSource n)) 32 3 < s.i O.RecorderMinSeverity) ∧ (bit (s.i (inst128 O.IrqStatus n)) 8 = false) ∧ (s.queueOn q = true) ∧ (s.queueFull q = false) ∧ (n ≠ 8) ∧ ((q ≠ 0 ∧ s.queueFull 0 = false))) ∧
  (let s : State := (fun s => { s with ir := { s.ir with conds := [0x100] } }) (st [] []); let n : Nat := 0x100; (s.ir.conds.contains n = true)) ∧
  (let s : State := st [] [(inst128 O.IrqSource 0x100, 3 + 5 * 2 ^ 8), (inst128 O.IrqStatus 0x100, 0x70200), (inst O.QueueProducer 5, 3), (inst O.QueueConsumer 5, 2 ^ 32 - 253), (inst O.QueueControl 5, 1 + 5 * 2 + 8 * 2 ^ 16 + 12 * 2 ^ 21), (O.RecorderMinSeverity, 3)]; let n : Nat := 0x100; let q : Nat := 5; (n < 0x200) ∧ (n ≠ 8) ∧ (s.ir.conds.contains n = false) ∧ (bit (s.i (inst128 O.IrqSource n)) 0 = true) ∧ (bit (s.i (inst128 O.IrqSource n)) 2 = false) ∧ (bits (s.i (inst128 O.IrqSource n)) 8 6 = q) ∧ (bit (s.i (inst128 O.IrqStatus n)) 8 = false) ∧ (s.queueOn q = true) ∧ (s.queueFull q = true)) ∧
  (let s : State := st [] [(inst128 O.IrqSource 0x100, 3 + 5 * 2 ^ 8), (inst128 O.IrqStatus 0x100, 0xFF0200), (inst O.QueueControl 5, 10)]; let n : Nat := 0x100; let q : Nat := 5; (n < 0x200) ∧ (s.ir.conds.contains n = false) ∧ (bit (s.i (inst128 O.IrqSource n)) 0 = true) ∧ (bit (s.i (inst128 O.IrqSource n)) 2 = false) ∧ (bits (s.i (inst128 O.IrqSource n)) 8 6 = q) ∧ (bit (s.i (inst128 O.IrqStatus n)) 8 = false) ∧ (s.queueOn q = false)) ∧
  (let s : State := st [] [(inst128 O.IrqSource 0x100, 3 + 5 * 2 ^ 8), (inst128 O.IrqStatus 0x100, 0x70300), (inst O.QueueControl 5, 1 + 5 * 2 + 8 * 2 ^ 16 + 12 * 2 ^ 21), (O.RecorderMinSeverity, 3)]; let n : Nat := 0x100; (s.ir.conds.contains n = false) ∧ (bit (s.i (inst128 O.IrqStatus n)) 8 = true)) ∧
  (let s : State := st [] [(inst128 O.IrqSource 0x100, 3 + 5 * 2 ^ 8), (inst128 O.IrqStatus 0x100, 0x70300), (inst O.QueueControl 5, 1 + 5 * 2 + 8 * 2 ^ 16 + 12 * 2 ^ 21), (O.RecorderMinSeverity, 3)]; let q : Req := qs; let v : Nat := 0x3100; let n : Nat := 0x100; (s.Accepts q O.IrqCompletion v) ∧ (bits v 0 12 = n) ∧ (0x100 ≤ n ∧ n < 0x200) ∧ (bit (s.i (inst128 O.IrqStatus n)) 8 = true) ∧ (bit (s.i (inst128 O.IrqSource n)) 1 = true) ∧ (s.ir.conds.contains n = false) ∧ (s.queueFull 0 = false)) ∧
  (let s : State := (fun s => { s with ir := { s.ir with conds := [0x100] } }) (st [] [(inst128 O.IrqSource 0x100, 3 + 5 * 2 ^ 8), (inst128 O.IrqStatus 0x100, 0x70300), (inst O.QueueProducer 5, 2 ^ 32 - 1), (inst O.QueueConsumer 5, 2 ^ 32 - 1), (inst O.QueueControl 5, 1 + 5 * 2 + 8 * 2 ^ 16 + 12 * 2 ^ 21), (O.RecorderMinSeverity, 3)]); let q : Req := qs; let v : Nat := 0x3100; let n : Nat := 0x100; let m : Nat := 5; (s.Accepts q O.IrqCompletion v) ∧ (bits v 0 12 = n) ∧ (0x100 ≤ n ∧ n < 0x200) ∧ (bit (s.i (inst128 O.IrqStatus n)) 8 = true) ∧ (bit (s.i (inst128 O.IrqSource n)) 1 = true) ∧ (bit (s.i (inst128 O.IrqSource n)) 2 = false) ∧ (bits (s.i (inst128 O.IrqSource n)) 8 6 = m) ∧ (bits (s.i (inst128 O.IrqSource n)) 32 3 < s.i O.RecorderMinSeverity) ∧ (s.ir.conds.contains n = true) ∧ (m ≠ 0) ∧ (s.queueOn m = true) ∧ (s.queueFull m = false) ∧ (s.queueFull 0 = false)) ∧
  (let s : State := st [] [(inst128 O.IrqStatus 0x60, 0x105)]; let q : Req := qs; let v : Nat := 0x60 + 3 * 2 ^ 12; (s.Accepts q O.IrqCompletion v) ∧ (16 ≤ bits v 0 12) ∧ (bit (s.i (inst128 O.IrqStatus (bits v 0 12))) 8 = true) ∧ (bit (s.i (inst128 O.IrqSource (bits v 0 12))) 1 = false) ∧ (bits v 12 8 ≤ bits (s.i (inst128 O.IrqStatus (bits v 0 12))) 0 8) ∧ (s.queueFull 0 = false)) ∧
  (let s : State := st [] []; let q : Req := qs; let v : Nat := 0x60 + 3 * 2 ^ 12; (s.Accepts q O.IrqCompletion v) ∧ (16 ≤ bits v 0 12) ∧ (bit (s.i (inst128 O.IrqStatus (bits v 0 12))) 8 = false) ∧ (s.queueFull 0 = false)) ∧
  (let s : State := st [] [(inst128 O.IrqSource 0xF00, 1 + 9 * 2 ^ 8), (inst O.QueueControl 9, 1 + 5 * 2 + 8 * 2 ^ 16 + 12 * 2 ^ 21), (O.RecorderMinSeverity, 3)]; let q : Req := qm; let v : Nat := 0xF00; let n : Nat := 9; (s.Accepts q O.SoftPost v) ∧ (0xF00 ≤ v ∧ v ≤ 0xFFF) ∧ (bit (s.i (inst128 O.IrqSource v)) 0 = true) ∧ (bit (s.i (inst128 O.IrqSource v)) 2 = false) ∧ (bits (s.i (inst128 O.IrqSource v)) 8 6 = n) ∧ (n ≠ 0) ∧ (bits (s.i (inst128 O.IrqSource v)) 32 3 < s.i O.RecorderMinSeverity) ∧ (bits (s.i (inst128 O.IrqStatus v)) 0 8 < 255) ∧ (s.queueOn n = true) ∧ (s.queueFull n = false) ∧ (s.queueFull 0 = false)) ∧
  (let s : State := st [] [(inst O.PrivVector 14, 77)]; let q : Req := qm; let v : Nat := 14; (s.Accepts q O.SoftPriv v) ∧ (v = 14 ∨ v = 15) ∧ (tgetD s.ir.wait (s.i (inst O.PrivTarget v)) [] = []) ∧ (tgetD s.ir.nest (s.i (inst O.PrivTarget v)) [] = [])) ∧
  (let s : State := (fun s => { s with ir := { s.ir with nest := [(0, [2]), (1, [2]), (2, [2]), (3, [2])] } }) (st [] []); let p : Nat := 5; let d : Nat := 9; let m : Nat := 2; (p < 16) ∧ (privIsLevel p = false) ∧ (tgetD s.ir.wait (s.i (inst O.PrivTarget p)) [] = []) ∧ (tgetD s.ir.nest (s.i (inst O.PrivTarget p)) [] = [m]) ∧ (m ≤ p)) ∧
  (let s : State := (fun s => { s with ir := { s.ir with conds := [3] } }) (st [] []); let p : Nat := 3; let d : Nat := 9; (privIsLevel p = true) ∧ (s.ir.conds.contains p = true)) ∧
  (let s : State := (fun s => { s with ir := { s.ir with queues := [(5, [⟨1, []⟩, ⟨2, []⟩, ⟨3, []⟩])] } }) (st [] [(inst O.QueueProducer 5, 1), (inst O.QueueConsumer 5, 2 ^ 32 - 2)]); let q : Req := qs; let n : Nat := 5; let v : Nat := 0; (s.Accepts q (inst O.QueueConsumer n) v) ∧ (n < 64) ∧ (n ≠ 0) ∧ ((v + 2 ^ 32 - s.i (inst O.QueueConsumer n)) % 2 ^ 32 ≤ (s.i (inst O.QueueProducer n) + 2 ^ 32 - s.i (inst O.QueueConsumer n)) % 2 ^ 32) ∧ (v < 2 ^ 32) ∧ (s.ir.owed = []) ∧ (s.queueFull 0 = false)) ∧
  (let s : State := (fun s => { s with ir := { s.ir with queues := [(5, [⟨1, []⟩])] } }) (st [] [(inst O.QueueProducer 5, 1)]); let q : Req := qs; let n : Nat := 5; let v : Nat := 2; (s.Accepts q (inst O.QueueConsumer n) v) ∧ (n < 64) ∧ (n ≠ 0) ∧ ((s.i (inst O.QueueProducer n) + 2 ^ 32 - s.i (inst O.QueueConsumer n)) % 2 ^ 32 < (v + 2 ^ 32 - s.i (inst O.QueueConsumer n)) % 2 ^ 32) ∧ (s.ir.owed = []) ∧ (s.queueFull 0 = false)) ∧
  (let s : State := st [] []; let q : Req := qs; let n : Nat := 63; let v : Nat := 4096; (s.Accepts q (inst O.QueueBase n) v) ∧ (n < 64) ∧ (v % 4096 = 0) ∧ (s.queueOverlap n (s.i (inst O.QueueControl n)) v = false) ∧ (s.i (inst O.QueueProducer n) = s.i (inst O.QueueConsumer n))) ∧
  (let s : State := st [] []; let q : Req := qs; let n : Nat := 63; let v : Nat := 4095; (s.Accepts q (inst O.QueueBase n) v) ∧ (v % 4096 ≠ 0)) ∧
  (let s : State := st [] [(inst O.QueueControl 5, 2 ^ 26)]; let q : Req := qs; let n : Nat := 5; let v : Nat := 2 ^ 26 + 6 * 2 ^ 16 + 26 * 2 ^ 21; (s.Accepts q (inst O.QueueControl n) v) ∧ (n < 64) ∧ (n ≠ 0) ∧ (bits v 27 37 = 0 ∧ bits v 1 3 ≤ 4 ∧ bits v 4 12 ≤ 2047 ∧ 6 ≤ bits v 16 5 ∧ bits v 16 5 ≤ 16 ∧ 12 ≤ bits v 21 5 ∧ bits v 21 5 ≤ 26) ∧ (s.queueOverlap n v (s.i (inst O.QueueBase n)) = false) ∧ (s.i (inst O.QueueProducer n) = s.i (inst O.QueueConsumer n)) ∧ (bit v 26 = true) ∧ (s.ir.owed = []) ∧ (s.queueFull 0 = false)) := by
  refine ⟨?_, ?_, ?_, ?_, ?_, ?_, ?_, ?_, ?_, ?_, ?_, ?_, ?_, ?_, ?_, ?_, ?_, ?_, ?_, ?_, ?_⟩ <;> decide +kernel

theorem witness_EventRecorder :
  (let s : State := (fun s => { s with ir := { s.ir with ctxs := (List.range 16).map (fun k => (k, ⟨100 + k, 2, 1, 3, 3, 0, 0⟩)), pend := [⟨10, 2, 1, 3, 3, 0, 0⟩] } }) (st [] [(inst128 O.IrqSource 0x60, 1 + 4 + 9 * 2 ^ 16 + 3 * 2 ^ 32), (O.RecorderMinSeverity, 3)]); let n : Nat := 0x60; let u : Nat := 9; let r : Rec := mkRec 0xF0 4 0 7 0 0 []; (n < 0x200) ∧ (rType r ≠ 0xF3 ∧ rType r ≠ 0xF4) ∧ (bit (s.i (inst128 O.IrqSource n)) 2 = true) ∧ (bits (s.i (inst128 O.IrqSource n)) 16 16 = u) ∧ ((s.ir.ctxs.find? fun p => p.2.unit == u) = none) ∧ (s.freeCtx = none) ∧ (s.ir.pend.any (fun c => c.unit == u) = false) ∧ (s.ir.pend.length < 256)) ∧
  (let s : State := (fun s => { s with ir := { s.ir with ctxs := [(0, ⟨10, 2, 1, 3, 3, 0, 0⟩)] } }) (st [] [(inst128 O.IrqSource 0x60, 1 + 4 + 9 * 2 ^ 16 + 3 * 2 ^ 32), (O.RecorderMinSeverity, 3)]); let n : Nat := 0x60; let u : Nat := 9; let k : Nat := 1; let r : Rec := mkRec 0xF0 4 0 7 0 0 []; (n < 0x200) ∧ (rType r ≠ 0xF3 ∧ rType r ≠ 0xF4) ∧ (bit (s.i (inst128 O.IrqSource n)) 2 = true) ∧ (bits (s.i (inst128 O.IrqSource n)) 16 16 = u) ∧ ((s.ir.ctxs.find? fun p => p.2.unit == u) = none) ∧ (s.freeCtx = some k)) ∧
  (let s : State := (fun s => { s with ir := { s.ir with ctxs := [(0, ⟨10, 2, 1, 3, 3, 0, 0⟩), (4, ⟨9, 2, 5, 3, 3, 7, 8⟩)] } }) (st [] [(inst128 O.IrqSource 0x60, 1 + 4 + 9 * 2 ^ 16 + 3 * 2 ^ 32), (O.RecorderMinSeverity, 3)]); let n : Nat := 0x60; let u : Nat := 9; let k : Nat := 4; let c : ErrCtx := ⟨9, 2, 5, 3, 3, 7, 8⟩; let r : Rec := mkRec 0xF0 4 0 7 0 0 []; (n < 0x200) ∧ (rType r ≠ 0xF3 ∧ rType r ≠ 0xF4) ∧ (bit (s.i (inst128 O.IrqSource n)) 2 = true) ∧ (bits (s.i (inst128 O.IrqSource n)) 16 16 = u) ∧ ((s.ir.ctxs.find? fun p => p.2.unit == u) = some (k, c))) ∧
  (let s : State := (fun s => { s with ir := { s.ir with ctxs := (List.range 16).map (fun k => (k, ⟨100 + k, 2, 1, 3, 3, 0, 0⟩)), pend := List.replicate 256 ⟨10, 2, 1, 3, 3, 0, 0⟩ } }) (st [] [(inst128 O.IrqSource 0x60, 1 + 4 + 9 * 2 ^ 16 + 3 * 2 ^ 32), (O.RecorderMinSeverity, 3)]); let n : Nat := 0x60; let u : Nat := 9; let r : Rec := mkRec 0xF0 4 0 7 0 0 []; (n < 0x200) ∧ (rType r ≠ 0xF3 ∧ rType r ≠ 0xF4) ∧ (bit (s.i (inst128 O.IrqSource n)) 2 = true) ∧ (bits (s.i (inst128 O.IrqSource n)) 16 16 = u) ∧ ((s.ir.ctxs.find? fun p => p.2.unit == u) = none) ∧ (s.freeCtx = none) ∧ (s.ir.pend.any (fun c => c.unit == u) = false) ∧ (256 ≤ s.ir.pend.length)) ∧
  (let s : State := st [] []; let q : Req := qs; let v : Nat := 5; let n : Nat := 5; (s.Accepts q O.ErrorClose v) ∧ (bits v 0 4 = n) ∧ (tget s.ir.ctxs n = none)) ∧
  (let s : State := (fun s => { s with ir := { s.ir with ctxs := [(5, ⟨9, 2, 1, 3, 3, 0, 0⟩)] } }) (st [] []); let q : Req := qs; let v : Nat := 5 + 2 ^ 32; let n : Nat := 5; let c : ErrCtx := ⟨9, 2, 1, 3, 3, 0, 0⟩; (s.Accepts q O.ErrorClose v) ∧ (bits v 0 4 = n) ∧ (tget s.ir.ctxs n = some c) ∧ (c.joined ≤ bits v 32 32) ∧ (s.ir.pend = [])) ∧
  (let s : State := (fun s => { s with ir := { s.ir with ctxs := [(5, ⟨9, 2, 1, 3, 3, 0, 0⟩)], pend := [⟨10, 2, 1, 3, 3, 0, 0⟩] } }) (st [] []); let q : Req := qs; let v : Nat := 5 + 2 ^ 32; let n : Nat := 5; let c : ErrCtx := ⟨9, 2, 1, 3, 3, 0, 0⟩; let p : ErrCtx := ⟨10, 2, 1, 3, 3, 0, 0⟩; let l : List ErrCtx := []; (s.Accepts q O.ErrorClose v) ∧ (bits v 0 4 = n) ∧ (tget s.ir.ctxs n = some c) ∧ (c.joined ≤ bits v 32 32) ∧ (s.ir.pend = p :: l)) ∧
  (let s : State := (fun s => { s with ir := { s.ir with ctxs := [(5, ⟨9, 2, 1, 3, 3, 0, 0⟩)] } }) (st [] []); let q : Req := qs; let v : Nat := 5; let n : Nat := 5; let c : ErrCtx := ⟨9, 2, 1, 3, 3, 0, 0⟩; (s.Accepts q O.ErrorClose v) ∧ (bits v 0 4 = n) ∧ (tget s.ir.ctxs n = some c) ∧ (bits v 32 32 < c.joined)) ∧
  (let s : State := (fun s => { s with ir := { s.ir with conds := [3] } }) (st [] [(O.ObserveOnly, 1)]); let q : Req := qm; (s.Accepts q O.ObserveOnlyExit 1) ∧ (s.ir.pend.length < 128) ∧ (s.i O.ObserveOnly = 1)) ∧
  (let s : State := (fun s => { s with ir := { s.ir with pend := List.replicate 128 ⟨9, 2, 1, 3, 3, 0, 0⟩ } }) (st [] [(O.ObserveOnly, 1)]); let q : Req := qm; let v : Nat := 1; (s.Accepts q O.ObserveOnlyExit v) ∧ (v ≠ 1 ∨ 128 ≤ s.ir.pend.length)) ∧
  (let s : State := st [] []; let q : Req := qm; let v : Nat := 100 * 2 ^ 48 + 900 * 2 ^ 30; (s.Accepts q O.RecorderWrite v) ∧ (bits v 48 10 ≤ 960) ∧ (bits v 58 6 = 0) ∧ (bits v 0 48 + bits v 48 10 ≤ t1Size) ∧ (s.inRegion mgmtReads (bits v 0 48) (bits v 48 10) = true) ∧ (s.me.poison = []) ∧ (s.me.ce = []) ∧ (s.ir.rateSec = s.ft .icd / ns 1000000000) ∧ (s.ir.rateCnt < 10000)) ∧
  (let s : State := st [] []; let q : Req := qm; let v : Nat := 961 * 2 ^ 48 + 4096; (s.Accepts q O.RecorderWrite v) ∧ (960 < bits v 48 10 ∨ bits v 58 6 ≠ 0)) ∧
  (let s : State := atFt (2 ^ 60) (st [] []); (s.ir.rateSec ≠ s.ft .icd / ns 1000000000) ∧ (s.ir.dropSum = 0)) ∧
  (let s : State := (fun s => atFt (2 ^ 60) { s with ir := { s.ir with dropSum := 5 } }) (st [] []); (s.ir.rateSec ≠ s.ft .icd / ns 1000000000) ∧ (s.ir.dropSum ≠ 0)) ∧
  (let s : State := st [] []; let q : Req := qs; let v : Nat := 7; (s.Accepts q O.RecorderCursor v) ∧ (s.ir.log = [] ∨ s.i O.RecorderFirst ≤ v)) ∧
  (let s : State := (fun s => { s with ir := { s.ir with log := [(9, 0, [1])] } }) (st [] [(O.RecorderFirst, 9)]); let q : Req := qs; let v : Nat := 7; (s.Accepts q O.RecorderCursor v) ∧ (s.ir.log ≠ []) ∧ (v < s.i O.RecorderFirst)) ∧
  (let s : State := st [] []; let q : Req := qm; let v : Nat := 7; (s.Accepts q O.RecorderClearArm v)) ∧
  (let s : State := (fun s => { s with ir := { s.ir with log := [(1, 0, [1])], arm := some (7, 0, 8) } }) (st [] []); let q : Req := qm; let v : Nat := 7; let a : Nat := 0; let l : Nat := 8; (s.Accepts q O.RecorderClear v) ∧ (s.ir.arm = some (v, a, l)) ∧ (s.ft .icd ≤ a + ms 10000)) ∧
  (let s : State := (fun s => { s with ir := { s.ir with arm := some (8, 0, 8) } }) (st [] []); let q : Req := qm; let v : Nat := 7; let w : Nat := 8; let a : Nat := 0; let l : Nat := 8; (s.Accepts q O.RecorderClear v) ∧ (s.ir.arm = some (w, a, l)) ∧ (w ≠ v ∨ a + ms 10000 < s.ft .icd)) ∧
  (let s : State := (fun s => atFt (2 ^ 60) { s with ir := { s.ir with arm := some (8, 0, 8) } }) (st [] []); let w : Nat := 8; let a : Nat := 0; let l : Nat := 8; (s.ir.arm = some (w, a, l)) ∧ (a + ms 10000 ≤ s.ft .icd)) := by
  refine ⟨?_, ?_, ?_, ?_, ?_, ?_, ?_, ?_, ?_, ?_, ?_, ?_, ?_, ?_, ?_, ?_, ?_, ?_, ?_, ?_⟩ <;> decide +kernel

theorem witness_TenantInterfaces :
  (let s : State := (fun s => { s with tw := { s.tw with parts := [(7, ⟨2, 1, false, [], 1, [], 0, [], 0⟩)] } }) (st [] [(O.VfCount, 4)]); let q : Req := qs; let v : Nat := 4; let p : Nat := 0; (s.Accepts q (vfKey O.VfPartition v) p) ∧ (1 ≤ v ∧ v ≤ s.i O.VfCount) ∧ (s.i (vfKey O.TdiState v) = 0) ∧ (p = 0 ∨ ((s.partState p = 2 ∨ s.partState p = 3) ∧ s.vfOf p = none))) ∧
  (let s : State := st [] [(O.VfCount, 4), (vfKey O.TdiState 4, 2)]; let q : Req := qs; let v : Nat := 4; let p : Nat := 0; (s.Accepts q (vfKey O.VfPartition v) p) ∧ (1 ≤ v ∧ v ≤ s.i O.VfCount) ∧ (s.i (vfKey O.TdiState v) ≠ 0)) ∧
  (let s : State := st [] [(O.VfCount, 4)]; let q : Req := qs; let v : Nat := 4; let p : Nat := 9; (s.Accepts q (vfKey O.VfPartition v) p) ∧ (1 ≤ v ∧ v ≤ s.i O.VfCount) ∧ (s.i (vfKey O.TdiState v) = 0) ∧ (p ≠ 0) ∧ (((s.partState p ≠ 2 ∧ s.partState p ≠ 3) ∨ (s.vfOf p).any (fun w => w != v) = true))) ∧
  (let s : State := (fun s => { s with pk := { s.pk with pcieUp := true }, sc := { s.sc with sess := [(5, ⟨0, true, 0⟩)] } }) (st [] []); let e : Nat := 5; let v : Nat := 3; (s.doeUp = true) ∧ (s.secured e = true)) ∧
  (let s : State := (fun s => { s with pk := { s.pk with pcieUp := true }, sc := { s.sc with sess := [(5, ⟨0, true, 0⟩)] } }) (st [] []); let e : Nat := 5; let v : Nat := 3; let x : Nat := 1; let y : Nat := 0; let z : Nat := 99; (s.doeUp = true) ∧ (s.secured e = true) ∧ ((s.ideOf v).set_ ≠ some x)) ∧
  (let s : State := st [] []; let e : Nat := 5; let v : Nat := 3; let x : Nat := 1; let y : Nat := 0; let z : Nat := 99; (s.doeUp = false ∨ s.secured e = false ∨ (s.ideOf v).set_ = some x)) ∧
  (let s : State := (fun s => { s with pk := { s.pk with pcieUp := true }, sc := { s.sc with sess := [(5, ⟨0, true, 0⟩)], ide := [(3, ⟨[(2, 8), (3, 9)], none⟩)] } }) (st [] []); let e : Nat := 5; let v : Nat := 3; let x : Nat := 1; let a : Nat := 8; let b : Nat := 9; (s.doeUp = true) ∧ (s.secured e = true) ∧ (tget (s.ideOf v).keys (x * 2) = some a) ∧ (tget (s.ideOf v).keys (x * 2 + 1) = some b)) ∧
  (let s : State := (fun s => { s with pk := { s.pk with pcieUp := true }, sc := { s.sc with sess := [(5, ⟨0, true, 0⟩)], ide := [(3, ⟨[(2, 8), (3, 9)], some 1⟩)] } }) (st [] [(vfKey O.TdiState 3, 2)]); let e : Nat := 5; let v : Nat := 3; let x : Nat := 1; (s.doeUp = true) ∧ (s.secured e = true) ∧ (1 ≤ v ∧ v ≤ 256) ∧ ((s.ideOf v).set_ = some x) ∧ (s.i (vfKey O.TdiState v) = 1 ∨ s.i (vfKey O.TdiState v) = 2)) ∧
  (let s : State := (fun s => { s with pk := { s.pk with pcieUp := true }, sc := { s.sc with sess := [(5, ⟨0, true, 0⟩)], ide := [(3, ⟨[(2, 8), (3, 9)], some 0⟩)] } }) (st [] []); let e : Nat := 5; let v : Nat := 3; let x : Nat := 1; (s.doeUp = true) ∧ (s.secured e = true) ∧ ((s.ideOf v).set_ ≠ some x)) ∧
  (let s : State := st [] [(vfKey O.TdiState 256, 1)]; let v : Nat := 256; (1 ≤ v ∧ v ≤ 256) ∧ (s.i (vfKey O.TdiState v) = 1 ∨ s.i (vfKey O.TdiState v) = 2)) ∧
  (let s : State := st [] []; let v : Nat := 0; (s.i (vfKey O.TdiState v) = 0 ∨ s.i (vfKey O.TdiState v) = 3 ∨ v = 0)) ∧
  (let s : State := (fun s => { s with pk := { s.pk with pcieUp := true } }) (st [] []); let v : Nat := 3; (s.doeUp = true)) ∧
  (let s : State := (fun s => { s with pk := { s.pk with pcieUp := true } }) (st [] []); let v : Nat := 3; (s.doeUp = true)) ∧
  (let s : State := (fun s => { s with pk := { s.pk with pcieUp := true }, sc := { s.sc with ide := [(3, ⟨[(2, 8), (3, 9)], some 1⟩)] } }) (st [] [(vfKey O.VfPartition 3, 9)]); let v : Nat := 3; (s.doeUp = true) ∧ (s.i (vfKey O.TdiState v) = 0) ∧ (s.i (vfKey O.VfPartition v) ≠ 0) ∧ ((s.ideOf v).set_ ≠ none) ∧ (1 ≤ v ∧ v ≤ 256)) ∧
  (let s : State := (fun s => { s with pk := { s.pk with pcieUp := true } }) (st [] []); let v : Nat := 3; (s.doeUp = true) ∧ (s.i (vfKey O.TdiState v) ≠ 0 ∨ s.i (vfKey O.VfPartition v) = 0 ∨ (s.ideOf v).set_ = none)) ∧
  (let s : State := (fun s => { s with pk := { s.pk with pcieUp := true } }) (st [] []); let v : Nat := 3; (s.doeUp = true)) ∧
  (let s : State := (fun s => { s with pk := { s.pk with pcieUp := true } }) (st [] []); let v : Nat := 3; (s.doeUp = true)) ∧
  (let s : State := (fun s => { s with pk := { s.pk with pcieUp := true } }) (st [] [(vfKey O.TdiState 3, 1)]); let v : Nat := 3; (s.doeUp = true) ∧ (s.i (vfKey O.TdiState v) = 1) ∧ (1 ≤ v ∧ v ≤ 256)) ∧
  (let s : State := (fun s => { s with pk := { s.pk with pcieUp := true } }) (st [] []); let v : Nat := 3; (s.doeUp = true) ∧ (s.i (vfKey O.TdiState v) ≠ 1)) ∧
  (let s : State := (fun s => { s with pk := { s.pk with pcieUp := true } }) (st [] [(vfKey O.TdiState 3, 2)]); let v : Nat := 3; (s.doeUp = true) ∧ (1 ≤ v ∧ v ≤ 256)) ∧
  (let s : State := (fun s => { s with pk := { s.pk with use := [(0, 2), (1, 3)] }, tw := { s.tw with parts := [(7, ⟨2, 1, false, [], 1, [], 0, [], 0⟩)] } }) (atFt (2 ^ 60) (st [] [(O.RoleActive, 1), (O.TwinState, 2), (vfKey O.VfPartition 3, 7), (vfKey O.TdiState 3, 2)])); let p : Nat := 7; let v : Nat := 3; let u : Nat := 1; let x : Part := ⟨2, 1, false, [], 1, [], 0, [], 0⟩; (s.role = 1) ∧ (s.isLead = true) ∧ (s.ct.powerK < s.ft .icd / ms 100) ∧ (s.tw.parts = [(p, x)]) ∧ (x.tenant = true) ∧ (s.vfOf p = some v) ∧ (s.i (vfKey O.TdiState v) = 2) ∧ (s.upPort = some u) ∧ (s.i (inst O.BulkDeferred u) ≠ 1)) ∧
  (let s : State := atFt (2 ^ 60) (st [] [(O.RoleActive, 1)]); (s.role = 1) ∧ (s.ct.powerK < s.ft .icd / ms 100) ∧ ((∀ p ∈ s.tw.parts, p.2.tenant = false))) ∧
  (let s : State := st [] [(O.RoleActive, 1)]; (s.role ≠ 1 ∨ s.ft .icd / ms 100 ≤ s.ct.powerK)) := by
  refine ⟨?_, ?_, ?_, ?_, ?_, ?_, ?_, ?_, ?_, ?_, ?_, ?_, ?_, ?_, ?_, ?_, ?_, ?_, ?_, ?_, ?_, ?_, ?_⟩ <;> decide +kernel

theorem witness_SpdmRequests :
  (let s : State := st [] []; let b : Nat := 1; (s.SpdmUp b)) ∧
  (let s : State := (fun s => { s with sc := { s.sc with phase := [(1, 1)] } }) (st [] []); let b : Nat := 1; (s.SpdmUp b) ∧ (1 ≤ tgetD s.sc.phase b 0)) ∧
  (let s : State := (fun s => { s with sc := { s.sc with phase := [(1, 2)] } }) (st [] []); let b : Nat := 1; (s.SpdmUp b) ∧ (2 ≤ tgetD s.sc.phase b 0)) ∧
  (let s : State := (fun s => { s with sc := { s.sc with phase := [(1, 2)] } }) (st [] []); let b : Nat := 1; (s.SpdmUp b) ∧ (2 ≤ tgetD s.sc.phase b 0)) ∧
  (let s : State := (fun s => { s with sc := { s.sc with phase := [(1, 2)] } }) (st [] []); let b : Nat := 1; let k : Nat := 0; let o : Nat := 3; let n : Nat := 9; let x : Nat := 7; let e : Nat := 5; let g : Bool := true; let w : Bool := true; let c : Bool := true; (s.SpdmUp b) ∧ (tgetD s.sc.phase b 0 < 3)) ∧
  (let s : State := (fun s => { s with sc := { s.sc with phase := [(1, 3)] } }) (st [] []); let b : Nat := 1; (s.SpdmReady b)) ∧
  (let s : State := (fun s => { s with sc := { s.sc with phase := [(1, 3)] } }) (st [] []); let b : Nat := 1; let o : Nat := 3; let n : Nat := 9; (s.SpdmReady b)) ∧
  (let s : State := (fun s => { s with sc := { s.sc with phase := [(1, 3)] } }) (st [] []); let b : Nat := 1; let k : Nat := 7; let o : Nat := 3; let n : Nat := 9; (s.SpdmReady b) ∧ (k ≠ 0)) ∧
  (let s : State := (fun s => { s with sc := { s.sc with phase := [(1, 3)] } }) (st [] []); let b : Nat := 1; let x : Nat := 77; (s.SpdmReady b)) ∧
  (let s : State := (fun s => { s with sc := { s.sc with phase := [(1, 3)] } }) (st [] []); let b : Nat := 1; let k : Nat := 7; let x : Nat := 77; (s.SpdmReady b) ∧ (k ≠ 0)) ∧
  (let s : State := (fun s => { s with sc := { s.sc with phase := [(1, 3)] } }) (st [] []); let b : Nat := 1; let n : Nat := 7; let x : Nat := 0; let g : Bool := true; (s.SpdmUp b) ∧ (3 ≤ tgetD s.sc.phase b 0) ∧ (n ≠ 0) ∧ (s.measBlocks n ≠ [])) ∧
  (let s : State := (fun s => { s with sc := { s.sc with phase := [(1, 3)] } }) (st [] []); let b : Nat := 1; let x : Nat := 0; (s.SpdmUp b) ∧ (3 ≤ tgetD s.sc.phase b 0)) ∧
  (let s : State := (fun s => { s with sc := { s.sc with phase := [(1, 3)] } }) (st [] []); let b : Nat := 1; let n : Nat := 10; let x : Nat := 0; let g : Bool := true; (s.SpdmUp b) ∧ (3 ≤ tgetD s.sc.phase b 0) ∧ (n ≠ 0) ∧ (s.measBlocks n = [])) ∧
  (let s : State := (fun s => { s with pw := { s.pw with phase := 1 } }) (st [] []); (s.pw.phase = 1) ∧ (s.pw.recOk = false)) ∧
  (let s : State := (fun s => { s with sc := { s.sc with phase := [(1, 3)] } }) (st [] []); let b : Nat := 1; (s.SpdmReady b) ∧ ((s.sc.sess.filter fun p => p.2.binding == b).length < 8)) ∧
  (let s : State := (fun s => { s with sc := { s.sc with phase := [(1, 3)], sess := (List.range 8).map (fun k => (k, ⟨1, true, 0⟩)) } }) (st [] []); let b : Nat := 1; (s.SpdmReady b) ∧ (8 ≤ (s.sc.sess.filter fun p => p.2.binding == b).length)) ∧
  (let s : State := (fun s => { s with sc := { s.sc with phase := [(1, 3)], sess := [(5, ⟨1, false, 0⟩)] } }) (st [] []); let b : Nat := 1; let e : Nat := 5; let x : SpdmSess := ⟨1, false, 0⟩; (s.SpdmReady b) ∧ (tget s.sc.sess e = some x) ∧ (x.binding = b)) ∧
  (let s : State := (fun s => { s with sc := { s.sc with phase := [(1, 3)], sess := [(5, ⟨1, false, 0⟩)] } }) (st [] []); let b : Nat := 1; let e : Nat := 5; let x : SpdmSess := ⟨1, false, 0⟩; (s.SpdmReady b) ∧ (tget s.sc.sess e = some x) ∧ (x.binding = b)) ∧
  (let s : State := (fun s => { s with sc := { s.sc with phase := [(1, 3)], sess := [(5, ⟨1, true, 0⟩)] } }) (st [] []); let b : Nat := 1; let e : Nat := 5; let x : SpdmSess := ⟨1, true, 0⟩; (s.SpdmReady b) ∧ (tget s.sc.sess e = some x) ∧ (x.binding = b ∧ x.ready = true)) ∧
  (let s : State := (fun s => { s with sc := { s.sc with phase := [(1, 3)], sess := [(5, ⟨1, true, 0⟩)] } }) (st [] []); let b : Nat := 1; let e : Nat := 5; let x : SpdmSess := ⟨1, true, 0⟩; (s.SpdmReady b) ∧ (tget s.sc.sess e = some x) ∧ (x.binding = b ∧ x.ready = true)) ∧
  (let s : State := (fun s => { s with sc := { s.sc with phase := [(1, 3)], sess := [(5, ⟨1, true, 0⟩)] } }) (st [] []); let b : Nat := 1; let e : Nat := 5; let x : SpdmSess := ⟨1, true, 0⟩; (s.SpdmReady b) ∧ (tget s.sc.sess e = some x) ∧ (x.binding = b ∧ x.ready = true)) ∧
  (let s : State := (fun s => { s with sc := { s.sc with phase := [(1, 3)] } }) (st [] []); let b : Nat := 1; let e : Nat := 5; let w : Bool := true; (s.SpdmReady b) ∧ ((match tget s.sc.sess e with | some x => x.binding != b | none => true) = true)) ∧
  (let s : State := (fun s => { s with sc := { s.sc with phase := [(1, 3)] } }) (st [] []); let b : Nat := 1; let e : Nat := 5; (s.SpdmReady b) ∧ ((match tget s.sc.sess e with | some x => x.binding != b || !x.ready | none => true) = true)) ∧
  (let s : State := (fun s => { s with sc := { s.sc with phase := [(1, 3)] }, pw := { s.pw with switching := true } }) (st [] []); let b : Nat := 1; let k : Nat := 0; let o : Nat := 3; let n : Nat := 9; let x : Nat := 7; let e : Nat := 5; let g : Bool := true; let w : Bool := true; let c : Bool := true; (s.spdmUp b = true) ∧ (s.pw.switching = true)) ∧
  (let s : State := (fun s => { s with sc := { s.sc with token := some (4, 1, 0x81, []) } }) (st [] []); let b : Nat := 1; let y : Nat := 4; let k : Nat := 0; let o : Nat := 0; let n : Nat := 0; let x : Nat := 0; let g : Bool := true; let c : Bool := true; (s.SpdmUp b) ∧ (s.sc.token = some (y, b, 0x81, []))) ∧
  (let s : State := (fun s => { s with sc := { s.sc with token := some (4, 1, 0xE5, []) } }) (st [] []); let b : Nat := 1; let k : Nat := 4; let code : Nat := 0xE5; (s.SpdmUp b) ∧ (s.sc.token = some (k, b, code, [])) ∧ (code ∈ [0xE5, 0xE8, 0xE9, 0xEC])) ∧
  (let s : State := (fun s => { s with sc := { s.sc with token := some (4, 1, 0x81, []) }, pw := { s.pw with switching := true } }) (st [] []); let b : Nat := 1; let k : Nat := 4; let ix : List Nat := []; let code : Nat := 0x81; (s.spdmUp b = true) ∧ (s.pw.switching = true) ∧ (s.sc.token = some (k, b, code, ix))) ∧
  (let s : State := st [] []; let b : Nat := 1; let k : Nat := 4; (s.spdmUp b = true) ∧ ((match s.sc.token with | some y => y.1 != k || y.2.1 != b | none => true) = true)) ∧
  (let s : State := (fun s => { s with sc := { s.sc with phase := [(1, 3)] }, pw := { s.pw with phase := 1 } }) (st [] []); let b : Nat := 1; let k : Nat := 0; let o : Nat := 3; let n : Nat := 9; let x : Nat := 7; let e : Nat := 5; let g : Bool := true; let w : Bool := true; let c : Bool := true; (s.pw.phase = 1) ∧ (s.spdmUp b = true)) ∧
  (let s : State := (fun s => { s with pk := { s.pk with domReset := [(92, 5)] } }) (st [] []); let b : Nat := 0; let k : Nat := 0; let o : Nat := 3; let n : Nat := 9; let x : Nat := 7; let e : Nat := 5; let g : Bool := true; let w : Bool := true; let c : Bool := true; (s.spdmUp b = false)) := by
  refine ⟨?_, ?_, ?_, ?_, ?_, ?_, ?_, ?_, ?_, ?_, ?_, ?_, ?_, ?_, ?_, ?_, ?_, ?_, ?_, ?_, ?_, ?_, ?_, ?_, ?_, ?_, ?_, ?_, ?_, ?_⟩ <;> decide +kernel

theorem witness_IdentityAndAudit :
  (let s : State := (fun s => { s with sc := { s.sc with dieKey := [(5, 99)] }, tm := { s.tm with ohBase := [(5, (7, 2 ^ 32 - 1))] } }) (st [] [(O.RoleActive, 1)]); let k : Nat := 5; let x : Nat := 99; (s.role = 1) ∧ (tget s.sc.dieKey k = some x)) ∧
  (let s : State := (fun s => { s with sc := { s.sc with dieKey := [(5, 98)] }, tm := { s.tm with ohBase := [(5, (7, 2 ^ 32 - 1))] } }) (st [] [(O.RoleActive, 1)]); let k : Nat := 5; let x : Nat := 99; (s.role = 1) ∧ (tget s.sc.dieKey k ≠ some x) ∧ (k < 64)) ∧
  (let s : State := st [] [(O.RoleActive, 1)]; let k : Nat := 5; let x : Nat := 99; (s.role = 1) ∧ (k < 64)) ∧
  (let s : State := (fun s => { s with mo := { s.mo with sessions := [(2, ⟨5, .op, 0, 0, [], 0, []⟩)] } }) (st [] [(O.CredentialRole + 1, 2), (O.CredentialRole + 5, 1)]); let q : Req := qm; let n : Nat := 5; let v : Nat := 0; (n < 64) ∧ (s.Accepts q (O.CredentialRole + n) v) ∧ ((s.iSet (O.CredentialRole + n) v).hasMaintainer = true)) ∧
  (let s : State := st [] [(O.CredentialRole + 1, 2)]; let q : Req := qm; let n : Nat := 1; let v : Nat := 1; (n < 64) ∧ (s.Accepts q (O.CredentialRole + n) v) ∧ (s.hasMaintainer = true) ∧ ((s.iSet (O.CredentialRole + n) v).hasMaintainer = false)) ∧
  (let s : State := st [] [(O.CredentialRole + 3, 2), (O.CredentialKey + 3, 99)]; let p : Nat := 1; let x : Nat := 99; let n : Nat := 3; (s.pw.phase ≠ 1) ∧ (n < 64) ∧ (s.i (O.CredentialRole + n) = 2) ∧ (s.i (O.CredentialKey + n) = x) ∧ ((∀ m, m < n → s.i (O.CredentialRole + m) = 0)) ∧ (tget s.mo.sessions 0 = none)) ∧
  (let s : State := st [] []; let p : Nat := 1; let x : Nat := 99; (∀ m, m < 64 → s.i (O.CredentialRole + m) = 0)) ∧
  (let s : State := (fun s => atFt (2 ^ 60) { s with sc := { s.sc with entries := [(5, mkRec 0xE2 2 0 9 7 0 [])] } }) (st [] [(O.TwinState, 2)]); let k : Nat := 1; let l : Option (List (Nat × Nat × Nat) × List (Nat × Nat × Nat)) := none; (k * ns 1000000000 ≤ s.ft .icd) ∧ (s.i O.LastSealInterval < k) ∧ (s.isLead = true)) ∧
  (let s : State := atFt (2 ^ 60) (st [] [(O.TwinState, 3)]); let k : Nat := 1; let l : List (Nat × Nat × Nat) := [(9, 0xE2, 7)]; let x : List (Nat × Nat × Nat) := [(9, 0xE2, 8)]; (k * ns 1000000000 ≤ s.ft .icd) ∧ (s.i O.LastSealInterval < k) ∧ (s.isLead = false) ∧ (s.sc.entries.any (fun e => x.contains (entryId e.2)) = false)) ∧
  (let s : State := (fun s => atFt (2 ^ 60) { s with sc := { s.sc with lost := 3, entries := [(5, mkRec 0xE2 2 0 9 7 0 []), (6, mkRec 0xE2 2 0 9 8 0 [])] } }) (st [] [(O.TwinState, 3), (O.AuditFill, 64)]); let k : Nat := 1; let l : List (Nat × Nat × Nat) := [(9, 0xE2, 7)]; let x : List (Nat × Nat × Nat) := [(9, 0xE2, 8)]; (k * ns 1000000000 ≤ s.ft .icd) ∧ (s.i O.LastSealInterval < k) ∧ (s.isLead = false) ∧ (s.sc.entries.any (fun e => x.contains (entryId e.2)) = true)) ∧
  (let s : State := (fun s => atFt (2 ^ 60) { s with sc := { s.sc with agreed := some (1, [(9, 0xE2, 7)]), entries := [(5, mkRec 0xE2 2 0 9 7 0 []), (6, mkRec 0xE2 2 0 9 8 0 [])] } }) (st [] []); let k : Nat := 1; let l : List (Nat × Nat × Nat) := [(9, 0xE2, 7)]; (s.sc.agreed = some (k, l)) ∧ (k * ns 1000000000 + ms 1 ≤ s.ft .icd) ∧ (s.sc.slots = []) ∧ (s.sc.closing = []) ∧ (k < 2 ^ 64)) ∧
  (let s : State := (fun s => { s with sc := { s.sc with sealed := [(1, [mkRec 0xE2 2 0 9 7 0 []])] } }) (st [] [(O.Tier2Present, 2), (O.AuditArchiveSize, 8), (O.AuditFill, 100)]); let k : Nat := 1; let p : Nat := 1; let l : List Rec := [mkRec 0xE2 2 0 9 7 0 []]; (tget s.sc.sealed k = some l) ∧ ((List.range 4).find? (fun p => bit (s.i O.Tier2Present) p) = some p) ∧ (s.sc.archive = []) ∧ (lsum (l.map (fun r => 16 * r.length)) ≤ s.i O.AuditArchiveSize * 1073741824)) := by
  refine ⟨?_, ?_, ?_, ?_, ?_, ?_, ?_, ?_, ?_, ?_, ?_, ?_⟩ <;> decide +kernel

theorem witness_HeladResetsAndDomains :
  (let s : State := stp [(O.FtState, 2), (O.SlotNumber, 5)] []; True) ∧
  (let s : State := (fun s => { s with bd := { s.bd with haoReset := true, hmainReset := true, hmainEarly := true } }) (st [] []); (s.bd.haoReset = true)) ∧
  (let s : State := st [] []; (s.bd.haoReset = false)) ∧
  (let s : State := up (stp [(O.FtState, 2), (O.LaneState, 2)] []); True) ∧
  (let s : State := (fun s => { s with bd := { s.bd with haoReset := true } }) (st [] []); (s.bd.haoReset = true)) ∧
  (let s : State := (fun s => { s with bd := { s.bd with hmainReset := true } }) (st [] []); (s.bd.haoReset = false)) ∧
  (let s : State := stp [(O.FtState, 2)] []; True) ∧
  (let s : State := st [] []; let n : Nat := 3; (s.bd.clkLost = false)) ∧
  (let s : State := (fun s => { s with bd := { s.bd with clkLost := true } }) (st [] []); let n : Nat := 3; (s.bd.clkLost = true)) ∧
  (let s : State := st [] []; let d : Nat := 4; let g : Nat := 3; (s.heladReset = false) ∧ (d ≠ 2) ∧ (s.domState d = 0)) ∧
  (let s : State := (fun s => { s with bd := { s.bd with hmainReset := true } }) (st [] []); let d : Nat := 2; let g : Nat := 3; (s.bd.hmainReset = true ∨ s.domState d ≠ 0 ∨ (d = 2 ∧ (g &&& s.wiredGroups) = 0 ∧ s.ct.cbFill = 0 ∧ g ≠ 0))) ∧
  (let s : State := st [(O.TapWired, 1)] []; let d : Nat := 2; let g : Nat := 1; (s.bd.hmainReset = false) ∧ (s.bd.haoReset = false) ∧ (s.domState 2 = 0) ∧ (((g &&& s.wiredGroups) ≠ 0 ∨ s.ct.cbFill ≠ 0 ∨ g = 0))) ∧
  (let s : State := st [] []; let d : Nat := 3; (s.domState d ≠ 1)) ∧
  (let s : State := (fun s => { s with bd := { s.bd with hmainReset := true, dom := [(3, 1)] } }) (st [] []); let d : Nat := 3; (s.heladReset = true)) ∧
  (let s : State := (fun s => { s with bd := { s.bd with haoReset := true } }) (st [] []); let u : Nat := 9; (s.bd.haoReset = true)) ∧
  (let s : State := (fun s => { s with bd := { s.bd with haoReset := true } }) (st [] []); let port : Nat := 9; let inc : Nat := 1; let tag : Nat := 0; let evt : Nat := 0; let e : Option Nat := none; (s.bd.haoReset = true)) ∧
  (let s : State := (fun s => { s with bd := { s.bd with dom := [(5, 1)] } }) (st [] []); let d : Nat := 5; (s.domState d = 1) ∧ ((d = 2 ∨ d = 3 ∨ d = 5)) ∧ ((d = 2 → s.si.hel.deferred = [])) ∧ (s.heladReset = false)) ∧
  (let s : State := (fun s => { s with bd := { s.bd with dom := [(1, 1)] } }) (st [] []); (s.domState 1 = 1) ∧ (s.heladReset = false)) ∧
  (let s : State := (fun s => { s with bd := { s.bd with dom := [(4, 1)] } }) (st [(O.LaneState, 3)] []); (s.domState 4 = 1) ∧ (s.h O.LaneState = 3) ∧ (s.bd.syncLeft = 0) ∧ (s.ln.retune = none) ∧ (s.heladReset = false)) ∧
  (let s : State := up (st [] []); let d : Nat := 3; let g : Nat := 0; (s.domState d ≠ 2 ∨ s.ft .hel < tgetD s.bd.busyAt d 0 + us 10)) ∧
  (let s : State := up (st [(O.TapWired, 1)] []); let d : Nat := 2; let g : Nat := 1; (s.domState d = 2) ∧ (({ s with bd := { s.bd with grpActive := g } }).domainHeld d = true)) ∧
  (let s : State := atFt (2 ^ 40) (up (st [] [])); let d : Nat := 5; let g : Nat := 0; (s.domState d = 2) ∧ (d = 3 ∨ d = 5) ∧ (({ s with bd := { s.bd with grpActive := g } }).domainHeld d = false) ∧ (tgetD s.bd.busyAt d 0 + us 10 ≤ s.ft .hel)) ∧
  (let s : State := atFt (2 ^ 40) (up (st [] [])); let g : Nat := 0; (s.domState 2 = 2) ∧ (({ s with bd := { s.bd with grpActive := g } }).domainHeld 2 = false) ∧ (tgetD s.bd.busyAt 2 0 + us 10 ≤ s.ft .hel)) ∧
  (let s : State := atFt (2 ^ 40) (up (st [(O.LaneState, 2)] [])); let g : Nat := 0; (s.domState 4 = 2) ∧ (({ s with bd := { s.bd with grpActive := g } }).domainHeld 4 = false) ∧ (tgetD s.bd.busyAt 4 0 + us 10 ≤ s.ft .hel)) := by
  refine ⟨?_, ?_, ?_, ?_, ?_, ?_, ?_, ?_, ?_, ?_, ?_, ?_, ?_, ?_, ?_, ?_, ?_, ?_, ?_, ?_, ?_, ?_, ?_, ?_⟩ <;> decide +kernel

theorem witness_PowerUpAndResets :
  (let s : State := st [] [(O.ImageSelect, 1)]; let pu : PowerUp := pu0; let m : State := s.mramLose pu.badPages; let img : Nat × Nat := (1, 7); let ser : Nat × Nat := (9, 1); (m = s.mramLose pu.badPages) ∧ (m.provision pu = some ser) ∧ ((m.i O.TrialState ≠ 1 ∨ m.pw.trialKeep = true)) ∧ (m.imageOf pu (m.i O.ImageSelect) = some img)) ∧
  (let s : State := st [] []; let pu : PowerUp := { pu0 with provA := false, provB := false }; let m : State := s.mramLose pu.badPages; (m = s.mramLose pu.badPages) ∧ (m.provision pu = none)) ∧
  (let s : State := st [] []; let pu : PowerUp := { pu0 with imgA := none, imgB := none }; let m : State := s.mramLose pu.badPages; (m = s.mramLose pu.badPages) ∧ (m.imageOf pu 0 = none ∧ m.imageOf pu 1 = none) ∧ (m.i O.ImageSelect < 2)) ∧
  (let s : State := st [] []; let pu : PowerUp := { pu0 with imgA := none }; let m : State := s.mramLose pu.badPages; let img : Nat × Nat := (1, 7); let ser : Nat × Nat := (9, 1); (m = s.mramLose pu.badPages) ∧ (m.provision pu = some ser) ∧ ((m.i O.TrialState ≠ 1 ∨ m.pw.trialKeep = true)) ∧ (m.imageOf pu (m.i O.ImageSelect) = none) ∧ (m.imageOf pu (1 - m.i O.ImageSelect) = some img)) ∧
  (let s : State := (fun s => { s with pw := { s.pw with trialKeep := true } }) (st [] [(O.ImageSelect, 1), (O.TrialState, 1)]); let pu : PowerUp := pu0; let m : State := s.mramLose pu.badPages; let img : Nat × Nat := (1, 7); let ser : Nat × Nat := (9, 1); (m = s.mramLose pu.badPages) ∧ (m.provision pu = some ser) ∧ (m.pw.trialKeep = true) ∧ (m.imageOf pu (m.i O.ImageSelect) = some img)) ∧
  (let s : State := st [] [(O.OhSeconds, 77)]; let volt : Nat := 3950; True) ∧
  (let s : State := (fun s => { s with pk := { s.pk with inputLow := true } }) (st [] []); let volt : Nat := 4200; True) ∧
  (let s : State := st [(O.SlotNumber, 3)] [(O.ImageSelect, 1), (O.PortUse, 2)]; True) ∧
  (let s : State := st [] []; let q : Req := qs; let gid : Nat := 9; let pu : PowerUp := pu0; (s.pw.phase ≠ 4)) ∧
  (let s : State := (fun s => { s with pw := { s.pw with phase := 4 } }) (st [] []); let q : Req := qs; let gid : Nat := 9; let pu : PowerUp := pu0; let m : State := s.mramLose pu.badPages; let img : Nat × Nat := (1, 7); let ser : Nat × Nat := (9, 1); (s.pw.phase = 4) ∧ (m = s.mramLose pu.badPages) ∧ (m.provision pu = some ser) ∧ ((m.i O.TrialState ≠ 1 ∨ m.pw.trialKeep = true)) ∧ (m.imageOf pu (m.i O.ImageSelect) = some img)) ∧
  (let s : State := st [] [(O.DeviceGid, 33554437)]; let q : Req := qm; let gid : Nat := 33554437; let pu : PowerUp := pu0; let m : State := s.mramLose pu.badPages; let img : Nat × Nat := (1, 7); let ser : Nat × Nat := (9, 1); (s.Accepts q O.ColdReset gid) ∧ (gid = s.iGid) ∧ (m = s.mramLose pu.badPages) ∧ (m.provision pu = some ser) ∧ ((m.i O.TrialState ≠ 1 ∨ m.pw.trialKeep = true)) ∧ (m.imageOf pu (m.i O.ImageSelect) = some img)) ∧
  (let s : State := (fun s => { s with pk := { s.pk with use := [(8, 2)] } }) (st [] [(O.DeviceGid, 33554437), (O.RoleActive, 2), (O.TwinState, 2)]); let q : Req := qm; let gid : Nat := 33554437; let p : Nat := 8; let pu : PowerUp := pu0; (s.Accepts q O.ColdReset gid) ∧ (gid = s.iGid) ∧ (s.portOf 2 = some p) ∧ (s.pk.dark_ = false) ∧ (s.waveLit p 0 = true)) ∧
  (let s : State := st [] [(O.DeviceGid, 33554437)]; let q : Req := qm; let gid : Nat := 33554438; let pu : PowerUp := pu0; (s.Accepts q O.ColdReset gid) ∧ (gid ≠ s.iGid)) ∧
  (let s : State := st [] [(O.DeviceGid, 33554437), (O.MeasEpoch, 8)]; let q : Req := qm; let gid : Nat := 33554437; let pu : PowerUp := pu0; let img : Nat × Nat := (1, 7); let ser : Nat × Nat := (9, 1); (s.Accepts q O.WarmReset gid) ∧ (gid = s.iGid) ∧ (s.i O.TrialState ≠ 1) ∧ (s.imageOf pu (s.i O.ImageSelect) = some img)) ∧
  (let s : State := st [] [(O.DeviceGid, 33554437), (O.TrialState, 1)]; let q : Req := qm; let gid : Nat := 33554437; let pu : PowerUp := pu0; let img : Nat × Nat := (1, 7); (s.Accepts q O.WarmReset gid) ∧ (gid = s.iGid) ∧ (s.i O.TrialState = 1) ∧ (s.pw.trialKeep = false) ∧ (s.imageOf pu (1 - s.i O.ImageSelect % 2) = some img)) ∧
  (let s : State := st [] [(O.DeviceGid, 33554437)]; let q : Req := qm; let gid : Nat := 33554438; let pu : PowerUp := pu0; (s.Accepts q O.WarmReset gid) ∧ (gid ≠ s.iGid)) ∧
  (let s : State := (fun s => { s with pk := { s.pk with use := [(8, 2)] } }) (st [] [(O.DeviceGid, 33554437), (O.RoleActive, 2), (O.TwinState, 2)]); let q : Req := qm; let gid : Nat := 33554437; let p : Nat := 8; let pu : PowerUp := pu0; (s.Accepts q O.WarmReset gid) ∧ (gid = s.iGid) ∧ (s.portOf 2 = some p) ∧ (s.pk.dark_ = false) ∧ (s.waveLit p 0 = true)) ∧
  (let s : State := st [] []; let pu : PowerUp := pu0; let img : Nat × Nat := (1, 7); let ser : Nat × Nat := (9, 1); (s.i O.TrialState ≠ 1) ∧ (s.imageOf pu (s.i O.ImageSelect) = some img)) ∧
  (let s : State := st [] []; let n : Nat := 5; let pu : PowerUp := pu0; (0 < n ∧ n < 15)) ∧
  (let s : State := st [] []; let pu : PowerUp := pu0; True) ∧
  (let s : State := st [] []; let q : Req := qm; let v : Nat := 84 * 2 ^ 32; (s.Accepts q O.DomainReset v) ∧ (96 ≤ bits v 32 7 ∨ domainFixed (bits v 32 7) = true)) ∧
  (let s : State := st [] []; let q : Req := qm; let v : Nat := 60 * 2 ^ 32; (s.Accepts q O.DomainReset v) ∧ (bits v 0 32 = 0) ∧ (52 ≤ bits v 32 7 ∧ bits v 32 7 ≤ 75)) ∧
  (let s : State := st [] [(O.DeviceGid, 33554437)]; let q : Req := qm; let v : Nat := 81 * 2 ^ 32 + 33554437; (s.Accepts q O.DomainReset v) ∧ (bits v 0 32 ≠ 0 ∧ bits v 0 32 = s.iGid) ∧ (domainFixed (bits v 32 7) = false ∧ bits v 32 7 < 96)) ∧
  (let s : State := atFt (2 ^ 40) ((fun s => { s with pk := { s.pk with domOn := [2, 55] } }) (st [] [])); let d : Nat := 55; (onDemand d = true) ∧ (d ∈ s.pk.domOn) ∧ (s.domainBusy d = false) ∧ (tgetD s.pk.domWork d 0 + ms 1 ≤ s.ft .icd)) ∧
  (let s : State := st [] []; let d : Nat := 3; (onDemand d = false ∨ s.domainBusy d = true ∨ s.ft .icd < tgetD s.pk.domWork d 0 + ms 1)) ∧
  (let s : State := st [] []; let q : Req := qm; let v : Nat := 1; (s.Accepts q O.InitDone v) ∧ (v ≠ 1 ∨ s.pw.initDone = true ∨ s.pw.phase ≠ 2)) ∧
  (let s : State := (fun s => { s with pw := { s.pw with phase := 2, stackBad := true } }) (st [] []); let q : Req := qm; (s.Accepts q O.InitDone 1) ∧ (s.pw.initDone = false ∧ s.pw.phase = 2) ∧ (s.pw.stackBad = true)) ∧
  (let s : State := (fun s => { s with pw := { s.pw with phase := 2, rouseOwed := [], atCold := [(O.IcdonRole, 2)] } }) (st [] [(O.IcdonRole, 2)]); let q : Req := qm; (s.Accepts q O.InitDone 1) ∧ (s.pw.initDone = false ∧ s.pw.phase = 2) ∧ (s.pw.stackBad = false) ∧ (s.pw.warm = false) ∧ (s.coldVal O.IcdonRole ≠ 0)) ∧
  (let s : State := (fun s => { s with pw := { s.pw with phase := 2 } }) (st [] []); let q : Req := qm; (s.Accepts q O.InitDone 1) ∧ (s.pw.initDone = false ∧ s.pw.phase = 2) ∧ (s.pw.stackBad = false) ∧ (s.pw.warm = false) ∧ (s.i O.IcdonRole = 0)) ∧
  (let s : State := (fun s => { s with pw := { s.pw with phase := 1 } }) (st [] [(O.RecoveryOffset, 2 ^ 32 - 128)]); let port : Nat := 1; let data : List Nat := List.replicate 128 5; (s.pw.phase = 1) ∧ (data.length = 128)) ∧
  (let s : State := st [] []; let port : Nat := 1; let data : List Nat := [1]; (s.pw.phase ≠ 1)) ∧
  (let s : State := (fun s => { s with pw := { s.pw with phase := 1 } }) (st [] []); let port : Nat := 1; let kind : Nat := 3; let a : Bool := true; let b : Bool := true; let pu : PowerUp := pu0; (s.pw.phase ≠ 1 ∨ (kind ≠ 1 ∧ kind ≠ 2))) ∧
  (let s : State := (fun s => { s with pw := { s.pw with phase := 1 } }) (st [] []); let port : Nat := 1; let kind : Nat := 2; let a : Bool := true; let b : Bool := false; let pu : PowerUp := pu0; (s.pw.phase = 1 ∧ (kind = 1 ∨ kind = 2)) ∧ (a = false ∨ b = false)) ∧
  (let s : State := (fun s => { s with pw := { s.pw with phase := 1 } }) (st [] []); let port : Nat := 1; let pu : PowerUp := pu0; let img : Nat × Nat := (1, 7); let ser : Nat × Nat := (9, 1); (s.pw.phase = 1) ∧ (pu.badPages = []) ∧ (((s.recordOf pu (1 - s.i O.ImageSelect % 2)).or (s.recordOf pu (s.i O.ImageSelect % 2))) = some ser) ∧ (s.i O.TrialState ≠ 1) ∧ (pu.badStack = none) ∧ (pu.cxl = 0)) := by
  refine ⟨?_, ?_, ?_, ?_, ?_, ?_, ?_, ?_, ?_, ?_, ?_, ?_, ?_, ?_, ?_, ?_, ?_, ?_, ?_, ?_, ?_, ?_, ?_, ?_, ?_, ?_, ?_, ?_, ?_, ?_, ?_, ?_, ?_, ?_⟩ <;> decide +kernel

theorem witness_FirmwareAndRouse :
  (let s : State := st [] [(O.StageLength, 4096)]; let q : Req := qm; let v : Nat := 1; let im : List Nat := [7]; let b : Bool := true; (s.Accepts q O.StageStart v) ∧ (s.pw.staging = none) ∧ (4096 ≤ s.i O.StageLength) ∧ (bit (s.i O.StageSource) 63 = false)) ∧
  (let s : State := st [] [(O.StageLength, 4096), (O.StageSource, 2 ^ 63 + 900 * 2 ^ 30)]; let q : Req := qm; let v : Nat := 1; let a : Nat := 900 * 2 ^ 30; let im : List Nat := []; let bs : List Nat := List.replicate 4096 0; let b : Bool := true; (s.Accepts q O.StageStart v) ∧ (s.pw.staging = none) ∧ (4096 ≤ s.i O.StageLength) ∧ (s.i O.StageSource = 2 ^ 63 + a) ∧ (a < 2 ^ 63) ∧ (s.inRegion [12] a (s.i O.StageLength) = true) ∧ (s.me.poison = []) ∧ (s.me.ce = []) ∧ (bs = s.t1Read a (s.i O.StageLength))) ∧
  (let s : State := st [] [(O.StageLength, 4096), (O.StageSource, 2 ^ 63)]; let q : Req := qm; let v : Nat := 1; let im : List Nat := []; let b : Bool := true; (s.Accepts q O.StageStart v) ∧ (s.pw.staging = none) ∧ (4096 ≤ s.i O.StageLength) ∧ (((bit (s.i O.StageSource) 63 = true ∧ s.inRegion [12] (s.i O.StageSource % 2 ^ 63) (s.i O.StageLength) = false) ∨ (bit (s.i O.StageSource) 63 = false ∧ (b = false ∨ (sigBlock (im.take (s.i O.StageLength))).getD 0 0 ≠ 1 ∨ bit (s.i (O.SignerKinds + (sigBlock (im.take (s.i O.StageLength))).getD 1 0)) 7 = false ∨ bit (s.i (O.SignerKinds + (sigBlock (im.take (s.i O.StageLength))).getD 1 0)) 0 = false))))) ∧
  (let s : State := st [] [(O.StageLength, 4095)]; let q : Req := qm; let v : Nat := 1; let im : List Nat := []; let b : Bool := true; (s.Accepts q O.StageStart v) ∧ ((s.pw.staging ≠ none ∨ s.i O.StageLength < 4096))) ∧
  (let s : State := (fun s => { s with pw := { s.pw with staging := some (true, 4, 5) } }) (st [] []); let ok_ : Bool := true; let fl : Bool := true; let v : Nat := 4; let d : Nat := 5; (s.pw.staging = some (ok_, v, d))) ∧
  (let s : State := st [] []; let fl : Bool := true; (s.pw.staging = none)) ∧
  (let s : State := st [] [(O.DeviceGid, 33554437)]; let q : Req := qm; let g : Nat := 33554437; (s.Accepts q O.FwActivate g) ∧ (g = s.iGid) ∧ ((s.i O.StageStatus ≠ 3 ∨ s.pw.switching = true ∨ s.pw.switchAt ≠ none ∨ ¬((s.i O.TwinState = 2 ∧ s.tw.twinState = 3) ∨ (s.i O.TwinState = 3 ∧ (s.tw.twinState = 2 ∨ s.tw.twinState = 6)) ∨ (s.i O.TwinState = 6 ∧ s.tw.twinState = 3))))) ∧
  (let s : State := (fun s => { s with tw := { s.tw with twinState := 2 }, tm := { s.tm with xlinkUp := true } }) (st [] [(O.DeviceGid, 33554437), (O.StageStatus, 3), (O.TwinState, 3)]); let q : Req := qm; let g : Nat := 33554437; (s.Accepts q O.FwActivate g) ∧ (g = s.iGid) ∧ (s.i O.StageStatus = 3) ∧ (s.pw.switching = false ∧ s.pw.switchAt = none) ∧ (s.i O.TwinState = 3) ∧ (s.tw.twinState = 2 ∨ s.tw.twinState = 6)) ∧
  (let s : State := (fun s => { s with tw := { s.tw with twinState := 3 }, tm := { s.tm with xlinkUp := true } }) (st [] [(O.DeviceGid, 33554437), (O.StageStatus, 3), (O.TwinState, 2)]); let q : Req := qm; let g : Nat := 33554437; (s.Accepts q O.FwActivate g) ∧ (g = s.iGid) ∧ (s.i O.StageStatus = 3) ∧ (s.pw.switching = false ∧ s.pw.switchAt = none) ∧ (s.i O.TwinState = 2 ∨ s.i O.TwinState = 6) ∧ (s.tw.twinState = 3)) ∧
  (let s : State := (fun s => { s with tw := { s.tw with twinState := 2 }, tm := { s.tm with xlinkUp := true } }) (st [] [(O.DeviceGid, 33554437), (O.RoleActive, 2), (O.StageStatus, 3), (O.TwinState, 3)]); let p : Nat := 4; let e : WriteEnv := env0; (s.i O.TwinState = 3) ∧ ((s.tw.twinState = 2 ∨ s.tw.twinState = 6)) ∧ (s.mo.pos ≤ p) ∧ (s.i O.StageStatus = 3) ∧ (s.pw.switching = false ∧ s.pw.switchAt = none)) ∧
  (let s : State := st [] [(O.DeviceGid, 33554437)]; let q : Req := qm; let g : Nat := 33554438; (s.Accepts q O.FwActivate g) ∧ (g ≠ s.iGid)) ∧
  (let s : State := st [] []; (s.pw.switchAt = none)) ∧
  (let s : State := (fun s => { s with pw := { s.pw with switchAt := some (2 ^ 41) } }) (atFt (2 ^ 40) (st [] [])); let b : Nat := 2 ^ 41; (s.pw.switchAt = some b) ∧ (s.ft .icd < b)) ∧
  (let s : State := (fun s => { s with pw := { s.pw with switchAt := some (2 ^ 39) } }) (atFt (2 ^ 40) (st [] [(O.TwinState, 2)])); (s.isLead = true)) ∧
  (let s : State := (fun s => { s with pw := { s.pw with switchAt := some (2 ^ 39) } }) (atFt (2 ^ 40) (st [] [(O.TwinState, 3)])); let b : Nat := 2 ^ 39; (s.pw.switchAt = some b) ∧ (b ≤ s.ft .icd) ∧ (s.isLead = false)) ∧
  (let s : State := st [] []; (s.pw.switching = false)) ∧
  (let s : State := (fun s => { s with pw := { s.pw with switching := true, staged := some (4, 5), imgs := [(1, (4, 5))] } }) (st [] [(O.FirmwareVersion, 3), (O.StageStatus, 3), (O.ImageSelect, 1)]); let v : Nat := 4; let d : Nat := 5; (s.pw.switching = true) ∧ (s.tw.silent.contains xLinkNo = false) ∧ (s.pw.reverting = false) ∧ (tget s.pw.imgs (s.i O.ImageSelect) = some (v, d))) ∧
  (let s : State := (fun s => { s with pw := { s.pw with switching := true, reverting := true, prevImg := some (4, 5) } }) (st [] [(O.FirmwareVersion, 3), (O.TrialState, 1)]); let p : Nat × Nat := (4, 5); (s.pw.switching = true) ∧ (s.tw.silent.contains xLinkNo = false) ∧ (s.pw.reverting = true) ∧ (s.pw.prevImg = some p)) ∧
  (let s : State := (fun s => { s with pw := { s.pw with switching := true, staged := some (4, 5), imgs := [(1, (4, 5))] }, tw := { s.tw with silent := [xLinkNo] } }) (st [] [(O.TwinState, 4), (O.FirmwareVersion, 3), (O.StageStatus, 3), (O.ImageSelect, 1)]); let v : Nat := 4; let d : Nat := 5; (s.pw.switching = true) ∧ (s.pw.reverting = false) ∧ (tget s.pw.imgs (s.i O.ImageSelect) = some (v, d)) ∧ (s.tw.silent.contains xLinkNo = true) ∧ (s.i O.TwinState = 4)) ∧
  (let s : State := (fun s => { s with pw := { s.pw with trialFrom := some 5, prevImg := some (4, 5) } }) (st [] [(O.DeviceGid, 33554437), (O.TrialState, 1)]); let q : Req := qm; let g : Nat := 33554437; (s.Accepts q O.ImageConfirm g) ∧ (g = s.iGid)) ∧
  (let s : State := st [] [(O.DeviceGid, 33554437)]; let q : Req := qm; let g : Nat := 33554438; (s.Accepts q O.ImageConfirm g) ∧ (g ≠ s.iGid)) ∧
  (let s : State := st [] []; (s.pw.trialFrom = none)) ∧
  (let s : State := (fun s => { s with pw := { s.pw with trialFrom := some 5 } }) (st [] [(O.ConfirmTimeout, 600)]); let n : Nat := 5; (s.pw.trialFrom = some n) ∧ (s.ft .icd < n + s.i O.ConfirmTimeout * ns 1000000000)) ∧
  (let s : State := (fun s => { s with pw := { s.pw with trialFrom := some 5 } }) (atFt (2 ^ 60) (st [] [(O.ConfirmTimeout, 600)])); let n : Nat := 5; (s.pw.trialFrom = some n) ∧ (n + s.i O.ConfirmTimeout * ns 1000000000 ≤ s.ft .icd)) ∧
  (let s : State := st [] []; let q : Req := qm; let n : Nat := 15; let v : Nat := 6; let cr : Nat := 2; (n < 16) ∧ (s.Accepts q (inst O.RouseConfig n) v) ∧ (bits v 5 3 ≠ 0 ∨ bits v 12 4 ≠ 0 ∨ bits v 49 15 ≠ 0 ∨ 5 < bits v 0 4 ∨ 16 < bits v 44 5)) ∧
  (let s : State := st [] []; let q : Req := qm; let n : Nat := 15; let v : Nat := 17; let cr : Nat := 2; (n < 16) ∧ (s.Accepts q (inst O.RouseConfig n) v) ∧ (bit v 4 = true) ∧ (s.partState (bits v 16 16) ≠ partTest ∨ s.partMember (bits v 16 16) (s.rouseDie n) = false ∨ s.dieInActive (s.rouseDie n) = true)) ∧
  (let s : State := st [] [(inst O.RouseConfig 15, 18)]; let q : Req := qm; let n : Nat := 15; let v : Nat := 2; let cr : Nat := 2; (n < 16) ∧ (s.Accepts q (inst O.RouseConfig n) v) ∧ (bit v 4 = false) ∧ (bits v 5 3 = 0 ∧ bits v 12 4 = 0 ∧ bits v 49 15 = 0 ∧ bits v 0 4 ≤ 5 ∧ bits v 44 5 ≤ 16)) ∧
  (let s : State := (fun s => { s with tw := { s.tw with parts := [(7, ⟨3, 1, true, [(1, 2 ^ 21)], 1, [], 0, [], 0⟩)] } }) (st [] [(inst O.RouseTarget 15, 16777301)]); let q : Req := qm; let n : Nat := 15; let v : Nat := 7 * 2 ^ 16 + 18; let cr : Nat := 2; (n < 16) ∧ (s.Accepts q (inst O.RouseConfig n) v) ∧ (bit v 4 = true) ∧ (bits v 5 3 = 0 ∧ bits v 12 4 = 0 ∧ bits v 49 15 = 0 ∧ bits v 0 4 ≤ 5 ∧ bits v 44 5 ≤ 16) ∧ (s.partState (bits v 16 16) = partTest ∧ s.partMember (bits v 16 16) (s.rouseDie n) = true ∧ s.dieInActive (s.rouseDie n) = false)) := by
  refine ⟨?_, ?_, ?_, ?_, ?_, ?_, ?_, ?_, ?_, ?_, ?_, ?_, ?_, ?_, ?_, ?_, ?_, ?_, ?_, ?_, ?_, ?_, ?_, ?_, ?_, ?_, ?_, ?_⟩ <;> decide +kernel

theorem witness_ManagementAccess :
  (let k : Nat := 0x200100 + 1; (k < 2 ^ 24)) ∧
  (let k : Nat := 0x200100; (keySub k = 0) ∧ (subTop objTable (keyIdx k) ≠ 0)) ∧
  (let s : State := st [] []; let q : Req := qr; let gid : Nat := 0; True) ∧
  (let s : State := st [] [(O.TwinState, 2), (O.RoleActive, 1)]; let q : Req := qr; let gid : Nat := 0; let n : Nat := 1; let l : List Item := [⟨O.DeviceGid, 3, 4, 0⟩]; (s.here gid = true) ∧ (q.who = .ring n) ∧ (s.isLead = true) ∧ (∀ it, it ∈ l → s.itemWhy .icd q false false it = none)) ∧
  (let s : State := st [] []; let q : Req := qr; let gid : Nat := 0; let tm : Option Nat := none; let env : WriteEnv := env0; True) ∧
  (let s : State := st [] []; let q : Req := qs; let gid : Nat := 0; let it : Item := ⟨O.ProxyTimeout, 3, 4, 500⟩; let env : WriteEnv := env0; (s.here gid = true) ∧ (s.itemWhy .icd q true false it = none) ∧ (s.twinReach it.key = true ∧ s.observeBlocks q = false ∧ s.forwards it.key = false) ∧ (State.icdonOpA it.key it.val env = none ∧ State.icdonOpB it.key it.val = none ∧ State.icdonOpC q it.key it.val env = none) ∧ (s.icdonBad it.key it.val = none) ∧ (env.mramFail = false) ∧ (it.key ∉ [O.GracePerLevel, O.ResultBudget, O.SupplementHold, O.PartitionQuery] ∧ keyIdx it.key ≠ 0x2001) ∧ (q.who ≠ .pf ∧ (∀ j, j < 4 → q.who ≠ .core j))) ∧
  (let s : State := st [] []; let q : Req := qs; let u : Side := .icd; let k : Nat := O.TraceEnable; let v : Nat := 1; let env : WriteEnv := env0; (holds u k = false)) ∧
  (let s : State := st [] []; let q : Req := qs; let k : Nat := O.ProxyTimeout; let v : Nat := 500; let env : WriteEnv := env0; (holds .icd k = true) ∧ (s.Accepts q k v) ∧ (State.icdonOpA k v env = none ∧ State.icdonOpB k v = none ∧ State.icdonOpC q k v env = none) ∧ (s.icdonBad k v = none) ∧ (env.mramFail = false) ∧ (k ∉ [O.GracePerLevel, O.ResultBudget, O.SupplementHold, O.PartitionQuery] ∧ keyIdx k ≠ 0x2001)) ∧
  (let s : State := st [] []; let q : Req := qm; let k : Nat := O.LinkWidth; let v : Nat := 3; let env : WriteEnv := env0; let r : Res := no stRange; (holds .icd k = true) ∧ (s.Accepts q k v) ∧ (State.icdonOpA k v env = none ∧ State.icdonOpB k v = none ∧ State.icdonOpC q k v env = none) ∧ (s.icdonBad k v = some r) ∧ (r.st ≠ 0)) ∧
  (let s : State := stp [] []; let q : Req := qm; let k : Nat := O.RetuneSettle; let v : Nat := 150; let env : WriteEnv := env0; (holds .hel k = true) ∧ (s.AcceptsProxy q k v) ∧ (s.heladBad k v = false) ∧ (¬(0x3000 ≤ keyIdx k ∧ keyIdx k ≤ 0x301F) ∧ keyIdx k ∉ [0x305C, 0x4E10, 0x4E11, 0x4E04, 0x4E05, 0x3400] ∧ k ∉ [O.SetCommit, O.ActionCancel, O.TraceCadence, O.SeqControl, O.PitchDuty, O.TraceEnable]) ∧ (¬(0x2100 ≤ keyIdx k ∧ keyIdx k ≤ 0x2103 ∧ keySub k = 1))) ∧
  (let s : State := st [] []; let q : Req := qs; let k : Nat := O.DeviceGid; (wideBlock q = none ∨ holds .icd k = false ∨ s.readRight q k ≠ none)) ∧
  (let s : State := st [] []; let q : Req := { qs with who := .pf }; let k : Nat := O.DeviceGid; (q.who = .pf) ∧ (holds .icd k = true) ∧ (s.readRight q k = none)) ∧
  (let s : State := st [] []; let q : Req := { qs with who := .core 3 }; let k : Nat := O.DeviceGid; let n : Nat := 3; (q.who = .core n) ∧ (holds .icd k = true) ∧ (s.readRight q k = none)) ∧
  (let s : State := st [] []; let q : Req := qs; let k : Nat := O.DeviceGid; let lo : Nat := 1; let hi : Nat := 2; let env : WriteEnv := env0; (wideBlock q = none ∨ holds .icd k = false)) ∧
  (let s : State := st [] []; let q : Req := { qs with who := .core 2 }; let k : Nat := O.PfRingTable; let lo : Nat := 4096; let hi : Nat := 7; let v : Nat := 7 * 2 ^ 32 + 4096; let env : WriteEnv := env0; let n : Nat := 64; ((wideBlock q).isSome = true) ∧ (holds .icd k = true) ∧ ((objSpec k).map (·.bits) = some n ∧ v = (lo + hi * 2 ^ 32) % 2 ^ n) ∧ (s.Accepts q k v) ∧ (State.icdonOpA k v env = none ∧ State.icdonOpB k v = none ∧ State.icdonOpC q k v env = none) ∧ (s.icdonBad k v = none) ∧ (env.mramFail = false) ∧ (k ∉ [O.GracePerLevel, O.ResultBudget, O.SupplementHold, O.PartitionQuery] ∧ keyIdx k ≠ 0x2001)) ∧
  (let s : State := (fun s => { s with bd := { s.bd with gid := 16777301, hmainReset := true } }) (stp [] []); let id : Nat := 6; let gid : Nat := 16777301; let r : Role := .op; let wr : Bool := false; let tm : Option Nat := none; let l : List Item := [⟨O.FtState, 1, 1, 0⟩]; let env : WriteEnv := env0; let a : List (Nat × Nat × Nat) := []; (gid = s.hGid ∧ gid ≠ 0) ∧ (s.heladReset = true ∨ s.h O.LaneState = 4)) ∧
  (let s : State := (fun s => { s with bd := { s.bd with gid := 16777301 } }) (stp [] []); let id : Nat := 6; let gid : Nat := 16777301; let r : Role := .op; let k : Nat := O.FtState; let ty : Nat := 1; let sz : Nat := 1; let x : Nat := 0; let env : WriteEnv := env0; let a : List (Nat × Nat × Nat) := []; (gid = s.hGid ∧ gid ≠ 0) ∧ (s.heladReset = false ∧ s.h O.LaneState ≠ 4) ∧ (tget s.mo.proxies id = none) ∧ (holds .hel k = true) ∧ (k ≠ O.FtNow ∧ k ≠ O.RtNow)) ∧
  (let s : State := (fun s => { s with bd := { s.bd with gid := 16777301 } }) (stp [] []); let id : Nat := 6; let gid : Nat := 16777301; let r : Role := .op; let k : Nat := O.RetuneSettle; let ty : Nat := 2; let sz : Nat := 2; let v : Nat := 150; let env : WriteEnv := env0; let a : List (Nat × Nat × Nat) := []; (gid = s.hGid ∧ gid ≠ 0) ∧ (s.heladReset = false ∧ s.h O.LaneState ≠ 4) ∧ (tget s.mo.proxies id = none) ∧ (holds .hel k = true) ∧ (trayOnly k = false) ∧ (s.heladBad k v = false) ∧ (¬(0x3000 ≤ keyIdx k ∧ keyIdx k ≤ 0x301F) ∧ keyIdx k ∉ [0x305C, 0x4E10, 0x4E11, 0x4E04, 0x4E05, 0x3400] ∧ k ∉ [O.SetCommit, O.ActionCancel, O.TraceCadence, O.SeqControl, O.PitchDuty, O.TraceEnable]) ∧ (¬(0x2100 ≤ keyIdx k ∧ keyIdx k ≤ 0x2103 ∧ keySub k = 1))) ∧
  (let s : State := (fun s => { s with mo := { s.mo with proxies := [(6, ⟨qs, false, false, [], [], none, env0, 0, false, [9], 0, 0, 0, 1, false⟩)] } }) (stp [] []); let id : Nat := 6; let gid : Nat := 10; let r : Role := .op; let wr : Bool := false; let tm : Option Nat := none; let l : List Item := []; let env : WriteEnv := env0; let a : List (Nat × Nat × Nat) := []; let p : Proxy := ⟨qs, false, false, [], [], none, env0, 0, false, [9], 0, 0, 0, 1, false⟩; (tget s.mo.proxies id = some p) ∧ (gid ∉ p.left)) ∧
  (let s : State := (fun s => { s with bd := { s.bd with gid := 16777301 }, mo := { s.mo with proxies := [(6, ⟨qs, false, true, [⟨O.ReadBudget, 2, 2, 300⟩, ⟨O.LaneWeight, 1, 1, 7⟩], [(0, 0, 0), (0, 0, 0)], none, env0, 0, false, [16777301], 0, 0, 0, 1, true⟩)] } }) (stp [] []); let id : Nat := 6; let gid : Nat := 16777301; let x : Nat := 0; let v : Nat := 300; let w : Nat := 7; let q : Req := qs; let env : WriteEnv := env0; let f : WriteEnv := env0; let a : List (Nat × Nat × Nat) := []; let p : Proxy := ⟨qs, false, true, [⟨O.ReadBudget, 2, 2, 300⟩, ⟨O.LaneWeight, 1, 1, 7⟩], [(0, 0, 0), (0, 0, 0)], none, env0, 0, false, [16777301], 0, 0, 0, 1, true⟩; (gid = s.hGid ∧ gid ≠ 0) ∧ (s.heladReset = false ∧ s.h O.LaneState ≠ 4) ∧ (p = ⟨q, false, true, [⟨O.ReadBudget, 2, 2, v⟩, ⟨O.LaneWeight, 1, 1, w⟩], [(0, 0, 0), (0, 0, 0)], none, f, x, false, [gid], 0, 0, 0, 1, true⟩) ∧ (tget s.mo.proxies id = some p) ∧ (s.heladBad O.LaneWeight w = true)) ∧
  (let s : State := (fun s => { s with mo := { s.mo with proxies := [(6, ⟨qs, false, false, [], [], none, env0, 2 ^ 50, false, [9], 0, 0, 0, 1, false⟩)] } }) (stp [] []); let id : Nat := 6; let p : Proxy := ⟨qs, false, false, [], [], none, env0, 2 ^ 50, false, [9], 0, 0, 0, 1, false⟩; (tget s.mo.proxies id = some p) ∧ (s.ft .icd < p.since + ms (s.i O.ProxyTimeout))) ∧
  (let s : State := (fun s => { s with mo := { s.mo with sessions := [(5, ⟨4, .op, 0, 0, [], 0, [(3, 2 ^ 39, [3, 0])]⟩)], proxies := [(6, ⟨⟨.op, 0, .session 5, 7⟩, false, true, [⟨5, 1, 1, 1⟩], [(0, 0, 0)], none, env0, 0, false, [9], 0, 0, 0, 1, false⟩)] } }) (atFt (2 ^ 50) (stp [] [])); let id : Nat := 6; let n : Nat := 5; let se : Session := ⟨4, .op, 0, 0, [], 0, [(3, 2 ^ 39, [3, 0])]⟩; let p : Proxy := ⟨⟨.op, 0, .session 5, 7⟩, false, true, [⟨5, 1, 1, 1⟩], [(0, 0, 0)], none, env0, 0, false, [9], 0, 0, 0, 1, false⟩; (tget s.mo.proxies id = some p) ∧ (p.since + ms (s.i O.ProxyTimeout) ≤ s.ft .icd) ∧ (p.below = false ∧ p.desc = false ∧ p.write = true ∧ p.req.who = .session n) ∧ (tget s.mo.sessions n = some se)) ∧
  (let s : State := st [] []; let id : Nat := 6; (tget s.mo.proxies id = none)) ∧
  (let s : State := (fun s => { s with pw := { s.pw with phase := 1 } }) (st [] []); let h : MopHdr := ⟨5, 1, false, none, false, 0, 4, 0⟩; let l : List Item := [⟨O.FirmwareVersion, 3, 4, 0⟩]; (s.pw.phase = 1) ∧ (tget s.mo.sessions h.sess = none) ∧ (h.ver = 1 ∧ h.rsv = 0 ∧ h.below = false ∧ h.timed = none) ∧ (s.here h.gid = true) ∧ ((∀ it, it ∈ l → keyIdx it.key = 0x1000 ∧ 1 ≤ keySub it.key ∧ keySub it.key ≤ 6 ∧ s.itemWhy .icd ⟨.mt, 0, .device 0, h.tag⟩ false false it = none))) ∧
  (let s : State := (fun s => { s with pw := { s.pw with phase := 1 } }) (st [] []); let h : MopHdr := ⟨5, 1, false, none, false, 0, 4, 0⟩; let l : List Item := [⟨O.DeviceGid, 3, 4, 0⟩, ⟨O.PowerLimit, 2, 2, 0⟩]; (s.pw.phase = 1) ∧ (tget s.mo.sessions h.sess = none) ∧ (h.ver = 1 ∧ h.rsv = 0 ∧ h.below = false ∧ h.timed = none) ∧ ((∃ it, it ∈ l ∧ keyIdx it.key ≠ 0x1000))) ∧
  (let s : State := (fun s => { s with pw := { s.pw with phase := 1 } }) (st [] []); let h : MopHdr := ⟨5, 1, false, none, false, 0, 4, 0⟩; let v : Nat := 128; let env : WriteEnv := env0; (s.pw.phase = 1) ∧ (tget s.mo.sessions h.sess = none) ∧ (h.ver = 1 ∧ h.rsv = 0 ∧ h.below = false ∧ h.timed = none) ∧ (s.here h.gid = true) ∧ (v < 2 ^ 32)) ∧
  (let s : State := (fun s => { s with mo := { s.mo with sessions := [(5, ⟨4, .op, 0, 0, [], 0, [(3, 2 ^ 39, [3, 0])]⟩)] } }) (atFt (2 ^ 50) (st [] [])); let h : MopHdr := ⟨5, 1, false, none, false, 0, 3, 0⟩; let l : List Item := [⟨O.DeviceGid, 3, 4, 0⟩]; let se : Session := ⟨4, .op, 0, 0, [], 0, [(3, 2 ^ 39, [3, 0])]⟩; (s.pw.switching = false) ∧ (tget s.mo.sessions h.sess = some se) ∧ ((se.tags.find? fun x => x.1 == h.tag && decide (s.ft .icd < x.2.1 + ms 1000)) = none) ∧ (s.sessionBusy h.sess < 16) ∧ (h.ver = 1 ∧ h.rsv = 0 ∧ h.below = false ∧ h.timed = none) ∧ (s.here h.gid = true) ∧ (∀ it, it ∈ l → s.itemWhy .icd ⟨se.role, se.part, .session h.sess, h.tag⟩ false false it = none)) ∧
  (let s : State := (fun s => { s with pw := { s.pw with switching := true } }) ((fun s => { s with mo := { s.mo with sessions := [(5, ⟨4, .op, 0, 0, [], 0, [(3, 2 ^ 39, [3, 0])]⟩)] } }) (atFt (2 ^ 50) (st [] []))); let h : MopHdr := ⟨5, 1, false, none, false, 0, 3, 0⟩; let l : List Item := []; let env : WriteEnv := env0; let off : Nat := 0; let len : Nat := 16; let d : DescIn := .objectRead 0 []; let id : Nat := 1; let en : Bool := true; let m : Nat := 1; (s.pw.switching = true) ∧ ((tget s.mo.sessions h.sess).isSome = true)) ∧
  (let s : State := (fun s => { s with mo := { s.mo with sessions := [(5, ⟨4, .op, 0, 0, [], 0, [(3, 2 ^ 39, [3, 0])]⟩)] } }) (atFt (2 ^ 39 + 5) (st [] [])); let h : MopHdr := ⟨5, 1, false, none, false, 0, 3, 0⟩; let se : Session := ⟨4, .op, 0, 0, [], 0, [(3, 2 ^ 39, [3, 0])]⟩; let x : Nat × Nat × List Nat := (3, 2 ^ 39, [3, 0]); let l : List Item := []; let env : WriteEnv := env0; let off : Nat := 0; let len : Nat := 16; let d : DescIn := .objectRead 0 []; let id : Nat := 1; let en : Bool := true; let m : Nat := 1; (s.pw.switching = false) ∧ (tget s.mo.sessions h.sess = some se) ∧ ((se.tags.find? fun x => x.1 == h.tag && decide (s.ft .icd < x.2.1 + ms 1000)) = some x) ∧ (x.2.2 ≠ [])) ∧
  (let s : State := (fun s => { s with mo := { s.mo with sessions := [(5, ⟨4, .op, 0, 0, [], 0, [(3, 2 ^ 39, [3, 0])]⟩)] } }) (atFt (2 ^ 50) (st [] [])); let h : MopHdr := { (⟨5, 1, false, none, false, 0, 3, 0⟩ : MopHdr) with ver := 2 }; let se : Session := ⟨4, .op, 0, 0, [], 0, [(3, 2 ^ 39, [3, 0])]⟩; let l : List Item := []; let env : WriteEnv := env0; let off : Nat := 0; let len : Nat := 16; let d : DescIn := .objectRead 0 []; let id : Nat := 1; let en : Bool := true; let m : Nat := 1; (s.pw.switching = false) ∧ (tget s.mo.sessions h.sess = some se) ∧ ((se.tags.find? fun x => x.1 == h.tag && decide (s.ft .icd < x.2.1 + ms 1000)) = none) ∧ (s.sessionBusy h.sess < 16) ∧ ((h.ver ≠ 1 ∨ h.rsv ≠ 0))) ∧
  (let s : State := (fun s => { s with mo := { s.mo with sessions := [(5, ⟨4, .op, 0, 0, [], 0, [(3, 2 ^ 39, [3, 0])]⟩)] } }) (atFt (2 ^ 50) (st [] [])); let h : MopHdr := ⟨5, 1, false, none, false, 0, 3, 0⟩; let it : Item := ⟨O.ProxyTimeout, 3, 4, 500⟩; let env : WriteEnv := env0; let se : Session := ⟨4, .op, 0, 0, [], 0, [(3, 2 ^ 39, [3, 0])]⟩; let q : Req := ⟨.op, 0, .session 5, 3⟩; (s.pw.switching = false) ∧ (tget s.mo.sessions h.sess = some se) ∧ ((se.tags.find? fun x => x.1 == h.tag && decide (s.ft .icd < x.2.1 + ms 1000)) = none) ∧ (s.sessionBusy h.sess < 16) ∧ (q = ⟨se.role, se.part, .session h.sess, h.tag⟩) ∧ (h.ver = 1 ∧ h.rsv = 0 ∧ h.below = false ∧ h.timed = none) ∧ (s.here h.gid = true) ∧ (s.itemWhy .icd q true false it = none) ∧ (s.twinReach it.key = true ∧ s.observeBlocks q = false ∧ s.forwards it.key = false) ∧ (State.icdonOpA it.key it.val env = none ∧ State.icdonOpB it.key it.val = none ∧ State.icdonOpC q it.key it.val env = none) ∧ (s.icdonBad it.key it.val = none) ∧ (env.mramFail = false) ∧ (it.key ∉ [O.GracePerLevel, O.ResultBudget, O.SupplementHold, O.PartitionQuery] ∧ keyIdx it.key ≠ 0x2001)) ∧
  (let s : State := (fun s => { s with ir := { s.ir with window := [1, 2, 3] } }) ((fun s => { s with mo := { s.mo with sessions := [(5, ⟨4, .op, 0, 0, [], 0, [(3, 2 ^ 39, [3, 0])]⟩)] } }) (atFt (2 ^ 50) (st [] []))); let h : MopHdr := ⟨5, 1, false, none, false, 0, 3, 0⟩; let off : Nat := 8; let len : Nat := 16; let se : Session := ⟨4, .op, 0, 0, [], 0, [(3, 2 ^ 39, [3, 0])]⟩; (s.pw.switching = false) ∧ (tget s.mo.sessions h.sess = some se) ∧ ((se.tags.find? fun x => x.1 == h.tag && decide (s.ft .icd < x.2.1 + ms 1000)) = none) ∧ (s.sessionBusy h.sess < 16) ∧ (h.ver = 1 ∧ h.rsv = 0 ∧ h.below = false ∧ h.timed = none) ∧ (se.role ≠ .tp) ∧ (16 ≤ len ∧ len ≤ 1024 ∧ len % 16 = 0 ∧ off + len ≤ 4096)) ∧
  (let s : State := (fun s => { s with mo := { s.mo with sessions := [(5, ⟨4, .op, 0, 0, [], 0, [(3, 2 ^ 39, [3, 0])]⟩)] } }) (atFt (2 ^ 50) (st [] [])); let h : MopHdr := ⟨5, 1, false, none, false, 0, 3, 0⟩; let off : Nat := 4090; let len : Nat := 16; let se : Session := ⟨4, .op, 0, 0, [], 0, [(3, 2 ^ 39, [3, 0])]⟩; (s.pw.switching = false) ∧ (tget s.mo.sessions h.sess = some se) ∧ ((se.tags.find? fun x => x.1 == h.tag && decide (s.ft .icd < x.2.1 + ms 1000)) = none) ∧ (s.sessionBusy h.sess < 16) ∧ (h.ver = 1 ∧ h.rsv = 0) ∧ (se.role = .tp ∨ h.below = true ∨ h.timed ≠ none ∨ len < 16 ∨ 1024 < len ∨ len % 16 ≠ 0 ∨ 4096 < off + len)) ∧
  (let s : State := (fun s => { s with mo := { s.mo with sessions := [(5, ⟨4, .op, 0, 0, [], 0, [(3, 2 ^ 39, [3, 0])]⟩)] } }) (atFt (2 ^ 50) (st [] [])); let h : MopHdr := ⟨5, 1, false, none, false, 0, 3, 0⟩; let l : List Item := [⟨O.DeviceGid, 3, 4, 0⟩]; let se : Session := ⟨4, .op, 0, 0, [], 0, [(3, 2 ^ 39, [3, 0])]⟩; (s.pw.switching = false) ∧ (tget s.mo.sessions h.sess = some se) ∧ ((se.tags.find? fun x => x.1 == h.tag && decide (s.ft .icd < x.2.1 + ms 1000)) = none) ∧ (s.sessionBusy h.sess < 16) ∧ (h.ver = 1 ∧ h.rsv = 0 ∧ h.below = false ∧ h.timed = none) ∧ (s.isLead = false) ∧ (∀ it, it ∈ l → s.itemWhy .icd ⟨se.role, se.part, .session h.sess, h.tag⟩ false false it = none)) ∧
  (let s : State := (fun s => { s with mo := { s.mo with sessions := [(5, ⟨4, .op, 0, 0, [], 0, [(3, 2 ^ 39, [3, 0])]⟩)] } }) (atFt (2 ^ 50) (st [] [])); let h : MopHdr := { (⟨5, 1, false, none, false, 0, 3, 0⟩ : MopHdr) with below := true }; let d : DescIn := .broadcast [1] true; let se : Session := ⟨4, .op, 0, 0, [], 0, [(3, 2 ^ 39, [3, 0])]⟩; (s.pw.switching = false) ∧ (tget s.mo.sessions h.sess = some se) ∧ ((se.tags.find? fun x => x.1 == h.tag && decide (s.ft .icd < x.2.1 + ms 1000)) = none) ∧ (s.sessionBusy h.sess < 16) ∧ (h.ver = 1 ∧ h.rsv = 0) ∧ (h.below = true ∨ h.timed ≠ none)) ∧
  (let s : State := (fun s => { s with mo := { s.mo with sessions := [(5, ⟨4, .op, 0, 0, [], 0, [(3, 2 ^ 39, [3, 0])]⟩)] } }) (atFt (2 ^ 50) (st [] [])); let h : MopHdr := ⟨5, 1, false, none, false, 0, 3, 0⟩; let id : Nat := 3; let en : Bool := true; let m : Nat := 2 ^ 255; let se : Session := ⟨4, .op, 0, 0, [], 0, [(3, 2 ^ 39, [3, 0])]⟩; (s.pw.switching = false) ∧ (tget s.mo.sessions h.sess = some se) ∧ ((se.tags.find? fun x => x.1 == h.tag && decide (s.ft .icd < x.2.1 + ms 1000)) = none) ∧ (s.sessionBusy h.sess < 16) ∧ (h.ver = 1 ∧ h.rsv = 0 ∧ h.below = false ∧ h.timed = none) ∧ (id < 4)) ∧
  (let s : State := (fun s => { s with mo := { s.mo with sessions := [(5, ⟨4, .op, 0, 0, [], 0, [(3, 2 ^ 39, [3, 0])]⟩)] } }) (atFt (2 ^ 50) (st [] [])); let h : MopHdr := ⟨5, 1, false, none, false, 0, 3, 0⟩; let id : Nat := 4; let en : Bool := true; let m : Nat := 1; let se : Session := ⟨4, .op, 0, 0, [], 0, [(3, 2 ^ 39, [3, 0])]⟩; (s.pw.switching = false) ∧ (tget s.mo.sessions h.sess = some se) ∧ ((se.tags.find? fun x => x.1 == h.tag && decide (s.ft .icd < x.2.1 + ms 1000)) = none) ∧ (s.sessionBusy h.sess < 16) ∧ (h.ver = 1 ∧ h.rsv = 0) ∧ (4 ≤ id ∨ h.below = true ∨ h.timed ≠ none)) := by
  refine ⟨?_, ?_, ?_, ?_, ?_, ?_, ?_, ?_, ?_, ?_, ?_, ?_, ?_, ?_, ?_, ?_, ?_, ?_, ?_, ?_, ?_, ?_, ?_, ?_, ?_, ?_, ?_, ?_, ?_, ?_, ?_, ?_, ?_, ?_, ?_, ?_, ?_⟩ <;> decide +kernel

end Sys2Proof.Tests
end

section
/-! Proofs. A memory reads back what was written (R8, R22, R445, R446). -/

namespace Sys2Proof.Machine

/-- The bytes outside a write read as before. -/
theorem memByte_memWrite_of_outside {c : Nat} (bs : List Nat) : ∀ {m : List Host.Cell} {a : Nat}, Memory.wf m = true →
    (c < a ∨ a + bs.length ≤ c) → memByte (memWrite a bs m) c = memByte m c := by
  induction bs with
  | nil => intro m a _ _; rfl
  | cons b bs ih =>
    intro m a hm hc
    rw [List.length_cons] at hc
    rw [memWrite, ih (memPut_wf hm a _) (by omega), memByte_memPut hm, if_neg (by omega)]

/-- Each byte inside a write reads as the byte written there. -/
theorem memByte_memWrite_of_inside (bs : List Nat) : ∀ {m : List Host.Cell} {a i : Nat}, Memory.wf m = true →
    (hi : i < bs.length) → memByte (memWrite a bs m) (a + i) = BitVec.ofNat 8 bs[i] := by
  induction bs with
  | nil => intro m a i _ hi; exact absurd hi (Nat.not_lt_zero i)
  | cons b bs ih =>
    intro m a i hm hi
    have hp := memPut_wf hm a (BitVec.ofNat 8 b)
    cases i with
    | zero => rw [memWrite, memByte_memWrite_of_outside bs hp (by omega), memByte_memPut hm]; simp
    | succ i => rw [memWrite, show a + (i + 1) = a + 1 + i by omega, ih hp (by simpa using hi)]; rfl

/-- Bytes read back as they were written. -/
theorem memRead_memWrite {m : List Host.Cell} (hm : Memory.wf m = true) (a : Nat) {bs : List Nat} (hb : ∀ b ∈ bs, b < 256) :
    memRead (memWrite a bs m) a bs.length = bs := by
  refine List.ext_getElem (by simp [memRead]) fun i _ hi => ?_
  have hlt : bs[i] < 256 := hb _ (List.getElem_mem hi)
  simp [memRead, memByte_memWrite_of_inside bs hm hi, Nat.mod_eq_of_lt hlt]

/-- Storing at an address below every listed one the zero that it reads as changes nothing. -/
theorem memPut_zero_of_lt {m : List Host.Cell} {a : Nat} (h : ∀ q ∈ m, a < q.1) : memPut a 0#8 m = m := by
  cases m with
  | nil => rfl
  | cons p t => simp [memPut, h p (by simp)]

/-- Writing a byte the value that it reads as leaves the very same canonical memory. -/
theorem memPut_memByte {m : List Host.Cell} (hm : Memory.wf m = true) (a : Nat) : memPut a (memByte m a) m = m := by
  induction m with
  | nil => rfl
  | cons p t ih =>
    rcases Nat.lt_trichotomy a p.1 with h | rfl | h
    · have below : ∀ q ∈ p :: t, a < q.1 := by
        intro q hq
        rcases List.mem_cons.1 hq with rfl | hq
        · exact h
        · exact Nat.lt_trans h (Memory.wf_lt hm q hq)
      have zero : memByte (p :: t) a = 0#8 := by simp [memByte, tget_none_of_lt below]
      rw [zero, memPut_zero_of_lt below]
    · simp [memByte, tget_cons, memPut, Memory.wf_head hm]
    · have rest : memByte (p :: t) a = memByte t a := by simp [memByte, tget_cons, Nat.ne_of_lt h]
      rw [rest, memPut, if_neg (Nat.lt_asymm h), if_neg (Nat.ne_of_gt h), ih (Memory.wf_tail hm)]

theorem memRead_succ (m : List Host.Cell) (a n : Nat) : memRead m a (n + 1) = (memByte m a).toNat :: memRead m (a + 1) n := by
  simp [memRead, List.range_succ_eq_map, Function.comp_def, Nat.add_right_comm, Nat.add_assoc]

/-- Writing bytes the values that they read as leaves the very same canonical memory. -/
theorem memWrite_memRead {m : List Host.Cell} (hm : Memory.wf m = true) (n : Nat) : ∀ a, memWrite a (memRead m a n) m = m := by
  induction n with
  | zero => intro a; rfl
  | succ n ih => intro a; rw [memRead_succ, memWrite, BitVec.ofNat_toNat, BitVec.setWidth_eq, memPut_memByte hm, ih]

/-- Settles O6: reading after a write byte by byte, inside and outside what was written, and a write of what stands there already. -/
theorem memoryReadsBackWrites : Obligations.MemoryReadsBackWrites :=
  ⟨fun _ a _ hm hb => memRead_memWrite hm a hb, fun _ _ _ bs hm hc => memByte_memWrite_of_outside bs hm hc,
    fun _ a n hm => memWrite_memRead hm n a⟩

end Sys2Proof.Machine
end

section
/-! Proofs. Object reads by descriptor of a ring: what leaves for the host (R188, R191, R521). -/

namespace Sys2Proof.Machine

/-- What the lead writes to a ring's control block: CONSUMER, COMPLETION_PRODUCER and STOPPED (R188). -/
theorem ringPost_out {s : State} {n : Nat} {c : Ring} (hc : tget s.pk.rings n = some c) :
    (s.ringPost n).out = ⟨.host, 0x800 + n, [c.cons, (c.cprod + tgetD s.pk.complUsed n 0) % 2 ^ 32, b2n c.stopped]⟩ :: s.out := by
  simp [State.ringPost, hc]

/-- Forming a record that the output digest does not cover advances its SEQUENCE and nothing else (R13, R27). -/
theorem form_icd_of_not_digested (s : State) {ty : Nat} (h : digestTypes.contains ty = false) (len flags part : Nat) (fs : List (Nat × Nat × Nat)) :
    s.form .icd ty len flags part fs = (s.iRec ty len flags part fs, s.bumpSeq .icd ty) := by
  simp only [State.form, State.iRec, h, Bool.false_eq_true, and_false, if_false]

/-- At the lead, a completion of a ring with a control block leaves as two messages: the CompletionRecord, then the block (R188, R191). -/
theorem complete_out {s : State} {n : Nat} {c : Ring} (hl : s.isLead = true) (hc : tget s.pk.rings n = some c) (tag : Nat) (b : Bool) (r : Res) :
    (s.complete n tag b r).out =
      ⟨.host, 0x800 + n, [c.cons, (c.cprod + (tgetD s.pk.complUsed n 0 + 1)) % 2 ^ 32, b2n c.stopped]⟩ ::
      ⟨.host, n, s.iRec 0x61 2 0 0 [(128, 32, tag), (160, 16, r.st), (176, 1, b2n (b || s.pk.replay)), (184, 8, r.cause), (192, 32, r.handle)]⟩ ::
      s.out := by
  simp only [State.complete, if_pos hl, form_icd_of_not_digested s (show digestTypes.contains 0x61 = false by decide)]
  rw [ringPost_out (c := c) (by exact hc)]
  simp [State.bumpSeq]

/-- An OBJECT_READ that the lead acts on sends three messages to a ring with a control block: the items, the completion, the block (R188, R521). -/
theorem objectRead_ring_out {s : State} {q : Req} {n gid : Nat} {c : Ring} (ha : s.acked q = true) (hg : s.here gid = true)
    (hq : q.who = .ring n) (hl : s.isLead = true) (hc : tget s.pk.rings n = some c) (l : List Item) :
    ∃ items record block, (s.objectRead q gid (some l)).out =
      ⟨.host, 0x800 + n, block⟩ :: ⟨.host, n, record⟩ :: ⟨.host, n, items⟩ :: s.out := by
  simp only [State.objectRead, ha, State.itemsRead, hg, State.finishItems, hq, hl, State.answer, Bool.not_true, Bool.false_eq_true, if_true, if_false]
  rw [complete_out (c := c) (by exact hl) (by exact hc), State.put_out]
  exact ⟨_, _, _, rfl⟩

/-- A lead without a crosslink that serves ring 1, whose control block the host has enabled. -/
def servedRing : State :=
  { State.reset with
    cd := [(O.TwinState, 2)]
    pk := { State.reset.pk with rings := [(1, { ring0 with base := 4096, log2e := 6, cbase := 8192, log2c := 6, enable := true })] } }

/-- An operator's request on ring 1. -/
def ringReader : Req := ⟨.op, 0, .ring 1, 7⟩

/-- Refutes O60, in the clause of an OBJECT_READ that writes its items back: it has the items and the completion leave and nothing more, but the lead also writes the control block of a ring that has one (R188). Counterexample: a read of no items on the served ring 1. -/
theorem not_managementAccess : ¬ Obligations.ManagementAccess := by
  intro h
  obtain ⟨-, -, -, readsBack, -⟩ := h
  have hl : servedRing.isLead = true := by decide
  obtain ⟨t, ht, two, -⟩ := readsBack servedRing ringReader 0 1 [] rfl rfl hl (by simp)
  obtain ⟨items, record, block, three⟩ :=
    objectRead_ring_out (s := servedRing) (q := ringReader) (gid := 0) (by decide) rfl rfl hl rfl []
  have ran : t.out = (servedRing.objectRead ringReader 0 (some [])).out := by cases ht; rfl
  have lengths := congrArg List.length (three.symm.trans (ran.symm.trans two))
  simp at lengths

end Sys2Proof.Machine
end

section
/-! Proofs. The read-back of a Helad's configuration: what becomes of the timed writes that are past (R63, R548). -/

namespace Sys2Proof.Machine

/-- A read-back takes a slot's timed writes that are due out of those that wait for the Tray's copy, since it holds what they wrote (R63, R548). -/
theorem configCopyReadback_copyDue (slot : Nat) (objs : List (Nat × Nat)) (sets : List (Nat × Nat × List Nat)) (s : State) :
    (s.configCopyReadback slot objs sets).ln.copyDue =
      s.ln.copyDue.filter fun e => !(e.2.2.1 == slot && decide (e.2.1 ≤ s.ft .icd)) := rfl

/-- A Tray to whose copy of slot 0 a timed write of SampleInterval belongs, accepted before and due now. -/
def timedWriteDue : State :=
  { State.reset with ln := { State.reset.ln with copyDue := [(1, 0, 0, O.SampleInterval, 500)] } }

/-- Refutes O18, in the clause of a configuration read back: it has nothing change but the copies and the sets, but the slot's timed writes that are due leave the list of those to come as well (R63, R548). Counterexample: a read-back of slot 0 while one is due. -/
theorem not_counterControl : ¬ Obligations.CounterControl := by
  intro h
  obtain ⟨-, -, -, -, -, -, readBack⟩ := h
  obtain ⟨t, ht, -, -, unchanged⟩ := readBack timedWriteDue 0 O.SampleInterval 100 ⟨rfl, rfl⟩ (by decide)
  have kept : t.ln.copyDue = timedWriteDue.ln.copyDue := congrArg (fun u => u.ln.copyDue) unchanged
  have ran : t.ln.copyDue = (timedWriteDue.configCopyReadback 0 [(O.SampleInterval, 100)] []).ln.copyDue := by cases ht; rfl
  have gone : t.ln.copyDue = [] := by rw [ran, configCopyReadback_copyDue]; decide
  simp [kept, timedWriteDue] at gone

end Sys2Proof.Machine
end

section
/-! Proofs. What a command that is carried out leaves as it was: `State.Same` step by step. -/

namespace Sys2Proof.Machine

/-- A command whose effect is `f`, seen through the state in which `f` leaves it. -/
theorem Does.of_effect {c : Instr} {s u : State} {f : State → State} {P : State → Prop} (hc : exec c s = run f s) (hf : f s = u)
    (hP : P ({ u with pending := s.pending }).commit) : Does c s P :=
  ⟨_, hc.trans (run_eq s f), hf ▸ hP⟩

/-- The end of a command changes no object. -/
theorem ob_effect (u : State) (p : List Instr) (sd : Side) (k : Nat) : ({ u with pending := p }).commit.ob sd k = u.ob sd k := by
  rw [State.ob_commit]
  cases sd <;> rfl

namespace State.Same

variable {s t u : State} {ks : List Nat}

theorem refl (s : State) (ks : List Nat) : State.Same s s ks := ⟨fun _ _ _ => rfl, rfl, rfl⟩

theorem trans (a : State.Same s t ks) (b : State.Same t u ks) : State.Same s u ks :=
  ⟨fun sd k hk => (b.1 sd k hk).trans (a.1 sd k hk), b.2.1.trans a.2.1, b.2.2.trans a.2.2⟩

/-- Nothing changes at the end of a command. -/
theorem commit (a : State.Same s t ks) (p : List Instr) : State.Same s ({ t with pending := p }).commit ks :=
  ⟨fun sd k hk => (ob_effect t p sd k).trans (a.1 sd k hk), a.2.1, a.2.2⟩

theorem setOb (a : State.Same s t ks) {k : Nat} (h : k ∈ ks) (sd : Side) (v : Nat) : State.Same s (t.setOb sd k v) ks := by
  refine a.trans ⟨fun sd' j hj => ?_, by simp, by simp⟩
  rw [State.ob_setOb, if_neg]
  rintro ⟨-, rfl⟩
  exact hj h

theorem put (a : State.Same s t ks) (c : Chan) (i : Nat) (b : List Nat) : State.Same s (t.put c i b) ks :=
  a.trans ⟨fun _ _ _ => by simp, rfl, rfl⟩

theorem answered (a : State.Same s t ks) (f : AnswerFrame t u) : State.Same s u ks :=
  a.trans ⟨fun sd k _ => f.obj sd k, f.me, by rw [f.gr]⟩

end State.Same

end Sys2Proof.Machine
end

section
/-! Proofs. VFs, IDE streams and TDISP states (R484–R486, R501). -/

namespace Sys2Proof.Machine

open State

variable {s : State} {q : Req} {v p e x : Nat}

/-! ### VFs -/

/-- A refusal is answered without a command being taken off the queue. -/
theorem answer_pending (s : State) (q : Req) (k : Nat) (wr : Bool) (r : Res) (vals : List Nat) : (s.answer q k wr r vals).pending = s.pending := by
  unfold State.answer
  split
  · exact (complete_frame _ _ _ _ _).pending
  · exact (reply_frame _ _ _ _).pending
  · rfl
  · rfl
  · split <;> split <;> rfl
  · split
    · split <;> rfl
    · rfl

theorem vfBindOp_locked (hv : v ≤ s.i O.VfCount) (ht : s.i (vfKey O.TdiState v) ≠ 0) : vfBindOp v p s = (s, no stBusy) := by
  rw [vfBindOp, if_neg (Nat.not_lt.2 hv), if_pos ht]

/-- In CONFIG_UNLOCKED a VF takes no partition, or one in ACTIVE or TEST that no VF holds (R484). -/
theorem vfBindOp_free (hv : v ≤ s.i O.VfCount) (ht : s.i (vfKey O.TdiState v) = 0)
    (hp : p = 0 ∨ ((s.partState p = 2 ∨ s.partState p = 3) ∧ s.vfOf p = none)) :
    vfBindOp v p s = (s.iSet (vfKey O.VfPartition v) p, ok) := by
  rw [vfBindOp, if_neg (Nat.not_lt.2 hv), if_neg fun hn => hn ht]
  rcases hp with rfl | ⟨hst, hno⟩
  · rfl
  · split
    · next h => rw [h]
    · simp [hst, hno]

theorem vfBindOp_taken (hv : v ≤ s.i O.VfCount) (ht : s.i (vfKey O.TdiState v) = 0) (hp : p ≠ 0)
    (hno : (s.partState p ≠ 2 ∧ s.partState p ≠ 3) ∨ (s.vfOf p).any (fun w => w != v) = true) : vfBindOp v p s = (s, no stBusy) := by
  rw [vfBindOp, if_neg (Nat.not_lt.2 hv), if_neg (fun hn => hn ht), if_neg hp]
  refine if_neg ?_
  rintro ⟨hst, hall⟩
  rcases hno with ⟨h2, h3⟩ | hany
  · exact hst.elim h2 h3
  · cases hw : s.vfOf p <;> simp_all

/-- A VF_BIND that the operation accepts stores the partition and nothing else (R484). -/
theorem vfBind_does_store (ha : s.Accepts q (vfKey O.VfPartition v) p) (hf : vfBindOp v p s = (s.iSet (vfKey O.VfPartition v) p, ok)) :
    Does (.vfBind q v p) s fun t => t.i (vfKey O.VfPartition v) = p ∧ State.Same s t [vfKey O.VfPartition v] := by
  have frame := reqWrite_ok (f := vfBindOp v p) ha (by rw [hf])
  rw [hf] at frame
  refine .of_effect rfl rfl ⟨?_, (((Same.refl s _).setOb (List.mem_singleton_self _) .icd p).answered frame).commit _⟩
  simp [frame.obj]

/-- A VF_BIND that the operation refuses is answered BUSY (R484). -/
theorem vfBind_does_busy (ha : s.Accepts q (vfKey O.VfPartition v) p) (hf : vfBindOp v p s = (s, no stBusy)) :
    Does (.vfBind q v p) s fun t => t = (s.answer q (vfKey O.VfPartition v) true (no stBusy) []).commit := by
  have refused := reqWrite_no (f := vfBindOp v p) ha (by simp [hf])
  rw [hf] at refused
  refine .of_effect rfl refused ?_
  rw [← answer_pending s q (vfKey O.VfPartition v) true (no stBusy) []]

/-! ### IDE streams -/

theorem ideKm_up (hd : s.doeUp = true) (hs : s.secured e = true) (f : State → State) : s.ideKm e f = f s := by simp [ideKm, hd, hs]

theorem ideKm_down (h : s.doeUp = false ∨ s.secured e = false) (f : State → State) : s.ideKm e f = s := by
  rcases h with h | h <;> simp [ideKm, h]

@[simp] theorem ideOf_setIde (s : State) (v : Nat) (x : IdeStream) : (s.setIde v x).ideOf v = x := tgetD_tset_self _ _ _ _

@[simp] theorem ob_setIde (s : State) (v : Nat) (x : IdeStream) (sd : Side) (k : Nat) : (s.setIde v x).ob sd k = s.ob sd k := by cases sd <;> rfl

theorem State.Same.setIde {t : State} {ks : List Nat} (a : Same s t ks) (v : Nat) (x : IdeStream) : Same s (t.setIde v x) ks :=
  a.trans ⟨fun sd k _ => ob_setIde t v x sd k, rfl, rfl⟩

/-- Leaving secure takes a locked or running TDI to ERROR (R486). -/
theorem ideLeave_active (hv : 1 ≤ v) (ht : s.i (vfKey O.TdiState v) = 1 ∨ s.i (vfKey O.TdiState v) = 2) :
    s.ideLeave v = (s.setIde v ⟨[], none⟩).iSet (vfKey O.TdiState v) 3 := by
  simp only [ideLeave, ob_setIde, if_neg (Nat.one_le_iff_ne_zero.1 hv), if_pos ht]

theorem ideLeave_inactive (h : s.i (vfKey O.TdiState v) = 0 ∨ s.i (vfKey O.TdiState v) = 3 ∨ v = 0) :
    s.ideLeave v = s.setIde v ⟨[], none⟩ := by
  have hn : v ≠ 0 → ¬ (s.i (vfKey O.TdiState v) = 1 ∨ s.i (vfKey O.TdiState v) = 2) := by omega
  simp only [ideLeave, ob_setIde]
  split
  · rfl
  · next hv => rw [if_neg (hn hv)]

theorem keyProg_unused (hd : s.doeUp = true) (hs : s.secured e = true) (hx : (s.ideOf v).set_ ≠ some x) (y z : Nat) :
    s.keyProg e v x y z = (s.setIde v { s.ideOf v with keys := tset (s.ideOf v).keys (x * 2 + y) z }).put .reply 0x3002 [0x03, v, x, y, 0] :=
  (ideKm_up hd hs _).trans (if_neg hx)

/-- A key of the set in use, or one outside a secured session, is not stored (R485). -/
theorem keyProg_refused (h : s.doeUp = false ∨ s.secured e = false ∨ (s.ideOf v).set_ = some x) (y z : Nat) :
    (s.keyProg e v x y z).sc = s.sc ∧ Same s (s.keyProg e v x y z) [] := by
  by_cases closed : s.doeUp = false ∨ s.secured e = false
  · have idle : s.keyProg e v x y z = s := ideKm_down closed _
    rw [idle]
    exact ⟨rfl, .refl s []⟩
  · have hd : s.doeUp = true := eq_true_of_ne_false fun h => closed (.inl h)
    have hs : s.secured e = true := eq_true_of_ne_false fun h => closed (.inr h)
    have hx : (s.ideOf v).set_ = some x := (h.resolve_left fun h => closed (.inl h)).resolve_left fun h => closed (.inr h)
    have used : s.keyProg e v x y z = s.put .reply 0x3002 [0x03, v, x, y, 1] := (ideKm_up hd hs _).trans (if_pos hx)
    rw [used]
    exact ⟨rfl, (Same.refl s []).put _ _ _⟩

theorem kSetGo_whole {a b : Nat} (hd : s.doeUp = true) (hs : s.secured e = true) (ha : tget (s.ideOf v).keys (x * 2) = some a)
    (hb : tget (s.ideOf v).keys (x * 2 + 1) = some b) :
    s.kSetGo e v x = (s.setIde v { s.ideOf v with set_ := some x }).put .reply 0x3002 [0x04, v, x, 1] := by
  rw [kSetGo, ideKm_up hd hs]
  simp [ha, hb, spdmOut]

theorem kSetStop_used {t : State} (hd : s.doeUp = true) (hs : s.secured e = true) (hx : (s.ideOf v).set_ = some x) (ht : s.ideLeave v = t) :
    s.kSetStop e v x = t.put .reply 0x3002 [0x05, v, x] := by
  rw [kSetStop, ideKm_up hd hs]
  simp [hx, ht, spdmOut]

theorem kSetStop_unused (hd : s.doeUp = true) (hs : s.secured e = true) (hx : (s.ideOf v).set_ ≠ some x) :
    s.kSetStop e v x =
      (s.setIde v { s.ideOf v with keys := (s.ideOf v).keys.filter fun k => k.1 / 2 != x }).put .reply 0x3002 [0x05, v, x] := by
  rw [kSetStop, ideKm_up hd hs]
  simp [hx, spdmOut]

/-! ### TDISP states -/

theorem tdisp_up (hd : s.doeUp = true) (v : Nat) (body : List Nat) : s.tdisp v body = s.put .reply 0x3003 (v :: body) := by
  simp [tdisp, spdmOut, hd]

/-- A TDISP answer changes no object. -/
theorem State.Same.tdisp {t : State} {ks : List Nat} (a : Same s t ks) (v : Nat) (body : List Nat) : Same s (t.tdisp v body) ks := by
  unfold State.tdisp
  split
  · exact a.put _ _ _
  · exact a

@[simp] theorem ob_tdisp (s : State) (v : Nat) (body : List Nat) (sd : Side) (k : Nat) : (s.tdisp v body).ob sd k = s.ob sd k := by
  unfold State.tdisp
  split
  · exact ob_put _ _ _ _ _ _
  · rfl

theorem tdisp_pk (s : State) (v : Nat) (body : List Nat) : (s.tdisp v body).pk = s.pk := by
  unfold State.tdisp
  split <;> rfl

theorem lockInterface_ready (hd : s.doeUp = true) (ht : s.i (vfKey O.TdiState v) = 0) (hp : s.i (vfKey O.VfPartition v) ≠ 0)
    (hs : (s.ideOf v).set_ ≠ none) : s.lockInterface v = (s.iSet (vfKey O.TdiState v) 1).tdisp v [0x03, 0] := by
  simp [lockInterface, hd, ht, hp, Option.isSome_iff_ne_none.2 hs]

theorem lockInterface_refused (hd : s.doeUp = true)
    (h : s.i (vfKey O.TdiState v) ≠ 0 ∨ s.i (vfKey O.VfPartition v) = 0 ∨ (s.ideOf v).set_ = none) : s.lockInterface v = s.tdisp v [0x7F] := by
  have : ¬ (s.i (vfKey O.TdiState v) = 0 ∧ s.i (vfKey O.VfPartition v) ≠ 0 ∧ (s.ideOf v).set_.isSome) := by
    rintro ⟨ht, hp, hs⟩
    rcases h with h | h | h
    · exact h ht
    · exact hp h
    · simp [h] at hs
  rw [lockInterface, if_neg (by simp [hd]), if_neg this]

theorem startInterface_locked (hd : s.doeUp = true) (ht : s.i (vfKey O.TdiState v) = 1) :
    s.startInterface v = (s.iSet (vfKey O.TdiState v) 2).tdisp v [0x06, 0] := by
  simp [startInterface, hd, ht]

theorem startInterface_refused (hd : s.doeUp = true) (ht : s.i (vfKey O.TdiState v) ≠ 1) : s.startInterface v = s.tdisp v [0x7F] := by
  simp [startInterface, hd, ht]

/-- The host rings after a STOP of a VF: its own ring disabled (R486). -/
def ringsStopped (s : State) (v : Nat) : Tbl Ring :=
  match tget s.pk.rings (1024 + v) with
  | some r => tset s.pk.rings (1024 + v) { r with enable := false }
  | none => s.pk.rings

theorem stopInterface_up (hd : s.doeUp = true) (v : Nat) :
    s.stopInterface v = ({ s with pk := { s.pk with rings := ringsStopped s v } }.iSet (vfKey O.TdiState v) 0).tdisp v [0x07, 0] := by
  simp only [stopInterface, hd, Bool.not_true, Bool.false_eq_true, if_false]
  rfl

theorem ringsStopped_same (s : State) (v : Nat) (ks : List Nat) : Same s { s with pk := { s.pk with rings := ringsStopped s v } } ks :=
  ⟨fun sd _ _ => by cases sd <;> rfl, rfl, rfl⟩

theorem ringsStopped_enable (s : State) (v : Nat) :
    (tget (ringsStopped s v) (1024 + v)).map (fun r => r.enable) = (tget s.pk.rings (1024 + v)).map fun _ => false := by
  unfold ringsStopped
  split
  · next r h => simp [h]
  · next h => simp [h]

end Sys2Proof.Machine
end

section
/-! Proofs. The tenants' power tick: what the records of a served tenant reach and what they leave alone (R119, R482, R483). -/

namespace Sys2Proof.Machine

open State

variable {s t u : State} {part vf port : Nat}

/-! ### Sessions -/

/-- What is pushed to sessions is sent, and the sessions' own state changes. -/
def Pushed (s t : State) : Prop := ∃ o m, t = { s with out := o ++ s.out, mo := m }

theorem Pushed.refl (s : State) : Pushed s s := ⟨[], s.mo, rfl⟩

theorem Pushed.trans (a : Pushed s t) (b : Pushed t u) : Pushed s u := by
  obtain ⟨o, m, rfl⟩ := a
  obtain ⟨o', m', rfl⟩ := b
  exact ⟨o' ++ o, m', by simp⟩

theorem Pushed.foldl {α : Type} (f : State → α → State) (hf : ∀ t a, Pushed t (f t a)) (l : List α) (s : State) : Pushed s (l.foldl f s) := by
  induction l generalizing s with
  | nil => exact .refl s
  | cons a l ih => exact (hf s a).trans (ih _)

theorem mgmtPush_pushed (to_ : Session → Bool) (r : Rec) (s : State) : Pushed s (s.mgmtPush to_ r) := by
  refine Pushed.foldl _ (fun t p => Pushed.foldl _ (fun t q => ?_) _ _) _ _
  dsimp only
  split
  · split
    · exact ⟨[_], _, rfl⟩
    · exact ⟨[], _, rfl⟩
  · exact .refl t

/-! ### Records of a served tenant -/

/-- The lead serves a tenant: its partition's VF is in RUN and the uplink is not deferred in bulk (R437, R482, R486). -/
structure TenantServed (part vf port : Nat) (s : State) : Prop where
  lead : s.isLead = true
  bound : s.vfOf part = some vf
  running : s.i (vfKey O.TdiState vf) = 2
  uplink : s.upPort = some port
  prompt : s.i (inst O.BulkDeferred port) ≠ 1

/-- What delivering records of some types leaves alone: the objects but the counters of the queues, the parts of the state that another record's forming reads; nothing sent is taken back. -/
structure DeliveryFrame (tys : List Nat) (s t : State) : Prop where
  hd : t.hd = s.hd
  icd : ∀ k, k ∉ queueKeys → t.i k = s.i k
  seq : ∀ ty, ty ∉ tys → t.seqOf .icd ty = s.seqOf .icd ty
  out : ∀ o ∈ s.out, o ∈ t.out
  ct : t.ct = s.ct
  pk : t.pk = s.pk
  si : t.si = s.si
  me : t.me = s.me
  gr : t.gr = s.gr

namespace DeliveryFrame

variable {a b : List Nat}

theorem trans (f : DeliveryFrame a s t) (g : DeliveryFrame b t u) : DeliveryFrame (a ++ b) s u where
  hd := g.hd.trans f.hd
  icd k h := (g.icd k h).trans (f.icd k h)
  seq ty h := by
    obtain ⟨ha, hb⟩ := not_or.1 (mt List.mem_append.2 h)
    exact (g.seq ty hb).trans (f.seq ty ha)
  out o h := g.out o (f.out o h)
  ct := g.ct.trans f.ct
  pk := g.pk.trans f.pk
  si := g.si.trans f.si
  me := g.me.trans f.me
  gr := g.gr.trans f.gr

/-- The objects of the Helad are as they were. -/
theorem hel (f : DeliveryFrame a s t) (k : Nat) : t.h k = s.h k := by
  show (tget t.hd k).getD _ = (tget s.hd k).getD _
  rw [f.hd]

theorem same (f : DeliveryFrame a s t) : State.Same s t queueKeys := by
  refine ⟨fun sd k hk => ?_, f.me, by rw [f.gr]⟩
  cases sd with
  | hel => exact f.hel k
  | icd => exact f.icd k hk

/-- A record of another type is formed as before. -/
theorem iRec_eq (f : DeliveryFrame a s t) {ty : Nat} (hs : ty ∉ a) (hp : pairTypes.contains ty = false) (len flags part : Nat)
    (fs : List (Nat × Nat × Nat)) : t.iRec ty len flags part fs = s.iRec ty len flags part fs := by
  have gid : t.iGid = s.iGid := f.icd _ (by decide)
  simp only [State.iRec, srcGid, hp, gid, f.seq ty hs, Bool.false_eq_true, if_false]

theorem put (s : State) (c : Chan) (i : Nat) (b : List Nat) : DeliveryFrame [] s (s.put c i b) :=
  ⟨rfl, fun _ _ => ob_put _ _ _ _ _ _, fun _ _ => rfl, fun _ h => List.mem_cons_of_mem _ h, rfl, rfl, rfl, rfl, rfl⟩

theorem pushed (p : Pushed s t) : DeliveryFrame [] s t := by
  obtain ⟨o, m, rfl⟩ := p
  exact ⟨rfl, fun _ _ => rfl, fun _ _ => rfl, fun _ h => List.mem_append_right _ h, rfl, rfl, rfl, rfl, rfl⟩

theorem bumpSeq (s : State) (ty : Nat) : DeliveryFrame [ty] s (s.bumpSeq .icd ty) := by
  refine ⟨rfl, fun _ _ => rfl, fun ty' h => ?_, fun _ h => h, rfl, rfl, rfl, rfl, rfl⟩
  exact tgetD_tset_ne _ _ _ (mt List.mem_singleton.2 h)

theorem overflow (s : State) (w n : Nat) : DeliveryFrame [] s (s.addOb .icd O.SubscriberOverflow w n) := by
  refine ⟨rfl, fun k hk => ?_, fun _ _ => rfl, fun _ h => h, rfl, rfl, rfl, rfl, rfl⟩
  rw [State.i, ob_addOb, if_neg fun h => hk (by simp [h])]

theorem uplink (s : State) (x : UplinkSt) : DeliveryFrame [] s { s with up := x } :=
  ⟨rfl, fun _ _ => rfl, fun _ _ => rfl, fun _ h => h, rfl, rfl, rfl, rfl, rfl⟩

theorem refl (s : State) : DeliveryFrame [] s s := uplink s s.up

end DeliveryFrame

open DeliveryFrame

theorem not_queueKey {k : Nat} (h : k < 0x541007 ∨ 0x541009 < k) : k ∉ queueKeys := by
  have overflow : k ≠ 0x541007 := by omega
  have discarded : k ≠ 0x541009 := by omega
  simpa using And.intro overflow discarded

theorem vfKey_not_queueKey {base : Nat} (h : 0x541009 < base) (v : Nat) : vfKey base v ∉ queueKeys :=
  not_queueKey (.inr (by show 0x541009 < base + 256 * ((v - 1) / 128) + (v - 1) % 128; omega))

theorem bulkDeferred_not_queueKey (h : port < 16) : inst O.BulkDeferred port ∉ queueKeys :=
  not_queueKey (.inl (by show 0x540009 + 256 * port < 0x541007; omega))

theorem portOf_some {n : Nat} (h : s.portOf n = some port) : port < 16 ∧ s.portUse port = n := by
  have found := List.find?_some h
  exact ⟨List.mem_range.1 (List.mem_of_find?_eq_some h), by simpa using found⟩

/-- The uplink's port is a fabric port and no downward one (R181). -/
theorem upPort_some (h : s.upPort = some port) : port < 16 ∧ s.portUse port ≠ 1 := by
  unfold State.upPort at h
  split at h <;> exact (portOf_some h).imp_right fun e => by omega

/-- The VF bound to a partition stays bound to it. -/
theorem vfOf_of_delivery {tys : List Nat} (f : DeliveryFrame tys s t) (part : Nat) : t.vfOf part = s.vfOf part := by
  have bindings : ∀ n, t.i (vfKey O.VfPartition (n + 1)) = s.i (vfKey O.VfPartition (n + 1)) := fun n =>
    f.icd _ (vfKey_not_queueKey (by decide) _)
  simp only [vfOf, bindings]

/-- Temperatures are read from the Helad's objects and its sensors. -/
theorem tempOf_of_delivery {tys : List Nat} (f : DeliveryFrame tys s t) (streams : Nat) : t.tempOf streams = s.tempOf streams := by
  simp only [tempOf, f.hel, f.si]

namespace TenantServed

theorem of_delivery (h : TenantServed part vf port s) {tys : List Nat} (f : DeliveryFrame tys s t) : TenantServed part vf port t where
  lead := by
    have twin : t.i O.TwinState = s.i O.TwinState := f.icd _ (by decide)
    simpa only [isLead, twin] using h.lead
  bound := (vfOf_of_delivery f part).trans h.bound
  running := (f.icd _ (vfKey_not_queueKey (by decide) _)).trans h.running
  uplink := by
    simpa only [upPort, portOf, portUse, f.pk] using h.uplink
  prompt := by
    obtain ⟨small, -⟩ := upPort_some h.uplink
    rw [f.icd _ (bulkDeferred_not_queueKey small)]
    exact h.prompt

/-- A served tenant's record reaches its VF's ring and its sessions (R482, R486). -/
theorem vfPost_frame (h : TenantServed part vf port s) (r : Rec) :
    DeliveryFrame [] s (s.vfPost part r) ∧ (s.vfPost part r).up = s.up ∧ ⟨.host, 1024 + vf, r⟩ ∈ (s.vfPost part r).out := by
  have posted : s.vfPost part r = (s.put .host (1024 + vf) r).tenantPost part r := by
    simp [vfPost, h.bound, h.running, h.lead]
  have sessions : Pushed (s.put .host (1024 + vf) r) (s.vfPost part r) := by rw [posted]; exact mgmtPush_pushed _ _ _
  refine ⟨(put s _ _ _).trans (.pushed sessions), ?_, (DeliveryFrame.pushed sessions).out _ (by simp)⟩
  obtain ⟨o, m, e⟩ := sessions
  rw [e]; rfl

end TenantServed

/-- A counter record queued at a port that is not deferred in bulk waits behind those of its class (R428, R442). -/
theorem portQueue_prompt (hp : port < 16) (h : s.i (inst O.BulkDeferred port) ≠ 1) (r : Rec) (ht : t = s.portQueue port none stCounter r) :
    DeliveryFrame [] s t ∧ (t.portQ port 4).map (·.rec_) = (s.portQ port 4).map (·.rec_) ++ [r] := by
  unfold State.portQueue at ht
  extract_lets c q subs sub full counted up measured at ht
  have bulk : c = 4 := rfl
  obtain ⟨countedFrame, countedQueues⟩ : DeliveryFrame [] s counted ∧ counted.up.q = s.up.q := by
    show DeliveryFrame [] s (if full = true then _ else s) ∧ UplinkSt.q (State.up (if full = true then _ else s)) = s.up.q
    split
    · exact ⟨overflow s _ _, rfl⟩
    · exact ⟨.refl s, rfl⟩
  obtain ⟨frame, queues⟩ : DeliveryFrame [] s measured ∧ measured.up.q = s.up.q := by
    show DeliveryFrame [] s (if _ then _ else counted) ∧ UplinkSt.q (State.up (if _ then _ else counted)) = s.up.q
    split
    · exact ⟨countedFrame.trans (uplink _ _), countedQueues⟩
    · exact ⟨countedFrame, countedQueues⟩
  have prompt : measured.i (inst O.BulkDeferred port) ≠ 1 := by rw [frame.icd _ (bulkDeferred_not_queueKey hp)]; exact h
  rw [if_neg fun deferred => prompt deferred.2.1] at ht
  subst ht
  refine ⟨frame.trans (uplink _ _), ?_⟩
  simp only [portQ, bulk, tgetD_tset_self, q, List.map_append, List.map_cons, List.map_nil]

/-- What a lead sends up in COUNTER joins the bulk queue of its uplink (R428). -/
theorem TenantServed.upSend_queue (h : TenantServed part vf port s) (r : Rec) :
    DeliveryFrame [] s (s.upSend stCounter r) ∧ ((s.upSend stCounter r).portQ port 4).map (·.rec_) = (s.portQ port 4).map (·.rec_) ++ [r] := by
  obtain ⟨small, notDown⟩ := upPort_some h.uplink
  refine portQueue_prompt small h.prompt r ?_
  simp [upSend, h.lead, h.uplink, portSendTo, notDown]

/-- One record of a served tenant: formed, posted to its VF, sent up (R119, R483). -/
def tenantRecord (ty part : Nat) (fs : List (Nat × Nat × Nat)) (s : State) : State :=
  ((s.form .icd ty 3 0 part fs).2.vfPost part (s.form .icd ty 3 0 part fs).1).upSend stCounter (s.form .icd ty 3 0 part fs).1

theorem packFields_cons (f : Nat × Nat × Nat) (fs : List (Nat × Nat × Nat)) :
    packFields (f :: fs) = f.2.2 % 2 ^ f.2.1 * 2 ^ f.1 + packFields fs := by
  simp [packFields, Nat.shiftLeft_eq]

/-- Fields that begin above a bit leave those below it 0. -/
theorem dvd_packFields {n : Nat} {fs : List (Nat × Nat × Nat)} (h : ∀ f ∈ fs, n ≤ f.1) : 2 ^ n ∣ packFields fs := by
  induction fs with
  | nil => exact Nat.dvd_zero _
  | cons f fs ih =>
    obtain ⟨first, rest⟩ := List.forall_mem_cons.1 h
    rw [packFields_cons]
    exact Nat.dvd_add (Nat.dvd_mul_left_of_dvd (Nat.pow_dvd_pow 2 first) _) (ih rest)

/-- The TYPE of a record reads back (R13). -/
theorem rType_mkRec {ty : Nat} (h : ty < 256) (len flags src seq part : Nat) {fs : List (Nat × Nat × Nat)} (hf : ∀ f ∈ fs, 8 ≤ f.1) :
    rType (mkRec ty (len + 1) flags src seq part fs) = ty := by
  have heads : ∀ f ∈ (header ty (len + 1) flags src seq part).tail, 8 ≤ f.1 := by simp [header]
  obtain ⟨rest, above⟩ := dvd_packFields fun f hmem => (List.mem_append.1 hmem).elim (heads f) (hf f)
  have e : packFields (header ty (len + 1) flags src seq part ++ fs) = ty % 2 ^ 8 * 2 ^ 0 + 2 ^ 8 * rest := by
    rw [← above]
    exact packFields_cons _ _
  simp only [rType, recFld, mkRec, e, splitUnits, joinUnits, bits, Nat.shiftRight_zero]
  omega

/-- A record of a served tenant reaches the ring of its VF and, behind the records that wait, the uplink (R119, R483). -/
theorem tenantRecord_spec (h : TenantServed part vf port s) {ty : Nat} (hd : digestTypes.contains ty = false) (fs : List (Nat × Nat × Nat))
    (ht : t = tenantRecord ty part fs s) :
    DeliveryFrame [ty] s t ∧ (t.portQ port 4).map (·.rec_) = (s.portQ port 4).map (·.rec_) ++ [s.iRec ty 3 0 part fs] ∧
      ⟨.host, 1024 + vf, s.iRec ty 3 0 part fs⟩ ∈ t.out := by
  unfold tenantRecord at ht
  rw [form_icd_of_not_digested s hd] at ht
  have formed := DeliveryFrame.bumpSeq s ty
  obtain ⟨posted, queue, host⟩ := (h.of_delivery formed).vfPost_frame (s.iRec ty 3 0 part fs)
  obtain ⟨sent, waiting⟩ := ((h.of_delivery formed).of_delivery posted).upSend_queue (s.iRec ty 3 0 part fs)
  rw [← ht] at sent waiting
  refine ⟨(formed.trans posted).trans sent, ?_, sent.out _ host⟩
  rw [waiting]
  simp only [portQ, queue]
  rfl

/-! ### The tick -/

/-- What a tenant partition's interval that ended last holds: energy, commands, streams (R119). -/
def powerInterval (part : Nat) (s : State) : Nat × Nat × Nat := tgetD s.ct.power (part * 2 ^ 40 + (s.ft .icd / ms 100 - 1)) (0, 0, 0)

/-- The FtStamp of the start of that interval. -/
def intervalStamp (s : State) : Nat := s.stampAt .icd ((s.ft .icd / ms 100 - 1) * ms 100)

/-- The fields of a PartitionPowerRecord (R119). -/
def powerFields (part : Nat) (s : State) : List (Nat × Nat × Nat) :=
  [(128, 128, intervalStamp s), (256, 32, (powerInterval part s).1 / 100000), (288, 32, (powerInterval part s).2.1)]

/-- The fields of a PartitionThermalRecord, from the highest temperature and the units read (R483). -/
def thermalFields (temp : Option Int × Nat) (s : State) : List (Nat × Nat × Nat) :=
  [(128, 128, intervalStamp s), (256, 16, match temp.1 with | some c => ofS 16 (c / 16) | none => 0x8000), (272, 16, temp.2)]

/-- The tick has begun: its number is taken. -/
def tickBegun (s : State) : State := { s with ct := { s.ct with powerK := s.ft .icd / ms 100 } }

/-- The tick has ended: the intervals before its own are forgotten. -/
def tickEnded (now : Nat) (s : State) : State := { s with ct := { s.ct with power := s.ct.power.filter fun e => now ≤ e.1 % 2 ^ 40 } }

theorem tickEnded_ct (now : Nat) (s : State) :
    (tickEnded now s).ct = { s.ct with power := s.ct.power.filter fun e => now ≤ e.1 % 2 ^ 40 } := rfl

theorem tickEnded_tickBegun_same (s : State) {now : Nat} : Same s (tickEnded now (tickBegun s)) [] :=
  ⟨fun sd _ _ => by cases sd <;> rfl, rfl, rfl⟩

theorem partitionPowerTick_idle (h : s.role ≠ 1 ∨ s.ft .icd / ms 100 ≤ s.ct.powerK) : s.partitionPowerTick = s := by
  rw [partitionPowerTick, if_pos h]

/-- Without a tenant the tick only begins the next interval (R119). -/
theorem partitionPowerTick_no_tenant (hr : s.role = 1) (hk : s.ct.powerK < s.ft .icd / ms 100) (hp : ∀ p ∈ s.tw.parts, p.2.tenant = false) :
    s.partitionPowerTick = tickEnded (s.ft .icd / ms 100) (tickBegun s) := by
  have none_ : (s.tw.parts.filter fun p => p.2.tenant) = [] := List.filter_eq_nil_iff.2 fun p h => by simp [hp p h]
  rw [partitionPowerTick, if_neg (by omega)]
  simp only [none_]
  rfl

/-- With one tenant partition the tick forms its power record, then its thermal record (R119, R483). -/
theorem partitionPowerTick_one_tenant {x : Part} (hr : s.role = 1) (hk : s.ct.powerK < s.ft .icd / ms 100) (hp : s.tw.parts = [(part, x)])
    (hx : x.tenant = true) (ht : t = tenantRecord 0x33 part (powerFields part s) (tickBegun s)) :
    s.partitionPowerTick = tickEnded (s.ft .icd / ms 100)
      (tenantRecord 0x35 part (thermalFields (t.tempOf (powerInterval part s).2.2) s) t) := by
  have one : (s.tw.parts.filter fun p => p.2.tenant) = [(part, x)] := by simp [hp, hx]
  rw [partitionPowerTick, if_neg (by omega), ht]
  simp only [one]
  rfl

theorem TenantServed.tickBegun (h : TenantServed part vf port s) : TenantServed part vf port (tickBegun s) :=
  ⟨h.lead, h.bound, h.running, h.uplink, h.prompt⟩

/-- What the tick does for a tenant that is served: both records, at the VF's ring and at the uplink, and the intervals that are past forgotten (R119, R483). -/
theorem partitionPowerTick_served {x : Part} (served : TenantServed part vf port s) (hr : s.role = 1)
    (hk : s.ct.powerK < s.ft .icd / ms 100) (hp : s.tw.parts = [(part, x)]) (hx : x.tenant = true) (ht : t = s.partitionPowerTick) :
    t.ct = { s.ct with powerK := s.ft .icd / ms 100, power := s.ct.power.filter fun e => s.ft .icd / ms 100 ≤ e.1 % 2 ^ 40 } ∧
      (t.portQ port 4).map (·.rec_) = (s.portQ port 4).map (·.rec_) ++
        [s.iRec 0x33 3 0 part (powerFields part s), s.iRec 0x35 3 0 part (thermalFields (s.tempOf (powerInterval part s).2.2) s)] ∧
      ⟨.host, 1024 + vf, s.iRec 0x33 3 0 part (powerFields part s)⟩ ∈ t.out ∧
      ⟨.host, 1024 + vf, s.iRec 0x35 3 0 part (thermalFields (s.tempOf (powerInterval part s).2.2) s)⟩ ∈ t.out ∧
      State.Same s t queueKeys := by
  have begun := served.tickBegun
  obtain ⟨frame, queue, host⟩ := tenantRecord_spec (ty := 0x33) begun (by decide) (powerFields part s) rfl
  obtain ⟨frame', queue', host'⟩ := tenantRecord_spec (ty := 0x35) (begun.of_delivery frame) (by decide)
    (thermalFields (s.tempOf (powerInterval part s).2.2) s) rfl
  have temp : (tenantRecord 0x33 part (powerFields part s) (tickBegun s)).tempOf (powerInterval part s).2.2 =
      s.tempOf (powerInterval part s).2.2 := tempOf_of_delivery frame _
  rw [partitionPowerTick_one_tenant hr hk hp hx rfl, temp] at ht
  rw [frame.iRec_eq (by decide) (by decide)] at queue' host'
  rw [queue, List.append_assoc] at queue'
  subst ht
  refine ⟨?_, queue', frame'.out _ host, host', (frame.trans frame').same⟩
  rw [tickEnded_ct, frame'.ct, frame.ct]
  rfl

/-- A record of a TYPE that has left for a host ring is found there. -/
theorem host_any {ty n : Nat} (hty : ty < 256) {fs : List (Nat × Nat × Nat)} (hf : ∀ f ∈ fs, 8 ≤ f.1)
    (h : ⟨.host, n, s.iRec ty 3 0 part fs⟩ ∈ t.out) :
    (t.out.any fun o => o.chan == .host && o.idx == n && rType o.body == ty) = true := by
  have read : rType (s.iRec ty 3 0 part fs) = ty := rType_mkRec hty _ _ _ _ _ hf
  exact List.any_eq_true.2 ⟨_, h, by simp [read]⟩

/-- Settles O54: a bind by what its operation answers, the IDE and TDISP requests by the branch they take, the power tick by what the two records of its tenant reach. -/
theorem tenantInterfaces : Obligations.TenantInterfaces := by
  refine ⟨fun s q v p ha hv ht hp => vfBind_does_store ha (vfBindOp_free hv.2 ht hp),
    fun s q v p ha hv ht => vfBind_does_busy ha (vfBindOp_locked hv.2 ht),
    fun s q v p ha hv ht hp hno => vfBind_does_busy ha (vfBindOp_taken hv.2 ht hp hno),
    fun s e v hd hs => .of_effect rfl (ideKm_up hd hs _) ⟨rfl, rfl, ((Same.refl s []).put _ _ _).commit _⟩,
    fun s e v x y z hd hs hx => .of_effect rfl (keyProg_unused hd hs hx y z)
      ⟨ideOf_setIde _ _ _, (((Same.refl s []).setIde _ _).put _ _ _).commit _⟩,
    fun s e v x y z h => ?_,
    fun s e v x a b hd hs ha hb => .of_effect rfl (kSetGo_whole hd hs ha hb)
      ⟨ideOf_setIde _ _ _, (((Same.refl s []).setIde _ _).put _ _ _).commit _⟩,
    fun s e v x hd hs hv hx ht => .of_effect rfl (kSetStop_used hd hs hx (ideLeave_active hv.1 ht))
      ⟨ideOf_setIde _ _ _, (ob_effect _ _ _ _).trans (by simp), ((((Same.refl s _).setIde _ _).setOb (by simp) _ _).put _ _ _).commit _⟩,
    fun s e v x hd hs hx => .of_effect rfl (kSetStop_unused hd hs hx)
      ⟨ideOf_setIde _ _ _, (((Same.refl s []).setIde _ _).put _ _ _).commit _⟩,
    fun s v hv ht => .of_effect rfl (ideLeave_active hv.1 ht)
      ⟨ideOf_setIde _ _ _, (ob_effect _ _ _ _).trans (by simp), (((Same.refl s _).setIde _ _).setOb (by simp) _ _).commit _⟩,
    fun s v ht => .of_effect rfl (ideLeave_inactive ht) ⟨ideOf_setIde _ _ _, ((Same.refl s []).setIde _ _).commit _⟩,
    fun s v hd => .of_effect rfl (tdisp_up hd v _) ⟨rfl, ((Same.refl s []).put _ _ _).commit _⟩,
    fun s v hd => .of_effect rfl (tdisp_up hd v _) ⟨rfl, ((Same.refl s []).put _ _ _).commit _⟩,
    fun s v hd ht hp hs _ => .of_effect rfl (lockInterface_ready hd ht hp hs)
      ⟨by simp, (((Same.refl s _).setOb (by simp) _ _).tdisp _ _).commit _⟩,
    fun s v hd h => .of_effect rfl ((lockInterface_refused hd h).trans (tdisp_up hd v _)) ⟨rfl, ((Same.refl s []).put _ _ _).commit _⟩,
    fun s v hd => .of_effect rfl (tdisp_up hd v _) ⟨rfl, ((Same.refl s []).put _ _ _).commit _⟩,
    fun s v hd => .of_effect rfl (tdisp_up hd v _) ⟨rfl, ((Same.refl s []).put _ _ _).commit _⟩,
    fun s v hd ht _ => .of_effect rfl (startInterface_locked hd ht)
      ⟨by simp, (((Same.refl s _).setOb (by simp) _ _).tdisp _ _).commit _⟩,
    fun s v hd ht => .of_effect rfl (startInterface_refused hd ht) (((Same.refl s []).tdisp _ _).commit _),
    fun s v hd _ => .of_effect rfl (stopInterface_up hd v)
      ⟨by simp, by simp [tdisp_pk, ringsStopped_enable], (((ringsStopped_same s v _).setOb (by simp) _ _).tdisp _ _).commit _⟩,
    fun s p v u x hr hl hk hp hx hb ht hu hd => ?_,
    fun s hr hk hp => .of_effect rfl (partitionPowerTick_no_tenant hr hk hp) ⟨rfl, rfl, (tickEnded_tickBegun_same s).commit _⟩,
    fun s h => .of_effect rfl (partitionPowerTick_idle h) ⟨rfl, (Same.refl s []).commit _⟩⟩
  · obtain ⟨security, same⟩ := keyProg_refused h y z
    exact .of_effect rfl rfl ⟨security, same.commit _⟩
  · obtain ⟨counts, queue, power, thermal, same⟩ := partitionPowerTick_served ⟨hl, hb, ht, hu, hd⟩ hr hk hp hx rfl
    exact .of_effect rfl rfl ⟨congrArg CountSt.powerK counts, congrArg CountSt.power counts, queue,
      host_any (by decide) (by simp [powerFields]) power, host_any (by decide) (by simp [thermalFields]) thermal, same.commit _⟩

end Sys2Proof.Machine
end

section
/-! Proofs. The uplink's standby: a switch to it moves the master of a device that takes FT on its uplink (R44, R181). -/

namespace Sys2Proof.Machine

open State

variable {s : State}

/-- A part that is locked or relocking when its master moves goes to HOLDOVER (R44). -/
theorem masterMoved_ftState {sd : Side} (h : s.ob sd O.FtState = 2 ∨ s.ob sd O.FtState = 4) : (s.masterMoved sd).ob sd O.FtState = 3 := by
  rw [masterMoved, if_pos h]
  exact (ftChange_spec sd 3 0 0 false _).st

/-- What leaves the Icdon IX40 with another master than before moves it (R44). -/
theorem keepMaster_moved {f : State → State} {l : Link} (hl : (f s).masterLink = some l) (hne : s.masterLink ≠ some l) (hm : s.tm.ic.master ≠ 0) :
    s.keepMaster f = (f s).masterMoved .icd := by
  have moved : ((f s).masterLink.isSome && (f s).masterLink != s.masterLink && s.tm.ic.master != 0) = true := by
    simp [hl, hm, Ne.symm hne]
  rw [keepMaster, if_pos moved]

/-- The lead of a Tray, LOCKED to a master on its uplink at port 3, which has lost its only wavelength; the standby uplink is port 4. -/
def lockedOnLostUplink : State :=
  { State.reset with
    cd := [(O.FtState, 2), (O.RoleActive, 1), (O.TwinState, 2)]
    tm := { State.reset.tm with pairUp := true, ic := { State.reset.tm.ic with master := 1 } }
    pk := { State.reset.pk with use := [(3, 3), (4, 4)], width := 1, dark := [(3, 1)] } }

/-- Refutes O25, in the clause of the standby uplink's switch: it has nothing change but the factor and the deferral of the two ports and one line driven, but the master moves to the standby uplink with the rest, and FT leaves LOCKED for HOLDOVER (R44). Counterexample: a switch at a Tray's lead that is LOCKED to a master on the uplink lost. -/
theorem not_moduleFaults : ¬ Obligations.ModuleFaults := by
  intro h
  unfold Obligations.ModuleFaults at h
  obtain ⟨-, -, -, switch, -⟩ := h
  obtain ⟨t, ht, -, -, -, same⟩ := switch lockedOnLostUplink 3 4 (by decide) (by decide) (by decide) (by decide) rfl (by decide) (by decide)
  have kept : t.i O.FtState = 2 := same.1 .icd O.FtState (by decide)
  obtain ⟨-, -, ran⟩ := run_spec (f := State.keepMaster State.standbySwitch) ht
  have before : lockedOnLostUplink.masterLink ≠ some (.port 4) := by decide
  have after : lockedOnLostUplink.standbySwitch.masterLink = some (.port 4) := by decide
  have locked : lockedOnLostUplink.standbySwitch.i O.FtState = 2 := by decide
  have holdover : t.i O.FtState = 3 := by
    rw [State.i, ran, keepMaster_moved after before (by decide)]
    exact masterMoved_ftState (.inl locked)
  simp [kept] at holdover

end Sys2Proof.Machine
end

section
/-! Proofs. What posting an event does to the sequence counters, to the conditions of R546 and to what has been sent (R13, R461, R462). -/

namespace Sys2Proof.Machine

/-- Posting an event numbers no record but error contexts, ends no condition of R546, and takes nothing back that was sent. -/
structure EventTrace (s t : State) : Prop where
  seq : ∀ ty, ty ≠ 0xF2 → t.seqOf .icd ty = s.seqOf .icd ty
  conds : ∀ c, 0x100 ≤ c → c ∈ s.ir.conds → c ∈ t.ir.conds
  out : ∀ o ∈ s.out, o ∈ t.out

namespace EventTrace

variable {s t u a b : State}

theorem refl (s : State) : EventTrace s s := ⟨fun _ _ => rfl, fun _ _ h => h, fun _ h => h⟩

theorem trans (f : EventTrace s t) (g : EventTrace t u) : EventTrace s u :=
  ⟨fun ty h => (g.seq ty h).trans (f.seq ty h), fun c h m => g.conds c h (f.conds c h m), fun o h => g.out o (f.out o h)⟩

theorem ite {p : Prop} [Decidable p] (ha : EventTrace s a) (hb : EventTrace s b) : EventTrace s (if p then a else b) := by
  split <;> assumption

/-- One more operation, or none. -/
theorem more {p : Prop} [Decidable p] (ha : EventTrace s a) (hb : EventTrace a b) : EventTrace s (if p then b else a) :=
  ite (ha.trans hb) ha

theorem setOb (s : State) (k v : Nat) : EventTrace s (s.setOb .icd k v) := ⟨fun _ _ => rfl, fun _ _ h => h, fun _ h => h⟩

theorem takeStamp (s : State) (fn : Nat) : EventTrace s (s.takeStamp .icd fn).2 := ⟨fun _ _ => rfl, fun _ _ h => h, fun _ h => h⟩

theorem put (s : State) (c : Chan) (i : Nat) (b : List Nat) : EventTrace s (s.put c i b) :=
  ⟨fun _ _ => rfl, fun _ _ h => h, fun _ h => List.mem_cons_of_mem _ h⟩

/-- The interrupt state may change in all but the conditions of R546 that hold. -/
theorem ir (s : State) {x : IrqSt} (h : ∀ c, 0x100 ≤ c → c ∈ s.ir.conds → c ∈ x.conds) : EventTrace s { s with ir := x } :=
  ⟨fun _ _ => rfl, h, fun _ h => h⟩

/-- The interrupt state may change with the conditions as they were. -/
theorem irq (s : State) {x : IrqSt} (h : x.conds = s.ir.conds := by rfl) : EventTrace s { s with ir := x } :=
  .ir s fun _ _ m => h ▸ m

theorem bumpSeq (s : State) : EventTrace s (s.bumpSeq .icd 0xF2) :=
  ⟨fun _ h => tgetD_tset_ne _ _ _ h, fun _ _ h => h, fun _ h => h⟩

end EventTrace

open EventTrace

section

variable (s : State)

theorem recAppendN_trace (sev eflags source nb : Nat) (r : Rec) : EventTrace s (s.recAppendN sev eflags source nb r) :=
  (takeStamp s fnRecorder).trans ((irq _).trans ((setOb _ _ _).trans (setOb _ _ _)))

theorem recSecond_trace : EventTrace s s.recSecond := by
  unfold State.recSecond
  exact .ite (.refl s) (.ite (irq s) ((irq s).trans (recAppendN_trace _ _ _ _ _ _)))

theorem recordN_trace (sev eflags source nb : Nat) (r : Rec) : EventTrace s (s.recordN sev eflags source nb r) := by
  unfold State.recordN
  exact (recSecond_trace s).trans (.ite ((setOb _ _ _).trans (irq _)) ((irq _).trans (recAppendN_trace _ _ _ _ _ _)))

theorem privDeliver_trace (core : Nat) : EventTrace s (s.privDeliver core) := by
  unfold State.privDeliver
  dsimp only
  split
  · exact .refl s
  · exact .ite (irq s) (.refl s)

theorem priv_trace (p detail : Nat) : EventTrace s (s.priv p detail) :=
  (irq s).trans ((setOb _ _ _).trans ((recordN_trace _ _ _ _ _ _).trans (privDeliver_trace _ _)))

/-- A privileged source is no condition of R546: its number is below theirs. -/
theorem privLevel_trace {p : Nat} (h : p < 0x100) (on : Bool) (detail : Nat) : EventTrace s (s.privLevel p on detail) := by
  have raised := ir s (x := { s.ir with conds := p :: s.ir.conds }) fun _ _ m => List.mem_cons_of_mem _ m
  have ended := ir s (x := { s.ir with conds := s.ir.conds.filter (· != p) }) fun c hc m =>
    List.mem_filter.2 ⟨m, bne_iff_ne.2 (by omega)⟩
  unfold State.privLevel
  exact .ite (.ite (.refl s) (raised.trans (priv_trace _ _ _))) ended

theorem queue0Check_trace : EventTrace s s.queue0Check := privLevel_trace s (by decide) _ _

theorem queueSignal_trace (q : Nat) (b : Bool) : EventTrace s (s.queueSignal q b) := by
  unfold State.queueSignal
  exact .ite (irq s) (.ite (put s _ _ _) (.refl s))

theorem postEntry_trace (q hdr stamp : Nat) (r : Rec) : EventTrace s (s.postEntry q hdr stamp r) :=
  (irq s).trans ((setOb _ _ _).trans (queueSignal_trace _ _ _))

theorem msgPost_trace (src q sv : Nat) (r : Rec) : EventTrace s (s.msgPost src q sv r) := by
  unfold State.msgPost
  exact .ite (.refl s) (.ite ((takeStamp s fnQueue).trans ((setOb _ _ _).trans (postEntry_trace _ _ _ _ _)))
    (.more (setOb s _ _) (setOb _ _ _)))

theorem ctxPost_trace (n ev : Nat) (c : ErrCtx) : EventTrace s (s.ctxPost n ev c) := by
  have formed := form_icd_of_not_digested s (show digestTypes.contains 0xF2 = false by decide) 4 0 0 (ctxFields n ev c)
  unfold State.ctxPost
  rw [formed]
  exact (bumpSeq s).trans ((msgPost_trace _ _ _ _ _).trans ((recordN_trace _ _ _ _ _ _).trans (queue0Check_trace _)))

theorem ctxCounts_trace : EventTrace s s.ctxCounts :=
  (setOb _ _ _).trans ((setOb _ _ _).trans (privLevel_trace _ (by decide) _ _))

theorem errorOn_trace (unit sev src : Nat) (r : Rec) : EventTrace s (s.errorOn unit sev src r) := by
  have stamped := takeStamp s fnContext
  unfold State.errorOn
  generalize s.takeStamp .icd fnContext = p at stamped ⊢
  obtain ⟨st, t⟩ := p
  refine stamped.trans (.trans ?_ (ctxCounts_trace _))
  dsimp only
  split
  · exact .ite ((irq t).trans (ctxPost_trace _ _ _ _)) (irq t)
  · split
    · exact (irq t).trans (ctxPost_trace _ _ _ _)
    · exact .ite (irq t) (.ite (irq t) ((recordN_trace t _ _ _ _ _).trans
        (.ite (.refl _) ((setOb _ _ _).trans ((recordN_trace _ _ _ _ _ _).trans (privLevel_trace _ (by decide) _ _))))))

theorem occur_trace (src : Nat) (sev : Option Nat) (r : Rec) : EventTrace s (s.occur src sev r) := by
  unfold State.occur
  exact .trans (.more (.more (msgPost_trace _ _ _ _ _) (errorOn_trace _ _ _ _ _)) (recordN_trace _ _ _ _ _ _)) (queue0Check_trace _)

theorem levelEntry_trace (src : Nat) (b : Bool) : EventTrace s (s.levelEntry src b) := by
  unfold State.levelEntry
  exact (takeStamp s fnQueue).trans
    (.trans (.more ((setOb _ _ _).trans (postEntry_trace _ _ _ _ _)) (recordN_trace _ _ _ _ _ _)) (queue0Check_trace _))

theorem levelPost_trace (src : Nat) (b : Bool) : EventTrace s (s.levelPost src b) := by
  unfold State.levelPost
  exact .more (.ite (setOb _ _ _) (.ite ((setOb _ _ _).trans (irq _)) ((setOb _ _ _).trans (levelEntry_trace _ _ _))))
    (errorOn_trace _ _ _ _ _)

/-- A condition of R546 that becomes true holds, beside those that held (R462). -/
theorem cond_true_trace {src : Nat} (h : 0x100 ≤ src) : src ∈ (s.cond src true).ir.conds ∧ EventTrace s (s.cond src true) := by
  by_cases was : src ∈ s.ir.conds
  · have kept : s.cond src true = s := by simp [State.cond, was]
    rw [kept]
    exact ⟨was, .refl s⟩
  · have added := ir s (x := { s.ir with conds := src :: s.ir.conds }) fun _ _ m => List.mem_cons_of_mem _ m
    have posted : EventTrace { s with ir := { s.ir with conds := src :: s.ir.conds } } (s.cond src true) := by
      rw [State.cond, if_pos ⟨rfl, by simpa using was⟩]
      exact .ite (levelPost_trace _ _ _) (.refl _)
    exact ⟨posted.conds src h (List.mem_cons_self ..), added.trans posted⟩

/-- What has been sent stands when a condition changes. -/
theorem cond_out {src : Nat} (h : 0x100 ≤ src) (b : Bool) : ∀ o ∈ s.out, o ∈ (s.cond src b).out := by
  cases b with
  | true => exact (cond_true_trace s h).2.out
  | false =>
    have same : (s.cond src false).out = s.out := by
      rw [State.cond, if_neg (by simp)]
      split <;> rfl
    simp [same]

end

end Sys2Proof.Machine
end

section
/-! Proofs. What a command that posts events leaves as it was, and what an alarm event does (R211, R459). -/

namespace Sys2Proof.Machine

open State

variable {s t u : State}

namespace State.Kept

variable {ks : List Nat}

theorem trans (a : State.Kept s t ks) (b : State.Kept t u ks) : State.Kept s u ks :=
  ⟨fun sd k h hk => (b.1 sd k h hk).trans (a.1 sd k h hk), b.2.1.trans a.2.1, b.2.2.trans a.2.2⟩

theorem of_same (a : State.Same s t ks) : State.Kept s t ks := ⟨fun sd k _ hk => a.1 sd k hk, a.2⟩

theorem weaken (a : State.Kept s t []) : State.Kept s t ks := ⟨fun sd k h _ => a.1 sd k h (by simp), a.2⟩

theorem of_event (f : EventFrame s t) (ks : List Nat) : State.Kept s t ks := by
  refine ⟨fun sd k h _ => ?_, f.me, by rw [f.gr]⟩
  cases sd with
  | hel => exact f.h k
  | icd => exact f.obj k h

/-- Nothing changes at the end of a command. -/
theorem commit (a : State.Kept s t ks) (p : List Instr) : State.Kept s ({ t with pending := p }).commit ks :=
  a.trans (.of_same ((Same.refl t ks).commit p))

end State.Kept

/-- Rules fired change nothing but the list of those that wait for the lead (R211). -/
def Fired (s t : State) : Prop := ∃ l, t = { s with gr := { s.gr with fired := l } }

theorem fireRules_fired (kind : Nat) (hit : Nat → Bool) (slot : Option Nat) (gid ref stamp due : Nat) (s : State) :
    Fired s (s.fireRules kind hit slot gid ref stamp due) := by
  refine List.foldlRecOn (motive := Fired s) _ _ ⟨s.gr.fired, rfl⟩ fun t fired r _ => ?_
  obtain ⟨l, rfl⟩ := fired
  dsimp only
  split
  · exact ⟨_, rfl⟩
  · exact ⟨l, rfl⟩

/-- What an alarm event does to the sequence of alarms and leaves as it was (R459). -/
structure Alarmed (s t : State) : Prop where
  seq : t.seqOf .icd 0xF3 = (s.seqOf .icd 0xF3 + 1) % 2 ^ 32
  pk : t.pk = s.pk
  xlink : t.tm.xlinkUp = s.tm.xlinkUp
  kept : State.Kept s t []

theorem EventFrame.xlink (f : EventFrame s t) : t.tm.xlinkUp = s.tm.xlinkUp := by
  obtain ⟨x, e⟩ := f.tm
  rw [e]

theorem iAlarm_alarmed (code sev unit detail : Nat) (s : State) : Alarmed s (s.iAlarm code sev unit detail) := by
  have stamped := EventFrame.takeStamp s fnRecord
  have numbered : (s.takeStamp .icd fnRecord).2.seqOf .icd 0xF3 = s.seqOf .icd 0xF3 := rfl
  unfold State.iAlarm
  generalize s.takeStamp .icd fnRecord = p at stamped numbered ⊢
  obtain ⟨stamp, a⟩ := p
  dsimp only at stamped numbered ⊢
  rw [form_icd_of_not_digested a (by decide)]
  generalize hb : a.bumpSeq .icd 0xF3 = b
  have formed : EventFrame a b := hb ▸ EventFrame.iSeq a _
  have bumped : b.seqOf .icd 0xF3 = (a.seqOf .icd 0xF3 + 1) % 2 ^ 32 := by rw [← hb]; exact tgetD_tset_self _ _ _ _
  generalize ho : b.occur (0x200 + code) (some sev) _ = c
  have posted : EventFrame b c := ho ▸ occur_frame _ _ _ _
  have told : c.seqOf .icd 0xF3 = b.seqOf .icd 0xF3 := ho ▸ (occur_trace _ _ _ _).seq 0xF3 (by decide)
  have frame := stamped.trans (formed.trans posted)
  have alarmed : ∀ t, Fired c t → Alarmed s t := by
    rintro t ⟨l, rfl⟩
    refine ⟨?_, frame.pk, frame.xlink, (State.Kept.of_event frame []).trans ⟨fun sd _ _ _ => by cases sd <;> rfl, rfl, rfl⟩⟩
    rw [← numbered, ← bumped]
    exact told
  exact alarmed _ (fireRules_fired _ _ _ _ _ _ _ _)

end Sys2Proof.Machine
end

section
/-! Proofs. Host rings: what a cadence does to a ring, what becomes of acknowledged descriptors, and the PCIe link (R188–R192, R203). -/

namespace Sys2Proof.Machine

open State

variable {s t : State} {c : RingCtl} {r : Ring} {ring pos n : Nat}

/-! ### The start of a cadence -/

/-- The multiple of RingCadence that FT has reached (R189). -/
def cadence (s : State) : Nat := s.ft .icd / ns (max 1 (s.i O.RingCadence))

/-- A fetch has begun: its cadence is taken, the host port is up, and nothing waits for it any more (R185, R189, R203). -/
def fetchBegun (s : State) : State :=
  let t := { s with pk := { s.pk with pcieUp := true, waiting := [], fetchAt := some (cadence s) } }
  if s.pk.pcieUp && s.i O.HostLinkSpeed != 0 then t else t.hostTrain

theorem hostTrain_same (s : State) : Same s s.hostTrain [O.HostLinkSpeed, O.HostLinkWidth] := by
  have drawn : ∀ n, Same s { s with freeCtr := n } [O.HostLinkSpeed, O.HostLinkWidth] := fun _ =>
    ⟨fun sd _ _ => by cases sd <;> rfl, rfl, rfl⟩
  exact ((drawn _).setOb (by simp) .icd _).setOb (by simp) .icd _

/-- A change of the package's own state changes no object. -/
theorem same_package (s : State) (x : PkgSt) (ks : List Nat) : Same s { s with pk := x } ks :=
  ⟨fun sd _ _ => by cases sd <;> rfl, rfl, rfl⟩

theorem fetchBegun_pk (s : State) : (fetchBegun s).pk = { s.pk with pcieUp := true, waiting := [], fetchAt := some (cadence s) } := by
  unfold fetchBegun; split <;> rfl

theorem fetchBegun_xlink (s : State) : (fetchBegun s).tm.xlinkUp = s.tm.xlinkUp := by
  unfold fetchBegun; split <;> rfl

theorem fetchBegun_seq (s : State) (ty : Nat) : (fetchBegun s).seqOf .icd ty = s.seqOf .icd ty := by
  unfold fetchBegun; split <;> rfl

theorem fetchBegun_same (s : State) : Same s (fetchBegun s) [O.HostLinkSpeed, O.HostLinkWidth] := by
  unfold fetchBegun
  split
  · exact same_package _ _ _
  · exact (same_package _ _ _).trans (hostTrain_same _)

theorem isLead_of_same {ks : List Nat} (h : Same s t ks) (hk : O.TwinState ∉ ks) : t.isLead = s.isLead := by
  have twin : t.i O.TwinState = s.i O.TwinState := h.1 .icd _ hk
  simp only [isLead, twin]

/-- A fetch that begins while the link is up with its speed known trains nothing (R185). -/
theorem fetchBegun_up (hu : s.pk.pcieUp = true) (hs : s.i O.HostLinkSpeed ≠ 0) :
    fetchBegun s = { s with pk := { s.pk with pcieUp := true, waiting := [], fetchAt := some (cadence s) } } := by
  simp [fetchBegun, hu, hs]

/-! ### A cadence -/

/-- Away from service, or at a multiple of RingCadence at which rings have been read, no ring is read (R189). -/
theorem ringFetch_idle (ctls : List RingCtl) (h : s.serving = false ∨ s.pk.fetchAt = some (cadence s)) : s.ringFetch ctls = s := by
  have idle : (!s.serving || s.pk.fetchAt == some (cadence s)) = true := by
    rcases h with h | h <;> simp [h]
  unfold State.ringFetch
  exact if_pos idle

/-- What a cadence does that reads one PF ring: the lead serves it and tells the shadow, which reads it for itself (R189, R192). -/
theorem ringFetch_pf (hs : s.serving = true) (hf : s.pk.fetchAt ≠ some (cadence s)) (hc : c.ring < 1024) (hn : c.ring < s.i O.PfRingCount) :
    s.ringFetch [c] =
      if !(fetchBegun s).isLead then (fetchBegun s).ringShadow c
      else
        let a := s.pk.waiting.foldl (fun s r => s.hostPost r) (fetchBegun s)
        let b := ((a.put .host 0x700 [a.i O.PfRingTable, 64 * a.i O.PfRingCount]).ringRead c).ringCond
        if b.tm.xlinkUp then b.xMsg 0x192 (b.pk.rings.flatMap fun p => [p.1, p.2.cons]) else b := by
  unfold State.ringFetch
  extract_lets k ok cs waiting up pk taken begun posted asked blocks told served a b
  have open_ : s.pk.fetchAt ≠ some k := hf
  have due : ¬ (!s.serving || s.pk.fetchAt == some k) = true := by simpa [hs] using open_
  have listed : cs = [c] := by simp [cs, ok, hc, hn, sortBy, insertBy]
  have noVf : blocks = [] := by simp [blocks, listed, hc]
  have quiet : told = asked := by simp [told, noVf]
  have read : served = b := by
    show (cs.foldl (fun s c => s.ringRead c) told).ringCond = b
    rw [listed, quiet]
    rfl
  rw [if_neg due, listed, read]
  rfl

/-- The lead alone, with nothing posted late, reads one PF ring (R189). -/
theorem ringFetch_lead (hl : s.isLead = true) (hs : s.serving = true) (hf : s.pk.fetchAt ≠ some (cadence s)) (hw : s.pk.waiting = [])
    (hc : c.ring < 1024) (hn : c.ring < s.i O.PfRingCount) {b : State}
    (hb : b = (((fetchBegun s).put .host 0x700 [(fetchBegun s).i O.PfRingTable, 64 * (fetchBegun s).i O.PfRingCount]).ringRead c).ringCond)
    (hx : b.tm.xlinkUp = false) : s.ringFetch [c] = b := by
  have lead : (fetchBegun s).isLead = true := (isLead_of_same (fetchBegun_same s) (by decide)).trans hl
  rw [ringFetch_pf hs hf hc hn, if_neg (by simp [lead]), hw]
  simp only [List.foldl_nil, ← hb, hx, Bool.false_eq_true, if_false]

/-- The shadow reads one PF ring (R192). -/
theorem ringFetch_shadow (hl : s.isLead = false) (hs : s.serving = true) (hf : s.pk.fetchAt ≠ some (cadence s))
    (hc : c.ring < 1024) (hn : c.ring < s.i O.PfRingCount) : s.ringFetch [c] = (fetchBegun s).ringShadow c := by
  have shadow : (fetchBegun s).isLead = false := (isLead_of_same (fetchBegun_same s) (by decide)).trans hl
  rw [ringFetch_pf hs hf hc hn, if_pos (by simp [shadow])]

/-! ### One ring at a cadence -/

theorem ringPost_eq {x : Ring} (h : tget s.pk.rings n = some x) :
    s.ringPost n = s.put .host (0x800 + n) [x.cons, (x.cprod + tgetD s.pk.complUsed n 0) % 2 ^ 32, b2n x.stopped] := by
  simp [ringPost, h]

/-- What a cadence makes of a ring: its entry, and the positions the lead has reached (R189, R191). -/
def ringKept (s : State) (n : Nat) (x : Ring) (acked : Tbl Nat) : State :=
  { s with pk := { s.pk with rings := tset s.pk.rings n x, complUsed := tdel s.pk.complUsed n, ackPos := acked } }

/-- A ring whose producer is more than a ring ahead is stopped where it stands (R189). -/
theorem ringRead_over (hr : tget s.pk.rings c.ring = some r) (he : c.enable = true) (hs : r.stopped = false)
    (hn : 2 ^ c.log2e < (c.prod + 2 ^ 32 - r.cons) % 2 ^ 32) :
    ∃ (x : Ring) (block : List Nat) (unit : Nat), x.stopped = true ∧ x.cons = r.cons ∧
      s.ringRead c = ((ringKept s c.ring x s.pk.ackPos).put .host (0x800 + c.ring) block).iAlarm 0x04B 2 0x0900 unit := by
  unfold State.ringRead
  extract_lets r0 cprod stopped n room read pk a b t
  have known : r0 = r := by simp [r0, tgetD, hr]
  have running : (!stopped) = true := by simp [stopped, known, hs]
  have ahead : 2 ^ c.log2e < n := by simpa only [n, known] using hn
  have posted : t = _ := ringPost_eq (tget_tset_self _ _ _)
  rw [if_pos ⟨he, running, ahead⟩, posted]
  have kept : r0.cons = r.cons := congrArg Ring.cons known
  exact ⟨{ read with stopped := true }, _, _, rfl, kept, rfl⟩

/-- Else the lead takes what is new, at most RingFetchMax, while the completion ring has room for it (R189, R191). -/
theorem ringRead_takes (hr : tget s.pk.rings c.ring = some r) (hu : tget s.pk.complUsed c.ring = none) (he : c.enable = true)
    (hs : r.stopped = false) (hn : (c.prod + 2 ^ 32 - r.cons) % 2 ^ 32 ≤ 2 ^ c.log2e) (hp : 0 < (c.prod + 2 ^ 32 - r.cons) % 2 ^ 32)
    (hcc : r.cprod = c.ccons) (hcp : r.cprod < 2 ^ 32) {most : Nat} (hm : s.i O.RingFetchMax = most) (hroom : most ≤ 2 ^ c.log2c) (hmax : 0 < most)
    (hx : s.tm.xlinkUp = false)
    (hpos : pos = (r.cons + min ((c.prod + 2 ^ 32 - r.cons) % 2 ^ 32) most) % 2 ^ 32) :
    ∃ x : Ring, x.cons = pos ∧
      s.ringRead c = (ringKept s c.ring x (tset s.pk.ackPos c.ring pos)).put .host (0x800 + c.ring) [pos, r.cprod, 0] := by
  unfold State.ringRead
  extract_lets r0 cprod stopped n room read pk a b t take cleared x u
  have known : r0 = r := by simp [r0, tgetD, hr]
  have running : stopped = false := by simp [stopped, known, hs]
  have within : ¬ 2 ^ c.log2e < n := by simpa only [n, known] using Nat.not_lt.2 hn
  have written : cprod = r.cprod := by
    simp only [cprod, known, tgetD, hu, Option.getD_none, Nat.add_zero, Nat.mod_eq_of_lt hcp]
  have empty : room = 2 ^ c.log2c := by
    simp only [room, written, hcc, Nat.add_sub_cancel_left, Nat.mod_self, Nat.sub_zero]
  have taken : take = min ((c.prod + 2 ^ 32 - r.cons) % 2 ^ 32) most := by
    have limit : a.i O.RingFetchMax = most := hm
    simp only [take, n, known, empty, running, limit, he, Bool.not_false, and_self, if_true, Nat.min_eq_left hroom]
  have reached : x.cons = pos := by
    show (r0.cons + take) % 2 ^ 32 = pos
    rw [known, taken, hpos]
  have moves : 0 < take := taken ▸ Nat.lt_min.2 ⟨hp, hmax⟩
  have posted : ringPost c.ring u = _ := ringPost_eq (tget_tset_self _ _ _)
  have acked : (if a.tm.xlinkUp then a.pk.ackPos else tset a.pk.ackPos c.ring x.cons) = tset s.pk.ackPos c.ring pos := by
    have alone : a.tm.xlinkUp = false := hx
    rw [alone, reached]
    rfl
  have kept : u = ringKept s c.ring x (tset s.pk.ackPos c.ring pos) := by
    simp only [u, acked]
    rfl
  have block : [x.cons, (x.cprod + tgetD u.pk.complUsed c.ring 0) % 2 ^ 32, b2n x.stopped] = [pos, r.cprod, 0] := by
    have fresh : tgetD u.pk.complUsed c.ring 0 = 0 := by
      show (tget (tdel s.pk.complUsed c.ring) c.ring).getD 0 = 0
      rw [tget_tdel_self]
      rfl
    have cons : x.cprod = r.cprod := written
    have runs : x.stopped = false := running
    rw [reached, fresh, cons, runs, Nat.add_zero, Nat.mod_eq_of_lt hcp]
    rfl
  rw [if_neg fun h => within h.2.2, if_pos (.inl moves), posted, block, kept]
  exact ⟨x, reached, rfl⟩

theorem mem_of_tget {α : Type} {k : Nat} {v : α} : ∀ {l : List (Nat × α)}, tget l k = some v → (k, v) ∈ l
  | [], h => by cases h
  | p :: l, h => by
    rw [tget_cons] at h
    split at h
    · next e => subst e; cases h; exact List.mem_cons_self ..
    · exact List.mem_cons_of_mem _ (mem_of_tget h)

/-- RING_STOPPED holds while a ring is STOPPED (R546). -/
theorem ringCond_stopped {x : Ring} (h : tget s.pk.rings n = some x) (hx : x.stopped = true) : s.ringCond = s.cond 0x14A true := by
  have any : (s.pk.rings.any fun p => p.2.stopped) = true := List.any_eq_true.2 ⟨_, mem_of_tget h, hx⟩
  rw [ringCond, any]

/-- What the lead has done at a cadence before it serves a ring: the fetch has begun, and the PF ring table is read in one request (R189). -/
def tableRead (s : State) : State :=
  (fetchBegun s).put .host 0x700 [(fetchBegun s).i O.PfRingTable, 64 * (fetchBegun s).i O.PfRingCount]

theorem tableRead_same (s : State) : Same s (tableRead s) [O.HostLinkSpeed, O.HostLinkWidth] := (fetchBegun_same s).put _ _ _

theorem tableRead_pk (s : State) : (tableRead s).pk = { s.pk with pcieUp := true, waiting := [], fetchAt := some (cadence s) } := fetchBegun_pk s

theorem ringKept_same {x : Ring} {acked : Tbl Nat} {ks : List Nat} (h : Same s t ks) : Same s (ringKept t n x acked) ks :=
  h.trans (same_package _ _ _)

/-- A ring too far ahead: STOPPED, with an alarm and RING_STOPPED (R189, R546). -/
theorem ringFetch_over (hl : s.isLead = true) (hs : s.serving = true) (hf : s.pk.fetchAt ≠ some (cadence s)) (hw : s.pk.waiting = [])
    (hx : s.tm.xlinkUp = false) (hc : c.ring < 1024) (hn : c.ring < s.i O.PfRingCount) (hr : tget s.pk.rings c.ring = some r)
    (he : c.enable = true) (hst : r.stopped = false) (hp : 2 ^ c.log2e < (c.prod + 2 ^ 32 - r.cons) % 2 ^ 32) (ht : t = s.ringFetch [c]) :
    ((tget t.pk.rings c.ring).map fun x => (x.stopped, x.cons)) = some (true, r.cons) ∧
      t.seqOf .icd 0xF3 = (s.seqOf .icd 0xF3 + 1) % 2 ^ 32 ∧ 0x14A ∈ t.ir.conds ∧ State.Kept s t [O.HostLinkSpeed, O.HostLinkWidth] := by
  have rings : tget (tableRead s).pk.rings c.ring = some r := by rw [tableRead_pk]; exact hr
  obtain ⟨x, block, unit, stopped, cons, read⟩ := ringRead_over rings he hst hp
  generalize hv : (ringKept (tableRead s) c.ring x (tableRead s).pk.ackPos).put .host (0x800 + c.ring) block = v at read
  have same : Same s v [O.HostLinkSpeed, O.HostLinkWidth] := hv ▸ (ringKept_same (tableRead_same s)).put _ _ _
  have alarmed := iAlarm_alarmed 0x04B 2 0x0900 unit v
  generalize v.iAlarm 0x04B 2 0x0900 unit = w at read alarmed
  have ring : tget w.pk.rings c.ring = some x := by rw [alarmed.pk, ← hv]; exact tget_tset_self _ _ _
  have frame := cond_frame w 0x14A true
  obtain ⟨holds, trace⟩ := cond_true_trace w (src := 0x14A) (by decide)
  have fetched : s.ringFetch [c] = w.cond 0x14A true := by
    refine ringFetch_lead hl hs hf hw hc hn ?_ ?_
    · rw [← ringCond_stopped ring stopped, ← read]
      rfl
    · rw [frame.xlink, alarmed.xlink, ← hv]
      exact (fetchBegun_xlink s).trans hx
  rw [ht, fetched]
  refine ⟨?_, ?_, holds, ((State.Kept.of_same same).trans alarmed.kept.weaken).trans (.of_event frame _)⟩
  · rw [frame.pk, ring, ← stopped, ← cons]
    rfl
  · rw [trace.seq 0xF3 (by decide), alarmed.seq, ← hv]
    exact congrArg (fun n => (n + 1) % 2 ^ 32) (fetchBegun_seq s 0xF3)

/-- Descriptors taken: CONSUMER moves on, the host is told, and without a shadow they are acknowledged at once (R188, R189, R192). -/
theorem ringFetch_takes (hl : s.isLead = true) (hs : s.serving = true) (hf : s.pk.fetchAt ≠ some (cadence s)) (hw : s.pk.waiting = [])
    (hx : s.tm.xlinkUp = false) (hc : c.ring < 1024) (hn : c.ring < s.i O.PfRingCount) (hr : tget s.pk.rings c.ring = some r)
    (hu : tget s.pk.complUsed c.ring = none) (he : c.enable = true) (hst : r.stopped = false) (hcc : r.cprod = c.ccons) (hcp : r.cprod < 2 ^ 32)
    (hroom : s.i O.RingFetchMax ≤ 2 ^ c.log2c) (hmax : 0 < s.i O.RingFetchMax) (hp : 0 < (c.prod + 2 ^ 32 - r.cons) % 2 ^ 32)
    (hlen : (c.prod + 2 ^ 32 - r.cons) % 2 ^ 32 ≤ 2 ^ c.log2e)
    (hpos : pos = (r.cons + min ((c.prod + 2 ^ 32 - r.cons) % 2 ^ 32) (s.i O.RingFetchMax)) % 2 ^ 32) (ht : t = s.ringFetch [c]) :
    ((tget t.pk.rings c.ring).map fun x => x.cons) = some pos ∧ tget t.pk.ackPos c.ring = some pos ∧ t.pk.pcieUp = true ∧
      ⟨.host, 0x800 + c.ring, [pos, r.cprod, 0]⟩ ∈ t.out ∧ State.Kept s t [O.HostLinkSpeed, O.HostLinkWidth] := by
  have before := tableRead_same s
  have most : (tableRead s).i O.RingFetchMax = s.i O.RingFetchMax := before.1 .icd _ (by decide)
  have alone : (tableRead s).tm.xlinkUp = false := (fetchBegun_xlink s).trans hx
  obtain ⟨x, cons, read⟩ := ringRead_takes (s := tableRead s) (by rw [tableRead_pk]; exact hr) (by rw [tableRead_pk]; exact hu) he hst hlen hp hcc hcp
    most hroom hmax alone hpos
  generalize hv : (ringKept (tableRead s) c.ring x (tset (tableRead s).pk.ackPos c.ring pos)).put .host (0x800 + c.ring) [pos, r.cprod, 0] = v at read
  have same : Same s v [O.HostLinkSpeed, O.HostLinkWidth] := hv ▸ (ringKept_same before).put _ _ _
  have told : ⟨.host, 0x800 + c.ring, [pos, r.cprod, 0]⟩ ∈ v.out := by
    rw [← hv]
    exact List.mem_cons_self ..
  have frame : EventFrame v v.ringCond := cond_frame _ _ _
  have fetched : s.ringFetch [c] = v.ringCond := by
    refine ringFetch_lead hl hs hf hw hc hn ?_ ?_
    · rw [← read]
      rfl
    · rw [frame.xlink, ← hv]
      exact alone
  rw [ht, fetched]
  refine ⟨?_, ?_, ?_, cond_out v (by decide) _ _ told, (State.Kept.of_same same).trans (.of_event frame _)⟩
  · rw [frame.pk, ← hv, ← cons]
    exact congrArg (Option.map _) (tget_tset_self _ _ _)
  · rw [frame.pk, ← hv]
    exact tget_tset_self _ _ _
  · rw [frame.pk, ← hv]
    show (tableRead s).pk.pcieUp = true
    rw [tableRead_pk]

/-- What the shadow keeps of a ring: the block as it reads it, and for CONSUMER the position it has acknowledged (R192). -/
theorem ringFetch_does_shadow (hs : s.serving = true) (hl : s.isLead = false) (hf : s.pk.fetchAt ≠ some (cadence s)) (hu : s.pk.pcieUp = true)
    (hv : s.i O.HostLinkSpeed ≠ 0) (hc : c.ring < 1024) (hn : c.ring < s.i O.PfRingCount) :
    Does (.ringFetch [c]) s fun t =>
      ((tget t.pk.rings c.ring).map fun x => (x.base, x.prod, x.cons)) =
        some (c.base, c.prod, tgetD s.pk.ackPos c.ring (tgetD s.pk.rings c.ring ring0).cons) ∧ t.out = s.out ∧ State.Same s t [] := by
  have read := ringFetch_shadow hl hs hf hc hn
  rw [fetchBegun_up hu hv] at read
  refine .of_effect rfl read ⟨?_, rfl, ((same_package s _ _).trans (same_package _ _ _)).commit _⟩
  exact congrArg (Option.map _) (tget_tset_self _ _ _)

/-! ### Acknowledged descriptors -/

/-- A position of a ring is acknowledged (R192). -/
def acknowledged (s : State) (ring pos : Nat) : State :=
  { s with pk := { s.pk with ackPos := tset s.pk.ackPos ring pos, unsaid := s.pk.unsaid.filter fun u => u.1 != ring, replay := false } }

/-- A descriptor that is no action completes at once (R190, R191). -/
theorem consumerAck_refused {d : Rec}
    (h : (if descAt (tgetD s.pk.ackPos ring 0) pos d then descBad (if 1024 ≤ ring then s.vfPart (ring - 1024) else 0) d else some stMalformed) = some n) :
    s.consumerAck ring pos [d] = (acknowledged s ring pos).complete ring (recFld d 160 32) false (no n) := by
  unfold State.consumerAck
  extract_lets old part pk after
  have refused : (if descAt old pos d then descBad part d else some stMalformed) = some n := h
  rw [List.foldl_cons, List.foldl_nil, refused]
  rfl

theorem ringPost_pk (s : State) (n : Nat) : (s.ringPost n).pk = s.pk := by
  unfold State.ringPost
  split <;> rfl

/-- What the lead's completion does to the package: one more completion used of the ring (R188). -/
theorem complete_pk (hl : s.isLead = true) (n tag : Nat) (b : Bool) (r : Res) :
    (s.complete n tag b r).pk = { s.pk with complUsed := tset s.pk.complUsed n (tgetD s.pk.complUsed n 0 + 1) } := by
  rw [State.complete, if_pos hl, form_icd_of_not_digested s (by decide)]
  exact ringPost_pk _ _

/-- A completion of a ring whose block the lead has not read leaves alone (R191). -/
theorem complete_out_unread (hl : s.isLead = true) (hn : tget s.pk.rings n = none) (tag : Nat) (b : Bool) (r : Res) :
    (s.complete n tag b r).out =
      ⟨.host, n, s.iRec 0x61 2 0 0 [(128, 32, tag), (160, 16, r.st), (176, 1, b2n (b || s.pk.replay)), (184, 8, r.cause), (192, 32, r.handle)]⟩ ::
      s.out := by
  simp only [State.complete, if_pos hl, form_icd_of_not_digested s (show digestTypes.contains 0x61 = false by decide)]
  simp [State.ringPost, State.bumpSeq, hn]

/-- What a completion that no action earned does at the lead (R188, R190, R191). -/
theorem consumerAck_does_refuse {d : Rec} (hl : s.isLead = true)
    (h : (if descAt (tgetD s.pk.ackPos ring 0) pos d then descBad (if 1024 ≤ ring then s.vfPart (ring - 1024) else 0) d else some stMalformed) = some n) :
    Does (.consumerAck ring pos [d]) s fun t =>
      t.out = (match tget s.pk.rings ring with
        | some r => [⟨.host, 0x800 + ring, [r.cons, (r.cprod + (tgetD s.pk.complUsed ring 0 + 1)) % 2 ^ 32, b2n r.stopped]⟩]
        | none => []) ++ ⟨.host, ring, s.iRec 0x61 2 0 0 [(128, 32, recFld d 160 32), (160, 16, n), (176, 1, 0), (184, 8, 0), (192, 32, 0)]⟩ :: s.out ∧
      tgetD t.pk.complUsed ring 0 = tgetD s.pk.complUsed ring 0 + 1 ∧ tget t.pk.ackPos ring = some pos ∧ State.Same s t [] := by
  have lead : (acknowledged s ring pos).isLead = true := hl
  have package := complete_pk lead ring (recFld d 160 32) false (no n)
  have same : Same s ((acknowledged s ring pos).complete ring (recFld d 160 32) false (no n)) [] :=
    (same_package s _ _).answered (complete_frame _ _ _ _ _)
  refine .of_effect rfl (consumerAck_refused h) ⟨?_, ?_, ?_, same.commit _⟩
  · cases read : tget s.pk.rings ring with
    | some r => exact complete_out lead read _ _ _
    | none => exact complete_out_unread lead read _ _ _
  · rw [commit_pk, package]
    exact tgetD_tset_self _ _ _ _
  · rw [commit_pk, package]
    exact tget_tset_self _ _ _

/-! ### The PCIe link -/

/-- A PCIe link that goes down reads speed and width 0 and leaves the rings (R203). -/
theorem pcieLinkDown_does (hu : s.pk.pcieUp = true) :
    Does (.pcieLinkDown) s fun t => t.pk.pcieUp = false ∧ t.i O.HostLinkSpeed = 0 ∧ t.i O.HostLinkWidth = 0 ∧ t.pk.rings = s.pk.rings ∧
      State.Kept s t [O.HostLinkSpeed, O.HostLinkWidth] := by
  have frame := occur_frame s 0x078 none []
  have rings : (s.occur 0x078 none []).pk.rings = s.pk.rings := congrArg PkgSt.rings frame.pk
  have down : s.pcieLinkDown = (s.occur 0x078 none []).pcieDown := if_pos hu
  have same : Same (s.occur 0x078 none []) (s.occur 0x078 none []).pcieDown [O.HostLinkSpeed, O.HostLinkWidth] :=
    ((same_package _ _ _).setOb (by simp) .icd 0).setOb (by simp) .icd 0
  exact .of_effect rfl down ⟨rfl, (ob_effect _ _ _ _).trans (by simp [pcieDown]), (ob_effect _ _ _ _).trans (by simp [pcieDown]), rings,
    ((State.Kept.of_event frame _).trans (.of_same same)).commit _⟩

/-- Settles O26: a cadence by what the lead or the shadow makes of one ring, an acknowledgement by the completion it owes, the link by what goes down with it. -/
theorem hostRings : Obligations.HostRings := by
  unfold Obligations.HostRings
  refine ⟨fun s ctls h => .of_effect rfl (ringFetch_idle ctls h) rfl,
    fun s c hs hl hf hu hv hc hn => ringFetch_does_shadow hs hl hf hu hv hc hn,
    fun s c r hl hs hf hw hx hc hn hr _ he hst hp => ?_,
    fun s c r hl hs hf hw hx hc hn hr hu he hst hcc hcp hroom hmax hp hlen => ?_,
    fun s ring pos => .of_effect rfl rfl ⟨rfl, rfl, (same_package s _ []).commit _⟩,
    fun s ring pos n d hl h => consumerAck_does_refuse hl h,
    fun s hu => pcieLinkDown_does hu,
    fun s hu => .of_effect rfl (if_neg (by simp [hu])) rfl⟩
  · obtain ⟨stopped, numbered, holds, kept⟩ := ringFetch_over hl hs hf hw hx hc hn hr he hst hp rfl
    exact .of_effect rfl rfl ⟨stopped, numbered, holds, kept.commit _⟩
  · obtain ⟨moved, acked, up, told, kept⟩ := ringFetch_takes hl hs hf hw hx hc hn hr hu he hst hcc hcp hroom hmax hp hlen rfl rfl
    exact .of_effect rfl rfl ⟨moved, acked, up, told, kept.commit _⟩

end Sys2Proof.Machine
end
